-- ==== Sys2Proof/Word.lean ====
section
/-!
DEFINITION. The word types of the machine: bits stay bit vectors, addresses and counts are natural
numbers.
-/

namespace Sys2Proof

/-- A byte of memory (00_scope.md R11). -/
abbrev Byte := BitVec 8

/-- An instruction word and a 32-bit register (01_instruction_words.md R16, R34). -/
abbrev Word := BitVec 32

/-- A 64-bit value of an even and odd register pair (01_instruction_words.md R35). -/
abbrev DWord := BitVec 64

/-- The 96 lanes of a warp (01_instruction_words.md R39) as one bit a lane. -/
abbrev LaneMask := BitVec 96

/-- A vector register: one word for each of the 96 lanes (01_instruction_words.md R34). -/
abbrev Lanes := Vector Word 96

end Sys2Proof
end

