-- ==== Sys2Proof/Machine/Float.lean ====
section
/-!
DEFINITION. Number formats and rounding (08_number_formats.md R180 to R194).  A finite value is an
exact integer times a power of two; every result is computed exactly, or bracketed with a sticky
mark, and rounded once.
-/

namespace Sys2Proof.Machine

/-- A binary format: exponent and mantissa bits (R180). -/
structure Fmt where
  eb : Nat
  mb : Nat
  deriving DecidableEq, Repr

namespace Fmt
def fp32 : Fmt := ⟨8, 23⟩
def bf16 : Fmt := ⟨8, 7⟩
def fp16 : Fmt := ⟨5, 10⟩
def e5m2 : Fmt := ⟨5, 2⟩

def bias (f : Fmt) : Nat := 2 ^ (f.eb - 1) - 1
/-- Exponent of the smallest normal. -/
def emin (f : Fmt) : Int := 1 - f.bias
/-- The pattern of +inf. -/
def inf (f : Fmt) : Nat := (2 ^ f.eb - 1) * 2 ^ f.mb
/-- The canonical NaN (R189). -/
def nan (f : Fmt) : Nat := f.inf + 2 ^ (f.mb - 1)
/-- The sign bit. -/
def sgn (f : Fmt) : Nat := 2 ^ (f.eb + f.mb)
end Fmt

/-- The five sticky flags of R190 by bit: invalid, divide-by-zero, overflow, underflow, inexact. -/
abbrev Flags := BitVec 5

def flInvalid : Flags := 1
def flDivZero : Flags := 2
def flOverflow : Flags := 4
def flUnderflow : Flags := 8
def flInexact : Flags := 16

/-- A pattern read as a value (R181): zero is `num neg 0 _`. -/
inductive FVal where
  | nan (signalling : Bool)
  | inf (neg : Bool)
  | num (neg : Bool) (m : Nat) (e : Int)
  deriving DecidableEq, Repr

/-- The value of a pattern (R180, R181, R189). -/
def unpack (f : Fmt) (bits : Nat) : FVal :=
  let neg := bits / f.sgn % 2 == 1
  let e := bits / 2 ^ f.mb % 2 ^ f.eb
  let m := bits % 2 ^ f.mb
  if e = 2 ^ f.eb - 1 then
    if m = 0 then .inf neg else .nan (m < 2 ^ (f.mb - 1))
  else if e = 0 then .num neg m (f.emin - f.mb)
  else .num neg (m + 2 ^ f.mb) (f.emin - f.mb + (e - 1))

namespace FVal

def isNan : FVal → Bool
  | .nan _ => true
  | _ => false

def isSnan : FVal → Bool
  | .nan s => s
  | _ => false

def isZero : FVal → Bool
  | .num _ m _ => m == 0
  | _ => false

def neg : FVal → FVal
  | .nan s => .nan s
  | .inf n => .inf (!n)
  | .num n m e => .num (!n) m e

def isNeg : FVal → Bool
  | .nan _ => false
  | .inf n => n
  | .num n _ _ => n

/-- The signed integer of a finite value in units of 2^e', for e' at most its exponent. -/
def scaled (e' : Int) : FVal → Int
  | .num n m e => let v : Int := (m * 2 ^ (e - e').toNat : Nat); if n then -v else v
  | _ => 0

def exp : FVal → Int
  | .num _ _ e => e
  | _ => 0

end FVal

/-- Rounding modes, coded as in R27 and R188. -/
inductive RMode where
  | rne | rtz | rdn | rup | rna
  deriving DecidableEq, Repr

/-- The mode of an RND code (R188); 0 and codes above 5 read as RNE. -/
def RMode.ofCode : Nat → RMode
  | 2 => .rtz
  | 3 => .rdn
  | 4 => .rup
  | 5 => .rna
  | _ => .rne

/-- Whether a magnitude truncated to an integer rounds up: `odd` its last bit, `cmp` the discarded
part against one half, `exact` when nothing is discarded (R188). -/
def roundsUp (mode : RMode) (neg odd : Bool) (cmp : Ordering) (exact : Bool) : Bool :=
  !exact && match mode with
    | .rne => cmp == .gt || (cmp == .eq && odd)
    | .rtz => false
    | .rdn => neg
    | .rup => !neg
    | .rna => cmp != .lt

/-- `m / 2^sh` rounded to an integer, with whether it is inexact; `sticky` adds a part below the
last bit of `m`. -/
def roundShift (mode : RMode) (neg : Bool) (m sh : Nat) (sticky : Bool) : Nat × Bool :=
  let t := m / 2 ^ sh
  let r := m % 2 ^ sh
  let cmp := if sh = 0 then .lt
    else match compare r (2 ^ (sh - 1)) with
      | .eq => if sticky then .gt else .eq
      | c => c
  let exact := r == 0 && !sticky
  (if roundsUp mode neg (t % 2 == 1) cmp exact then t + 1 else t, !exact)

/-- Rounding of the magnitude `m * 2^e` (and a part below its last bit when `sticky`) with sign `neg`
into a format, with its flags (R188, R190).  A zero keeps the sign given. -/
def roundMag (f : Fmt) (mode : RMode) (neg : Bool) (m : Nat) (e : Int) (sticky : Bool) : Nat × Flags :=
  let sg := if neg then f.sgn else 0
  if m = 0 && !sticky then (sg, 0)
  else
    let top : Int := e + Nat.log2 m
    let q := max (top - f.mb) (f.emin - f.mb)
    let (r, inexact) :=
      if q ≤ e then (m * 2 ^ (e - q).toNat, sticky) else roundShift mode neg m (q - e).toNat sticky
    let bits := (q - (f.emin - f.mb)).toNat * 2 ^ f.mb + r
    if f.inf ≤ bits then
      let toInf := match mode with
        | .rne | .rna => true
        | .rtz => false
        | .rdn => neg
        | .rup => !neg
      (sg + (if toInf then f.inf else f.inf - 1), flOverflow ||| flInexact)
    else
      (sg + bits, (if inexact then flInexact else 0) ||| (if inexact && top < f.emin then flUnderflow else 0))

/-- Rounding of the exact integer `n` in units of 2^e; an exact zero is +0, or -0 under RDN (R188). -/
def roundInt (f : Fmt) (mode : RMode) (n : Int) (e : Int) : Nat × Flags :=
  if n = 0 then ((if mode = .rdn then f.sgn else 0), 0)
  else roundMag f mode (n < 0) n.natAbs e false

/-- Invalid when an operand is a signalling NaN (R189, R190). -/
def snanFlag (vs : List FVal) : Flags := if vs.any FVal.isSnan then flInvalid else 0

/-- A rounded sum of two values (R188, R189, R190). -/
def fAdd (f : Fmt) (mode : RMode) (a b : FVal) : Nat × Flags :=
  let sn := snanFlag [a, b]
  match a, b with
  | .nan _, _ => (f.nan, sn)
  | _, .nan _ => (f.nan, sn)
  | .inf x, .inf y => if x = y then (f.inf + (if x then f.sgn else 0), 0) else (f.nan, flInvalid)
  | .inf x, _ => (f.inf + (if x then f.sgn else 0), 0)
  | _, .inf y => (f.inf + (if y then f.sgn else 0), 0)
  | .num x m e, .num y n e' =>
    if m = 0 && n = 0 && x = y then ((if x then f.sgn else 0), 0)
    else
      let k := min e e'
      roundInt f mode (a.scaled k + b.scaled k) k

/-- A rounded product (R188, R189, R190). -/
def fMul (f : Fmt) (mode : RMode) (a b : FVal) : Nat × Flags :=
  let sn := snanFlag [a, b]
  let sg (x y : Bool) := if xor x y then f.sgn else 0
  match a, b with
  | .nan _, _ => (f.nan, sn)
  | _, .nan _ => (f.nan, sn)
  | .inf x, b => if b.isZero then (f.nan, flInvalid) else (f.inf + sg x b.isNeg, 0)
  | a, .inf y => if a.isZero then (f.nan, flInvalid) else (f.inf + sg a.isNeg y, 0)
  | .num x m e, .num y n e' => roundMag f mode (xor x y) (m * n) (e + e') false

/-- The exact product of two values, kept as a value of unbounded precision; invalid for 0 x inf. -/
def fProd (a b : FVal) : FVal × Bool :=
  match a, b with
  | .nan _, _ => (.nan false, false)
  | _, .nan _ => (.nan false, false)
  | .inf x, b => if b.isZero then (.nan false, true) else (.inf (xor x b.isNeg), false)
  | a, .inf y => if a.isZero then (.nan false, true) else (.inf (xor a.isNeg y), false)
  | .num x m e, .num y n e' => (.num (xor x y) (m * n) (e + e'), false)

/-- A fused multiply-add `a * b + c`, rounded once (R188, R255).
DEDUCED, log entry 49. -/
def fFma (f : Fmt) (mode : RMode) (a b c : FVal) : Nat × Flags :=
  let sn := snanFlag [a, b, c]
  let (p, bad) := fProd a b
  let (r, fl) := fAdd f mode p c
  if bad then (f.nan, if a.isNan || b.isNan || c.isNan then sn else flInvalid)
  else (r, fl ||| sn)

/-- The order key of a value: −0 stands below +0 (R153). -/
def fLess (a b : FVal) : Bool :=
  match a, b with
  | .inf x, .inf y => x && !y
  | .inf x, _ => x
  | _, .inf y => !y
  | .num x m e, .num y n e' =>
    let k := min e e'
    let u := a.scaled k
    let v := b.scaled k
    u < v || (u == v && m == 0 && n == 0 && x && !y)
  | _, _ => false

/-- Numeric order, −0 = +0 (R253). -/
def fCmp (a b : FVal) : Option Ordering :=
  match a, b with
  | .nan _, _ => none
  | _, .nan _ => none
  | .inf x, .inf y => some (if x = y then .eq else if x then .lt else .gt)
  | .inf x, _ => some (if x then .lt else .gt)
  | _, .inf y => some (if y then .gt else .lt)
  | .num _ _ e, .num _ _ e' =>
    let k := min e e'
    some (compare (a.scaled k) (b.scaled k))

/-- Minimum or maximum of two patterns (R153, R189). -/
def fMinMax (f : Fmt) (isMax : Bool) (x y : Nat) : Nat × Flags :=
  let a := unpack f x
  let b := unpack f y
  let sn := snanFlag [a, b]
  if a.isNan && b.isNan then (f.nan, sn)
  else if a.isNan then (y, sn)
  else if b.isNan then (x, sn)
  else (if fLess a b == isMax then y else x, sn)

/-- The whole part of a value rounded by a mode, with whether it is inexact. -/
def fToInt (mode : RMode) : FVal → Int × Bool
  | .num n m e =>
    if 0 ≤ e then
      let v : Int := (m * 2 ^ e.toNat : Nat)
      (if n then -v else v, false)
    else
      let (r, ix) := roundShift mode n m (-e).toNat false
      (if n then -(r : Int) else r, ix)
  | _ => (0, false)

/-- Conversion of a value times 2^sc to an integer between `lo` and `hi`, saturating (R190, R254). -/
def fToRange (mode : RMode) (lo hi : Int) (sc : Int) (a : FVal) : Int × Flags :=
  match a with
  | .nan _ => (0, flInvalid)
  | .inf n => (if n then lo else hi, flInvalid)
  | .num n m e =>
    let (r, ix) := fToInt mode (.num n m (e + sc))
    if r < lo then (lo, flInvalid)
    else if hi < r then (hi, flInvalid)
    else (r, if ix then flInexact else 0)

/-- A value converted into a format, rounded (R181, R188). -/
def fConv (f : Fmt) (mode : RMode) (a : FVal) : Nat × Flags :=
  match a with
  | .nan s => (f.nan, if s then flInvalid else 0)
  | .inf n => (f.inf + (if n then f.sgn else 0), 0)
  | .num n m e => roundMag f mode n m e false

/-- A value rounded to an integral value of its own format (VFRND, R255). -/
def fRound (f : Fmt) (mode : RMode) (bits : Nat) : Nat × Flags :=
  match unpack f bits with
  | .nan s => (f.nan, if s then flInvalid else 0)
  | .inf _ => (bits, 0)
  | .num n m e =>
    let (r, _) := fToInt mode (.num n m e)
    ((roundMag f .rne n r.natAbs 0 false).1, 0)

/-- Integer square root by bits: the largest r below 2^k with r * r ≤ n. -/
def isqrtBits (n : Nat) : Nat → Nat → Nat
  | 0, r => r
  | k + 1, r => isqrtBits n k (if (r + 2 ^ k) * (r + 2 ^ k) ≤ n then r + 2 ^ k else r)

/-- The square root of `m * 2^e` (e even) with at least 40 bits, and whether it is inexact. -/
def sqrtMag (m : Nat) (e : Int) : Nat × Int × Bool :=
  let e' := if e % 2 = 0 then e else e - 1
  let m' := m * 2 ^ (e - e').toNat
  let n := m' * 2 ^ 128
  let r := isqrtBits n (Nat.log2 n / 2 + 1) 0
  (r, e' / 2 - 64, r * r != n)

/-- A quotient of magnitudes `m * 2^e / (n * 2^e')` with at least 64 bits, and whether it is inexact. -/
def divMag (m : Nat) (e : Int) (n : Nat) (e' : Int) : Nat × Int × Bool :=
  let sh := 64 + Nat.log2 n
  (m * 2 ^ sh / n, e - e' - sh, m * 2 ^ sh % n != 0)

/-- A rounded quotient, as the factor unit forms it (R289, R291). -/
def fDiv (f : Fmt) (mode : RMode) (a b : FVal) : Nat :=
  let sg (x y : Bool) := if xor x y then f.sgn else 0
  match a, b with
  | .nan _, _ => f.nan
  | _, .nan _ => f.nan
  | .inf _, .inf _ => f.nan
  | .inf x, b => f.inf + sg x b.isNeg
  | a, .inf y => sg a.isNeg y
  | .num x m e, .num y n e' =>
    if n = 0 then (if m = 0 then f.nan else f.inf + sg x y)
    else
      let (q, k, st) := divMag m e n e'
      (roundMag f mode (xor x y) q k st).1

/-- A rounded square root of a nonnegative exact value (R13 cr_sqrt). -/
def fSqrtMag (f : Fmt) (m : Nat) (e : Int) : Nat × Flags :=
  if m = 0 then (0, 0)
  else
    let (r, k, st) := sqrtMag m e
    roundMag f .rne false r k st

/-! Special functions (R192, R193), rounded RNE.  The transcendental ones are computed with 256
fraction bits; their results are exact only where the code says so, so a sticky part is added. -/

/-- ln 2 and log2 e in units of 2^-256. -/
def ln2Fix : Nat := 80260960185991308862233904206310070533990667611589946606122867505419956976171
def log2eFix : Nat := 167052672916848388242985626561247531987276682633131050150846402744536260568207

/-- The Taylor series of exp at y * 2^-256, from term `t` of index `k` on. -/
def expSeries (y : Nat) : Nat → Nat → Nat → Nat
  | 0, _, _ => 0
  | fuel + 1, k, t => t + expSeries y fuel (k + 1) (t * y / 2 ^ 256 / (k + 1))

/-- 2^f in units of 2^-256, for f in units of 2^-256 below 1. -/
def exp2Frac (f : Nat) : Nat := expSeries (f * ln2Fix / 2 ^ 256) 70 0 (2 ^ 256)

/-- The series of atanh at z * 2^-256: sum of z^(2k+1) / (2k+1). -/
def atanhSeries (z2 : Nat) : Nat → Nat → Nat → Nat
  | 0, _, _ => 0
  | fuel + 1, k, t => t / (2 * k + 1) + atanhSeries z2 fuel (k + 1) (t * z2 / 2 ^ 256)

/-- log2 of m * 2^-n for 2^n ≤ m < 2^(n+1), in units of 2^-256. -/
def log2Frac (m n : Nat) : Nat :=
  let z := (m - 2 ^ n) * 2 ^ 256 / (m + 2 ^ n)
  2 * atanhSeries (z * z / 2 ^ 256) 90 0 z * log2eFix / 2 ^ 256

/-- 2^x for a finite x (R192, R193). -/
def exp2Num (n : Bool) (m : Nat) (e : Int) : Nat × Flags :=
  if m = 0 then (0x3F800000, 0)
  else if 8 ≤ e + Nat.log2 m then
    if n then roundMag .fp32 .rne false 1 (-400) true else roundMag .fp32 .rne false 1 400 true
  else
    let x : Int := if n then -(m : Int) else m
    -- x * 2^256 as an integer; e is never below -149
    let fx := x * (2 ^ (256 + e).toNat : Nat)
    let i := fx / (2 ^ 256 : Nat)
    let fr := (fx % (2 ^ 256 : Nat)).toNat
    if fr = 0 then roundMag .fp32 .rne false 1 i false
    else roundMag .fp32 .rne false (exp2Frac fr) (i - 256) true

/-- log2 of a positive finite value (R192, R193). -/
def log2Num (m : Nat) (e : Int) : Nat × Flags :=
  let n := Nat.log2 m
  let i := e + n
  if m = 2 ^ n then
    if i = 0 then (0, 0) else roundMag .fp32 .rne (i < 0) i.natAbs 0 false
  else
    let v : Int := i * (2 ^ 256 : Nat) + log2Frac m n
    roundMag .fp32 .rne (v < 0) v.natAbs (-256) true

/-- tanh of a nonzero finite value (R192, R193). -/
def tanhNum (n : Bool) (m : Nat) (e : Int) : Nat × Flags :=
  let top := e + Nat.log2 m
  if top < -40 then roundMag .fp32 .rne n (m * 2 ^ 128 - 1) (e - 128) true
  else if 6 ≤ top then roundMag .fp32 .rne n (2 ^ 64 - 1) (-64) true
  else
    -- y = 2 |x| log2 e in units of 2^-256, and t = 2^-y
    let y := m * 2 ^ (257 + e).toNat * log2eFix / 2 ^ 256
    let i := y / 2 ^ 256
    let fr := y % 2 ^ 256
    let t := if fr = 0 then 2 ^ 256 / 2 ^ i else exp2Frac (2 ^ 256 - fr) / 2 ^ (i + 1)
    roundMag .fp32 .rne n ((2 ^ 256 - t) * 2 ^ 256 / (2 ^ 256 + t)) (-256) true

def sfSign (n : Bool) : Nat := if n then 0x80000000 else 0

/-- VRCP (R193). -/
def sfRcp (x : Nat) : Nat × Flags :=
  match unpack .fp32 x with
  | .nan s => (Fmt.fp32.nan, if s then flInvalid else 0)
  | .inf n => (sfSign n, 0)
  | .num n m e =>
    if m = 0 then (0x7F800000 + sfSign n, flDivZero)
    else
      let (q, k, st) := divMag 1 0 m e
      roundMag .fp32 .rne n q k st

/-- VRSQ (R193). -/
def sfRsq (x : Nat) : Nat × Flags :=
  match unpack .fp32 x with
  | .nan s => (Fmt.fp32.nan, if s then flInvalid else 0)
  | .inf n => if n then (Fmt.fp32.nan, flInvalid) else (0, 0)
  | .num n m e =>
    if m = 0 then (0x7F800000 + sfSign n, flDivZero)
    else if n then (Fmt.fp32.nan, flInvalid)
    else
      -- 1 / sqrt(m 2^e') for even e': the root of 2^256 / m
      let e' := if e % 2 = 0 then e else e - 1
      let m' := m * 2 ^ (e - e').toNat
      let r := isqrtBits (2 ^ 256 / m') 129 0
      roundMag .fp32 .rne false r (-128 - e' / 2) (r * r * m' != 2 ^ 256)

/-- VSQRT (R193). -/
def sfSqrt (x : Nat) : Nat × Flags :=
  match unpack .fp32 x with
  | .nan s => (Fmt.fp32.nan, if s then flInvalid else 0)
  | .inf n => if n then (Fmt.fp32.nan, flInvalid) else (x, 0)
  | .num n m e =>
    if m = 0 then (x, 0)
    else if n then (Fmt.fp32.nan, flInvalid)
    else fSqrtMag .fp32 m e

/-- VLOG2 (R193). -/
def sfLog2 (x : Nat) : Nat × Flags :=
  match unpack .fp32 x with
  | .nan s => (Fmt.fp32.nan, if s then flInvalid else 0)
  | .inf n => if n then (Fmt.fp32.nan, flInvalid) else (x, 0)
  | .num n m e =>
    if m = 0 then (0xFF800000, flDivZero)
    else if n then (Fmt.fp32.nan, flInvalid)
    else log2Num m e

/-- VEX2 (R193). -/
def sfEx2 (x : Nat) : Nat × Flags :=
  match unpack .fp32 x with
  | .nan s => (Fmt.fp32.nan, if s then flInvalid else 0)
  | .inf n => (if n then 0 else 0x7F800000, 0)
  | .num n m e => exp2Num n m e

/-- VTANH (R193). -/
def sfTanh (x : Nat) : Nat × Flags :=
  match unpack .fp32 x with
  | .nan s => (Fmt.fp32.nan, if s then flInvalid else 0)
  | .inf n => (0x3F800000 + sfSign n, 0)
  | .num n m e => if m = 0 then (x, 0) else tanhNum n m e

/-- VHYP (R193). -/
def sfHyp (x y : Nat) : Nat × Flags :=
  let a := unpack .fp32 x
  let b := unpack .fp32 y
  let sn := snanFlag [a, b]
  match a, b with
  | .inf _, _ => (0x7F800000, sn)
  | _, .inf _ => (0x7F800000, sn)
  | .nan _, _ => (Fmt.fp32.nan, sn)
  | _, .nan _ => (Fmt.fp32.nan, sn)
  | .num _ _ e, .num _ _ e' =>
    let k := min e e'
    let u := (a.scaled k).natAbs
    let v := (b.scaled k).natAbs
    fSqrtMag .fp32 (u * u + v * v) (2 * k)

/-- VEX2S: three roundings (R194). -/
def sfEx2s (a b c : Nat) : Nat × Flags :=
  let (t, f1) := fAdd .fp32 .rne (unpack .fp32 a) (unpack .fp32 b).neg
  let (u, f2) := fMul .fp32 .rne (unpack .fp32 t) (unpack .fp32 c)
  let (d, f3) := sfEx2 u
  (d, f1 ||| f2 ||| f3)

end Sys2Proof.Machine
end

