-- ==== Sys2Proof/Config.lean ====
section
/-!
DEFINITION. What an implementation or the world outside fixes and the manual leaves open: free
values, which nothing can evaluate.
-/

namespace Sys2Proof

/-- A byte the module receives from a host or a peer device through a fabric window
(18_host_and_peers.md R354), drawn in turn.
DESIGN CHOICE, log entry 1. -/
opaque Config.freeByte : Nat → Byte

/-- The companion record of a peer device's bundle, read at its home (05_bundles.md R116, R128): what a draw finds
under a name in side metadata, byte by byte.
DESIGN CHOICE, log entry 21. -/
opaque Config.peerRecord : Nat → Word → Nat → Byte

/-- The hash that spreads flows over the ports (18_host_and_peers.md R353): a warp's accesses to a target device.
DESIGN CHOICE, log entry 21. -/
opaque Config.spread : Nat → Nat → Nat

/-- What the sensors of a die show in TJ, 0, and POWER, 1, of PWR_STAT at a device time (18_host_and_peers.md R358).
DESIGN CHOICE, log entry 53. -/
opaque Config.sensor : Nat → Nat → Nat → Nat

/-- What a v register of a warp that has just started holds (11_register_tree.md R230), drawn in turn.
DESIGN CHOICE, log entry 1. -/
opaque Config.freeWord : Nat → Word

end Sys2Proof
end

