-- ==== Sys2Proof/Syntax.lean ====
section
/-!
DEFINITION. The instructions and events of the machine: one constructor for each row of
spec/opcode_table.json.  The first 177 rows are instruction words (01_instruction_words.md R40);
the others are the indivisible steps of the engines, homes, queue engines and ports around the
warps, those that only a timer, a register write or the outside world starts standing last.  A field keeps the name it has in the table.  The chain bit C of a word stands beside the
instruction (Decode.lean), a literal word (R25) stands inside the operand that reads it.
-/

namespace Sys2Proof

/-- A source specifier of R36, with the literal word of R25 in place of 0xFF. -/
inductive Src where
  /-- `0x00`-`0x7F`: v0-v127. -/
  | v (n : BitVec 7)
  /-- `0x80`-`0xBF`: s0-s63. -/
  | s (n : BitVec 6)
  /-- `0xC0`-`0xC7`: q0-q7. -/
  | q (n : BitVec 3)
  /-- `0xC8`-`0xD7`: b0-b15. -/
  | b (n : BitVec 4)
  /-- `0xD8`-`0xDF`: k0-k7. -/
  | k (n : BitVec 3)
  /-- `0xE0`-`0xE7`: g0-g7. -/
  | g (n : BitVec 3)
  /-- `0xE8`-`0xEF`: the specials of R37. -/
  | special (n : BitVec 3)
  /-- `0xF0`-`0xFE`: the inline constants of R37; 15 is not one. -/
  | const (n : BitVec 4)
  /-- `0xFF`: the literal word. -/
  | lit (w : Word)
  deriving DecidableEq, Repr

/-- Where an inbound frame of the fabric comes from (18_host_and_peers.md R350, R351): its port, the sender's device
number and incarnation, and its flow when that is one of reliable ordered delivery. -/
structure Sender where
  port : Nat
  device : Nat := 0
  inc : Nat := 0
  flow : Option Nat := none
  deriving DecidableEq, Repr

/-- What a CARRY frame asks of a line's home (R111, R351): a reservation, one given back, and a delivery into it or
PLAIN. -/
inductive CarryAsk where
  | reserve | release | deliver | plain
  deriving DecidableEq, Repr

/-- A CARRY frame: what it asks, and with which OP of a descriptor (R109, R351). -/
structure CarryReq where
  ask : CarryAsk
  code : Nat
  deriving DecidableEq, Repr

/-- An instruction or an event of the machine. -/
inductive Instr where
  /-- VADD (R252): Per-lane 32-bit wrapping add. -/
  | vadd (d : BitVec 7) (a : Src) (b : Src)
  /-- VSUB (R252): Per-lane 32-bit wrapping subtract. -/
  | vsub (d : BitVec 7) (a : Src) (b : Src)
  /-- VADDS (R252): Per-lane signed saturating add. -/
  | vadds (d : BitVec 7) (a : Src) (b : Src)
  /-- VSUBS (R252): Per-lane signed saturating subtract. -/
  | vsubs (d : BitVec 7) (a : Src) (b : Src)
  /-- VMUL (R252): Per-lane low 32 bits of the product. -/
  | vmul (d : BitVec 7) (a : Src) (b : Src)
  /-- VMULH (R252): Per-lane signed high 32 bits of the product. -/
  | vmulh (d : BitVec 7) (a : Src) (b : Src)
  /-- VMULHU (R252): Per-lane unsigned high 32 bits of the product. -/
  | vmulhu (d : BitVec 7) (a : Src) (b : Src)
  /-- VMAD (R252): Per-lane integer multiply-add with the fourth operand as addend. -/
  | vmad (d : BitVec 7) (a : Src) (b : Src)
  /-- VAND (R252): Per-lane bitwise AND. -/
  | vand (d : BitVec 7) (a : Src) (b : Src)
  /-- VANDN (R252): Per-lane a AND NOT b. -/
  | vandn (d : BitVec 7) (a : Src) (b : Src)
  /-- VOR (R252): Per-lane bitwise OR. -/
  | vor (d : BitVec 7) (a : Src) (b : Src)
  /-- VXOR (R252): Per-lane bitwise XOR. -/
  | vxor (d : BitVec 7) (a : Src) (b : Src)
  /-- VSHL (R252): Per-lane shift left. -/
  | vshl (d : BitVec 7) (a : Src) (b : Src)
  /-- VSHR (R252): Per-lane logical shift right. -/
  | vshr (d : BitVec 7) (a : Src) (b : Src)
  /-- VSAR (R252): Per-lane arithmetic shift right. -/
  | vsar (d : BitVec 7) (a : Src) (b : Src)
  /-- VROL (R252): Per-lane rotate left. -/
  | vrol (d : BitVec 7) (a : Src) (b : Src)
  /-- VMIN (R252): Per-lane signed minimum. -/
  | vmin (d : BitVec 7) (a : Src) (b : Src)
  /-- VMAX (R252): Per-lane signed maximum. -/
  | vmax (d : BitVec 7) (a : Src) (b : Src)
  /-- VMINU (R252): Per-lane unsigned minimum. -/
  | vminu (d : BitVec 7) (a : Src) (b : Src)
  /-- VMAXU (R252): Per-lane unsigned maximum. -/
  | vmaxu (d : BitVec 7) (a : Src) (b : Src)
  /-- VICMP (R253): Integer compare writing one bit per lane into a mask triple. -/
  | vicmp (t : BitVec 5) (k : BitVec 3) (a : Src) (b : Src)
  /-- VFCMP (R253): FP32 compare writing one bit per lane into a mask triple. -/
  | vfcmp (t : BitVec 5) (k : BitVec 3) (a : Src) (b : Src)
  /-- VPOPC (R252): Per-lane population count. -/
  | vpopc (d : BitVec 7) (a : Src)
  /-- VCLZ (R252): Per-lane count of leading zeros. -/
  | vclz (d : BitVec 7) (a : Src)
  /-- VBREV (R252): Per-lane bit reversal. -/
  | vbrev (d : BitVec 7) (a : Src)
  /-- VCTZ (R252): Per-lane count of trailing zeros. -/
  | vctz (d : BitVec 7) (a : Src)
  /-- VMOV (R252): Per-lane move. -/
  | vmov (d : BitVec 7) (a : Src)
  /-- VNOT (R252): Per-lane bitwise NOT. -/
  | vnot (d : BitVec 7) (a : Src)
  /-- VCVT (R254): Per-lane conversion selected by the code in B. -/
  | vcvt (d : BitVec 7) (a : Src) (e : BitVec 8)
  /-- VFADD (R255): Per-lane FP32 add rounded once. -/
  | vfadd (d : BitVec 7) (a : Src) (b : Src)
  /-- VFSUB (R255): Per-lane FP32 subtract. -/
  | vfsub (d : BitVec 7) (a : Src) (b : Src)
  /-- VFMUL (R255): Per-lane FP32 multiply. -/
  | vfmul (d : BitVec 7) (a : Src) (b : Src)
  /-- VFSCL (R255): Per-lane FP32 scaling by a power of two. -/
  | vfscl (d : BitVec 7) (a : Src) (b : Src)
  /-- VFMA (R255): Per-lane fused a*b+c. -/
  | vfma (d : BitVec 7) (a : Src) (b : Src)
  /-- VFMS (R255): Per-lane fused a*b-c. -/
  | vfms (d : BitVec 7) (a : Src) (b : Src)
  /-- VFNMA (R255): Per-lane fused -(a*b)+c. -/
  | vfnma (d : BitVec 7) (a : Src) (b : Src)
  /-- VFNMS (R255): Per-lane fused -(a*b)-c. -/
  | vfnms (d : BitVec 7) (a : Src) (b : Src)
  /-- VFMIN (R255): Per-lane FP32 minimum with NaN rules. -/
  | vfmin (d : BitVec 7) (a : Src) (b : Src)
  /-- VFMAX (R255): Per-lane FP32 maximum with NaN rules. -/
  | vfmax (d : BitVec 7) (a : Src) (b : Src)
  /-- VFABS (R255): Per-lane clearing of the sign bit. -/
  | vfabs (d : BitVec 7) (a : Src)
  /-- VFNEG (R255): Per-lane inversion of the sign bit. -/
  | vfneg (d : BitVec 7) (a : Src)
  /-- VFRND (R255): Per-lane rounding to an integral FP32 value. -/
  | vfrnd (d : BitVec 7) (a : Src)
  /-- VFFRC (R255): Per-lane fractional part. -/
  | vffrc (d : BitVec 7) (a : Src)
  /-- VH2FMA (R255): Per-lane packed FP16 fused multiply-add. -/
  | vh2fma (d : BitVec 7) (a : Src) (b : Src)
  /-- VB2FMA (R255): Per-lane packed BF16 fused multiply-add. -/
  | vb2fma (d : BitVec 7) (a : Src) (b : Src)
  /-- VRCP (R257): Correctly rounded reciprocal on the SFU. -/
  | vrcp (d : BitVec 7) (a : Src)
  /-- VRSQ (R257): Correctly rounded reciprocal square root on the SFU. -/
  | vrsq (d : BitVec 7) (a : Src)
  /-- VSQRT (R257): Correctly rounded square root on the SFU. -/
  | vsqrt (d : BitVec 7) (a : Src)
  /-- VLOG2 (R257): Correctly rounded log2 on the SFU. -/
  | vlog2 (d : BitVec 7) (a : Src)
  /-- VEX2 (R257): Correctly rounded exp2 on the SFU. -/
  | vex2 (d : BitVec 7) (a : Src)
  /-- VTANH (R257): Correctly rounded tanh on the SFU. -/
  | vtanh (d : BitVec 7) (a : Src)
  /-- VEX2S (R194): Scaled exponential in three roundings on the SFU. -/
  | vex2s (d : BitVec 7) (a : Src) (b : Src)
  /-- VHYP (R257): Correctly rounded hypot on the SFU. -/
  | vhyp (d : BitVec 7) (a : Src) (b : Src)
  /-- VSHFL (R258): Lane shuffle by index. -/
  | vshfl (d : BitVec 7) (a : Src) (b : Src)
  /-- VSHFX (R258): Lane shuffle by XOR of the lane index. -/
  | vshfx (d : BitVec 7) (a : Src) (b : Src)
  /-- VMTOV (R259): Mask triple bits to per-lane 0 or 1. -/
  | vmtov (d : BitVec 7) (t : BitVec 8)
  /-- VVTOM (R259): Per-lane nonzero test into a mask triple. -/
  | vvtom (t : BitVec 7) (a : Src)
  /-- SADD (R261): Scalar wrapping add. -/
  | sadd (d : BitVec 6) (a : Src) (b : Src)
  /-- SSUB (R261): Scalar wrapping subtract. -/
  | ssub (d : BitVec 6) (a : Src) (b : Src)
  /-- SMUL (R261): Scalar low product. -/
  | smul (d : BitVec 6) (a : Src) (b : Src)
  /-- SMULHU (R261): Scalar unsigned high product. -/
  | smulhu (d : BitVec 6) (a : Src) (b : Src)
  /-- SAND (R261): Scalar AND. -/
  | sand (d : BitVec 6) (a : Src) (b : Src)
  /-- SANDN (R261): Scalar a AND NOT b. -/
  | sandn (d : BitVec 6) (a : Src) (b : Src)
  /-- SOR (R261): Scalar OR. -/
  | sor (d : BitVec 6) (a : Src) (b : Src)
  /-- SXOR (R261): Scalar XOR. -/
  | sxor (d : BitVec 6) (a : Src) (b : Src)
  /-- SSHL (R261): Scalar shift left. -/
  | sshl (d : BitVec 6) (a : Src) (b : Src)
  /-- SSHR (R261): Scalar logical shift right. -/
  | sshr (d : BitVec 6) (a : Src) (b : Src)
  /-- SSAR (R261): Scalar arithmetic shift right. -/
  | ssar (d : BitVec 6) (a : Src) (b : Src)
  /-- SROL (R261): Scalar rotate left. -/
  | srol (d : BitVec 6) (a : Src) (b : Src)
  /-- SMIN (R261): Scalar signed minimum. -/
  | smin (d : BitVec 6) (a : Src) (b : Src)
  /-- SMAX (R261): Scalar signed maximum. -/
  | smax (d : BitVec 6) (a : Src) (b : Src)
  /-- SMOV (R261): Scalar move. -/
  | smov (d : BitVec 6) (a : Src)
  /-- SNOT (R261): Scalar NOT. -/
  | snot (d : BitVec 6) (a : Src)
  /-- SCMP (R262): Scalar integer compare writing 0 or 1. -/
  | scmp (t : BitVec 5) (k : BitVec 3) (a : Src) (b : Src)
  /-- SPOPC (R261): Scalar population count. -/
  | spopc (d : BitVec 6) (a : Src)
  /-- SCLZ (R261): Scalar count of leading zeros. -/
  | sclz (d : BitVec 6) (a : Src)
  /-- SADD64 (R263): Scalar 64-bit add into a register pair. -/
  | sadd64 (d : BitVec 6) (a : Src) (b : Src)
  /-- SSUB64 (R263): Scalar 64-bit subtract into a register pair. -/
  | ssub64 (d : BitVec 6) (a : Src) (b : Src)
  /-- SMCNT (R264): Count of set bits of a mask triple. -/
  | smcnt (d : BitVec 6) (a : BitVec 8)
  /-- SMFST (R264): Lowest set lane of a mask triple. -/
  | smfst (d : BitVec 6) (a : BitVec 8)
  /-- SBFX (R265): Scalar bit-field extract. -/
  | sbfx (d : BitVec 6) (a : Src) (b : Src)
  /-- SBFI (R265): Scalar bit-field insert. -/
  | sbfi (d : BitVec 6) (a : Src) (b : Src)
  /-- SRD (R267): Read a warp special register. -/
  | srd (d : BitVec 6) (n : BitVec 8)
  /-- SWR (R267): Write a warp special register. -/
  | swr (n : BitVec 6) (b : Src)
  /-- SFADD (R266): Scalar FP32 add setting scalar flags. -/
  | sfadd (d : BitVec 6) (a : Src) (b : Src)
  /-- SFMUL (R266): Scalar FP32 multiply setting scalar flags. -/
  | sfmul (d : BitVec 6) (a : Src) (b : Src)
  /-- PUT (R238): Contribute to a register of a wider scope under agreement or a reduction. -/
  | put (m : BitVec 4) (d : Src) (s : Src)
  /-- XCHG (R246): Exchange a vector register with a named peer warp at a rendezvous. -/
  | xchg (d : BitVec 7) (a : Src) (b : Src)
  /-- BRA (R302): Branch of the running split on a condition. -/
  | bra (k : BitVec 4) (r : BitVec 6) (o : BitVec 14)
  /-- BDIV (R303): Divergent branch pushing RECONV and SPLIT entries. -/
  | bdiv (r : BitVec 6) (o : BitVec 14) (lit : Word)
  /-- JOIN (R304): Reconverge by popping matching stack entries. -/
  | join
  /-- CALL (R309): Relative call storing the return address in s60:s61. -/
  | call (o : BitVec 22)
  /-- CALLI (R309): Indirect call through an s register pair. -/
  | calli (a : Src)
  /-- RET (R309): Return to s60:s61. -/
  | ret
  /-- BRI (R309): Indirect branch through an s register pair. -/
  | bri (a : Src)
  /-- EXIT (R310): Exit the running lanes, resuming parked entries or retiring the warp. -/
  | exit
  /-- NOP (R307): Do nothing. -/
  | nop
  /-- YIELD (R307): Become youngest for issue and rotate a pending split. -/
  | yield
  /-- BAR_SYNC (R241): Arrive at the block barrier and wait for the phase. -/
  | barSync
  /-- BAR_ARRIVE (R241): Arrive at the block barrier without waiting. -/
  | barArrive
  /-- CBAR (R241): Arrive at the cluster barrier and wait. -/
  | cbar
  /-- GBAR (R241): Arrive at the grid barrier of a cooperative grid and wait. -/
  | gbar
  /-- MBINIT (R229): Initialise a barrier object. -/
  | mbinit (l : BitVec 1) (n : Src) (a : Src)
  /-- MBARR (R229): Make n arrivals on a barrier object. -/
  | mbarr (l : BitVec 1) (n : Src) (a : Src)
  /-- MBARX (R229): Put bytes on a barrier object and hold one arrival against them. -/
  | mbarx (l : BitVec 1) (n : Src) (a : Src)
  /-- MBWAIT (R229): Wait until the barrier object's phase differs from the parity. -/
  | mbwait (l : BitVec 1) (p : Src) (a : Src)
  /-- MBTEST (R229): Test a barrier object's phase into an s register. -/
  | mbtest (l : BitVec 1) (d : BitVec 6) (p : Src) (a : Src)
  /-- WAITC (R146): Wait until named in-flight counters fall to a threshold. -/
  | waitc (v : BitVec 1) (w : BitVec 1) (s : BitVec 1) (g : BitVec 1) (t : Src)
  /-- FENCE (R179): Order the warp's accesses at a scope without a location. -/
  | fence (o : BitVec 2) (s : BitVec 3)
  /-- QWAIT (R327): Pop a record from a SOFTWARE queue, waiting while it is empty. -/
  | qwait (d : BitVec 6) (q : Src)
  /-- VLD (R149): Vector load from a generic address. -/
  | vld (o : BitVec 2) (s : BitVec 3) (w : BitVec 3) (d : Src) (a : Src)
  /-- VLDO (R149): Vector load with a literal byte offset. -/
  | vldo (o : BitVec 2) (s : BitVec 3) (w : BitVec 3) (d : Src) (a : Src) (lit : Word)
  /-- VST (R150): Vector store to a generic address. -/
  | vst (o : BitVec 2) (s : BitVec 3) (w : BitVec 3) (d : Src) (a : Src)
  /-- VSTO (R150): Vector store with a literal byte offset. -/
  | vsto (o : BitVec 2) (s : BitVec 3) (w : BitVec 3) (d : Src) (a : Src) (lit : Word)
  /-- SLD (R149): Scalar load with a literal offset. -/
  | sld (o : BitVec 2) (s : BitVec 3) (w : BitVec 3) (d : Src) (a : Src) (lit : Word)
  /-- SST (R150): Scalar store with a literal offset. -/
  | sst (o : BitVec 2) (s : BitVec 3) (w : BitVec 3) (d : Src) (a : Src) (lit : Word)
  /-- LDSP (R149): Load from the block's own scratchpad by offset. -/
  | ldsp (o : BitVec 2) (s : BitVec 3) (w : BitVec 3) (d : Src) (a : Src)
  /-- STSP (R150): Store to the block's own scratchpad by offset. -/
  | stsp (o : BitVec 2) (s : BitVec 3) (w : BitVec 3) (d : Src) (a : Src)
  /-- VATOM (R154): Vector atomic operation, returning or non-returning. -/
  | vatom (o : BitVec 2) (s : BitVec 3) (w : BitVec 1) (f : BitVec 4) (d : BitVec 7) (p : BitVec 6) (n : BitVec 1)
  /-- VCAS (R155): Vector compare-and-swap. -/
  | vcas (o : BitVec 2) (s : BitVec 3) (w : BitVec 1) (d : BitVec 7) (p : BitVec 6)
  /-- SATOM (R154): Scalar atomic operation acting once. -/
  | satom (o : BitVec 2) (s : BitVec 3) (w : BitVec 1) (f : BitVec 4) (d : BitVec 6) (p : BitVec 6) (n : BitVec 1)
  /-- SCAS (R155): Scalar compare-and-swap. -/
  | scas (o : BitVec 2) (s : BitVec 3) (w : BitVec 1) (d : BitVec 6) (p : BitVec 6)
  /-- LDCL (R149): Load through a scratchpad or cluster-shared pointer. -/
  | ldcl (o : BitVec 2) (s : BitVec 3) (w : BitVec 3) (d : Src) (a : Src)
  /-- STCL (R150): Store through a scratchpad or cluster-shared pointer. -/
  | stcl (o : BitVec 2) (s : BitVec 3) (w : BitVec 3) (d : Src) (a : Src)
  /-- SPTEST (R158): Classify a generic pointer per lane. -/
  | sptest (d : BitVec 7) (a : Src)
  /-- SPCAST (R158): Convert between scratchpad offsets and pointer kinds per lane. -/
  | spcast (d : BitVec 7) (a : Src) (m : BitVec 8)
  /-- CACHE_PF (R87): Prefetch every line of a virtual range. -/
  | cachePf (l : Src) (a : Src)
  /-- CACHE_WB (R87): Write back every line of a virtual range. -/
  | cacheWb (l : Src) (a : Src)
  /-- CACHE_INV (R87): Discard every cached copy of a virtual range. -/
  | cacheInv (l : Src) (a : Src)
  /-- CACHE_WBINV (R87): Write back then discard every line of a virtual range. -/
  | cacheWbinv (l : Src) (a : Src)
  /-- LDLV (R106): Load a whole line at its home with a version token. -/
  | ldlv (d : BitVec 7) (t : Src) (a : Src)
  /-- CMST (R108): Conditionally store up to four lines of one slice against tokens. -/
  | cmst (o : BitVec 2) (s : BitVec 3) (t : Src) (d : Src)
  /-- BOPEN (R123): Open a store bundle for the warp. -/
  | bopen (d : Src)
  /-- BCLOSE (R124): Commit the warp's open bundle. -/
  | bclose (o : BitVec 2) (s : BitVec 3) (t : Src)
  /-- VSTB (R126): Stage stores into the open bundle. -/
  | vstb (w : BitVec 3) (d : Src) (a : Src)
  /-- VOPEN (R130): Open a view, discarding any previous one. -/
  | vopen
  /-- VCLOSE (R130): Close the view and report its status. -/
  | vclose (s : Src)
  /-- VLDV (R131): Load through the warp's view. -/
  | vldv (o : BitVec 2) (s : BitVec 3) (w : BitVec 3) (d : Src) (a : Src)
  /-- TCOPY (R207): Copy memory to a canonical scratchpad tile. -/
  | tcopy (a : BitVec 6) (b : BitVec 6) (d : BitVec 6) (t : BitVec 1)
  /-- TCOPYO (R209): Copy scratchpad rows to memory, narrowing. -/
  | tcopyo (a : BitVec 6) (b : BitVec 6) (d : BitVec 6) (t : BitVec 1)
  /-- TGATHER (R211): Gather a head's vectors through a block table into a tile. -/
  | tgather (a : BitVec 6) (b : BitVec 6) (d : BitVec 6) (t : BitVec 1)
  /-- TCOW (R213): Copy a shared block on write so the entry names a block of count 1. -/
  | tcow (a : BitVec 6) (b : BitVec 6) (d : BitVec 6) (t : BitVec 1)
  /-- CSTEP (R111): Push a tile as Carry updates to named peers. -/
  | cstep (p : BitVec 1) (s : BitVec 2) (a : BitVec 6) (b : BitVec 6) (d : BitVec 6) (t : BitVec 1)
  /-- SPALLOC (R221): Allocate zeroed scratchpad rows with a lifetime. -/
  | spalloc (d : BitVec 6) (s : BitVec 6) (l : BitVec 6) (x : BitVec 1)
  /-- SPFREE (R221): Free a scratchpad allocation. -/
  | spfree (o : BitVec 6)
  /-- SPRENEW (R221): Restore an allocation's rows and renew its expiry. -/
  | sprenew (o : BitVec 6) (l : BitVec 6)
  /-- SPSTAT (R222): Report an allocation's state and time left. -/
  | spstat (d : BitVec 6) (o : BitVec 6)
  /-- CRPUSH (R327): Push a record from scratchpad into a DEVICE queue. -/
  | crpush (o : BitVec 6) (q : BitVec 6) (s : BitVec 6)
  /-- JDEC (R327): Decrement a join object, pushing its successor at zero. -/
  | jdec (p : BitVec 6) (n : BitVec 6) (d : BitVec 6)
  /-- MMA (R277): Multiply A and B tiles and accumulate into a tile. -/
  | mma (a : BitVec 3) (n : BitVec 1) (p : BitVec 1) (x : BitVec 6) (y : BitVec 6) (k : BitVec 6)
  /-- MMASP (R278): Multiply a 2:4-sparse A by B and accumulate. -/
  | mmasp (a : BitVec 3) (n : BitVec 1) (p : BitVec 1) (x : BitVec 6) (y : BitVec 6) (k : BitVec 6)
  /-- ACLD (R283): Load an accumulator tile from its scratchpad image. -/
  | acld (a : BitVec 3) (o : Src) (b : Src)
  /-- ACST (R283): Store an accumulator tile to its scratchpad image. -/
  | acst (a : BitVec 3) (o : Src) (b : Src)
  /-- ACRD (R284): Read four tile columns into vector registers. -/
  | acrd (a : BitVec 3) (v : BitVec 8) (k : Src)
  /-- ACWR (R284): Write four tile columns from vector registers. -/
  | acwr (a : BitVec 3) (v : BitVec 8) (k : Src)
  /-- FTUPD (R291): Absorb a vector into the Cholesky factor by rotation. -/
  | ftupd (t : BitVec 1) (v : Src)
  /-- FTDND (R291): Remove a vector from the factor, refusing on loss of definiteness. -/
  | ftdnd (t : BitVec 1) (v : Src)
  /-- FTSLVF (R292): Forward substitution with the factor. -/
  | ftslvf (t : BitVec 1) (v : Src) (o : Src)
  /-- FTSLVB (R292): Backward substitution with the factor's transpose. -/
  | ftslvb (t : BitVec 1) (v : Src) (o : Src)
  /-- FTLD (R294): Load a factor tile from a packed scratchpad image. -/
  | ftld (t : BitVec 1) (v : Src) (o : Src)
  /-- FTST (R294): Store a factor tile as a packed scratchpad image. -/
  | ftst (t : BitVec 1) (v : Src) (o : Src)
  /-- FTINIT (R290): Start a diagonal factor of order n. -/
  | ftinit (t : BitVec 1) (v : Src) (o : Src)
  /-- FTROW (R290): Read column k of the factor into a vector register. -/
  | ftrow (t : BitVec 1) (v : Src) (o : Src)
  /-- TRAP (R337): Enter the handler with TRAPI and a code. -/
  | trap (k : Src)
  /-- BRK (R337): Enter the handler with BREAK. -/
  | brk
  /-- SRET (R339): Resume a stopped warp, optionally replaying a load or stepping. -/
  | sret (f : Src) (s : Src)
  /-- SKILL (R340): End the halted block. -/
  | skill
  /-- XRD (R341): Read an item of a stopped warp. -/
  | xrd (s : BitVec 6) (l : Src) (i : Src)
  /-- XWR (R341): Write an item of a stopped warp. -/
  | xwr (s : BitVec 6) (l : Src) (i : Src)
  /-- CSRR (R342): Read a privileged register. -/
  | csrr (s : BitVec 6) (n : BitVec 8)
  /-- CSRW (R342): Write a privileged register that has no row of its own. -/
  | csrw (s : BitVec 6) (n : BitVec 8)
  /-- TLBI_ALL (R64): Invalidate every translation of the module. -/
  | tlbiAll
  /-- TLBI_REGION (R64): Invalidate every translation of one region. -/
  | tlbiRegion (r : Src)
  /-- TLBI_PAGE (R64): Invalidate translations of one region covering a virtual address. -/
  | tlbiPage (z : BitVec 2) (r : Src) (a : Src)
  /-- TLBI_PAGEALL (R64): Invalidate translations of every region covering a virtual address. -/
  | tlbiPageall (z : BitVec 2) (a : Src)
  /-- VPFX (R28): Prefix giving mask, zeroing, rounding and fourth operand to the next vector word. -/
  | vpfx (m : BitVec 6) (z : BitVec 1) (r : BitVec 3) (o : Src)
  /-- DPAIR (R29): Expand one or two dictionary entries in place. -/
  | dpair (p : BitVec 1) (a : BitVec 10) (b : BitVec 10)
  /-- DICTIONARY_LOAD (R31): Load of a 4 KiB dictionary image into a dictionary RAM at block start. -/
  | dictionaryLoad (blk : Nat)
  /-- LOAD_DATA_RETURN (R149): Arrival of load or returning-atomic data, writing destinations and leaving counters in order. -/
  | loadDataReturn (fl : Nat)
  /-- STORE_ACK (R144): Arrival of a store acknowledgment, updating LEASEMAX and the store table. -/
  | storeAck (fl : Nat)
  /-- RELEASE_PROCEED (R165): A waiting release is performed once earlier accesses are acknowledged and device time passes LEASEMAX. -/
  | releaseProceed (fl : Nat)
  /-- SFU_RESULT_WRITE (R257): An SFU subgroup result is written and its flags set. -/
  | sfuResultWrite (core : Nat)
  /-- TLB_MISS_WALK (R61): A miss in both TLBs starts or joins a page walk, or waits in the miss queue. -/
  | tlbMissWalk (fl : Nat) (req : Nat)
  /-- WALK_COMPLETE (R61): A walk ends, filling TLBs or raising XLATE or PROT for its waiters. -/
  | walkComplete (walk : Nat)
  /-- TLBI_ACK (R64): TLBI acknowledgment once selected walks and accesses are done. -/
  | tlbiAck (fl : Nat)
  /-- HOME_LOAD_MISS_CORE (R80): Home serves a load miss from a core of its die. -/
  | homeLoadMissCore (fl : Nat) (req : Nat)
  /-- HOME_LOAD_MISS_REMOTE (R93): Home serves a load miss from another die, granting S with a lease. -/
  | homeLoadMissRemote (fl : Nat) (req : Nat)
  /-- HOME_OWNERSHIP_MISS (R80): Home serves a store or ownership miss from a core. -/
  | homeOwnershipMiss (fl : Nat) (req : Nat)
  /-- HOME_REMOTE_WRITE (R97): Home performs a store, atomic or CMST line from another die at the slice. -/
  | homeRemoteWrite (fl : Nat) (req : Nat)
  /-- HOME_ATOMIC (R156): Home performs an atomic that is not folded or owned locally. -/
  | homeAtomic (fl : Nat) (req : Nat)
  /-- HOME_CARRY_REQUEST (R80): Home grants C at identity for a Carry operation. -/
  | homeCarryRequest (fl : Nat) (req : Nat)
  /-- HOME_WRITEBACK (R81): Home takes a dirty write-back or an evicted Carry partial, of a die where the holder's
  first part is true and else of a core. -/
  | homeWriteback (holder : Bool × Nat) (line : Nat)
  /-- CARRY_COLLECT (R99): A holder answers a collect with its partial and drops the line. -/
  | carryCollect (isDie : Bool) (agent : Nat) (line : Nat)
  /-- FORWARD (R80): An owner receives a forward and supplies data, changing its state. -/
  | forward (core : Nat) (line : Nat) (toI : Bool)
  /-- INVALIDATION (R80): An agent receives an invalidation or recall and acknowledges it. -/
  | invalidation (core : Nat) (line : Nat)
  /-- LEASE_REVOCATION (R95): A die drops revoked leased copies and acknowledges. -/
  | leaseRevocation (die : Nat) (line : Nat)
  /-- REDIRECT (R74): Requester receives REDIRECT, updates domain copy and replays. -/
  | redirect (fl : Nat) (req : Nat)
  /-- DRAIN_REQUEST (R167): A core answers a remote-scope drain after its W acknowledgments and lease wait. -/
  | drainRequest (core : Nat) (fl : Nat)
  /-- LDLV_AT_HOME (R106): Home reads a line and its token as one transaction. -/
  | ldlvAtHome (fl : Nat)
  /-- CMST_AT_HOME (R108): Home checks tokens and writes all lines or none. -/
  | cmstAtHome (fl : Nat)
  /-- BUNDLE_STAGING (R119): Home forms or extends a staged copy, or answers CONFLICT, NOSPACE or FAULT. -/
  | bundleStaging (fl : Nat) (req : Nat)
  /-- STAGING_ANSWER (R126): Core receives a staging answer, marking failures and keeping the largest stamp. -/
  | stagingAnswer (fl : Nat) (req : Nat)
  /-- COMMIT_REQUEST (R120): Record home writes the line list and commits, aborts or frees the record. -/
  | commitRequest (die : Nat) (idx : Nat)
  /-- COMMIT_ANSWER (R124): BCLOSE receives its commit status. -/
  | commitAnswer (fl : Nat)
  /-- PROMOTION_NOTICE (R119): Home promotes a staged copy to current, keeping the previous version. -/
  | promotionNotice (die : Nat) (idx : Nat) (line : Nat)
  /-- DISCARD_NOTICE (R119): Home frees an aborted bundle's staged version. -/
  | discardNotice (die : Nat) (idx : Nat) (line : Nat)
  /-- FORGET_NOTICE (R119): Home clears metadata naming a forgotten bundle. -/
  | forgetNotice (die : Nat) (idx : Nat) (line : Nat)
  /-- NOTICE_ACK (R120): Record home counts a notice acknowledgment and updates ACKT. -/
  | noticeAck (die : Nat) (idx : Nat) (lend : Nat)
  /-- BCLOSE_COMPLETE (R124): All notices acknowledged: die copies cleared and BCLOSE's W acknowledgment given. -/
  | bcloseComplete (fl : Nat)
  /-- VIEW_CONSUME (R128): Home consumes a line for a view with fetch, repair or status change. -/
  | viewConsume (fl : Nat) (req : Nat)
  /-- CSTEP_RESERVE (R112): A slice grants or refuses a Carry reservation. -/
  | cstepReserve (op : Nat)
  /-- CSTEP_DELIVER (R111): A home folds delivered step data and acknowledges with LEND. -/
  | cstepDeliver (op : Nat) (target : Nat) (line : Nat)
  /-- CSTEP_LINE_ACK (R111): An acknowledged step line counts down and may end the step. -/
  | cstepLineAck (op : Nat) (target : Nat) (lend : Nat)
  /-- COPY_OP_START (R200): An accepted copy-engine operation issues its line requests. -/
  | copyOpStart (op : Nat)
  /-- COPY_LINE_COMPLETE (R207): A copy line response is widened or narrowed and written, with status on failure. -/
  | copyLineComplete (op : Nat) (unit : Nat)
  /-- TCOW_STEP (R213): The next access of a TCOW sequence completes and the sequence continues. -/
  | tcowStep (op : Nat)
  /-- MATRIX_OP_START (R280): A queued matrix operation enters the array in class order. -/
  | matrixOpStart (core : Nat)
  /-- KGROUP_BOUNDARY (R281): At a k-group boundary a lower class intrudes or a resumed operation rechecks rows. -/
  | kgroupBoundary (core : Nat)
  /-- MATRIX_OP_RETIRE (R280): A matrix operation retires, releasing locks and counting down. -/
  | matrixOpRetire (core : Nat)
  /-- FACTOR_OP_START (R295): A queued factor operation starts on its tile. -/
  | factorOpStart (blk : Nat) (tile : Nat)
  /-- FACTOR_OP_COMPLETE (R291): A factor operation ends, exchanging banks or reporting a loss. -/
  | factorOpComplete (blk : Nat) (tile : Nat)
  /-- PUT_SLOT_CONTRIBUTION (R236): A pending slot folds or refuses a contribution. -/
  | putSlotContribution (core : Nat) (slot : Nat)
  /-- PUT_SLOT_ANSWER (R238): The warp receives the slot's answer and raises AGREE or SCOPEMIX. -/
  | putSlotAnswer (core : Nat) (slot : Nat)
  /-- BARRIER_ARRIVAL (R241): After its release waits, a warp's arrival counts in the phase. -/
  | barrierArrival (core : Nat) (slot : Nat)
  /-- G_REPLICA_UPDATE (R239): A die replica takes committed g values; the phase completes when all have. -/
  | gReplicaUpdate (grid : Nat) (die : Nat)
  /-- XCHG_MATCH (R245): Two matching XCHG requests pair and swap lanes. -/
  | xchgMatch (x : Nat) (y : Nat)
  /-- WARP_RETIRE (R310): An exiting warp retires when G, S and V counters reach zero. -/
  | warpRetire (core : Nat) (slot : Nat)
  /-- SIBLING_HALT_STOP (R330): A sibling warp stops within its skid and records HALTED. -/
  | siblingHaltStop (core : Nat) (slot : Nat) (skid : Nat)
  /-- TRAP_WARP_ENTRY (R332): The trap warp starts the handler chosen by POLICY for the next halted block. -/
  | trapWarpEntry (core : Nat)
  /-- EVICTION_PROCEED (R345): Once every warp waits at a blocking point, context slots are taken and issue stops. -/
  | evictionProceed (core : Nat)
  /-- EVICTION_SAVE (R345): After engine work completes, images, scratchpad, tiles and files are saved and resources freed. -/
  | evictionSave (core : Nat)
  /-- EVICTION_RELEASE_DONE (R345): The deck completes the block's release and sets LANDED. -/
  | evictionReleaseDone (blk : Nat)
  /-- PIDX_NOTICE (R316): A write to a watched producer-index line notifies the queue engine. -/
  | pidxNotice (die : Nat) (region : Nat) (q : Nat)
  /-- RECORD_TAKE (R320): The engine copies and checks a head record, advancing CIDX or stopping the queue. -/
  | recordTake (die : Nat) (region : Nat) (q : Nat)
  /-- BLOCK_RETIRE (R323): A block retires when its warps, stores and operations are done. -/
  | blockRetire (blk : Nat)
  /-- JOIN_CONTRIBUTION (R321): A record's last block retiring decrements its join object. -/
  | joinContribution (rec : Nat)
  /-- SUCCESSOR_PUSH (R321): A successor record is pushed into its queue when room appears. -/
  | successorPush (push : Nat)
  /-- QWAIT_SERVE (R327): The engine hands a waiting QWAIT the next record of a SOFTWARE queue. -/
  | qwaitServe (core : Nat) (slot : Nat)
  /-- CRPUSH_AT_ENGINE (R327): The engine pushes a CRPUSH record or returns its status. -/
  | crpushAtEngine (core : Nat) (slot : Nat)
  /-- JDEC_AT_HOME (R327): The home decrements a join object atomically. -/
  | jdecAtHome (core : Nat) (slot : Nat)
  /-- REGION_ACTIVATION_DONE (R401): Activation reads the RCB, sets watches and reports ERR. -/
  | regionActivationDone (die : Nat) (region : Nat)
  /-- DOM_DRAIN_COMPLETE (R73): A quiesced domain finishes emptying and BUSY returns to 0. -/
  | domDrainComplete (die : Nat) (n : Nat)
  /-- PART_SHARE_DONE (R75): The partition's lines are emptied and the new share applies. -/
  | partShareDone (die : Nat) (part : Nat)
  /-- SCRUB_COMPLETE (R102): The scrub ends and BUSY returns to 0. -/
  | scrubComplete (die : Nat)
  /-- BARRIER_OBJECT_COUNTDOWN (R227): An engine countdown updates BYTES, making held arrivals or an overrun. -/
  | barrierObjectCountdown (core : Nat) (off : Nat) (bytes : Nat)
  /-- INSTRUCTION_FETCH (R17): Fetch of a 384-byte code chunk through translation with execute permission. -/
  | instructionFetch (core : Nat) (slot : Nat)
  /-- HELD_LEAF_REWALK (R55): Every 1 µs the requests waiting on a held leaf walk again. -/
  | heldLeafRewalk (walk : Nat)
  /-- DIRECTORY_MERGE (R83): Compatible siblings merge after 64 µs without conflict. -/
  | directoryMerge (base : Nat) (log : Nat)
  /-- LEASE_END_CLEAR (R93): After home time passes LEND + 2 the entry's die sharer bits clear. -/
  | leaseEndClear (base : Nat) (log : Nat)
  /-- STALE_MESSAGE_DISCARD (R100): Home discards an acknowledgment or write-back of an older incarnation and logs it. -/
  | staleMessageDiscard (kind : Nat) (agent : Nat) (inc : Nat) (line : Nat)
  /-- PROMOTION_DELAY_EXPIRY (R121): A promotion held by BNDL_DIAG is performed when its delay ends. -/
  | promotionDelayExpiry (die : Nat) (idx : Nat) (line : Nat)
  /-- FORGET_HORIZON_EXPIRY (R120): After all promotions and the horizon, forget notices are sent. -/
  | forgetHorizonExpiry (die : Nat) (idx : Nat)
  /-- G_REPLICA_COPY (R230): A die receiving its first block of a grid copies the committed g values. -/
  | gReplicaCopy (grid : Nat) (die : Nat)
  /-- XCHG_TIMEOUT (R245): A request unmatched for 65,536 cycles is removed with TIMEOUT. -/
  | xchgTimeout (x : Nat)
  /-- WAITC_BLOCKING_TIMER (R146): A WAITC waiting over 2 µs on remote or held loads becomes a blocking point. -/
  | waitcBlockingTimer (core : Nat) (slot : Nat)
  /-- REGISTER_ECC_ERROR (R336): An uncorrectable register error marks the element or half poisoned. -/
  | registerEccError (core : Nat) (slot : Nat) (scalar : Bool) (reg : Nat) (lane : Nat) (halves : Nat)
  /-- BREAKPOINT_TRIGGER (R343): An armed breakpoint stops a split before the packet's first chain. -/
  | breakpointTrigger (core : Nat) (slot : Nat) (n : Nat)
  /-- DEBUG_HALT (R343): CORE_CTL.DBGHALT halts every block of the core. -/
  | debugHalt (core : Nat)
  /-- PREEMPT_GO (R345): PREEMPT_REQ.GO requests eviction or parking of a block's cluster. -/
  | preemptGo (core : Nat) (bslot : Nat) (park : Bool)
  /-- PREEMPT_CANCEL (R344): PREEMPT_REQ.CANCEL withdraws a request not yet saving. -/
  | preemptCancel (core : Nat)
  /-- LANDING_SLOT_FILL (R346): A load in flight at eviction lands into the saved image. -/
  | landingSlotFill (fl : Nat)
  /-- RESUMPTION (R348): An evicted block with a met wake condition is placed and restored. -/
  | resumption (blk : Nat) (core : Nat)
  /-- SWEEPER_RESTORE (R219): The sweeper restores a maintained row whose age reaches t_RET/2. -/
  | sweeperRestore (core : Nat) (row : Nat)
  /-- SWEEPER_VISIT (R215): A sweeper visit sets EXPIRED on a row older than t_RET. -/
  | sweeperVisit (core : Nat) (row : Nat)
  /-- SPRET_CHANGE (R216): Osros lowers or raises TRET, applying at once to checks. -/
  | spretChange (core : Nat) (ns : Nat)
  /-- PIDX_POLL (R316): Every 50 µs the engine reads each watched PIDX. -/
  | pidxPoll (die : Nat)
  /-- BLOCK_PLACEMENT (R322): A waiting block or cluster is placed when a core meets every condition. -/
  | blockPlacement (rec : Nat) (core : Nat)
  /-- REGION_GO (R314): REGn_CTL.GO activates a region on a die. -/
  | regionGo (die : Nat) (region : Nat)
  /-- REGION_STOP (R314): REGn_CTL.STOP deactivates a region on a die. -/
  | regionStop (die : Nat) (region : Nat)
  /-- DOM_MASK_WRITE (R72): Write of DOMn_MASK, taken only when quiesced and not busy. -/
  | domMaskWrite (die : Nat) (n : Nat) (mask : Nat)
  /-- DOM_RANGE_WRITE (R72): Write of DOMn_BASE or DOMn_LIMIT, ignored while enabled and not quiesced. -/
  | domRangeWrite (die : Nat) (n : Nat) (limit : Bool) (value : Nat)
  /-- DOM_QUIESCE (R73): Setting QUIESCE holds requests and empties the domain. -/
  | domQuiesce (die : Nat) (n : Nat)
  /-- DOM_RELEASE (R73): Clearing QUIESCE releases held requests by the new registers. -/
  | domRelease (die : Nat) (n : Nat)
  /-- DOM_ENABLE (R71): Writing DOMn_CTL.EN enables or disables a domain. -/
  | domEnable (die : Nat) (n : Nat) (en : Bool)
  /-- PART_SHARE_WRITE (R75): A change of SHARE writes back a partition's lines and holds its requests. -/
  | partShareWrite (die : Nat) (part : Nat) (share : Nat)
  /-- SLICE_POWER_OFF (R76): SLICE_CTL.PWR = 0 powers off a slice named by no mask. -/
  | slicePowerOff (die : Nat) (slice : Nat)
  /-- SLICE_POWER_ON (R76): SLICE_CTL.PWR = 1 powers on an empty slice. -/
  | slicePowerOn (die : Nat) (slice : Nat)
  /-- SLICE_OFF_COMPLETE (R76): The slice reaches ON = 0. -/
  | sliceOffComplete (die : Nat) (slice : Nat)
  /-- CORE_POWER_OFF (R77): A core with no block is powered off after writing back its L1. -/
  | corePowerOff (core : Nat)
  /-- DEAD_CORE (R102): DEAD_CTL declares a core dead and scrubs. -/
  | deadCore (die : Nat) (agent : Nat)
  /-- DEAD_SLICE (R102): DEAD_CTL declares a slice dead and scrubs its directory. -/
  | deadSlice (die : Nat) (agent : Nat)
  /-- DEAD_DIE (R102): DEAD_CTL declares a die dead and scrubs on this die. -/
  | deadDie (die : Nat) (agent : Nat)
  /-- BNDL_BASE_WRITE (R115): Write of BNDL_BASE or BNDL_VBASE, ignored while a record is not FREE. -/
  | bndlBaseWrite (die : Nat) (versions : Bool) (value : Nat)
  /-- DEV_ID_WRITE (R399): Write of DEV_ID, ignored while a record is not FREE. -/
  | devIdWrite (die : Nat) (value : Nat)
  /-- CONFIG_REGISTER_WRITE (R50): Write to a configuration-window register with no row of its own. -/
  | configRegisterWrite (pa : Nat) (w64 : Bool) (value : Nat)
  /-- INBOUND_MREAD (R352): An inbound MREAD is checked against its grant and performed at the home. -/
  | inboundMread (hd : Sender) (key : Nat) (pa : Nat) (n : Nat)
  /-- INBOUND_MWRITE (R352): An inbound MWRITE is checked and performed at the home, then acknowledged. -/
  | inboundMwrite (hd : Sender) (key : Nat) (pa : Nat) (bytes : List Byte)
  /-- INBOUND_MATOM (R351): An inbound atomic is checked and performed at the home. -/
  | inboundMatom (hd : Sender) (key : Nat) (pa : Nat) (fn : Nat) (w64 : Bool) (operand : Nat)
  /-- INBOUND_BSTAGE (R351): An inbound bundle staging from a peer is performed at the home. -/
  | inboundBstage (hd : Sender) (key : Nat) (die : Nat) (idx : Nat) (line : Nat) (mask : Nat) (bytes : List Byte) (part : Nat) (ns : Bool)
  /-- INBOUND_BNOTE (R351): An inbound promotion, discard or forget notice is performed at the home. -/
  | inboundBnote (hd : Sender) (kind : Nat) (key : Nat) (die : Nat) (idx : Nat) (line : Nat)
  /-- INBOUND_CARRY (R351): An inbound CSTEP reservation or delivery is performed at the home. -/
  | inboundCarry (hd : Sender) (key : Nat) (req : CarryReq) (line : Nat) (bytes : List Byte) (part : Nat) (ns : Bool)
  /-- INBOUND_TIME (R356): An IEEE 1588 message lets Osros slew device time. -/
  | inboundTime (ns : Nat)
  /-- INBOUND_MGMT (R357): A management frame is handled by Osros. -/
  | inboundMgmt (port : Nat) (bytes : List Byte)
  /-- UNSUPPORTED_PACKET_DROP (R350): An unreliable or idempotent packet is dropped and counted. -/
  | unsupportedPacketDrop (port : Nat)
  /-- MODULE_BOOT (R357): Reset and boot sequence bringing up the module. -/
  | moduleBoot
  /-- DUTY_CHANGE (R358): Osros lowers or raises the issue duty to hold power. -/
  | dutyChange (die : Nat) (duty : Nat)
  /-- CORE_POWER_ON (R77): A powered-off core is powered on again and becomes eligible for placement. -/
  | corePowerOn (core : Nat)
  /-- GRANDMASTER_LOSS (R356): Osros finds no IEEE 1588 grandmaster in reach, keeps the module's own time and reports the loss in the RAS log. -/
  | grandmasterLoss
  deriving DecidableEq, Repr

end Sys2Proof
end

