-- ==== Sys2Proof/Machine/State.lean ====
section
/-!
DEFINITION. The state of the whole module as plain data: memory and homes, dies, cores, warps,
blocks, clusters, grids, queue engines, and the messages in flight.  Tables are association lists
keyed by numbers; an entry a table does not hold has the reset value of its kind
(`Core.init`, `Die.init`).  The notes name the rule of spec/ that gives each field.
-/

namespace Sys2Proof.Machine

/-- A sparse table keyed by a number. -/
abbrev Tab (α : Type) := List (Nat × α)

/-- Bytes by address, addresses strictly rising, no entry that holds an unlisted byte's value. -/
abbrev Memory := List Host.Cell

/-- The causes of the bitmap of R328, in bit order from bit 0. -/
inductive Cause where
  | illegal | priv | role | loadhaz | align | xlate | prot | bounds | foreignsp | stale | rangelock
  | agree | scopemix | arith | deflost | poison | regpoison | timeout | bundle | trapi | brk | step
  | halted | storeflt | peerlost | spexhaust | syncdiv | stackovf
  deriving DecidableEq, Repr

/-- What a delivered cause writes into the fault record (R331) beyond the position. -/
structure Stop where
  cause : Cause
  lanes : LaneMask := 0
  addr : Nat := 0
  data : Word := 0
  level : Nat := 0
  /-- TIER of the leaf that was reached (R59). -/
  tier : Nat := 0
  /-- UNDER: bit number of the underlying cause. -/
  under : Nat := 0
  precise : Bool := true
  replay : Bool := false
  /-- The faulting position (packet, slot, expansion bit) where it is not the issuing chain's. -/
  fpos : Option (Nat × Nat × Bool) := none
  /-- The warp resumes after the chain (R329: DEFLOST, TRAPI, BREAK by BRK, T causes). -/
  after : Bool := false
  deriving DecidableEq, Repr

/-- How the last instruction issued: it took effect; it moved the warp's position; its chain waits at
issue; it has issued and waits (a barrier, MBWAIT, QWAIT); it raised a cause. -/
inductive Issue where
  | done | moved | waiting | parked
  | raised (stop : Stop)
  deriving DecidableEq, Repr

/-- The fault record of a warp slot (R331), by field. -/
structure FaultRec where
  valid : Bool := false
  issExit : Bool := false
  precise : Bool := false
  haltOnly : Bool := false
  replay : Bool := false
  skid : Nat := 0
  exSlot : Nat := 0
  prime : Nat := 0
  under : Nat := 0
  level : Nat := 0
  /-- TIER of the leaf that was reached (R59); no word of the record shows it. -/
  tier : Nat := 0
  more : Nat := 0
  fpc : Nat := 0
  fslot : Nat := 0
  fexp : Bool := false
  rpc : Nat := 0
  rslot : Nat := 0
  rexp : Bool := false
  addr : Nat := 0
  lanes : LaneMask := 0
  data : Word := 0
  deriving DecidableEq, Repr

/-- An entry of the divergence stack (R298). -/
structure StackEnt where
  pc : Nat
  /-- RPC; all ones when there is none. -/
  rpc : Nat
  mask : LaneMask
  reconv : Bool
  deriving DecidableEq, Repr

/-- What a warp waits for (R348); the first six are blocking points. -/
inductive Wake where
  | none
  | bar (kind : Nat) (phase : Nat)
  | mbwait (off : Nat) (parity : Bool)
  | mbwaitCl (ptr : Nat) (parity : Bool)
  | qwait (region q : Nat)
  | waitc (paths : Nat) (thr : Nat)
  | xchg
  | answer
  deriving DecidableEq, Repr

/-- The answer to a request a waiting instruction made of another agent. -/
inductive Reply where
  | ok
  | cause (c : Cause)
  | value (n : Nat)
  | swap (mask : LaneMask) (lanes : Lanes)
  deriving DecidableEq, Repr

/-- A request a waiting instruction has sent (PUT, QWAIT, CRPUSH, JDEC). -/
inductive Ask where
  | put (dst : Nat) (mode : Nat) (val : Word) (num : Int) (special : Nat) (negZero : Bool)
  /-- `order` is the arrival order. -/
  | qwait (region q order : Nat)
  | crpush (off region q : Nat) (bytes : List Byte)
  | jdec (addr n : Nat)
  | xchg
  deriving DecidableEq, Repr

/-- A fault mark a failed load left on its registers (R143). -/
structure Mark where
  fl : Nat
  scalar : Bool
  reg : Nat
  n : Nat
  stop : Stop
  /-- The paths the load was counted on, G S W V as bits 0 to 3, and its number on each. -/
  paths : Nat
  order : List Nat := []
  deriving DecidableEq, Repr

/-- One counted instruction of an in-flight counter (R141): its flight and whether it completed. -/
abbrev Flying := Nat × Bool

/-- An entry of a view's seen table (R127). -/
structure Seen where
  line : Nat
  data : List Byte
  side : Word
  stamp : Nat
  deriving DecidableEq, Repr

/-- Where a warp stands (R310, R330). -/
inductive Run where
  | running | stopped | exiting | exited
  deriving DecidableEq, Repr

/-- An element that has issued and waits (R241, R229, R327), its chain's other elements being complete:
where it stands, where the chain's successor stands, and the s registers its chain read (R22) (model). -/
structure Solo where
  i : Instr
  place : Nat × Nat × Bool
  next : Nat × Nat × Bool
  s : Vector Word 64
  deriving DecidableEq, Repr

/-- One element of a packet (R20): an instruction with its prefix, its chain bit, where it stands (slot and
expansion bit), and where what follows it stands. -/
structure Elem where
  i : Instr
  pfx : Option (Nat × Bool × Nat × Src) := none
  c : Bool
  place : Nat × Bool
  next : Nat × Bool
  deriving DecidableEq, Repr

/-- A warp slot's warp, or a core's trap warp (R332). -/
structure Warp where
  blk : Nat := 0
  /-- %warp -/
  widx : Nat := 0
  role : Nat := 0
  budget : Nat := 128
  pc : Nat := 0
  slot : Nat := 0
  exp : Bool := false
  /-- What is left of the packet the warp is in, decoded as the warp entered it, and the position of its
  first element (R17, R44). -/
  held : Option ((Nat × Nat × Bool) × List Elem) := none
  s : Vector Word 64 := Vector.replicate 64 0
  /-- q[j] of register r at 3r + j. -/
  q : Vector Word 24 := Vector.replicate 24 0
  v : Tab Lanes := []
  /-- Where the free values of its unwritten v registers begin (R230); none: they hold 0. -/
  vseed : Option Nat := none
  sls : LaneMask := BitVec.allOnes 96
  back : Nat := 0
  /-- Top entry first. -/
  stack : List StackEnt := []
  /-- Entries of `stack`, counted from the bottom, that are spilled (R300). -/
  spilled : Nat := 0
  cause : Word := 0
  frec : FaultRec := {}
  rpcHeld : Option Word := none
  /-- Lanes with each sticky flag set: invalid, divide-by-zero, overflow, underflow, inexact. -/
  vf : Vector LaneMask 5 := Vector.replicate 5 0
  sf : BitVec 5 := 0
  ten : BitVec 5 := 7
  /-- The enables an EXIT that is retiring the warp reports ARITH by: those from before its chain (R269). -/
  exTen : BitVec 5 := 7
  rnd : Nat := 1
  ftLost : Bool := false
  ftTile : Nat := 0
  ftCol : Nat := 0
  ftTrap : Bool := true
  cntG : List Flying := []
  cntS : List Flying := []
  cntW : List Flying := []
  cntV : List Flying := []
  /-- Instructions counted on each path so far. -/
  counted : Vector Nat 4 := Vector.replicate 4 0
  /-- LEASEMAX as it stood after the acknowledgments that the release at issue waits for (R98). -/
  leaseAt : Option Nat := none
  marks : List Mark := []
  /-- A FENCE that releases has been passed: stores write the core's tag (R179). -/
  relTag : Bool := false
  /-- Largest tag the warp's relaxed loads returned (R164). -/
  ldTag : Nat × Nat := (0, 0)
  /-- Acquires that have not returned (R166) and SC operations in flight (R168). -/
  acq : List Nat := []
  scs : List Nat := []
  bid : DWord := 0
  brecDie : Nat := 0
  brecIdx : Nat := 0
  btab : List Nat := []
  vopen : Bool := false
  vstatus : Nat := 0
  vt0 : Nat := 0
  seen : List Seen := []
  latTime : Option Word := none
  latLclk : Option Word := none
  latBnd : Option Word := none
  csrHeld : Tab Word := []
  csrLat : Tab Word := []
  /-- Poisoned register elements (R336): key, halves in bits 0 and 1. -/
  bad : Tab Nat := []
  /-- Phase of the last arrival at BAR, CBAR and GBAR plus one; 0 when there is none. -/
  arrived : Vector Nat 3 := Vector.replicate 3 0
  /-- The barrier instruction being issued: kind, whether its arrival was asked for, whether it
  waits for the phase. -/
  inBar : Option (Nat × Bool × Bool) := none
  wake : Wake := .none
  wakeAt : Nat := 0
  /-- A WAITC that has become a blocking point (R146). -/
  wakeOk : Bool := false
  /-- Requests sent and answers received by waiting instructions: 0 PUT, 1 QWAIT, 2 CRPUSH, 3 JDEC,
  4 XCHG. -/
  asks : Tab Ask := []
  replies : Tab Reply := []
  /-- The CTL element of the chain at the position, when only it has still to complete (model). -/
  solo : Option Solo := none
  /-- Engine failures that await MBWAIT or MBTEST (R59, R109, R201): barrier offset, cause, done mask, TIER. -/
  tcause : List (Nat × Cause × Nat × Nat) := []
  /-- The turn of its scheduler at which the warp's age was last 0 (R324). -/
  age : Nat := 0
  run : Run := .running
  /-- SRET has resumed it in the handling under way (R333). -/
  resumed : Bool := false
  stepping : Bool := false
  noBkpt : Bool := false
  deriving DecidableEq, Repr

/-- A pending slot of a wider-scope register (R233, R236). -/
structure Slot where
  mode : Nat
  val : Word
  /-- FADD: the exact sum in units of 2^-149. -/
  num : Int := 0
  /-- FADD: NaN, +inf, -inf seen, bits 0 to 2. -/
  special : Nat := 0
  negZero : Bool := false
  deriving DecidableEq, Repr

/-- Eight or sixteen registers of a scope with their barrier (R230, R239). -/
structure ScopeFile where
  regs : Tab Word := []
  slots : Tab Slot := []
  /-- The phase under way; the first is 1. -/
  phase : Nat := 1
  /-- Warps that have arrived in the current phase. -/
  arrived : List Nat := []
  deriving DecidableEq, Repr

/-- Where a block stands (R323, R345, R340). -/
inductive BlkState where
  | running | halted | evicting | evicted | retired
  deriving DecidableEq, Repr

/-- A factor tile (R286): order and active bank, `L i j` at `96 i + j`. -/
structure FTile where
  order : Nat := 0
  bank : Tab Word := []
  deriving DecidableEq, Repr

/-- An allocation of an evicted or parked block (R224, R225, R347): `at'` is where its rows stand in the
context record. -/
structure SavedAlloc where
  index : Nat
  first : Nat
  rows : Nat
  auto : Bool
  lost : Bool
  life : Nat
  /-- E less device time at the save; negative when it had passed (R224). -/
  remaining : Int
  at' : Nat
  deriving DecidableEq, Repr

/-- A placed block (R317, R323). -/
structure Block where
  state : BlkState := .running
  core : Nat := 0
  bslot : Nat := 0
  /-- Scratchpad identity: the global core of the first placement (R137). -/
  ident : Nat := 0
  /-- Launch region; the block runs privileged when it is region 0 (R332). -/
  region : Nat := 0
  priv : Bool := false
  /-- Context registers REGION, PART, WORLD and XLATE_ROOT (R342). -/
  xregion : Nat := 0
  cls : Nat := 0
  part : Nat := 0
  ns : Bool := false
  lease : Nat := 2000
  xroot : Nat := 0
  pbase : Nat := 0
  psize : Nat := 0
  pslot : Nat := 0
  code : Nat := 0
  dict : Nat := 0
  frame : Nat := 0
  joinc : Nat := 0
  idx : Nat := 0
  nblk : Nat := 1
  cluster : Nat := 0
  cidx : Nat := 0
  grid : Nat := 0
  lrec : Nat := 0
  rolemap : Nat := 0
  vregs : Nat := 0
  srows : Nat := 0
  /-- Warp slots of the block's warps, in warp-index order. -/
  slots : List Nat := []
  nacc : Nat := 0
  nft : Nat := 0
  /-- Element (row, col) of tile n at 256 row + col. -/
  accs : Tab (Tab Word) := []
  ftiles : Tab FTile := []
  bfile : ScopeFile := {}
  /-- The matrix STALE recorded and not yet raised: tile, issuing slot and record (R281). -/
  mstale : List (Nat × Nat × Stop) := []
  ctx : Option Nat := none
  /-- Warps of an evicted or parked block by warp index (R347). -/
  images : Tab Warp := []
  landed : Bool := false
  parked : Bool := false
  saved : List SavedAlloc := []
  lclk : Nat := 0
  leasemax : Nat := 0
  rows : Tab Nat := []
  killed : Bool := false
  /-- Slot of the first warp to stop with a cause (R332), and, while its handler runs, of those that have stopped anew,
  first one first. -/
  first : Nat := 0
  again : List Nat := []
  /-- The first warp, by index, to receive a store fault while the block was out (R346). -/
  kept : Option Nat := none
  /-- Warp indices that have exited (R239). -/
  gone : List Nat := []
  deriving DecidableEq, Repr

/-- What a warp slot, or a factor tile, holds after its warp or its block has ended: registers and tiles keep what was
written last (R230, R333). -/
structure Left where
  warp : Warp
  ftiles : Tab FTile := []
  deriving DecidableEq, Repr

/-- A cluster (R230): its rod's file and its blocks. -/
structure Cluster where
  file : ScopeFile := {}
  rod : Nat := 0
  blks : List Nat := []
  deriving DecidableEq, Repr

/-- A grid (R230): the home die's slots and barrier, and the committed values of each replica. -/
structure Grid where
  file : ScopeFile := {}
  home : Nat := 0
  coop : Bool := false
  nblk : Nat := 1
  replicas : Tab (Tab Word) := []
  /-- Replicas that have still to take the values of the phase being completed. -/
  taking : List Nat := []
  deriving DecidableEq, Repr

/-- A Carry combination of R79: the code of R110, and whether elements have 64 bits. -/
structure CarryOp where
  code : Nat
  w64 : Bool := false
  deriving DecidableEq, Repr

/-- The state of a cached copy (R78). -/
inductive CopyState where
  | s | e | m | o
  | c (op : CarryOp)
  deriving DecidableEq, Repr

/-- The release tag of R164. -/
structure Tag where
  stamp : Nat := 0
  hold : Nat := 0
  deriving DecidableEq, Repr

/-- A line in a core's L1 (R78, R94): `lease` is 0 for a line homed on the core's die. -/
structure L1Line where
  core : Nat
  line : Nat
  st : CopyState
  data : List Byte
  lease : Nat := 0
  ns : Bool := false
  tag : Tag := {}
  deriving DecidableEq, Repr

/-- A line in a die's remote-data cache (R92, R97). -/
structure RdcLine where
  die : Nat
  line : Nat
  op : Option CarryOp := none
  data : List Byte
  lease : Nat := 0
  ns : Bool := false
  /-- Cores of the die that filled their L1 through this line. -/
  vec : List Nat := []
  tag : Tag := {}
  /-- Its page is STREAM (R58, R92). -/
  stream : Bool := false
  deriving DecidableEq, Repr

/-- A line in its home slice (R68, R105, R164), most recently used first in its list. -/
structure SliceLine where
  die : Nat
  slice : Nat
  set : Nat
  line : Nat
  data : List Byte
  dirty : Bool := false
  part : Nat := 0
  ns : Bool := false
  ver : Nat := 0
  tag : Tag := {}
  deriving DecidableEq, Repr

/-- The state of a directory entry (R80). -/
inductive DirState where
  | u
  | sh (cores : List Nat)
  | ex (owner : Nat)
  | ow (owner : Nat) (cores : List Nat)
  | ca (op : CarryOp) (cores dies : List Nat)
  deriving DecidableEq, Repr

/-- A directory entry of 2^log lines from line `base` (R82); `dies` are the leased sharers. -/
structure DirEnt where
  base : Nat
  log : Nat
  st : DirState
  dies : List Nat := []
  part : Nat := 0
  lend : Nat := 0
  touched : Nat := 0
  writer : Option Nat := none
  /-- State and leased sharers before the drops of the transaction under way: what a half that splits off keeps (R82). -/
  was : Option (DirState × List Nat) := none
  deriving DecidableEq, Repr

/-- A previous or staged version of a line (R118). -/
structure VerEnt where
  line : Nat
  staged : Bool
  data : List Byte
  /-- Bytes written by the bundle, one bit a byte. -/
  mask : Nat := 0
  /-- Side metadata of the version: for a staged one, that of its bundle, and that bundle's BID. -/
  side : Word := 0
  bid : DWord := 0
  /-- STAMP of the bundle the version belongs to. -/
  stamp : Nat := 0
  /-- A promotion notice has arrived, and when (R119, R121). -/
  notice : Option Nat := none
  /-- Who sent that notice, when it is a peer. -/
  sender : Option Sender := none
  /-- Its promotion is the transaction under way on the line (R81). -/
  opened : Bool := false
  deriving DecidableEq, Repr

/-- A companion record (R116, R120) and what its home keeps beside it. -/
structure BRec where
  die : Nat
  idx : Nat
  bid : DWord
  /-- 0 FREE, 1 OPEN, 2 COMMITTING, 3 COMMITTED, 4 ABORTED. -/
  st : Nat
  stamp : Nat := 0
  lines : List Nat := []
  outstanding : Nat := 0
  ackt : Nat := 0
  lend : Nat := 0
  forgetting : Bool := false
  /-- What the core has been answered: first failure, lines asked for, largest stamp (R124, R126). -/
  fail : Nat := 0
  got : List Nat := []
  gotStamp : Nat := 0
  /-- Release tag of a BCLOSE with ORD = REL (R161). -/
  tag : Nat × Nat := (0, 0)
  /-- BCLOSE flight that awaits the acknowledgments. -/
  closer : Option Nat := none
  core : Nat := 0
  /-- Class of the bundle's warp (R89). -/
  cls : Nat := 1
  deriving DecidableEq, Repr

/-- A write-back on its way to the home: data of an owner, or a holder's partial (R81, R99, R100). -/
structure Wb where
  /-- A die's remote-data cache rather than a core. -/
  die : Bool
  agent : Nat
  inc : Nat
  line : Nat
  /-- The operation of a partial. -/
  op : Option CarryOp := none
  data : List Byte
  ns : Bool := false
  tag : Tag := {}
  stream : Bool := false
  /-- Class of the work that sent it home (R89). -/
  cls : Nat := 1
  deriving DecidableEq, Repr

/-- A Carry reservation at a home slice (R110). -/
structure Resv where
  line : Nat
  op : CarryOp
  data : List Byte
  /-- Steps that have reserved it and contributed nothing yet. -/
  steps : List Nat := []
  deriving DecidableEq, Repr

/-- The attributes of a leaf (R53). -/
structure Leaf where
  pa : Nat
  /-- log2 of the bytes `pa` stands for: the page's, or 16 for a piece of a page in the alias range (R47). -/
  log : Nat
  /-- log2 of the page size: 16, 26 or 36. -/
  page : Nat := log
  tier : Nat := 0
  pol : Nat := 0
  shared : Bool := false
  ns : Bool := false
  x : Bool := false
  w : Bool := false
  r : Bool := false
  deriving DecidableEq, Repr

/-- A TLB entry (R60); `rod` is the global rod of an L2 TLB, or none in a core's L1 TLB. -/
structure TlbEnt where
  core : Nat
  rod : Option Nat
  region : Nat
  va : Nat
  leaf : Leaf
  deriving DecidableEq, Repr

/-- A page walk or a held access set (R55, R61) with the requests that wait on it: a flight and its request, or 0 and
a core's number plus one for a fetch or an engine. -/
structure Walk where
  id : Nat
  die : Nat
  region : Nat
  root : Nat
  part : Nat := 0
  ns : Bool
  page : Nat
  waiters : List (Nat × Nat)
  held : Bool := false
  /-- Device time at which a held walk starts again. -/
  at' : Nat := 0
  /-- It waits in its rod's miss queue for a slot, in a class (R61). -/
  queued : Bool := false
  cls : Nat := 1
  deriving DecidableEq, Repr

/-- One lane's piece of an access: `val` is the data to store, or the data loaded. -/
structure Acc where
  lane : Nat
  /-- Byte place in the lane's value. -/
  off : Nat
  size : Nat
  va : Nat
  val : Nat := 0
  cmp : Nat := 0
  req : Nat := 0
  /-- What a record adds to `va` for the lane's address: the pointer a cluster-shared offset came from (R138). -/
  base : Nat := 0
  /-- The lane's own failure in a request that otherwise succeeds (R172). -/
  bad : Option Cause := none
  deriving DecidableEq, Repr

/-- Where the pieces of a request lie (R135). -/
inductive Win where
  | global | pad | cluster (blk : Nat)
  deriving DecidableEq, Repr

/-- One line request of a flight. -/
structure Req where
  win : Win
  /-- Line number of the virtual address, or of the scratchpad offset. -/
  vline : Nat
  pa : Nat := 0
  leaf : Option Leaf := none
  /-- Line bytes read; empty until performed. -/
  data : List Byte := []
  done : Bool := false
  fail : Option (Cause × Nat) := none
  /-- TIER of the leaf a failed walk reached (R59). -/
  tier : Nat := 0
  /-- Recalls, invalidations and drains still unanswered. -/
  acks : Nat := 0
  sent : Bool := false
  /-- Nothing earlier of its warp stands in its way (R108). -/
  ready : Bool := false
  lend : Nat := 0
  tag : Tag := {}
  stamp : Nat := 0
  /-- Answer and stamp of a staging (R119). -/
  answer : Nat := 0
  bst : Nat := 0
  deriving DecidableEq, Repr

/-- What a flight does. -/
inductive FKind where
  | load | store | atomic (fn : Nat) | cas | ldlv | cmst | vstb | bopen | bclose | vldv
  | cache (fn : Nat) | tlbi (kind sz : Nat)
  deriving DecidableEq, Repr

/-- A memory instruction in flight (R141 to R144). -/
structure Flight where
  core : Nat
  slot : Nat
  blk : Nat
  pc : Nat
  pslot : Nat
  pexp : Bool
  kind : FKind
  /-- Counters it is on, G S W V as bits 0 to 3. -/
  paths : Nat
  part : Nat
  ns : Bool
  region : Nat
  root : Nat
  lease : Nat
  cls : Nat
  ord : Nat
  scp : Nat
  width : Nat := 4
  signed : Bool := false
  w64 : Bool := false
  scalar : Bool := false
  /-- Destination registers from `dst`; none when `ndst` is 0. -/
  dst : Nat := 0
  ndst : Nat := 0
  /-- Second destination: sT of LDLV. -/
  dst2 : Option Nat := none
  /-- SLS at issue, for writes of s0 to s2 (R299). -/
  sls : LaneMask := BitVec.allOnes 96
  accs : List Acc := []
  reqs : List Req := []
  /-- Number on each path it is counted on (R143). -/
  order : List Nat := []
  /-- Whether its stores write the core's tag (R164, R179). -/
  tagged : Bool := false
  /-- A release's own write waits for what the flights listed do (R165). -/
  before : List Nat := []
  released : Bool := true
  /-- LEASEMAX as it stood after the acknowledgments a release waits for (R98). -/
  leaseAt : Option Nat := none
  /-- LCLK of its core as its requests left (R168). -/
  lclk : Nat := 0
  /-- Operands of CMST, BCLOSE, CACHE and TLBI. -/
  x : Nat := 0
  y : Nat := 0
  lines : List Nat := []
  toks : List Nat := []
  datas : List (List Byte) := []
  /-- Accesses a TLBI waits for: flight, request and its line (R64). -/
  users : List (Nat × Nat × Nat) := []
  /-- The bundle a staging belongs to (R126). -/
  bid : DWord := 0
  result : Nat := 0
  drains : Nat := 0
  /-- Paths its lanes have completed on, as in `paths` (R141). -/
  landed : Nat := 0
  landing : Bool := false
  /-- Its landing slot (R346). -/
  lslot : Nat := 0
  returned : Bool := false
  deriving DecidableEq, Repr

/-- A request that waits at the home of a line (R73, R81): a flight and its request, or 0 and a warp's key plus one for
an engine's.  The oldest arrival stands first; `queued` says that it is held at a quiesced domain. -/
structure LineWait where
  line : Nat
  who : Nat × Nat
  cls : Nat
  part : Nat
  queued : Bool := false
  deriving DecidableEq, Repr

/-- A registered range (R172): memory by region, scratchpad by identity. -/
structure Range where
  pad : Bool
  space : Nat
  lo : Nat
  len : Nat
  deriving DecidableEq, Repr

/-- A range-lock entry (R172). -/
structure Lock where
  core : Nat
  op : Nat
  srcs : List Range
  dsts : List Range
  bar : Option Nat
  /-- Accumulator tile a CSTEP has locked as its source (R111): block and tile. -/
  tile : Option (Nat × Nat) := none
  deriving DecidableEq, Repr

/-- A piece of a unit of an engine operation that has been read or written: its address, length and bytes, or how it
failed, with the TIER of its leaf (R59, R200). -/
structure Piece where
  unit : Nat
  va : Nat
  len : Nat
  bytes : List Byte := []
  fail : Option (Cause × Nat) := none
  deriving DecidableEq, Repr

/-- An accepted engine operation: copy engine (R200), CSTEP (R111), matrix (R280), factor (R295). -/
inductive OpKind where
  | tcopy | tcopyo | tgather | tcow
  | cstep (acc plain : Bool)
  | mma (sparse neg pair : Bool)
  | acld | acst
  | ftinit | ftupd (down : Bool) | ftslv (back : Bool) | ftld | ftst | ftrow
  deriving DecidableEq, Repr

/-- An engine operation in flight. -/
structure EngOp where
  core : Nat
  slot : Nat
  blk : Nat
  pc : Nat
  pslot : Nat
  pexp : Bool
  kind : OpKind
  cls : Nat
  /-- Scratchpad offset, barrier object and failure reporting. -/
  off : Nat := 0
  bar : Option Nat := none
  t : Bool := false
  /-- The operation's record, with the VQ2 table after it, or the operands of a matrix operation. -/
  record : List Byte := []
  args : List Nat := []
  /-- Vector source read at issue, or the descriptor's targets. -/
  vec : List Word := []
  tile : Nat := 0
  n : Nat := 0
  exec : LaneMask := 0
  /-- Units still to complete and the next stage. -/
  units : List Nat := []
  stage : Nat := 0
  status : Nat := 0
  doneMask : Nat := 0
  /-- Bytes of each CSTEP target still unacknowledged. -/
  left : List Nat := []
  started : Bool := false
  entered : Bool := false
  /-- Follower core and partner block of a pair operation (R279). -/
  pair : Option (Nat × Nat) := none
  /-- Time at which each scratchpad row was first written, and rows with bytes left unwritten (R202). -/
  rows : Tab Nat := []
  torn : List Nat := []
  /-- TGATHER's block indices; 2^32 + the status and 256 times the TIER for an entry that could not be read. -/
  idx : List Nat := []
  /-- What has been read or written of the units that still wait for lines (R200). -/
  pend : List Piece := []
  /-- TCOW's progress: e, c, n, copied, freed. -/
  regs : List Nat := []
  deriving DecidableEq, Repr

/-- An SFU subgroup result on its way (R257). -/
structure SfuRes where
  id : Nat
  core : Nat
  slot : Nat
  dst : Nat
  sub : Nat
  /-- Lanes written, values, and flags by lane. -/
  lanes : LaneMask
  vals : Lanes
  flags : Vector LaneMask 5
  deriving DecidableEq, Repr

/-- A scratchpad allocation (R218). -/
structure Alloc where
  core : Nat
  index : Nat
  blk : Nat
  first : Nat
  rows : Nat
  auto : Bool
  life : Nat
  exp : Nat
  lost : Bool := false
  deriving DecidableEq, Repr

/-- A row's restore stamp and EXPIRED bit (R215). -/
structure RowSt where
  stamp : Nat := 0
  expired : Bool := false
  deriving DecidableEq, Repr

/-- A dictionary RAM (R31). -/
structure DictRam where
  tag : Nat := 0
  data : List Word := []
  stale : Bool := false
  /-- The failed load of the image, raised at a DPAIR. -/
  fail : Option Stop := none
  loaded : Bool := false
  /-- Physical lines of the image (R87). -/
  lines : List Nat := []
  deriving DecidableEq, Repr

/-- A fetched code chunk (R17). -/
structure Chunk where
  core : Nat
  region : Nat
  va : Nat
  bytes : List Byte
  /-- Physical lines the bytes came from. -/
  lines : List Nat := []
  deriving DecidableEq, Repr

/-- PREEMPT_REQ and the request it stands for (R344, R345). -/
structure Preempt where
  park : Bool := false
  /-- PARK as it stood at GO. -/
  parking : Bool := false
  bslot : Nat := 0
  busy : Bool := false
  result : Nat := 0
  saving : Bool := false
  blks : List Nat := []
  deriving DecidableEq, Repr

/-- An interleave domain (R70). -/
structure Domain where
  mask : Nat
  base : Nat := 0
  limit : Nat := 0
  busy : Bool := false
  quiesce : Bool := false
  en : Bool
  deriving DecidableEq, Repr

/-- A core's own registers and engines. -/
structure Core where
  powered : Bool := true
  inc : Nat := 0
  lclk : Nat := 0
  leasemax : Nat := 0
  place : Bool := true
  bken : Bool := false
  bkpt : Vector DWord 4 := Vector.replicate 4 0
  trapBase : Nat := 0
  /-- The trap warp's context registers (R342). -/
  region : Nat := 0
  part : Nat := 0
  world : Bool := false
  xroot : Nat := 0
  tret : Nat := 96000
  dicts : Vector DictRam 2 := Vector.replicate 2 {}
  pad : Memory := []
  rows : Tab RowSt := []
  haltq : List Nat := []
  serving : Option Nat := none
  preempt : Preempt := {}
  /-- Where the core's copy of the domain registers differs from their reset values (R73, R74). -/
  doms : Tab Domain := []
  /-- The last cycle of the core each scheduler has had (R324). -/
  turns : Vector Nat 4 := Vector.replicate 4 0
  /-- The cycle and the scheduler each shared pipe, SFU, MEM, ENG and CTL, was last granted in and to (R324). -/
  grants : Vector (Nat × Nat) 4 := Vector.replicate 4 (0, 0)
  /-- Largest tag of the arrivals on the barrier object at an offset (R164). -/
  mbTags : Tab (Nat × Nat) := []
  /-- The VQ2 table the copy engine read last (R205): its address and bytes. -/
  vqAddr : Option Nat := none
  vqTab : List Byte := []
  /-- Matrix queues by class, oldest first (R280), and the operation on the array. -/
  mq : List Nat := []
  running : Option Nat := none
  deriving DecidableEq, Repr

/-- SLICE_CTL (R76) and the slice's clock (R105). -/
structure Slice where
  on : Bool := true
  pwr : Bool := true
  inc : Nat := 0
  dead : Bool := false
  mclk : Nat := 0
  floors : Tab Nat := []
  /-- FLOOR of every set not in `floors`, set at power-on. -/
  floor0 : Nat := 0
  tags : Tab Tag := []
  deriving DecidableEq, Repr

/-- A die's registers (R49). -/
structure Die where
  skew : Int := 0
  /-- Incarnations of the other dies as this die has declared them (R100, R102). -/
  incs : Tab Nat := []
  dead : Bool := false
  doms : Vector Domain 4 := #v[⟨0xFFFFFFFF, 0, 0, false, false, true⟩, ⟨0, 0, 0, false, false, false⟩,
    ⟨0, 0, 0, false, false, false⟩, ⟨0, 0, 0, false, false, false⟩]
  shares : Tab Nat := []
  shareNew : Tab Nat := []
  slices : Tab Slice := []
  deadKind : Nat := 0
  deadAgent : Nat := 0
  deadBusy : Bool := false
  deadFail : Bool := false
  /-- The agent whose scrub is under way: KIND and AGENT as they stood at GO (R102). -/
  scrubKind : Nat := 0
  scrubAgent : Nat := 0
  bdiagEn : Bool := false
  bdelay : Nat := 0
  hor : Nat := 1000
  bbase : Option Nat := none
  vbase : Option Nat := none
  /-- SEQ counter of each core of the die (R114). -/
  seqs : Tab Nat := []
  ctxBase : Nat := 0
  ctxN : Nat := 0
  ctxUsed : List Nat := []
  ingCtl : Tab Nat := []
  ingBase : Tab Nat := []
  fwinCtl : Tab Nat := []
  fwinBase : Tab Nat := []
  devId : Nat := 0
  duty : Nat := 16
  regPtr : Tab Nat := []
  regErr : Tab Nat := []
  regBusy : List Nat := []
  /-- Device time of the queue engine's last read of every watched PIDX (R316). -/
  polled : Nat := 0
  /-- The region a record was last taken for, by class (R320). -/
  served : Tab Nat := []
  counts : Tab (Nat × Nat) := []
  deriving DecidableEq, Repr

/-- A queue descriptor as its region's activation read it, with the engine's own indices (R314, R315). -/
structure QDesc where
  ring : Nat := 0
  pidxa : Nat := 0
  log2 : Nat := 0
  en : Bool := false
  prod : Bool := false
  cons : Bool := false
  qdie : Nat := 0
  cidx : Nat := 0
  lidx : Nat := 0
  deriving DecidableEq, Repr

/-- The effective fields of an active region on a die (R313, R314). -/
structure Region where
  die : Nat
  id : Nat
  rcb : Nat
  depth : Nat := 1
  parent : Option Nat := none
  diemask : Nat := 0
  rodmask : Nat := 0
  coremask : Nat := 0
  maxcores : Nat := 768
  spceil : Nat := 2048
  l2share : Nat := 0
  hbmw : Nat := 1
  cls : Nat := 0
  part : Nat := 0
  ns : Bool := false
  policy : Nat := 0
  lease : Nat := 2000
  handler : Nat := 0
  xroot : Nat := 0
  ppool : Nat := 0
  psize : Nat := 0
  npslot : Nat := 0
  active : Bool := true
  /-- Its queues, the physical line watched for each with its leaf, and the index last read there (R316, R401). -/
  queues : Tab QDesc := []
  watch : Tab (Nat × Leaf) := []
  pidx : Tab Nat := []
  /-- The queue a record was last taken from (R320). -/
  lastq : Nat := 7
  deriving DecidableEq, Repr

/-- A launched record (R317, R320). -/
structure LRec where
  die : Nat
  region : Nat
  queue : Nat
  kind : Nat
  coop : Bool
  clust : Nat
  nblk : Nat
  code : Nat
  dict : Nat
  frame : Nat
  joinc : Nat
  rolemap : Nat := 0
  vregs : Nat := 0
  warps : Nat := 1
  nacc : Nat := 0
  nft : Nat := 0
  cls : Nat := 0
  srows : Nat := 0
  /-- Blocks placed so far and blocks that have not retired. -/
  placed : Nat := 0
  live : Nat := 0
  grid : Nat := 0
  /-- Release tag the record's ring line had when it was taken, and the tags of the cores its blocks
  have retired on (R161, R164). -/
  tag : Tag := {}
  ended : Tag := {}
  deriving DecidableEq, Repr

/-- A push on its way into a queue: a join's successor, or a CRPUSH that waits at the engine (R321, R327). -/
structure Push where
  region : Nat
  queue : Nat
  succ : Nat
  from' : Nat
  tag : Tag := {}
  /-- The warp of a CRPUSH. -/
  warp : Option Nat := none
  /-- When it reached the engine, as an identifier; 0 before (R327). -/
  at' : Nat := 0
  deriving DecidableEq, Repr

/-- An XCHG request at its rendezvous point (R245). -/
structure Xreq where
  core : Nat
  slot : Nat
  widx : Nat
  grid : Nat
  peerCore : Nat
  peerWarp : Nat
  tag : Nat
  mask : LaneMask
  vals : Lanes
  since : Nat
  deriving DecidableEq, Repr

/-- An event of the RAS log. -/
structure RasEnt where
  what : String
  args : List Nat
  deriving DecidableEq, Repr

/-- What a frame that leaves the module is: a Myder operation of its kind, or the completion of one (R351). -/
inductive Myder where
  | mread | mwrite | matom | bstage | bnote | carry | completion
  deriving DecidableEq, Repr

/-- A frame sent out of the module (R350 to R355): its port, for a completion its status, the grant key, the target
device and address, the sender's device number and incarnation, whether its flow is ordered, and what it carries. -/
structure OutMsg where
  port : Nat
  kind : Myder := .completion
  status : Nat := 0
  key : Nat := 0
  target : Nat := 0
  addr : Nat := 0
  device : Nat := 0
  inc : Nat := 0
  rod : Bool := false
  bytes : List Byte := []
  deriving DecidableEq, Repr

/-- Who moves next: a scheduler issues the warp it picks, a pending event runs, an event comes from
outside, or device time passes (model). -/
inductive Choice where
  | issue (scheduler : Nat)
  | event (k : Nat)
  | input (i : Instr)
  | pass
  deriving DecidableEq, Repr

/-- Why the machine stops.  No rule of the manual stops the whole machine: no step answers a fault. -/
inductive Fault where
  /-- Raised by nothing: kept for the host's interface.  Safe. -/
  | none
  deriving DecidableEq, Repr

/-- Why an instruction is not given a meaning. -/
inductive Refusal where
  /-- An arm of the dispatch whose meaning is not written; raised by no arm once the model is
  complete.  Safe. -/
  | notModelled (mnemonic : String)
  deriving DecidableEq, Repr

/-- The module. -/
structure State where
  time : Nat
  mem : Memory
  poison : List Nat
  side : Tab Word
  slices : List SliceLine
  dir : List DirEnt
  txns : List Nat
  /-- Requests that wait at their homes, in arrival order (R81). -/
  lineq : List LineWait
  l1 : List L1Line
  rdc : List RdcLine
  /-- Write-backs in flight, oldest first. -/
  wbs : List Wb
  vers : List VerEnt
  brecs : List BRec
  resv : List Resv
  tlb : List TlbEnt
  walks : List Walk
  /-- Requests in the rods' miss queues, oldest first: flight and request, or 0 and a queued walk (R61). -/
  missq : List (Nat × Nat)
  ras : List RasEnt
  dies : Tab Die
  cores : Tab Core
  warps : Tab Warp
  /-- What slots hold that no warp has now, by warp key. -/
  left : Tab Left
  blocks : Tab Block
  clusters : Tab Cluster
  grids : Tab Grid
  regions : List Region
  /-- Regions whose activation has read the control block and translates the producer indices (R401). -/
  going : List Region
  recs : Tab LRec
  pushes : Tab Push
  flights : Tab Flight
  ops : Tab EngOp
  locks : List Lock
  sfu : List SfuRes
  allocs : List Alloc
  chunks : List Chunk
  xreqs : Tab Xreq
  /-- Frames sent out, frames kept for Osros, and whether steps 4 and 5 of the boot have been taken (R357). -/
  outbox : List OutMsg
  osros : List (List Byte)
  booted : Bool
  opened : Bool
  grandmaster : Bool
  /-- Device time at which Osros last slewed it, and what it has still to be slewed by (R356). -/
  slewed : Nat
  steer : Int
  /-- The issuing warp: 65 core + slot, slot 64 for the trap warp (model). -/
  cur : Nat
  /-- The issuing warp's registers before the chain, inside a chain (R22) (model). -/
  src : Option Warp
  /-- `nextId` at the start of the chain: what issued in the chain itself raises no hazard (R22)
  (model). -/
  srcId : Nat
  /-- Position of the chain being issued and of what follows it: packet, slot, expansion bit (model). -/
  pos : Nat × Nat × Bool
  npos : Nat × Nat × Bool
  out : Issue
  /-- The prefix of the element being issued: MASK, Z, RND, OP4 (R27) (model). -/
  pfx : Option (Nat × Bool × Nat × Src)
  /-- The lanes of a load that SRET issues again (R339) (model). -/
  only : Option LaneMask
  /-- Words a DPAIR expanded to (R29) (model). -/
  expansion : List Word
  agenda : List Instr
  sched : List Choice
  nextId : Nat
  /-- How many free values the module has drawn (model). -/
  drawn : Nat
  deriving DecidableEq, Repr

/-- The module right after reset, before boot (R357): every table empty, so every core, die and
slice holds its reset values, no warp exists, and memory lists nothing. -/
def State.reset : State where
  time := 0
  mem := []
  poison := []
  side := []
  slices := []
  dir := []
  txns := []
  lineq := []
  l1 := []
  rdc := []
  wbs := []
  vers := []
  brecs := []
  resv := []
  tlb := []
  walks := []
  missq := []
  ras := []
  dies := []
  cores := []
  warps := []
  left := []
  blocks := []
  clusters := []
  grids := []
  regions := []
  going := []
  recs := []
  pushes := []
  flights := []
  ops := []
  locks := []
  sfu := []
  allocs := []
  chunks := []
  xreqs := []
  outbox := []
  osros := []
  booted := false
  opened := false
  grandmaster := true
  slewed := 0
  steer := 0
  cur := 0
  src := none
  srcId := 0
  pos := (0, 0, false)
  npos := (0, 0, false)
  out := .done
  pfx := none
  only := none
  expansion := []
  agenda := []
  sched := []
  nextId := 1
  drawn := 0

end Sys2Proof.Machine
end

