-- ==== Sys2Proof/Machine/Ops.lean ====
section
/-!
DEFINITION. The named operations over memory, registers, warps and blocks that every meaning shares,
and taking an exception (17_traps_preemption.md R328 to R333) with the return from it (R339).
-/

namespace Sys2Proof.Machine

/-- How every meaning ends. -/
abbrev Result := Host.Outcome State Fault Refusal

/-! Sparse tables. -/

/-- The entry of a key. -/
def Tab.get? {α : Type} : Tab α → Nat → Option α
  | [], _ => none
  | (k', a) :: t, k => if k' = k then some a else Tab.get? t k

/-- The entry of a key, or the value an absent entry stands for. -/
def Tab.get {α : Type} (t : Tab α) (k : Nat) (d : α) : α := (t.get? k).getD d

/-- Writes an entry, keys rising. -/
def Tab.put {α : Type} : Tab α → Nat → α → Tab α
  | [], k, a => [(k, a)]
  | (k', a') :: t, k, a =>
    if k < k' then (k, a) :: (k', a') :: t
    else if k = k' then (k, a) :: t
    else (k', a') :: Tab.put t k a

/-- Removes a key. -/
def Tab.del {α : Type} (t : Tab α) (k : Nat) : Tab α := t.filter fun e => e.1 != k

/-! Memory: bytes by address (00_scope.md R11); a byte never written reads as 0. -/

/-- The canonical form: addresses strictly rise and no entry holds the value of an unlisted byte. -/
abbrev Memory.wf (m : Memory) : Prop :=
  m.Pairwise (fun c d => c.1 < d.1) ∧ ∀ c ∈ m, c.2 ≠ 0

/-- What an address that is not listed reads as.
DESIGN CHOICE, log entry 2. -/
def Memory.unlisted : Byte := 0

/-- One byte of memory. -/
def Memory.read (m : Memory) (a : Nat) : Byte := Tab.get m a Memory.unlisted

/-- Writes one byte, keeping the canonical form. -/
def Memory.write (m : Memory) (a : Nat) (b : Byte) : Memory :=
  if b = Memory.unlisted then Tab.del m a else Tab.put m a b

/-- `n` bytes from an address. -/
def Memory.readN (m : Memory) (a : Nat) : Nat → List Byte
  | 0 => []
  | n + 1 => m.read a :: Memory.readN m (a + 1) n

/-- Writes bytes from an address. -/
def Memory.writeN (m : Memory) (a : Nat) : List Byte → Memory
  | [] => m
  | b :: bs => (m.write a b).writeN (a + 1) bs

/-- The little-endian bytes of a number (R11). -/
def leBytes : Nat → Nat → List Byte
  | 0, _ => []
  | n + 1, v => BitVec.ofNat 8 v :: leBytes n (v / 256)

/-- The number little-endian bytes hold (R11). -/
def leNat : List Byte → Nat
  | [] => 0
  | b :: bs => b.toNat + 256 * leNat bs

/-- `n` bytes of a list from a place. -/
def slice (l : List Byte) (i n : Nat) : List Byte := (l.drop i).take n

/-- A field of `n` bytes of a record. -/
def fieldAt (l : List Byte) (i n : Nat) : Nat := leNat (slice l i n)

/-- Replaces bytes of a list from a place. -/
def patch (l : List Byte) (i : Nat) (bs : List Byte) : List Byte :=
  l.take i ++ bs ++ l.drop (i + bs.length)

/-- Bits [hi:lo] of a number, `n` of them from `lo`. -/
def bits (v lo n : Nat) : Nat := v / 2 ^ lo % 2 ^ n

/-- A word read as a signed integer. -/
def wInt (w : Word) : Int := w.toInt

/-- The low 32 bits of an integer (R14). -/
def toWord (i : Int) : Word := BitVec.ofInt 32 i

/-- Bits [63:32] and [31:0] of a value in an even and odd pair (R11). -/
def lowWord (v : Nat) : Word := BitVec.ofNat 32 v
def highWord (v : Nat) : Word := BitVec.ofNat 32 (v / 2 ^ 32)

/-- The address space of global virtual addresses (02_main_memory.md, above R52). -/
def vaTop : Nat := 2 ^ 56

/-! Where things stand (00_scope.md R1 to R10). -/

/-- Warp key: 65 core + slot; slot 64 is the core's trap warp. -/
def warpKey (core slot : Nat) : Nat := 65 * core + slot
def keyCore (k : Nat) : Nat := k / 65
def keySlot (k : Nat) : Nat := k % 65
def dieOf (core : Nat) : Nat := core / 32
/-- Rods numbered over the module. -/
def rodOf (core : Nat) : Nat := core / 8
def coresOfDie (die : Nat) : List Nat := (List.range 32).map (32 * die + ·)
def coresOfRod (rod : Nat) : List Nat := (List.range 8).map (8 * rod + ·)
def allDies : List Nat := List.range 24
/-- Links crossed between two dies (R2, R91). -/
def hops (a b : Nat) : Nat :=
  let d (x y : Nat) := if x < y then y - x else x - y
  d (a % 6) (b % 6) + d (a / 6) (b / 6)

namespace State

def core (s : State) (c : Nat) : Core := s.cores.get c {}
def modCore (s : State) (c : Nat) (f : Core → Core) : State :=
  { s with cores := s.cores.put c (f (s.core c)) }
def die (s : State) (d : Nat) : Die := s.dies.get d {}
def modDie (s : State) (d : Nat) (f : Die → Die) : State :=
  { s with dies := s.dies.put d (f (s.die d)) }
def warp (s : State) (k : Nat) : Warp := s.warps.get k {}
def modWarp (s : State) (k : Nat) (f : Warp → Warp) : State :=
  { s with warps := s.warps.put k (f (s.warp k)) }
def block (s : State) (b : Nat) : Block := s.blocks.get b {}
def modBlock (s : State) (b : Nat) (f : Block → Block) : State :=
  { s with blocks := s.blocks.put b (f (s.block b)) }
def cluster (s : State) (c : Nat) : Cluster := s.clusters.get c {}
def modCluster (s : State) (c : Nat) (f : Cluster → Cluster) : State :=
  { s with clusters := s.clusters.put c (f (s.cluster c)) }
def grid (s : State) (g : Nat) : Grid := s.grids.get g {}
def modGrid (s : State) (g : Nat) (f : Grid → Grid) : State :=
  { s with grids := s.grids.put g (f (s.grid g)) }
def modFlight (s : State) (id : Nat) (f : Flight → Flight) : State :=
  match s.flights.get? id with
  | some x => { s with flights := s.flights.put id (f x) }
  | none => s
def modOp (s : State) (id : Nat) (f : EngOp → EngOp) : State :=
  match s.ops.get? id with
  | some x => { s with ops := s.ops.put id (f x) }
  | none => s

/-- The issuing warp. -/
def me (s : State) : Warp := s.warp s.cur
def modMe (s : State) (f : Warp → Warp) : State := s.modWarp s.cur f
/-- The issuing warp as it stood before its chain: what operands are read from (R22). -/
def before (s : State) : Warp := s.src.getD s.me
def myCore (s : State) : Nat := keyCore s.cur
def mySlot (s : State) : Nat := keySlot s.cur
def isTrap (s : State) : Bool := s.mySlot == 64
def myBlk (s : State) : Nat := s.me.blk
def myBlock (s : State) : Block := s.block s.myBlk
def modMyBlock (s : State) (f : Block → Block) : State := s.modBlock s.myBlk f

/-- Device time as a die reads it (R8).
DESIGN CHOICE, log entry 4. -/
def now (s : State) (die : Nat) : Nat := ((s.time : Int) + (s.die die).skew).toNat
def nowCore (s : State) (c : Nat) : Nat := s.now (dieOf c)

/-- Sends messages, queued behind those in flight. -/
def push (s : State) (is : List Instr) : State := { s with agenda := s.agenda ++ is }
/-- Sends a message unless the same one is in flight. -/
def pushNew (s : State) (i : Instr) : State := if i ∈ s.agenda then s else s.push [i]

/-- The scheduler of its core that owns a warp slot; the trap warp is issued by scheduler 0 (R324). -/
def schedulerIn (slot : Nat) : Nat := if slot = 64 then 0 else slot / 16

/-- How often a warp's scheduler has picked: the cycles ages are counted in (R324).
DESIGN CHOICE, log entry 7. -/
def turnOf (s : State) (k : Nat) : Nat := ((s.core (keyCore k)).turns[schedulerIn (keySlot k)]?).getD 0

/-- A fresh identifier. -/
def fresh (s : State) : Nat × State := (s.nextId, { s with nextId := s.nextId + 1 })

/-- An entry of the RAS log.
DESIGN CHOICE, log entry 54. -/
def log (s : State) (what : String) (args : List Nat) : State :=
  { s with ras := s.ras ++ [⟨what, args⟩] }

/-- Privileged: the trap warp and blocks of region 0 (R332). -/
def isPriv (s : State) : Bool := s.isTrap || s.myBlock.priv

/-- REGION, PART, WORLD, XLATE_ROOT, lease and class of the issuing context (R323, R332, R342). -/
def ctxRegion (s : State) : Nat := if s.isTrap then (s.core s.myCore).region else s.myBlock.xregion
def ctxPart (s : State) : Nat := if s.isTrap then (s.core s.myCore).part else s.myBlock.part
def ctxNs (s : State) : Bool := if s.isTrap then (s.core s.myCore).world else s.myBlock.ns
def ctxRoot (s : State) : Nat := if s.isTrap then (s.core s.myCore).xroot else s.myBlock.xroot
def ctxLease (s : State) : Nat := if s.isTrap then 2000 else s.myBlock.lease
def ctxCls (s : State) : Nat := if s.isTrap then 0 else s.myBlock.cls

/-- Whether a warp slot holds a warp. -/
def hasWarp (s : State) (k : Nat) : Bool := (s.warps.get? k).isSome

/-- Keys of a block's warps in warp-index order. -/
def blockWarps (s : State) (b : Nat) : List Nat :=
  (s.block b).slots.map (warpKey (s.block b).core)

/-- Blocks resident on a core. -/
def blocksOn (s : State) (c : Nat) : List Nat :=
  (s.blocks.filter fun e => e.2.core == c && e.2.state != .evicted && e.2.state != .retired).map (·.1)

/-- The instruction took effect. -/
def done (s : State) : State := { s with out := .done }
/-- The instruction's chain waits at issue. -/
def wait (s : State) : State := { s with out := .waiting }
/-- The instruction has issued and waits. -/
def park (s : State) : State := { s with out := .parked }

end State

/-! Registers (01_instruction_words.md R34). -/

/-- Word `j` of a lane mask: lanes 32j to 32j + 31 (R39). -/
def maskWord (m : LaneMask) (j : Nat) : Word := m.extractLsb' (32 * j) 32

/-- A lane mask from its three words. -/
def maskOf (a b c : Word) : LaneMask := c ++ b ++ a

/-- The lanes a test holds for. -/
def maskIf (p : Nat → Bool) : LaneMask :=
  BitVec.ofNat 96 ((List.range 96).foldl (fun n l => if p l then n + 2 ^ l else n) 0)

def laneList (m : LaneMask) : List Nat := (List.range 96).filter m.getLsbD

/-- The lowest lane of a mask, 0 for none. -/
def lowLane (m : LaneMask) : Nat := (laneList m).headD 0

def lanesOf (f : Nat → Word) : Lanes := Vector.ofFn fun i : Fin 96 => f i.val

/-- A lane of a vector register. -/
def lane (v : Lanes) (l : Nat) : Word := v[l]?.getD 0

namespace Warp

def sreg (w : Warp) (n : Nat) : Word := w.s[n]?.getD 0

/-- What a v register holds before anything has written it: in a warp that a placement or a trap has
started, free values (11_register_tree.md R230). -/
def unwritten (w : Warp) (n : Nat) : Lanes :=
  match w.vseed with
  | none => Vector.replicate 96 0
  | some i => Vector.ofFn fun l : Fin 96 => Config.freeWord (i + 96 * n + l.val)

def vreg (w : Warp) (n : Nat) : Lanes := w.v.get n (w.unwritten n)
def qreg (w : Warp) (r j : Nat) : Word := w.q[3 * r + j]?.getD 0

/-- A write of s0, s1 or s2 stores the value AND SLS (15_control_flow.md R299). -/
def slsAnd (sls : LaneMask) (n : Nat) (x : Word) : Word :=
  if n < 3 then x &&& maskWord sls n else x

/-- Poison keys of R336: element `lane` of v register `n`, and s register `n`. -/
def vKey (n lane : Nat) : Nat := 96 * n + lane
def sKey (n : Nat) : Nat := 96 * 128 + n

/-- Writes an s register for a split whose lanes are `sls`, clearing its poison (R299, R336). -/
def setSAt (w : Warp) (sls : LaneMask) (n : Nat) (x : Word) : Warp :=
  { w with s := w.s.setIfInBounds n (slsAnd sls n x), bad := w.bad.del (sKey n) }

/-- Writes an s register for the running split (R299). -/
def setS (w : Warp) (n : Nat) (x : Word) : Warp := w.setSAt w.sls n x

/-- Writes lanes of a v register, clearing their poison (R336). -/
def setV (w : Warp) (n : Nat) (m : LaneMask) (x : Lanes) : Warp :=
  let old := w.vreg n
  { w with
    v := w.v.put n (lanesOf fun l => if m.getLsbD l then lane x l else lane old l)
    bad := w.bad.filter fun e => !(e.1 / 96 == n && m.getLsbD (e.1 % 96)) }

def setQ (w : Warp) (r j : Nat) (x : Word) : Warp :=
  { w with q := w.q.setIfInBounds (3 * r + j) x }

/-- Mask triple mn (R39). -/
def triple (w : Warp) (n : Nat) : LaneMask := maskOf (w.sreg (3 * n)) (w.sreg (3 * n + 1)) (w.sreg (3 * n + 2))

def setTriple (w : Warp) (n : Nat) (m : LaneMask) : Warp :=
  ((w.setS (3 * n) (maskWord m 0)).setS (3 * n + 1) (maskWord m 1)).setS (3 * n + 2) (maskWord m 2)

/-- The execute mask, m0 (R39). -/
def exec (w : Warp) : LaneMask := w.triple 0

/-- A 64-bit value of an even s pair (R35). -/
def spair (w : Warp) (n : Nat) : Nat := (w.sreg n).toNat + 2 ^ 32 * (w.sreg (n + 1)).toNat

def setSpair (w : Warp) (n : Nat) (v : Nat) : Warp := (w.setS n (lowWord v)).setS (n + 1) (highWord v)

/-- Position of a warp: packet, slot and expansion bit (R16). -/
def position (w : Warp) : Nat × Nat × Bool := (w.pc, w.slot, w.exp)
def goto (w : Warp) (p : Nat × Nat × Bool) : Warp := { w with pc := p.1, slot := p.2.1, exp := p.2.2 }

/-- Lanes a new warp starts with are all 96; lanes of the running split that have not exited. -/
def alive (w : Warp) : Bool := w.run != .exited

end Warp

namespace State

/-- Writes an s register for the split that issued the chain (R299). -/
def setS (s : State) (n : Nat) (x : Word) : State := s.modMe (·.setSAt s.before.sls n x)
/-- Writes a pair for the split that issued the chain. -/
def setSpair (s : State) (n v : Nat) : State := (s.setS n (lowWord v)).setS (n + 1) (highWord v)
def setV (s : State) (n : Nat) (m : LaneMask) (x : Lanes) : State := s.modMe (·.setV n m x)

/-- A transfer of control: enters a packet at slot 0 (R16). -/
def jump (s : State) (tgt : Nat) : State :=
  { s.modMe (·.goto (tgt, 0, false)) with out := .moved }

end State

/-! Taking an exception (R328 to R333). -/

/-- Bit number of a cause (R328). -/
def Cause.bit : Cause → Nat
  | .illegal => 0
  | .priv => 1
  | .role => 2
  | .loadhaz => 3
  | .align => 4
  | .xlate => 5
  | .prot => 6
  | .bounds => 7
  | .foreignsp => 8
  | .stale => 9
  | .rangelock => 10
  | .agree => 11
  | .scopemix => 12
  | .arith => 13
  | .deflost => 14
  | .poison => 15
  | .regpoison => 16
  | .timeout => 17
  | .bundle => 18
  | .trapi => 19
  | .brk => 20
  | .step => 21
  | .halted => 22
  | .storeflt => 23
  | .peerlost => 24
  | .spexhaust => 25
  | .syncdiv => 26
  | .stackovf => 27

/-- CAUSE with a cause's bit set (R328). -/
def setCause (c : Word) (k : Cause) : Word := c ||| BitVec.ofNat 32 (2 ^ k.bit)

/-- The record of a stop: faulting position `f`, resumption position `r` (R331).
DEDUCED, log entry 19. -/
def Stop.record (st : Stop) (f r : Nat × Nat × Bool) : FaultRec where
  valid := true
  precise := st.precise
  haltOnly := st.cause == .halted
  replay := st.replay
  prime := st.cause.bit
  under := st.under
  level := st.level
  tier := st.tier
  fpc := f.1
  fslot := f.2.1
  fexp := f.2.2
  rpc := r.1
  rslot := r.2.1
  rexp := r.2.2
  addr := st.addr
  lanes := st.lanes
  data := st.data

/-- The word of a fault record (R331). -/
def FaultRec.word (r : FaultRec) (i : Nat) : Word :=
  let b (x : Bool) (n : Nat) : Nat := if x then 2 ^ n else 0
  match i with
  | 0 => BitVec.ofNat 32 (b r.valid 0 + b r.issExit 1 + b r.precise 2 + b r.haltOnly 3 + b r.replay 4
      + 2 ^ 8 * r.skid + 2 ^ 16 * r.exSlot)
  | 1 => BitVec.ofNat 32 (r.prime + 2 ^ 8 * r.under + 2 ^ 14 * r.level + 2 ^ 16 * r.more)
  | 2 => lowWord r.fpc
  | 3 => highWord r.fpc
  | 4 => BitVec.ofNat 32 (r.fslot + 4 * r.rslot + b r.fexp 4 + b r.rexp 5)
  | 5 => lowWord r.rpc
  | 6 => highWord r.rpc
  | 8 => lowWord r.addr
  | 9 => highWord r.addr
  | 10 => maskWord r.lanes 0
  | 11 => maskWord r.lanes 1
  | 12 => maskWord r.lanes 2
  | 13 => r.data
  | _ => 0

namespace State

/-- The position the record names as having failed and the one SRET continues at (R329). -/
def faultPos (s : State) (k : Nat) (st : Stop) : Nat × Nat × Bool :=
  if st.cause == .halted then (0, 0, false)
  else st.fpos.getD (if k = s.cur then s.pos else (s.warp k).position)
def resumePos (s : State) (k : Nat) (st : Stop) : Nat × Nat × Bool :=
  if k = s.cur then (if st.after then s.npos else s.pos) else (s.warp k).position

end State

/-- What a stopped warp's waits keep: a PUT, CRPUSH or JDEC that is sent stays sent and its answer waits, as a
match that XCHG has found does, but a failure it has answered is raised once (R246, R328). -/
def Warp.keptAsks (w : Warp) (own : Bool) : Tab Ask × Tab Reply :=
  let failed (k : Nat) : Bool := own && match w.replies.get? k with
    | some (.cause _) => true
    | _ => false
  -- what was to act together with an XCHG has not acted either (R23)
  let unsent (k : Nat) : Bool := (k == 0 || k == 3) && (w.asks.get? 4).isSome && (w.replies.get? k).isNone
  (Tab.del (Tab.del (w.asks.filter fun e => !failed e.1 && !unsent e.1) 1) 4, w.replies.filter fun e => !failed e.1)

namespace State

/-- A warp stops with a cause: CAUSE and the fault record are written and a wait is abandoned: an XCHG
request is withdrawn and a QWAIT leaves its queue.  What a PUT, CRPUSH or JDEC has already sent stays
sent, and a barrier's arrival stays made: the instruction, issued again, waits on (R328 to R331). -/
def stopWarp (s : State) (k : Nat) (st : Stop) (skid : Nat) : State :=
  let r := { st.record (s.faultPos k st) (s.resumePos k st) with skid := skid }
  let own := k = s.cur && st.precise && !st.after && st.cause != .halted
  let s := { s with xreqs := s.xreqs.filter fun e => warpKey e.2.core e.2.slot != k }
  s.modWarp k fun w =>
    { (w.goto (r.rpc, r.rslot, r.rexp)) with
      cause := setCause w.cause st.cause
      frec := r
      -- a load fault is raised once (R143)
      marks := w.marks.filter (·.stop != st)
      rpcHeld := none
      held := none
      leaseAt := if own || w.inBar.isNone then none else w.leaseAt
      run := if w.run == .exited then .exited else .stopped
      wake := .none, wakeOk := false, stepping := false, noBkpt := false
      asks := (w.keptAsks own).1
      replies := (w.keptAsks own).2
      inBar := if own then none else w.inBar }

/-- Every block of a block's cluster, itself included. -/
def clusterBlks (s : State) (b : Nat) : List Nat := (s.cluster (s.block b).cluster).blks

/-- A pre-emption request that has not started saving ends with a result (R344, R345). -/
def endPreempt (s : State) (c : Nat) (result : Nat) : State :=
  s.modCore c fun k => { k with preempt := { k.preempt with busy := false, saving := false, blks := [], result := result } }

/-- The halt of a block (R330), first raised in a warp slot: its other warps stop, and the block queues
for the trap warp. -/
def haltBlock (s : State) (b first : Nat) : State :=
  let blk := s.block b
  let running := (s.blockWarps b).filter fun k => (s.warp k).run == .running
  if blk.state == .halted && (s.core blk.core).serving == some b then
    -- warps its handler has resumed stop anew (R339)
    let s := s.modBlock b fun x => { x with again := x.again ++ [first] }
    running.foldl (fun (s : State) k => s.pushNew (.siblingHaltStop (keyCore k) (keySlot k) 0)) s
  else if blk.state != .running then s
  else
    let s := s.modBlock b ({ · with state := .halted, first := first })
    let s := s.push (running.map fun k => .siblingHaltStop (keyCore k) (keySlot k) 0)
    let s := s.modCore blk.core fun c => { c with haltq := c.haltq ++ [b] }
    -- a request on its cluster that is not yet saving ends HALTED (R345, R349)
    let asking := (coresOfRod (rodOf blk.core)).filter fun c =>
      let p := (s.core c).preempt
      p.busy && !p.saving && p.blks.contains b
    let s := asking.foldl (fun s c => s.endPreempt c 5) s
    s.pushNew (.trapWarpEntry blk.core)

/-- A bundle a warp leaves open aborts: the record's home is asked to (05_bundles.md R124). -/
def dropBundle (s : State) (k : Nat) : State :=
  let w := s.warp k
  if w.bid = 0 then s
  else
    let s := { s with brecs := s.brecs.map fun (r : BRec) =>
      if r.die = w.brecDie && r.idx = w.brecIdx && r.bid = w.bid then
        { r with fail := if r.fail = 0 then 1 else r.fail, closer := none }
      else r }
    let s := s.push [.commitRequest w.brecDie w.brecIdx]
    s.modWarp k ({ · with bid := 0, btab := [] })

/-- A warp leaves for good: bundle aborted, view dropped, its arrival counted (R124, R130, R310). -/
def endWarp (s : State) (k : Nat) : State :=
  let s := s.dropBundle k
  let s := { s with xreqs := s.xreqs.filter fun e => warpKey e.2.core e.2.slot != k }
  let s := s.modWarp k fun w =>
    { w with run := .exited, wake := .none, asks := [], replies := [], inBar := none, vopen := false, seen := [] }
  let s := s.modBlock (s.warp k).blk fun b => { b with gone := (s.warp k).widx :: b.gone }
  s.push [.barrierArrival (keyCore k) (keySlot k)]

/-- SKILL's effect on a block (R340). -/
def killBlock (s : State) (b : Nat) : State :=
  let s := (s.blockWarps b).foldl (fun s k => if (s.warp k).run == .exited then s else s.endWarp k) s
  let s := s.modBlock b fun x => { x with killed := true, bfile := { x.bfile with slots := [] } }
  let s := s.modCore (s.block b).core fun c => { c with haltq := c.haltq.filter (· != b) }
  (s.log "KILLED" [b]).push [.blockRetire b]

/-- A slot's warp is gone: what it held last stays (R230, R333). -/
def keepWarp (s : State) (k : Nat) (tiles : Tab FTile) : State :=
  match s.warps.get? k with
  | some w => { s with warps := s.warps.del k, left := s.left.put k { warp := w, ftiles := tiles } }
  | none => s

/-- A warp takes a slot. -/
def seat (s : State) (k : Nat) (w : Warp) : State :=
  { s with warps := s.warps.put k w, left := s.left.del k }

/-- The slot whose stop halts a served block anew: the first that has stopped with a cause since its handler began, or,
failing one, a warp that stands stopped (R332, R339). -/
def stoppedAnew (s : State) (b : Nat) : Option Nat :=
  let blk := s.block b
  let due (slot : Nat) : Bool :=
    let w := s.warp (warpKey blk.core slot)
    (w.run == .stopped || (w.run == .exited && w.frec.issExit)) && w.frec.valid && !w.frec.haltOnly
  blk.again.find? due <|> (((s.blockWarps b).find? fun k => (s.warp k).run == .stopped).map keySlot)

/-- The handling of a core's halted block ends (R333): warps SRET has not resumed end as SKILL ends them,
and the whole block when no other is left; one that SRET resumed and that has stopped again halts the
block anew (R339).  The trap warp's own bundle ends as at any warp's exit (R120, R124).
DEDUCED, log entry 45. -/
def endHandling (s : State) (c : Nat) : State :=
  match (s.core c).serving with
  | none => s
  | some b =>
    let dead := (s.blockWarps b).filter fun k => (s.warp k).run == .stopped && !(s.warp k).resumed
    let s :=
      if dead = [] then s
      else if (s.blockWarps b).all fun k => (s.warp k).run == .exited || dead.contains k then s.killBlock b
      else dead.foldl (fun s k => s.endWarp k) s
    let s := (s.dropBundle (warpKey c 64)).keepWarp (warpKey c 64) []
    let s := s.modCore c ({ · with serving := none })
    let s : State := if (s.block b).state == .halted && !(s.core c).haltq.contains b then
        let next := s.stoppedAnew b
        let s := s.modBlock b ({ · with state := .running, again := [] })
        match next with
        | some slot => s.haltBlock b slot
        | none => s
      else s
    let s := s.push [.blockRetire b]
    if (s.core c).haltq = [] then s else s.pushNew (.trapWarpEntry c)

/-- A cause the trap warp raises ends the handler and the halted block, and goes to the RAS log (R333). -/
def trapWarpFault (s : State) (c : Nat) (st : Stop) : State :=
  let k := warpKey c 64
  let r := st.record (s.faultPos k st) (s.resumePos k st)
  let s := (s.log "TRAPFAULT" [c, st.cause.bit, r.fpc, st.addr]).log "RECORD" (k :: (List.range 16).map fun i => (r.word i).toNat)
  match (s.core c).serving with
  | some b => (s.killBlock b).endHandling c
  | none => s.endHandling c

/-- A cause is delivered to a warp (R328, R330): taking an exception. -/
def deliver (s : State) (k : Nat) (st : Stop) : State :=
  if keySlot k = 64 then s.trapWarpFault (keyCore k) st
  else (s.stopWarp k st 0).haltBlock (s.warp k).blk (keySlot k)

/-- The issuing instruction raises a cause. -/
def raise (s : State) (st : Stop) : State := { s.deliver s.cur st with out := .raised st }

/-- A plain cause at issue. -/
def fail (s : State) (c : Cause) : State := s.raise { cause := c }

/-- A failure that reaches a warp while it runs on (R144, R335): it stops before its next chain; one
that is stopped already counts it; a killed block's goes to the RAS log. -/
def storeFault (s : State) (k : Nat) (st : Stop) : State :=
  let w := s.warp k
  let b := s.block w.blk
  if keySlot k = 64 then s.trapWarpFault (keyCore k) st
  else if b.killed then s.log "STOREFLT" [k, st.addr]
  else if b.state == .evicted || b.state == .evicting || w.run == .stopped then
    let s := if w.run == .stopped then s else s.modBlock w.blk fun x => { x with kept := x.kept <|> some w.widx }
    s.modWarp k fun w =>
      if w.frec.valid then
        { w with cause := setCause w.cause .storeflt, frec := { w.frec with more := min 255 (w.frec.more + 1) } }
      else
        { w with cause := setCause w.cause .storeflt
                 frec := { st.record (st.fpos.getD (0, 0, false)) w.position with
                   issExit := w.run == .exited, exSlot := if w.run == .exited then keySlot k else 0 } }
  else if w.run == .exited then
    let s := s.modWarp k fun w =>
      { w with cause := setCause w.cause .storeflt
               -- a record that is valid still is not overwritten (R331)
               frec := if w.frec.valid then { w.frec with more := min 255 (w.frec.more + 1) }
                 else { st.record (st.fpos.getD (0, 0, false)) w.position with
                        issExit := true, exSlot := keySlot k } }
    s.haltBlock w.blk (keySlot k)
  else s.deliver k st

/-- Whether some warp of a block remains stopped. -/
def anyStopped (s : State) (b : Nat) : Bool := (s.blockWarps b).any fun k => (s.warp k).run == .stopped

/-- The return from an exception (R339): the stopped warp continues at its resumption position, and
the block is halted no longer once none remains stopped. -/
def resumeWarp (s : State) (k : Nat) (step : Bool) : State :=
  let s := s.modWarp k fun w =>
    { (w.goto (w.frec.rpc, w.frec.rslot, w.frec.rexp)) with
      frec := { w.frec with valid := false }
      rpcHeld := none
      run := .running
      resumed := true
      stepping := step
      noBkpt := true
      age := s.turnOf k }
  let b := (s.warp k).blk
  let s := s.modBlock b fun x => { x with again := x.again.filter (· != keySlot k) }
  if s.anyStopped b then s else s.modBlock b ({ · with state := .running })

end State

/-- The outcome of an effect that may stop on its way: a state, a cause raised with no effect at all
(R23), or a wait, in the state that what it waits for has reached. -/
inductive Eff where
  | ok (s : State)
  | stop (st : Stop)
  | wait (s : State)
  deriving DecidableEq, Repr

namespace Eff

def bind (e : Eff) (k : State → Eff) : Eff :=
  match e with
  | .ok s => k s
  | e => e

def fail (c : Cause) : Eff := .stop { cause := c }

end Eff

/-- Ends an instruction with an effect's outcome; one that waits keeps nothing it has done to a warp. -/
def State.run (s : State) (e : Eff) : State :=
  match e with
  | .ok s' => s'
  | .stop st => s.raise st
  | .wait s' => { s' with warps := s.warps }.wait

end Sys2Proof.Machine
end

