-- ==== Sys2Proof/Machine/Home.lean ====
section
/-!
DEFINITION. Homes, slices, directories, Carry partials and leases (02_main_memory.md R45 to R51,
03_cache_deck.md, 04_crossing_dies.md).  A line is named by its physical line number PA[51:7].
-/

namespace Sys2Proof.Machine

/-! The physical address map (R45 to R49). -/

/-- Where a physical address is: memory homed on a die, a fabric window, the configuration window of
a die, or a reserved range. -/
inductive Place where
  | memory (die : Nat)
  | fabric
  | config
  | reserved
  deriving DecidableEq, Repr

def hbmTop : Nat := 0x18000000000
def aliasBase : Nat := 0x80000000000
def aliasTop : Nat := 0x98000000000
def lpddrBase : Nat := 0x100000000000
def lpddrTop : Nat := 0x180000000000
def fabricBase : Nat := 0x8000000000000
def configBase : Nat := 0xF000000000000
def paTop : Nat := 2 ^ 52

/-- The ranges of R45 but the alias, which the walker resolves. -/
def placeOf (pa : Nat) : Place :=
  if pa < hbmTop then .memory (pa / 2 ^ 36)
  else if lpddrBase ≤ pa && pa < lpddrTop then .memory (pa / 2 ^ 16 % 24)
  else if fabricBase ≤ pa && pa < configBase then .fabric
  else if configBase ≤ pa && pa < paTop then .config
  else .reserved

/-- The interleaved alias of HBM4E resolved to a direct address (R47). -/
def resolveAlias (a : Nat) : Nat :=
  if aliasBase ≤ a && a < aliasTop then
    let p := (a - aliasBase) / 2 ^ 16
    let j := p / 24
    let rot := bits j 0 5 ^^^ bits j 5 5 ^^^ bits j 10 5 ^^^ bits j 15 5
    let d := (p % 24 + rot) % 24
    d * 2 ^ 36 + j * 2 ^ 16 + a % 2 ^ 16
  else a

/-- The home die of a memory line. -/
def homeDie (line : Nat) : Nat :=
  match placeOf (128 * line) with
  | .memory d => d
  | _ => 0

def isMemory (line : Nat) : Bool :=
  match placeOf (128 * line) with
  | .memory _ => true
  | _ => false

/-- The access-counter entry of a line: HBM4E entries from 0, LPDDR-6 entries from 1024 (R51). -/
def counterOf (line : Nat) : Nat :=
  let pa := 128 * line
  if pa < hbmTop then pa % 2 ^ 36 / 2 ^ 26 else 1024 + (pa - lpddrBase) / 2 ^ 26

/-! Slices and sets (R68 to R71). -/

def popcount (n : Nat) (w : Nat) : Nat := ((List.range w).filter n.testBit).length

/-- The slice hash H of R71. -/
def sliceHash (pa : Nat) : Nat := bits pa 7 16 ^^^ bits pa 23 16 ^^^ bits pa 39 13

/-- The k-th set bit of a mask. -/
def nthBit (mask k : Nat) : Nat := ((List.range 32).filter mask.testBit)[k]?.getD 0

/-- The slice a mask gives an address (R71); a mask of no slice, which an enabled domain 1 to 3 may still have,
gives slice 0.
DESIGN CHOICE, log entry 56. -/
def sliceIn (mask : Nat) (pa : Nat) : Nat := nthBit mask (sliceHash pa % max 1 (popcount mask 32))

/-- The domain a set of domain registers puts a line in (R71). -/
def domainIn (doms : Nat → Domain) (line : Nat) : Nat :=
  let u := line / 512
  ([1, 2, 3].find? fun n => (doms n).en && (doms n).base ≤ u && u ≤ (doms n).limit).getD 0

/-- The domain registers after reset (R70). -/
def resetDomain (n : Nat) : Domain :=
  if n = 0 then ⟨0xFFFFFFFF, 0, 0, false, false, true⟩ else ⟨0, 0, 0, false, false, false⟩

/-- How a page lets its lines be held (R58).  The module's own accesses by physical address take part in no
partition check, allocate nothing and are never held: `rcb` those to a region control block, performed as requests
to SHARED pages are (R401), `sys` those to context and bundle records.
DESIGN CHOICE, log entry 67. -/
inductive Policy where
  | cached | stream | uc | shared | rcb | sys
  deriving DecidableEq, Repr

namespace Policy

/-- No partition check is made (R84). -/
def openTo (p : Policy) : Bool := p == .shared || p == .rcb || p == .sys
/-- The request leaves cached copies as they are (R58). -/
def leaves (p : Policy) : Bool := p == .shared || p == .rcb
def waits (p : Policy) : Bool := p != .rcb && p != .sys
/-- The home slice allocates the line (R58). -/
def allocates (p : Policy) : Bool := p == .cached || p == .stream

end Policy

def Leaf.policy (l : Leaf) : Policy :=
  if l.shared then .shared else if l.pol = 2 then .uc else if l.pol = 1 then .stream else .cached

/-- The request that a home event serves: flight and place (R81). -/
def homeReq : Instr → Option (Nat × Nat)
  | .homeLoadMissCore f k | .homeLoadMissRemote f k | .homeOwnershipMiss f k | .homeRemoteWrite f k
  | .homeAtomic f k | .homeCarryRequest f k | .bundleStaging f k | .viewConsume f k => some (f, k)
  | .ldlvAtHome f | .cmstAtHome f => some (f, 0)
  | _ => none

namespace State

def domain (s : State) (die n : Nat) : Domain := ((s.die die).doms[n]?).getD ⟨0, 0, 0, false, false, false⟩

/-- The domain of a line under its home's registers (R71). -/
def domainOf (s : State) (line : Nat) : Nat := domainIn (s.domain (homeDie line)) line

def sliceOf (s : State) (line : Nat) : Nat :=
  sliceIn (s.domain (homeDie line) (s.domainOf line)).mask (128 * line)

/-- A core's own copy of a domain register of its die (R73). -/
def coreDomain (s : State) (core n : Nat) : Domain := (s.core core).doms.get n (resetDomain n)

/-- The slice a core takes a line of its die to be in (R73). -/
def coreSlice (s : State) (core line : Nat) : Nat :=
  sliceIn (s.coreDomain core (domainIn (s.coreDomain core) line)).mask (128 * line)

def share (s : State) (die part : Nat) : Nat := (s.die die).shares.get part 0

/-- The set index of a line for a partition (R69). -/
def setOf (s : State) (line part : Nat) : Nat :=
  let n := s.share (homeDie line) part
  line % 2 ^ (14 - n) + part % 2 ^ n * 2 ^ (14 - n)

def slc (s : State) (die sc : Nat) : Slice := (s.die die).slices.get sc {}
def modSlice (s : State) (die sc : Nat) (f : Slice → Slice) : State :=
  s.modDie die fun d => { d with slices := d.slices.put sc (f (s.slc die sc)) }

/-- The line's copy in its home slice. -/
def sliceLine (s : State) (line : Nat) : Option SliceLine := s.slices.find? (·.line == line)

/-- The line's home-side data: the slice copy, or memory. -/
def homeData (s : State) (line : Nat) : List Byte :=
  match s.sliceLine line with
  | some l => l.data
  | none => s.mem.readN (128 * line) 128

/-- A memory access of the device's memory for a line is counted (R51). -/
def count (s : State) (line : Nat) (write : Bool) : State :=
  s.modDie (homeDie line) fun d =>
    let (r, w) := d.counts.get (counterOf line) (0, 0)
    let rw := if write then (r, min (2 ^ 32 - 1) (w + 1)) else (min (2 ^ 32 - 1) (r + 1), w)
    { d with counts := d.counts.put (counterOf line) rw }

/-- A line's token, FLOOR of its set when absent (R105). -/
def floorOf (s : State) (line part : Nat) : Nat :=
  let sc := s.slc (homeDie line) (s.sliceOf line)
  sc.floors.get (s.setOf line part) sc.floor0
def tokenOf (s : State) (line part : Nat) : Nat :=
  match s.sliceLine line with
  | some l => l.ver
  | none => s.floorOf line part

/-- The tag folded into a set by evictions (R164). -/
def setTag (s : State) (line part : Nat) : Tag :=
  (s.slc (homeDie line) (s.sliceOf line)).tags.get (s.setOf line part) {}

end State

def Tag.max (a b : Tag) : Tag := ⟨Nat.max a.stamp b.stamp, Nat.max a.hold b.hold⟩

namespace State

/-- Writes a slice line back to memory when dirty (R80). -/
def cleanSlice (s : State) (line : Nat) : State :=
  match s.sliceLine line with
  | some l =>
    if l.dirty then
      let s := { s with
        mem := s.mem.writeN (128 * line) l.data
        slices := s.slices.map fun (x : SliceLine) => if x.line = line then { x with dirty := false } else x }
      s.count line true
    else s
  | none => s

/-- Drops the slice copy without writing back; the set's FLOOR and tag take what it had (R105, R164). -/
def dropSlice (s : State) (line : Nat) : State :=
  match s.sliceLine line with
  | some l =>
    let s := { s with slices := s.slices.filter (·.line != line) }
    s.modSlice l.die l.slice fun x =>
      { x with floors := x.floors.put l.set x.mclk
               tags := x.tags.put l.set ((x.tags.get l.set {}).max l.tag) }
  | none => s

/-- Eviction of a slice line. -/
def evictSlice (s : State) (line : Nat) : State := (s.cleanSlice line).dropSlice line

/-- The line becomes the most recently used of its set. -/
def touchSlice (s : State) (line : Nat) : State :=
  match s.sliceLine line with
  | some l => { s with slices := l :: s.slices.filter (·.line != line) }
  | none => s

/-- Fills a line into its slice, evicting the least recently used line of a full set; a STREAM line
is inserted at the least recently used place (R68, R105, R164). -/
def fillSlice (s : State) (line part : Nat) (ns stream : Bool) : State :=
  match s.sliceLine line with
  | some _ => s.touchSlice line
  | none =>
    let die := homeDie line
    let sc := s.sliceOf line
    let set := s.setOf line part
    let mates := s.slices.filter fun x => x.die == die && x.slice == sc && x.set == set
    let s := if 16 ≤ mates.length then
        match mates.getLast? with
        | some v => s.evictSlice v.line
        | none => s
      else s
    let l : SliceLine :=
      { die := die, slice := sc, set := set, line := line, data := s.mem.readN (128 * line) 128
        part := part, ns := ns, ver := s.floorOf line part, tag := s.setTag line part }
    let s := s.count line false
    { s with slices := if stream then s.slices ++ [l] else l :: s.slices }

/-- A possible modification advances MCLK and sets VER, or FLOOR for an absent line (R105). -/
def bumpVer (s : State) (line part : Nat) : State :=
  let die := homeDie line
  match s.sliceLine line with
  | some l =>
    let v := ((s.slc l.die l.slice).mclk + 1) % 2 ^ 32
    let s := s.modSlice l.die l.slice ({ · with mclk := v })
    { s with slices := s.slices.map fun (x : SliceLine) => if x.line = line then { x with ver := v } else x }
  | none =>
    let sc := s.sliceOf line
    let v := ((s.slc die sc).mclk + 1) % 2 ^ 32
    let set := s.setOf line part
    s.modSlice die sc fun x => { x with mclk := v, floors := x.floors.put set v }

/-- A write is applied to a staged copy of its line too, outside the bundle's mask (R119). -/
def restage (s : State) (line : Nat) (g : List Byte → List Byte) : State :=
  if !(s.vers.any fun v => v.line == line && v.staged) then s
  else { s with vers := s.vers.map fun (v : VerEnt) =>
    if v.line = line && v.staged then
      let new := g v.data
      { v with data := (List.range 128).map fun i => ((if v.mask.testBit i then v.data else new)[i]?).getD 0 }
    else v }

/-- Applies a write to the home copy, in the slice if it is there, else in memory. -/
def setHomeData (s : State) (line : Nat) (g : List Byte → List Byte) : State :=
  let data := g (s.homeData line)
  let s := s.restage line g
  match s.sliceLine line with
  | some _ =>
    { s with slices := s.slices.map fun (x : SliceLine) =>
        if x.line = line then { x with data := data, dirty := true } else x }
  | none => ({ s with mem := s.mem.writeN (128 * line) data }).count line true

/-- The queue engines that watch a line are told of a write performed at its home (R316). -/
def notify (s : State) (line : Nat) : State :=
  s.regions.foldl (fun (s : State) r =>
    r.watch.foldl (fun (s : State) e => if e.2.1 = line && r.active then s.pushNew (.pidxNotice r.die r.id e.1) else s) s) s

/-- A write performed at the slice: data, version, and the poison mark a whole write clears (R103,
R105). -/
def homeWrite (s : State) (line part : Nat) (g : List Byte → List Byte) (whole : Bool) : State :=
  let s := (s.setHomeData line g).bumpVer line part
  let s := if whole then { s with poison := s.poison.filter (· != line) } else s
  s.notify line

def isPoisoned (s : State) (line : Nat) : Bool := s.poison.contains line
def setPoison (s : State) (line : Nat) : State :=
  if s.isPoisoned line then s else { s with poison := line :: s.poison }

/-- The release tag of the home copy (R164). -/
def homeTag (s : State) (line part : Nat) : Tag :=
  match s.sliceLine line with
  | some l => l.tag
  | none => s.setTag line part
def setHomeTag (s : State) (line part : Nat) (t : Tag) : State :=
  match s.sliceLine line with
  | some _ => { s with slices := s.slices.map fun (x : SliceLine) => if x.line = line then { x with tag := t } else x }
  | none =>
    let set := s.setOf line part
    s.modSlice (homeDie line) (s.sliceOf line) fun x => { x with tags := x.tags.put set t }

end State

/-! Carry combinations (R79, R110). -/

/-- Bytes of an element. -/
def CarryOp.width (op : CarryOp) : Nat := if op.code = 3 then 2 else if op.code = 1 || op.w64 then 8 else 4

def sint (w v : Nat) : Int := (BitVec.ofNat w v).toInt

/-- One element combined; rounding and NaN rules of R153 and R188. -/
def CarryOp.combine (op : CarryOp) (m x : Nat) : Nat :=
  let w := 8 * op.width
  match op.code with
  | 0 | 1 => (m + x) % 2 ^ w
  | 2 => (fAdd .fp32 .rne (unpack .fp32 m) (unpack .fp32 x)).1
  | 3 => (fAdd .bf16 .rne (unpack .bf16 m) (unpack .bf16 x)).1
  | 4 => if sint w x < sint w m then x else m
  | 5 => min m x
  | 6 => (fMinMax .fp32 false m x).1
  | 7 => if sint w m < sint w x then x else m
  | 8 => max m x
  | 9 => (fMinMax .fp32 true m x).1
  | 10 => m &&& x
  | 11 => m ||| x
  | _ => m ^^^ x

/-- The identity element (R79).
DEDUCED, log entry 20. -/
def CarryOp.identity (op : CarryOp) : Nat :=
  match op.code with
  | 4 => 0x7FFFFFFF
  | 5 => 0xFFFFFFFF
  | 6 => 0x7F800000
  | 7 => 0x80000000
  | 9 => 0xFF800000
  | 10 => 2 ^ (8 * op.width) - 1
  | _ => 0

/-- Combines two lines element by element; the fuel is the number of elements left. -/
def CarryOp.fold (op : CarryOp) : Nat → List Byte → List Byte → List Byte
  | 0, _, _ => []
  | n + 1, m, x =>
    leBytes op.width (op.combine (leNat (m.take op.width)) (leNat (x.take op.width)))
      ++ op.fold n (m.drop op.width) (x.drop op.width)

def CarryOp.mergeLine (op : CarryOp) (m x : List Byte) : List Byte := op.fold (128 / op.width) m x

def CarryOp.identityLine (op : CarryOp) : List Byte :=
  (List.replicate (128 / op.width) (leBytes op.width op.identity)).flatten

/-! The directory (R80 to R83). -/

namespace DirEnt

def covers (e : DirEnt) (line : Nat) : Bool := e.base ≤ line && line < e.base + 2 ^ e.log

/-- The state with a core taken out of it. -/
def without (c : Nat) : DirState → DirState
  | .u => .u
  | .sh cs => let r := cs.filter (· != c); if r = [] then .u else .sh r
  | .ex o => if o = c then .u else .ex o
  | .ow o cs =>
    let r := cs.filter (· != c)
    if o = c then (if r = [] then .u else .sh r) else .ow o r
  | .ca op cs ds => let r := cs.filter (· != c); if r = [] && ds = [] then .u else .ca op r ds

/-- The state with a die's Carry partial taken out of it. -/
def withoutDie (d : Nat) : DirState → DirState
  | .ca op cs ds => let r := ds.filter (· != d); if r = [] && cs = [] then .u else .ca op cs r
  | x => x

def idle (e : DirEnt) : Bool := e.st == .u && e.dies == []

end DirEnt

/-- The largest aligned block, as a power of two up to `k`, that holds `line` and no other of `held`
(R82). -/
def blockLog (held : List Nat) (line : Nat) : Nat → Nat
  | 0 => 0
  | k + 1 =>
    if held.any fun h => h != line && h / 2 ^ (k + 1) == line / 2 ^ (k + 1) then blockLog held line k
    else k + 1

/-- The entry with the state and sharers it had before the transaction under way. -/
def DirEnt.old (e : DirEnt) : DirEnt :=
  match e.was with
  | some (st, dies) => { e with st := st, dies := dies, was := none }
  | none => e

/-- An entry halved until the half with `line` has 2^k lines: that half first; the others keep the old state and
sharers (R82). -/
def DirEnt.split (e : DirEnt) (line k : Nat) : Nat → List DirEnt
  | 0 => [e]
  | fuel + 1 =>
    if e.log ≤ k then [e]
    else
      let h := 2 ^ (e.log - 1)
      let lo (x : DirEnt) : DirEnt := { x with log := e.log - 1 }
      let hi (x : DirEnt) : DirEnt := { x with base := e.base + h, log := e.log - 1 }
      if line < e.base + h then (lo e).split line k fuel ++ [hi e.old] else (hi e).split line k fuel ++ [lo e.old]

namespace State

def dirEnt (s : State) (line : Nat) : Option DirEnt := s.dir.find? (·.covers line)

def dirState (s : State) (line : Nat) : DirState := ((s.dirEnt line).map (·.st)).getD .u
def dirDies (s : State) (line : Nat) : List Nat := ((s.dirEnt line).map (·.dies)).getD []

/-- Replaces the entry that covers a line; an idle entry is freed once nothing of it is remembered. -/
def putDir (s : State) (line : Nat) (e : DirEnt) : State :=
  { s with dir := e :: s.dir.filter fun x => !x.covers line }

/-- The largest aligned block, as a power of two up to `k`, that holds a line and overlaps no entry (R82). -/
def freeLog (s : State) (line : Nat) : Nat → Nat
  | 0 => 0
  | k + 1 => if s.dir.any fun e => e.base / 2 ^ (k + 1) == line / 2 ^ (k + 1) then s.freeLog line k else k + 1

/-- The entry for the 64 KiB region of a line as it starts (R82), or for what of it other entries leave. -/
def newDir (s : State) (line part : Nat) : DirEnt :=
  let log := s.freeLog line 9
  { base := line / 2 ^ log * 2 ^ log, log := log, st := .u, part := part, touched := s.now (homeDie line) }

/-- The entry covering a line, made if there is none. -/
def dirFor (s : State) (line part : Nat) : DirEnt := (s.dirEnt line).getD (s.newDir line part)

/-- The entry of a line keeps in mind what it records, for the halves that split off, until a transaction is over
(R82). -/
def keepOld (s : State) (line : Nat) : State :=
  { s with dir := s.dir.map fun (e : DirEnt) => if e.covers line then { e with was := e.was <|> some (e.st, e.dies) } else e }
def dropOld (s : State) (line : Nat) : State :=
  { s with dir := s.dir.map fun (e : DirEnt) => if e.covers line then { e with was := none } else e }

/-- Splits the entry that covers a line down to a block of 2^k lines (R82). -/
def splitDir (s : State) (line k : Nat) : State :=
  match s.dirEnt line with
  | some e =>
    let parts := ({ e with touched := s.now (homeDie line) } : DirEnt).split line k 9
    { s with dir := parts ++ s.dir.filter fun x => !x.covers line }
  | none => s

/-- The L1 copy of a line in a core (R78). -/
def l1Line (s : State) (core line : Nat) : Option L1Line := s.l1.find? fun l => l.core == core && l.line == line
def dropL1 (s : State) (core line : Nat) : State :=
  { s with l1 := s.l1.filter fun l => !(l.core == core && l.line == line) }
def putL1 (s : State) (l : L1Line) : State :=
  { s with l1 := l :: s.l1.filter fun x => !(x.core == l.core && x.line == l.line) }
def rdcLine (s : State) (die line : Nat) : Option RdcLine := s.rdc.find? fun l => l.die == die && l.line == line
def dropRdc (s : State) (die line : Nat) : State :=
  { s with rdc := s.rdc.filter fun l => !(l.die == die && l.line == line) }
def putRdc (s : State) (l : RdcLine) : State :=
  { s with rdc := l :: s.rdc.filter fun x => !(x.die == l.die && x.line == l.line) }
/-- A line is inserted in a remote-data cache: one of a STREAM page at the lowest priority (R92). -/
def insertRdc (s : State) (l : RdcLine) (stream : Bool) : State :=
  if stream then { s with rdc := (s.rdc.filter fun x => !(x.die == l.die && x.line == l.line)) ++ [l] } else s.putRdc l

/-- A Carry partial merges into the home copy (R79, R105); one that is not in the slice is read from memory
(R51). -/
def mergeCarry (s : State) (line part : Nat) (op : CarryOp) (data : List Byte) : State :=
  let s := if (s.sliceLine line).isSome then s else s.count line false
  s.homeWrite line part (op.mergeLine · data) false

/-- Reservations of a line merge in arrival order (R99, R110). -/
def mergeResv (s : State) (line part : Nat) : State :=
  let rs := s.resv.filter (·.line == line)
  let s := rs.foldl (fun (s : State) r => s.mergeCarry line part r.op r.data) s
  { s with resv := s.resv.filter (·.line != line) }

/-- An owner's data, or a holder's partial, arrives at the home (R80, R81), where a line of a STREAM page takes the
lowest priority (R68); the reservations that arrived before a partial merge before it (R99). -/
def takeBack (s : State) (line part : Nat) (op : Option CarryOp) (d : List Byte) (ns : Bool) (t : Tag) (stream : Bool) : State :=
  let s := s.fillSlice line part ns stream
  match op with
  | some op => (s.mergeResv line part).mergeCarry line part op d
  | none =>
    let s := s.setHomeData line fun _ => d
    (s.setHomeTag line part ((s.homeTag line part).max t)).notify line

/-- A core leaves the entry of a line, split to the block the core reports (R80, R82). -/
def coreForgets (s : State) (core line : Nat) : State :=
  let held := (s.l1.filter fun l => l.core == core).map (·.line)
  let s := s.splitDir line (blockLog held line (s.dirFor line 0).log)
  match s.dirEnt line with
  | some e => s.putDir line { e with st := DirEnt.without core e.st }
  | none => s

/-- A die leaves the entry of a line, split likewise. -/
def dieForgets (s : State) (die line : Nat) : State :=
  let held := (s.rdc.filter fun l => l.die == die).map (·.line)
  let s := s.splitDir line (blockLog held line (s.dirFor line 0).log)
  match s.dirEnt line with
  | some e => s.putDir line { e with st := DirEnt.withoutDie die e.st, dies := e.dies.filter (· != die) }
  | none => s

/-- The incarnation of a core, or of a die as the home of a line knows it (R100). -/
def incOf (s : State) (die : Bool) (agent line : Nat) : Nat :=
  if die then (s.die (homeDie line)).incs.get agent 0 else (s.core agent).inc

/-- A write-back reaches its home: one of an older incarnation changes nothing and is logged (R100). -/
def arrive (s : State) (w : Wb) : State :=
  if w.inc != s.incOf w.die w.agent w.line then
    s.log "STALEMSG" [if w.die then 2 else 0, w.agent, w.inc, w.line]
  else
    let s := s.takeBack w.line (s.dirFor w.line 0).part w.op w.data w.ns w.tag w.stream
    if w.die then s.dieForgets w.agent w.line else s.coreForgets w.agent w.line

/-- The write-backs of a kind that are under way reach their homes, oldest first. -/
def settle (s : State) (p : Wb → Bool) : State :=
  let ws := s.wbs.filter p
  ws.foldl (fun (s : State) w => s.arrive w) { s with wbs := s.wbs.filter fun w => !p w }

/-- What an agent has sent about a line reaches the home before anything it sends later (R81). -/
def settleFrom (s : State) (die : Bool) (agent line : Nat) : State :=
  s.settle fun w => w.die == die && w.agent == agent && w.line == line
def settleLine (s : State) (line : Nat) : State := s.settle (·.line == line)

/-- A core's copy leaves it for the home: dirty data and partials are taken back, and the core leaves the entry
(R80, R81, R82). -/
def coreLeaves (s : State) (core line : Nat) : State :=
  let s := s.settleFrom false core line
  let part := (s.dirFor line 0).part
  let s := match s.l1Line core line with
    | some l =>
      let s := s.dropL1 core line
      match l.st with
      | .m | .o => s.takeBack line part none l.data l.ns l.tag false
      | .c op => s.takeBack line part (some op) l.data l.ns l.tag false
      | _ => s
    | none => s
  s.coreForgets core line

/-- An owner receives a forward it answers by sharing: M becomes O, E becomes S (R80); one that has sent the line
home meanwhile has left the entry (R81).  The other sharers stay. -/
def coreShares (s : State) (core line : Nat) : State :=
  let s := s.settleFrom false core line
  let held := (s.l1.filter fun l => l.core == core).map (·.line)
  let log := ((s.dirEnt line).map (·.log)).getD 0
  let s := s.splitDir line (blockLog held line log)
  let l := s.l1Line core line
  let owns := l.any fun l => l.st == .m || l.st == .o
  let s := match l with
    | some l => s.putL1 { l with st := if owns then .o else .s }
    | none => s
  match s.dirEnt line with
  | some e =>
    let cs := match e.st with
      | .ow _ cs | .sh cs => cs.filter (· != core)
      | _ => []
    s.putDir line { e with st :=
      if l.isNone then DirEnt.without core e.st else if owns then .ow core cs else .sh (core :: cs) }
  | none => s

/-- A die's cores drop the copies of a line that were filled through its remote-data cache (R97). -/
def dropDieL1 (s : State) (die line : Nat) : State :=
  { s with l1 := s.l1.filter fun l => !(l.line == line && dieOf l.core == die) }

/-- A die drops its leased or Carry copy, with the L1 copies filled through it; a partial goes to the home (R95,
R97, R99). -/
def dieLeaves (s : State) (die line : Nat) : State :=
  let s := s.settleFrom true die line
  let s := match s.rdcLine die line with
    | some l =>
      let s := s.dropRdc die line
      match l.op with
      | some op => s.takeBack line (s.dirFor line 0).part (some op) l.data l.ns l.tag l.stream
      | none => s
    | none => s
  s.dropDieL1 die line

/-- Messages that bring a line's owner and Carry holders home, as for a load from a remote die (R80). -/
def recallMsgs (s : State) (line : Nat) : List Instr :=
  match s.dirState line with
  | .ex o | .ow o _ => [.forward o line true]
  | .ca _ cs ds => cs.map (.carryCollect false · line) ++ ds.map (.carryCollect true · line)
  | _ => []

/-- Messages that also invalidate the core sharers (R80). -/
def invalidateMsgs (s : State) (line : Nat) (except : Option Nat) : List Instr :=
  match s.dirState line with
  | .sh cs => (cs.filter fun c => some c != except).map (.invalidation · line)
  | .ow o cs => (if some o = except then [] else [.forward o line true])
      ++ (cs.filter fun c => some c != except && c != o).map (.invalidation · line)
  | .ex o => if some o = except then [] else [.forward o line true]
  | .ca _ cs ds => cs.map (.carryCollect false · line) ++ ds.map (.carryCollect true · line)
  | .u => []

/-- All of it in one step, for the homes' synchronous users: owner recalled, Carry merged. -/
def collect (s : State) (line part : Nat) : State :=
  let s := (s.settleLine line).keepOld line
  let s := match s.dirState line with
    | .ex o | .ow o _ => s.coreLeaves o line
    | .ca _ cs ds =>
      let s := cs.foldl (fun (s : State) c => s.coreLeaves c line) s
      ds.foldl (fun (s : State) d => (s.dieLeaves d line).dieForgets d line) s
    | _ => s
  (s.mergeResv line part).dropOld line

/-- `collect`, and the core sharers invalidated: before a write performed at the slice. -/
def collectForWrite (s : State) (line part : Nat) : State :=
  let s := (s.collect line part).keepOld line
  (match s.dirState line with
  | .sh cs => cs.foldl (fun (s : State) c => s.coreLeaves c line) s
  | _ => s).dropOld line

/-- Every copy of a line leaves, leased ones included (R73, R75, R85, R87). -/
def revokeAll (s : State) (line part : Nat) : State :=
  let s := (s.collectForWrite line part).keepOld line
  let s := allDies.foldl (fun (s : State) d => if (s.rdcLine d line).isSome then s.dieLeaves d line else s) s
  ((s.dirDies line).foldl (fun (s : State) d => s.dieForgets d line) s).dropOld line

/-- The line as its owner holds it, or as it is on its way from the owner. -/
def ownerCopy (s : State) (line : Nat) : Option (List Byte × Tag) :=
  match s.dirState line with
  | .ex o | .ow o _ =>
    match s.l1Line o line with
    | some l => some (l.data, l.tag)
    | none => (s.wbs.find? fun w => !w.die && w.agent == o && w.line == line).map fun w => (w.data, w.tag)
  | _ => none

/-- The line as its owner or its home holds it, and its tag; partials are not merged in (R80, R164). -/
def lineNow (s : State) (line : Nat) : List Byte :=
  match s.ownerCopy line with
  | some c => c.1
  | none => s.homeData line
def lineTag (s : State) (line part : Nat) : Tag :=
  match s.ownerCopy line with
  | some c => c.2
  | none => s.homeTag line part

/-- Lease end an acknowledgment from a line's home carries: LEND when it is still to come (R97). -/
def ackLend (s : State) (line : Nat) : Nat :=
  let e := ((s.dirEnt line).map (·.lend)).getD 0
  if s.now (homeDie line) < e then e else 0

/-- Lease lengths are clamped to 250 ns to 32 us, 0 is 2 us (R93). -/
def leaseOf (n : Nat) : Nat := if n = 0 then 2000 else min 32000 (max 250 n)

/-- Whether a copy with lease end `e` is valid on a die (R94). -/
def leaseValid (s : State) (die e : Nat) : Bool := s.now die + 2 < e

/-- Checks of a request at its home: a dead die, the partition, the world (R84, R85, R103). -/
def homeCheck (s : State) (line part : Nat) (ns shared : Bool) : Option Cause :=
  let e := s.dirEnt line
  let other := match e with
    | some x => (x.st != .u || x.dies != []) && x.part != part
    | none => false
  let dirty := match s.sliceLine line with
    | some l => l.dirty && l.part != part
    | none => false
  let world := match s.sliceLine line with
    | some l => ns && !l.ns
    | none => false
  if (s.die (homeDie line)).dead then some .poison
  else if !shared && (other || dirty) then some .prot
  else if world then some .prot
  else none

/-- A secure request to a non-secure line first brings every copy home (R85); the line takes the
requester's partition (R84), and stays in the set of the partition that filled it.
DESIGN CHOICE, log entry 68. -/
def homeEnter (s : State) (line part : Nat) (ns shared : Bool) : State :=
  let s := match s.sliceLine line with
    | some l =>
      if l.ns && !ns then
        let s := (s.revokeAll line part).cleanSlice line
        { s with slices := s.slices.map fun (x : SliceLine) => if x.line = line then { x with ns := false } else x }
      else s
    | none => s
  if shared then s
  else { s with
    slices := s.slices.map fun (x : SliceLine) => if x.line = line then { x with part := part } else x
    dir := s.dir.map fun (x : DirEnt) => if x.covers line && x.idle then { x with part := part } else x }

/-- A request waits while its domain is quiesced, its slice is dead or its partition's share changes
(R73, R75, R102). -/
def homeHeld (s : State) (line part : Nat) : Bool :=
  let d := homeDie line
  let dom := s.domain d (s.domainOf line)
  dom.quiesce || (s.slc d (s.sliceOf line)).dead || ((s.die d).shareNew.get? part).isSome

/-- A request a core of the home's die sent to a slice that does not serve the line is redirected (R74). -/
def redirected (s : State) (core line : Nat) : Bool :=
  dieOf core == homeDie line && isMemory line && s.coreSlice core line != s.sliceOf line

/-- The scrub for a dead core or die is under way at the home of a line: what the agent still sends is of an old
incarnation, and nothing is taken from it (R100, R102). -/
def scrubbing (s : State) (isDie : Bool) (agent line : Nat) : Bool :=
  let d := s.die (homeDie line)
  d.deadBusy && if isDie then d.scrubKind == 2 && d.scrubAgent == agent
    else d.scrubKind == 0 && 32 * homeDie line + d.scrubAgent == agent

/-- A die that is dead answers nothing; a home that has declared it dead answers for it once it has scrubbed it
(R102). -/
def mute (s : State) (die line : Nat) : Bool :=
  ((s.die die).dead && ((s.die (homeDie line)).incs.get? die).isNone) || s.scrubbing true die line

/-- An agent that a line's entry lists does not answer now, or never (R102). -/
def silent (s : State) (line : Nat) : Bool :=
  match s.dirState line with
  | .u => false
  | .sh cs => cs.any (s.scrubbing false · line)
  | .ex o => s.scrubbing false o line
  | .ow o cs => (o :: cs).any (s.scrubbing false · line)
  | .ca _ cs ds => cs.any (s.scrubbing false · line) || ds.any (s.mute · line)

/-- A request waits while the line's requests are held, or while a transaction is under way on it (R73, R75, R81,
R102); at the homes of a dead die it is refused instead (R103). -/
def lineBusy (s : State) (line part : Nat) : Bool :=
  !(s.die (homeDie line)).dead && (s.homeHeld line part || s.txns.contains line)

/-! Requests that wait at a line's home (R73, R81). -/

/-- Whether a request on the list still waits: it has been neither taken up nor performed, and no drain it asked for
is still to be answered (R167); an engine's, while its warp has operations. -/
def stillWaits (s : State) (w : LineWait) : Bool :=
  if w.who.1 = 0 then s.ops.any fun e => warpKey e.2.core e.2.slot + 1 == w.who.2
  else match s.flights.get? w.who.1 with
    | some f => (match f.reqs[w.who.2]? with
      | some r => !r.done && !r.sent && f.drains == 0 && r.leaf.isSome && r.pa / 128 == w.line
      | none => false)
    | none => false

/-- Whether a request has to wait for others that wait for its line: those of class 0 first, otherwise in arrival
order (R81); and those held at a quiesced domain are released class 0 first (R73). -/
def behind (s : State) (who : Nat × Nat) (cls line : Nat) : Bool :=
  let mine (w : LineWait) : Bool := w.line == line && w.who == who
  let held := s.lineq.any fun w => mine w && w.queued
  ((s.lineq.takeWhile fun w => !mine w).any fun w => w.line == line && (w.cls == 0) == (cls == 0) && s.stillWaits w)
    || (cls != 0 && s.lineq.any fun w => w.cls == 0 && s.stillWaits w
      && (w.line == line || (held && w.queued && homeDie w.line == homeDie line && !s.lineBusy w.line w.part)))

/-- A request takes its place among those that wait for its line (R81). -/
def enterLineq (s : State) (who : Nat × Nat) (cls part line : Nat) : State :=
  if s.lineq.any fun w => w.line == line && w.who == who then s
  else { s with lineq := s.lineq.filter s.stillWaits ++
    [{ line := line, who := who, cls := cls, part := part
       queued := (s.domain (homeDie line) (s.domainOf line)).quiesce }] }

/-- A request gives up its place. -/
def leaveLineq (s : State) (who : Nat × Nat) (line : Nat) : State :=
  { s with lineq := s.lineq.filter fun w => !(w.line == line && w.who == who) }

/-- Evicts a directory entry: every copy in its range comes home, leased ones too, and what became of the entry
meanwhile is freed (R80, last row).
DEDUCED, log entry 58. -/
def evictDir (s : State) (e : DirEnt) : State :=
  let lines := ((s.l1.map (·.line)) ++ (s.rdc.map (·.line)) ++ (s.wbs.map (·.line))).filter e.covers
  let s := lines.foldl (fun (s : State) l => s.revokeAll l e.part) s
  { s with dir := s.dir.filter fun x => !(e.base ≤ x.base && x.base < e.base + 2 ^ e.log) }

/-- The directory set an entry is in: that of its 64 KiB region, in the slice of the region's first line (R68,
R82).
DESIGN CHOICE, log entry 15. -/
def dirSet (s : State) (line : Nat) : Nat × Nat × Nat :=
  (homeDie line, s.sliceOf (line / 512 * 512), line / 512 % 4096)

/-- The entries of a set beyond its 16 ways go, least recently used first, but none that a transaction is under
way on; the fuel is how many may go. -/
def dirEvict (s : State) (set : Nat × Nat × Nat) (line : Nat) : Nat → State
  | 0 => s
  | fuel + 1 =>
    let mine := s.dir.filter fun e => s.dirSet e.base == set
    if mine.length ≤ 16 then s
    else match (mine.filter fun e => !e.covers line && !s.txns.any e.covers && !s.silent e.base).getLast? with
      | some e => (s.evictDir e).dirEvict set line fuel
      | none => s

/-- The directory set of a line makes room for what a request on it has added (R68, R82). -/
def dirRoom (s : State) (line : Nat) : State :=
  if s.dir.length ≤ 16 then s
  else
    let set := s.dirSet line
    s.dirEvict set line ((s.dir.filter fun e => s.dirSet e.base == set).length - 16)

/-- Records in the entry of a line that a core's write was performed or granted (R167). -/
def setWriter (s : State) (line core : Nat) : State :=
  { s with dir := s.dir.map fun (e : DirEnt) => if e.covers line then { e with writer := some core } else e }

/-- An agent sends a line's data or partial home (R81, R100). -/
def sendHome (s : State) (w : Wb) : State :=
  ({ s with wbs := s.wbs ++ [w] } : State).push [.homeWriteback (w.die, w.agent) w.line]

/-- A remote-data cache makes room for a line: it holds 16 lines of a set; the least recently used leaves, a partial going home (R92,
R81).  The L1 copies filled through it leave with it, since nothing would name them any longer.
DESIGN CHOICE, log entries 12 and 57. -/
def rdcRoom (s : State) (die line cls : Nat) : State :=
  let mates := s.rdc.filter fun l => l.die == die && l.line % 65536 == line % 65536
  if mates.length < 16 || mates.any (·.line == line) then s
  else match mates.getLast? with
    | some v =>
      let s := (s.dropRdc die v.line).dropDieL1 die v.line
      match v.op with
      | some op =>
        s.sendHome { die := true, agent := die, inc := s.incOf true die v.line, line := v.line, op := some op
                     data := v.data, ns := v.ns, tag := v.tag, stream := v.stream, cls := cls }
      | none => s
    | none => s

/-- An L1 makes room for a line it does not hold: it holds 2048 lines; the oldest leaves, silently when it is clean
(R4, R80).
DESIGN CHOICE, log entry 12. -/
def l1Room (s : State) (core line cls : Nat) : State :=
  let mine := s.l1.filter fun l => l.core == core
  if mine.length < 2048 || (s.l1Line core line).isSome then s
  else match mine.getLast? with
    | some v =>
      let s := s.dropL1 core v.line
      let w : Wb := { die := false, agent := core, inc := (s.core core).inc, line := v.line, data := v.data, ns := v.ns, tag := v.tag, cls := cls }
      match v.st with
      | .s | .e => s
      | .c op => s.sendHome { w with op := some op }
      | _ => s.sendHome w
    | none => s

/-- The issuing die drops its copies as a write's acknowledgment returns to it (R97). -/
def ackClears (s : State) (die line : Nat) : State :=
  if die = homeDie line then s
  else
    let s := match s.rdcLine die line with
      | some x => if x.op == none then s.dropRdc die line else s
      | none => s
    s.dropDieL1 die line

end State

end Sys2Proof.Machine
end

