-- ==== Sys2Proof/WellFormed.lean ====
section
/-!
DEFINITION. The static checks of an instruction word: what the encoding tables of the chapters call
ILLEGAL whatever the warp's registers, budget, mode and role hold (01_instruction_words.md R33 to
R39 and the entry of each instruction).
-/

namespace Sys2Proof

namespace Src

/-- Every specifier but the sixteenth constant, which is the literal's 0xFF. -/
def ok : Src → Bool
  | .const n => n != 15
  | _ => true

def isV : Src → Bool
  | .v _ => true
  | _ => false

def isS : Src → Bool
  | .s _ => true
  | _ => false

def isEvenS : Src → Bool
  | .s n => n.toNat % 2 == 0
  | _ => false

def isEvenV : Src → Bool
  | .v n => n.toNat % 2 == 0
  | _ => false

/-- An even v pair or an even s pair: a lane address (06_memory_instructions.md R147). -/
def isPair (a : Src) : Bool := a.isEvenS || a.isEvenV

/-- Four consecutive registers named by the first, a multiple of four (R147). -/
def isQuadV : Src → Bool
  | .v n => n.toNat % 4 == 0
  | _ => false

def isQuadS : Src → Bool
  | .s n => n.toNat % 4 == 0
  | _ => false

def isLit : Src → Bool
  | .lit _ => true
  | _ => false

def isConst : Src → Bool
  | .const n => n != 15
  | _ => false

/-- A source an SCL, CTL or system field permits: no v, no q, no %lane (R36). -/
def isScl : Src → Bool
  | .v _ | .q _ => false
  | .special n => n != 0
  | a => a.ok

/-- The literal an operand carries. -/
def literal : Src → Option Word
  | .lit w => some w
  | _ => none

end Src

namespace Instr

/-- A store's data operand (R147): `lit` says whether a literal may stand there. -/
def dataOk (w : Nat) (d : Src) (lit : Bool) : Bool :=
  if w ≤ 2 then d.isV || d.isS || d.isConst || (lit && d.isLit)
  else if w = 3 then d.isEvenV || d.isEvenS
  else d.isQuadV

/-- A vector load's destination (R147). -/
def dstOk (w : Nat) (d : Src) : Bool :=
  if w = 3 then d.isEvenV else if w = 4 then d.isQuadV else d.isV

/-- ORD and SCP of a load (R147). -/
def loadOrd (o s : Nat) : Bool := o != 2 && (s ≤ 5 || (s == 7 && o == 1))

/-- ORD and SCP of a store (R147). -/
def storeOrd (o s : Nat) : Bool := o != 1 && s ≤ 5

/-- ORD and SCP of an atomic (R152). -/
def atomOrd (o s : Nat) : Bool := s ≤ 5 || (s == 7 && o == 1)

/-- The address of a barrier object: an s register, or with CL an even one (R228). -/
def mbAddr (cl : Nat) (a : Src) : Bool := if cl = 1 then a.isEvenS else a.isS

def isVpfx : Instr → Bool
  | .vpfx .. => true
  | _ => false

/-- A vector word: opcodes 0x00 to 0x1D (R40). -/
def isVector : Instr → Bool
  | .vadd .. | .vsub .. | .vadds .. | .vsubs .. | .vmul .. | .vmulh .. | .vmulhu .. | .vmad ..
  | .vand .. | .vandn .. | .vor .. | .vxor .. | .vshl .. | .vshr .. | .vsar .. | .vrol ..
  | .vmin .. | .vmax .. | .vminu .. | .vmaxu .. | .vicmp .. | .vfcmp .. | .vpopc .. | .vclz ..
  | .vbrev .. | .vctz .. | .vmov .. | .vnot .. | .vcvt .. | .vfadd .. | .vfsub .. | .vfmul ..
  | .vfscl .. | .vfma .. | .vfms .. | .vfnma .. | .vfnms .. | .vfmin .. | .vfmax .. | .vfabs ..
  | .vfneg .. | .vfrnd .. | .vffrc .. | .vh2fma .. | .vb2fma .. | .vrcp .. | .vrsq .. | .vsqrt ..
  | .vlog2 .. | .vex2 .. | .vtanh .. | .vex2s .. | .vhyp .. | .vshfl .. | .vshfx .. | .vmtov ..
  | .vvtom .. => true
  | _ => false

/-- The source specifiers of an instruction, in field order. -/
def srcs : Instr → List Src
  | .vadd _ a b | .vsub _ a b | .vadds _ a b | .vsubs _ a b | .vmul _ a b | .vmulh _ a b
  | .vmulhu _ a b | .vmad _ a b | .vand _ a b | .vandn _ a b | .vor _ a b | .vxor _ a b
  | .vshl _ a b | .vshr _ a b | .vsar _ a b | .vrol _ a b | .vmin _ a b | .vmax _ a b
  | .vminu _ a b | .vmaxu _ a b | .vicmp _ _ a b | .vfcmp _ _ a b | .vfadd _ a b | .vfsub _ a b
  | .vfmul _ a b | .vfscl _ a b | .vfma _ a b | .vfms _ a b | .vfnma _ a b | .vfnms _ a b
  | .vfmin _ a b | .vfmax _ a b | .vh2fma _ a b | .vb2fma _ a b | .vex2s _ a b | .vhyp _ a b
  | .vshfl _ a b | .vshfx _ a b | .sadd _ a b | .ssub _ a b | .smul _ a b | .smulhu _ a b
  | .sand _ a b | .sandn _ a b | .sor _ a b | .sxor _ a b | .sshl _ a b | .sshr _ a b
  | .ssar _ a b | .srol _ a b | .smin _ a b | .smax _ a b | .scmp _ _ a b | .sadd64 _ a b
  | .ssub64 _ a b | .sbfx _ a b | .sbfi _ a b | .sfadd _ a b | .sfmul _ a b | .xchg _ a b => [a, b]
  | .vpopc _ a | .vclz _ a | .vbrev _ a | .vctz _ a | .vmov _ a | .vnot _ a | .vcvt _ a _
  | .vfabs _ a | .vfneg _ a | .vfrnd _ a | .vffrc _ a | .vrcp _ a | .vrsq _ a | .vsqrt _ a
  | .vlog2 _ a | .vex2 _ a | .vtanh _ a | .vvtom _ a | .smov _ a | .snot _ a | .spopc _ a
  | .sclz _ a | .swr _ a | .calli a | .bri a | .sptest _ a | .spcast _ a _ => [a]
  | .put _ d s => [d, s]
  | .mbinit _ n a | .mbarr _ n a | .mbarx _ n a | .mbwait _ n a | .mbtest _ _ n a => [n, a]
  | .waitc _ _ _ _ t => [t]
  | .qwait _ q => [q]
  | .vld _ _ _ d a | .vldo _ _ _ d a _ | .vst _ _ _ d a | .vsto _ _ _ d a _ | .sld _ _ _ d a _
  | .sst _ _ _ d a _ | .ldsp _ _ _ d a | .stsp _ _ _ d a | .ldcl _ _ _ d a | .stcl _ _ _ d a
  | .vldv _ _ _ d a | .vstb _ d a => [d, a]
  | .cachePf l a | .cacheWb l a | .cacheInv l a | .cacheWbinv l a => [l, a]
  | .ldlv _ t a => [t, a]
  | .cmst _ _ t d => [t, d]
  | .bopen d => [d]
  | .bclose _ _ t => [t]
  | .vclose s => [s]
  | .acld _ o b | .acst _ o b => [o, b]
  | .acrd _ _ k | .acwr _ _ k => [k]
  | .ftupd _ v | .ftdnd _ v => [v]
  | .ftslvf _ v o | .ftslvb _ v o | .ftld _ v o | .ftst _ v o | .ftinit _ v o | .ftrow _ v o => [v, o]
  | .trap k => [k]
  | .sret f s => [f, s]
  | .xrd _ l i | .xwr _ l i => [l, i]
  | .tlbiRegion r => [r]
  | .tlbiPage _ r a => [r, a]
  | .tlbiPageall _ a => [a]
  | .vpfx _ _ _ o => [o]
  | _ => []

/-- The literal word an instruction takes (R25): one for all its 0xFF specifiers, or the offset of
an O form, SLD or SST, or BDIV's reconvergence count. -/
def literal : Instr → Option Word
  | .vldo _ _ _ _ _ lit | .vsto _ _ _ _ _ lit | .sld _ _ _ _ _ lit | .sst _ _ _ _ _ lit
  | .bdiv _ _ lit => some lit
  | i => i.srcs.findSome? Src.literal

/-- Every literal operand carries the one literal word. -/
def litAgree (i : Instr) : Bool :=
  i.srcs.all fun a => match a.literal, i.literal with
    | some w, some l => w == l
    | _, _ => true

/-- The checks of the instruction's own entry. -/
def fieldsOk : Instr → Bool
  | .vicmp t .. | .vfcmp t .. => t.toNat ≤ 20
  | .vmtov _ t => t.toNat ≤ 20
  | .vvtom t _ => t.toNat ≤ 20
  | .vcvt _ _ e => e.toNat ≤ 15
  | .sadd _ a b | .ssub _ a b | .smul _ a b | .smulhu _ a b | .sand _ a b | .sandn _ a b
  | .sor _ a b | .sxor _ a b | .sshl _ a b | .sshr _ a b | .ssar _ a b | .srol _ a b
  | .smin _ a b | .smax _ a b | .scmp _ _ a b | .sbfx _ a b | .sbfi _ a b | .sfadd _ a b
  | .sfmul _ a b => a.isScl && b.isScl
  | .smov _ a | .snot _ a | .spopc _ a | .sclz _ a => a.isScl
  | .sadd64 d a b | .ssub64 d a b =>
    d.toNat % 2 == 0 && (a.isEvenS || a.isConst || a.isLit) && (b.isEvenS || b.isConst || b.isLit)
  | .smcnt _ a | .smfst _ a => a.toNat ≤ 20
  | .srd _ n => n.toNat ≤ 0x12
  | .swr n b => (n.toNat == 2 || n.toNat == 3 || n.toNat == 0x10 || n.toNat == 0x11) && b.isScl
  | .put m d s =>
    m.toNat ≤ 11 && (s.isV || s.isS) &&
      (match d with
       | .s _ | .q _ | .b _ | .k _ | .g _ => true
       | _ => false)
  | .xchg _ a b => a.isV && b.isS
  | .bra k r _ =>
    k.toNat ≤ 6 && (k.toNat != 0 || r.toNat == 0) && (k.toNat < 4 || r.toNat ≤ 20)
  | .bdiv r _ _ => r.toNat ≤ 20
  | .calli a | .bri a => a.isEvenS
  | .mbinit l n a | .mbarr l n a | .mbarx l n a | .mbwait l n a => n.isScl && mbAddr l.toNat a
  | .mbtest l _ p a => p.isScl && mbAddr l.toNat a
  | .waitc v w s g t => (v == 1 || w == 1 || s == 1 || g == 1) && t.isScl
  | .fence _ s => s.toNat ≤ 5
  | .qwait d q => d.toNat % 2 == 0 && q.isScl
  | .vld o s w d a => loadOrd o.toNat s.toNat && w.toNat ≤ 6 && dstOk w.toNat d && a.isPair
  | .vldo o s w d a _ => loadOrd o.toNat s.toNat && w.toNat ≤ 6 && dstOk w.toNat d && a.isPair
  | .vst o s w d a => storeOrd o.toNat s.toNat && w.toNat ≤ 4 && dataOk w.toNat d true && a.isPair
  | .vsto o s w d a _ =>
    storeOrd o.toNat s.toNat && w.toNat ≤ 4 && dataOk w.toNat d false && a.isPair
  | .sld o s w d a _ =>
    loadOrd o.toNat s.toNat && w.toNat ≤ 6 && a.isEvenS &&
      (if w.toNat = 3 then d.isEvenS else if w.toNat = 4 then d.isQuadS else d.isS)
  | .sst o s w d a _ =>
    storeOrd o.toNat s.toNat && w.toNat ≤ 4 && a.isEvenS &&
      (if w.toNat ≤ 2 then d.isS || d.isConst
       else if w.toNat = 3 then d.isEvenS else d.isQuadS)
  | .ldsp o s w d a => o.toNat ≤ 1 && s.toNat ≤ 1 && w.toNat ≤ 6 && dstOk w.toNat d && (a.isV || a.isS)
  | .stsp o s w d a =>
    (o.toNat == 0 || o.toNat == 2) && s.toNat ≤ 1 && w.toNat ≤ 4 && dataOk w.toNat d true &&
      (a.isV || a.isS)
  | .ldcl o s w d a => o.toNat ≤ 1 && s.toNat ≤ 2 && w.toNat ≤ 6 && dstOk w.toNat d && a.isPair
  | .stcl o s w d a =>
    (o.toNat == 0 || o.toNat == 2) && s.toNat ≤ 2 && w.toNat ≤ 4 && dataOk w.toNat d true && a.isPair
  | .vatom o s w f d _ _ =>
    atomOrd o.toNat s.toNat && f.toNat ≤ 12 && (w == 0 || (f.toNat ≤ 8 && d.toNat % 2 == 0))
  | .satom o s w f d p _ =>
    atomOrd o.toNat s.toNat && f.toNat ≤ 12 && (w == 0 || (f.toNat ≤ 8 && d.toNat % 2 == 0)) &&
      p.toNat ≤ 31
  | .vcas o s w d _ =>
    atomOrd o.toNat s.toNat && (if w = 0 then d.toNat + 1 ≤ 127 else d.toNat % 2 == 0 && d.toNat + 3 ≤ 127)
  | .scas o s w d p =>
    atomOrd o.toNat s.toNat && p.toNat ≤ 31 &&
      (if w = 0 then d.toNat + 1 ≤ 63 else d.toNat % 2 == 0 && d.toNat + 3 ≤ 63)
  | .sptest _ a => a.isPair
  | .spcast d a m =>
    m.toNat ≤ 3 && (m.toNat == 0 || d.toNat % 2 == 0) && (m.toNat == 1 || a.isPair)
  | .cachePf l a | .cacheWb l a | .cacheInv l a | .cacheWbinv l a => l.isScl && a.isEvenS
  | .ldlv _ t a => t.isS && a.isEvenS
  | .cmst o s t d => o.toNat ≤ 2 && s.toNat ≤ 5 && t.isS && d.isS
  | .bopen d => d.isEvenS
  | .bclose o s t => (o.toNat == 0 || o.toNat == 2) && s.toNat ≤ 5 && t.isS
  | .vstb w d a => w.toNat ≤ 4 && dataOk w.toNat d true && a.isPair
  | .vclose s => s.isS
  | .vldv o s w d a => o.toNat ≤ 1 && s.toNat ≤ 5 && w.toNat ≤ 6 && dstOk w.toNat d && a.isPair
  | .tcopy _ b _ _ | .tcopyo _ b _ _ | .tgather _ b _ _ | .tcow _ b _ _ => b.toNat % 2 == 0
  | .cstep _ s _ _ _ _ => s.toNat ≤ 1
  | .spstat d _ => d.toNat % 2 == 0
  | .jdec p _ _ => p.toNat % 2 == 0
  | .mmasp _ _ _ _ _ k => k.toNat != 63
  | .acld _ o b | .acst _ o b => o.isS && b.isS
  | .acrd _ v k | .acwr _ v k => v.toNat % 4 == 0 && v.toNat ≤ 124 && k.isScl
  | .ftupd _ v | .ftdnd _ v => v.isV
  | .ftslvf _ v o | .ftslvb _ v o => v.isV && o.isV
  | .ftld _ v o | .ftst _ v o => v.isS && o.isS
  | .ftinit _ v o | .ftrow _ v o => v.isV && o.isScl
  | .trap k => k.isScl
  | .sret f s => f.isScl && s.isScl
  | .xrd _ l i | .xwr _ l i => l.isScl && i.isScl
  | .csrr _ n | .csrw _ n => n.toNat ≤ 8 || (0x10 ≤ n.toNat && n.toNat ≤ 0x17)
  | .tlbiRegion r => r.isS || r.isConst || r.isLit
  | .tlbiPage _ r a => (r.isS || r.isConst || r.isLit) && a.isEvenS
  | .tlbiPageall _ a => a.isEvenS
  | .vpfx m _ r _ => m.toNat ≤ 20 && r.toNat ≤ 5
  | .dpair p a b => a.toNat != 1023 && (p == 0 || b.toNat != 1023)
  | _ => true

/-- A well-formed instruction: every specifier is one, its literals agree, its entry's checks pass. -/
def wf (i : Instr) : Bool := i.srcs.all Src.ok && i.litAgree && i.fieldsOk

end Instr

end Sys2Proof
end

