-- ==== Sys2Proof/Machine/Operands.lean ====
section
/-!
DEFINITION. Operands: what specifiers read (01_instruction_words.md R36, R37, 11_register_tree.md
R231, R400), which registers an instruction reads and writes, its pipe class, and the checks that
stand before every issue (R35, R42, R43, 06_memory_instructions.md R142, R143, R249, R336).
-/

namespace Sys2Proof.Machine

/-- The inline constants of R37. -/
def constOf : Nat → Word
  | 0 => 0
  | 1 => 1
  | 2 => 2
  | 3 => 3
  | 4 => 4
  | 5 => 8
  | 6 => 16
  | 7 => 0xFFFFFFFF
  | 8 => 0x3F000000
  | 9 => 0x3F800000
  | 10 => 0x40000000
  | 11 => 0xBF800000
  | 12 => 0xBF000000
  | 13 => 0x7FFFFFFF
  | _ => 0x80000000

namespace State

/-- Committed b, k and g registers as the issuing warp reads them; 0 in the trap warp (R231, R400). -/
def readB (s : State) (n : Nat) : Word := if s.isTrap then 0 else s.myBlock.bfile.regs.get n 0
def readK (s : State) (n : Nat) : Word :=
  if s.isTrap then 0 else (s.cluster s.myBlock.cluster).file.regs.get n 0
def readG (s : State) (n : Nat) : Word :=
  if s.isTrap then 0
  else ((s.grid s.myBlock.grid).replicas.get (dieOf s.myCore) []).get n 0

/-- The specials of R37 but %lane. -/
def special (s : State) (n : Nat) : Word :=
  match n with
  | 1 => if s.isTrap then 0 else BitVec.ofNat 32 s.me.widx
  | 2 => if s.isTrap then 0 else BitVec.ofNat 32 s.myBlock.idx
  | 3 => if s.isTrap then 0 else BitVec.ofNat 32 s.myBlock.nblk
  | 4 => if s.isTrap then 0 else BitVec.ofNat 32 s.myBlock.cidx
  | 5 => BitVec.ofNat 32 s.myCore
  | 6 => BitVec.ofNat 32 (s.nowCore s.myCore)
  | _ => BitVec.ofNat 32 s.myBlock.frame

/-- What a source specifier gives a lane (R36, R37, R231). -/
def readLane (s : State) (a : Src) (l : Nat) : Word :=
  match a with
  | .v n => lane (s.before.vreg n.toNat) l
  | .s n => s.before.sreg n.toNat
  | .q n => s.before.qreg n.toNat (l / 32)
  | .b n => s.readB n.toNat
  | .k n => s.readK n.toNat
  | .g n => s.readG n.toNat
  | .special n => if n = 0 then BitVec.ofNat 32 l else s.special n.toNat
  | .const n => constOf n.toNat
  | .lit w => w

/-- What a scalar-class source gives. -/
def readScalar (s : State) (a : Src) : Word := s.readLane a 0

/-- A 64-bit operand: a pair, or a constant or literal widened by R26. -/
def read64 (s : State) (a : Src) : Nat :=
  match a with
  | .s n => s.before.spair n.toNat
  | .const n =>
    if n.toNat ≤ 7 then ((constOf n.toNat).signExtend 64).toNat else (constOf n.toNat).toNat
  | .lit w => (w.signExtend 64).toNat
  | _ => 0

/-- A lane's 64-bit address from a v pair, or the s pair all lanes share (R148). -/
def readPair (s : State) (a : Src) (l : Nat) : Nat :=
  match a with
  | .v n => (lane (s.before.vreg n.toNat) l).toNat + 2 ^ 32 * (lane (s.before.vreg (n.toNat + 1)) l).toNat
  | .s n => s.before.spair n.toNat
  | _ => 0

/-- The execute mask a chain issues under, and the active lanes under its prefix (R28, R247); a load that SRET issues
again has the lanes that failed (R339). -/
def execMask (s : State) : LaneMask := s.only.getD s.before.exec
def actMask (s : State) : LaneMask :=
  match s.pfx with
  | some (m, _, _, _) => s.execMask &&& s.before.triple m
  | none => s.execMask

/-- The prefix's Z bit. -/
def zeroing (s : State) : Bool :=
  match s.pfx with
  | some (_, z, _, _) => z
  | none => false

/-- The fourth operand of a word: the prefix's OP4, or the default its entry states (R248). -/
def readOp4 (s : State) (dflt : Nat → Word) (l : Nat) : Word :=
  match s.pfx with
  | some (_, _, _, o) => s.readLane o l
  | none => dflt l

end State

end Sys2Proof.Machine

namespace Sys2Proof

/-! Registers by key: v n is n, s n is 128 + n. -/

def Src.keys (n : Nat) : Src → List Nat
  | .v r => (List.range n).map (r.toNat + ·)
  | .s r => (List.range n).map (128 + r.toNat + ·)
  | _ => []

def sKeys (r n : Nat) : List Nat := (List.range n).map (128 + r + ·)
def vKeys (r n : Nat) : List Nat := (List.range n).map (r + ·)
def tripleKeys (n : Nat) : List Nat := sKeys (3 * n) 3

/-- Registers of a value of a W code (R32): W64 takes two and W128 four. -/
def wRegs (w : Nat) : Nat := if w = 3 then 2 else if w = 4 then 4 else 1

/-- Words that take a fourth operand with the old destination as its default (R248, R256). -/
def Instr.fmaDest : Instr → Option Nat
  | .vmad d _ _ | .vfma d _ _ | .vfms d _ _ | .vfnma d _ _ | .vfnms d _ _ | .vh2fma d _ _
  | .vb2fma d _ _ => some d.toNat
  | _ => none

/-- Words that take a fourth operand (R248). -/
def Instr.takesOp4 : Instr → Bool
  | .vex2s .. => true
  | .vcvt _ _ e => 4 ≤ e.toNat && e.toNat ≤ 7
  | i => i.fmaDest.isSome

/-- The registers an instruction names as sources, but for its prefix's. -/
def Instr.reads0 : Instr → List Nat
  | .vcvt d a e =>
    a.keys 1 ++ if e.toNat = 8 || e.toNat = 9 || e.toNat = 12 || e.toNat = 13 then [d.toNat] else []
  | .vmtov _ t => tripleKeys t.toNat
  | .sadd64 _ a b | .ssub64 _ a b => a.keys 2 ++ b.keys 2
  | .smcnt _ a | .smfst _ a => tripleKeys a.toNat
  | .sbfi d a b => a.keys 1 ++ b.keys 1 ++ [128 + d.toNat]
  | .swr _ b => b.keys 1
  | .put _ _ x => x.keys 1
  | .bra k r _ =>
    if k = 0 then [] else if k.toNat ≤ 3 then sKeys r.toNat 1 else tripleKeys r.toNat
  | .bdiv r _ _ => tripleKeys r.toNat
  | .calli a | .bri a => a.keys 2
  | .ret => sKeys 60 2
  | .mbinit l n a | .mbarr l n a | .mbarx l n a | .mbwait l n a | .mbtest l _ n a =>
    n.keys 1 ++ a.keys (if l = 1 then 2 else 1)
  | .vld _ _ _ _ a | .vldo _ _ _ _ a _ | .sld _ _ _ _ a _ | .ldcl _ _ _ _ a | .vldv _ _ _ _ a => a.keys 2
  | .ldsp _ _ _ _ a => a.keys 1
  | .vst _ _ w d a | .vsto _ _ w d a _ | .sst _ _ w d a _ | .stcl _ _ w d a | .vstb w d a =>
    d.keys (wRegs w.toNat) ++ a.keys 2
  | .stsp _ _ w d a => d.keys (wRegs w.toNat) ++ a.keys 1
  | .vatom _ _ w _ d p _ => vKeys (2 * p.toNat) 2 ++ vKeys d.toNat (1 + w.toNat)
  | .satom _ _ w _ d p _ => sKeys (2 * p.toNat) 2 ++ sKeys d.toNat (1 + w.toNat)
  | .vcas _ _ w d p => vKeys (2 * p.toNat) 2 ++ vKeys d.toNat (2 + 2 * w.toNat)
  | .scas _ _ w d p => sKeys (2 * p.toNat) 2 ++ sKeys d.toNat (2 + 2 * w.toNat)
  | .sptest _ a => a.keys 2
  | .spcast _ a m => a.keys (if m = 1 then 1 else 2)
  | .cachePf l a | .cacheWb l a | .cacheInv l a | .cacheWbinv l a => l.keys 1 ++ a.keys 2
  | .ldlv _ _ a => a.keys 2
  | .cmst _ _ _ d => d.keys 1
  | .bopen _ | .bclose _ _ _ | .vclose _ => []
  | .tcopy a b d _ | .tcopyo a b d _ | .tgather a b d _ | .tcow a b d _ =>
    sKeys a.toNat 1 ++ sKeys b.toNat 2 ++ sKeys d.toNat 1
  | .cstep _ _ a b d _ => sKeys a.toNat 1 ++ sKeys b.toNat 1 ++ sKeys d.toNat 1
  | .spalloc _ x l _ => sKeys x.toNat 1 ++ sKeys l.toNat 1
  | .spfree o => sKeys o.toNat 1
  | .sprenew o l => sKeys o.toNat 1 ++ sKeys l.toNat 1
  | .spstat _ o => sKeys o.toNat 1
  | .crpush o q _ => sKeys o.toNat 1 ++ sKeys q.toNat 1
  | .jdec p n _ => sKeys p.toNat 2 ++ sKeys n.toNat 1
  | .mma _ _ _ x y k => sKeys x.toNat 1 ++ sKeys y.toNat 1 ++ sKeys k.toNat 1
  | .mmasp _ _ _ x y k => sKeys x.toNat 1 ++ sKeys y.toNat 1 ++ sKeys k.toNat 2
  | .acrd _ _ k => k.keys 1
  | .acwr _ v k => vKeys v.toNat 4 ++ k.keys 1
  | .ftrow _ _ o => o.keys 1
  | .ftslvf _ _ o | .ftslvb _ _ o => o.keys 1
  | .xwr x l i => sKeys x.toNat 1 ++ l.keys 1 ++ i.keys 1
  | .csrw x _ => sKeys x.toNat 1
  | .tlbiPage _ r a => r.keys 1 ++ a.keys 2
  | .tlbiPageall _ a => a.keys 2
  | .vpfx .. | .dpair .. => []
  | i => i.srcs.flatMap (Src.keys 1)

/-- The registers an instruction reads for itself, each with the halves of it that its result depends on, low 1 and high 2
(R336): a conversion of one half, a byte or half stored, an amount or a lane number that stands in the low bits.
DEDUCED, log entry 18. -/
def Instr.halves : Instr → List (List Nat × Nat)
  | .vcvt _ a e =>
    [(a.keys 1, if e.toNat = 10 || e.toNat = 14 then 1 else if e.toNat = 11 || e.toNat = 15 then 2 else 3)]
  | .vshl _ a b | .vshr _ a b | .vsar _ a b | .vrol _ a b | .sshl _ a b | .sshr _ a b | .ssar _ a b | .srol _ a b
  | .sbfx _ a b => [(a.keys 1, 3), (b.keys 1, 1)]
  | .sbfi d a b => [(a.keys 1, 3), (b.keys 1, 1), (sKeys d.toNat 1, 3)]
  | .vst _ _ w d a | .vsto _ _ w d a _ | .sst _ _ w d a _ | .stcl _ _ w d a | .vstb w d a =>
    [(d.keys (wRegs w.toNat), if w.toNat ≤ 1 then 1 else 3), (a.keys 2, 3)]
  | .stsp _ _ w d a => [(d.keys (wRegs w.toNat), if w.toNat ≤ 1 then 1 else 3), (a.keys 1, 3)]
  | i => [(i.reads0, 3)]

/-- The half of its destination a conversion to a half keeps (R254). -/
def Instr.keptHalf : Instr → Nat
  | .vcvt _ _ e =>
    if e.toNat = 8 || e.toNat = 12 then 2 else if e.toNat = 9 || e.toNat = 13 then 1 else 0
  | _ => 0

/-- The registers an instruction writes (R22, R142).  What BDIV, JOIN, EXIT and a rotation do to exec counts as no
register write here.
DESIGN CHOICE, log entry 61. -/
def Instr.writes : Instr → List Nat
  | .vadd d _ _ | .vsub d _ _ | .vadds d _ _ | .vsubs d _ _ | .vmul d _ _ | .vmulh d _ _
  | .vmulhu d _ _ | .vmad d _ _ | .vand d _ _ | .vandn d _ _ | .vor d _ _ | .vxor d _ _
  | .vshl d _ _ | .vshr d _ _ | .vsar d _ _ | .vrol d _ _ | .vmin d _ _ | .vmax d _ _
  | .vminu d _ _ | .vmaxu d _ _ | .vfadd d _ _ | .vfsub d _ _ | .vfmul d _ _ | .vfscl d _ _
  | .vfma d _ _ | .vfms d _ _ | .vfnma d _ _ | .vfnms d _ _ | .vfmin d _ _ | .vfmax d _ _
  | .vh2fma d _ _ | .vb2fma d _ _ | .vex2s d _ _ | .vhyp d _ _ | .vshfl d _ _ | .vshfx d _ _
  | .vcvt d _ _ | .vmtov d _ | .xchg d _ _ => [d.toNat]
  | .vpopc d _ | .vclz d _ | .vbrev d _ | .vctz d _ | .vmov d _ | .vnot d _ | .vfabs d _
  | .vfneg d _ | .vfrnd d _ | .vffrc d _ | .vrcp d _ | .vrsq d _ | .vsqrt d _ | .vlog2 d _
  | .vex2 d _ | .vtanh d _ | .sptest d _ => [d.toNat]
  | .vicmp t _ _ _ | .vfcmp t _ _ _ => tripleKeys t.toNat
  | .vvtom t _ => tripleKeys t.toNat
  | .sadd d _ _ | .ssub d _ _ | .smul d _ _ | .smulhu d _ _ | .sand d _ _ | .sandn d _ _
  | .sor d _ _ | .sxor d _ _ | .sshl d _ _ | .sshr d _ _ | .ssar d _ _ | .srol d _ _
  | .smin d _ _ | .smax d _ _ | .sbfx d _ _ | .sbfi d _ _ | .sfadd d _ _ | .sfmul d _ _ => sKeys d.toNat 1
  | .smov d _ | .snot d _ | .spopc d _ | .sclz d _ => sKeys d.toNat 1
  | .smcnt d _ | .smfst d _ | .srd d _ => sKeys d.toNat 1
  | .scmp t _ _ _ => sKeys t.toNat 1
  | .sadd64 d _ _ | .ssub64 d _ _ => sKeys d.toNat 2
  | .put _ (.s d) _ => sKeys d.toNat 1
  | .call _ | .calli _ => sKeys 60 2
  | .mbtest _ d _ _ => sKeys d.toNat 1
  | .qwait d _ => sKeys d.toNat 2
  | .vld _ _ w d _ | .vldo _ _ w d _ _ | .sld _ _ w d _ _ | .ldsp _ _ w d _ | .ldcl _ _ w d _
  | .vldv _ _ w d _ => d.keys (wRegs w.toNat)
  | .vatom _ _ w _ d _ n => if n = 0 then vKeys d.toNat (1 + w.toNat) else []
  | .satom _ _ w _ d _ n => if n = 0 then sKeys d.toNat (1 + w.toNat) else []
  | .vcas _ _ w d _ => vKeys d.toNat (1 + w.toNat)
  | .scas _ _ w d _ => sKeys d.toNat (1 + w.toNat)
  | .spcast d _ m => vKeys d.toNat (if m = 0 then 1 else 2)
  | .ldlv d t _ => d.toNat :: t.keys 1
  | .cmst _ _ t _ | .bclose _ _ t => t.keys 1
  | .bopen d => d.keys 2
  | .vclose t => t.keys 1
  | .spalloc d _ _ _ => sKeys d.toNat 1
  | .spstat d _ => sKeys d.toNat 2
  | .crpush _ _ t => sKeys t.toNat 1
  | .jdec _ _ d => sKeys d.toNat 1
  | .acrd _ v _ => vKeys v.toNat 4
  | .ftslvf _ v _ | .ftslvb _ v _ | .ftrow _ v _ => v.keys 1
  | .xrd x _ _ | .csrr x _ => sKeys x.toNat 1
  | _ => []

end Sys2Proof

namespace Sys2Proof.Machine

namespace State

/-- The prefix's mask triple, and the fourth operand (R248). -/
def maskReads (s : State) : List Nat :=
  match s.pfx with
  | some (m, _, _, _) => if m = 0 then [] else tripleKeys m
  | none => []
def op4Reads (s : State) (i : Instr) : List Nat :=
  match s.pfx with
  | some (_, _, _, o) => if i.takesOp4 then o.keys 1 else []
  | none => match i.fmaDest with
    | some d => [d]
    | none => []

/-- The registers an instruction reads, its prefix's included (R248). -/
def reads (s : State) (i : Instr) : List Nat := i.reads0 ++ (s.maskReads ++ s.op4Reads i)

end State

end Sys2Proof.Machine

namespace Sys2Proof

/-- Pipe classes (R20, R40). -/
inductive Pipe where
  | vec | scl | sfu | mem | eng | ctl
  deriving DecidableEq, Repr

/-- The class of an instruction word; events have none. -/
def Instr.pipe : Instr → Option Pipe
  | .vrcp .. | .vrsq .. | .vsqrt .. | .vlog2 .. | .vex2 .. | .vtanh .. | .vex2s .. | .vhyp .. => some .sfu
  | .sadd .. | .ssub .. | .smul .. | .smulhu .. | .sand .. | .sandn .. | .sor .. | .sxor ..
  | .sshl .. | .sshr .. | .ssar .. | .srol .. | .smin .. | .smax .. | .smov .. | .snot .. | .scmp ..
  | .spopc .. | .sclz .. | .sadd64 .. | .ssub64 .. | .smcnt .. | .smfst .. | .sbfx .. | .sbfi ..
  | .srd .. | .swr .. | .sfadd .. | .sfmul .. | .put .. => some .scl
  | .xchg .. | .fence .. | .vld .. | .vldo .. | .vst .. | .vsto .. | .sld .. | .sst .. | .ldsp ..
  | .stsp .. | .vatom .. | .vcas .. | .satom .. | .scas .. | .ldcl .. | .stcl .. | .sptest ..
  | .spcast .. | .cachePf .. | .cacheWb .. | .cacheInv .. | .cacheWbinv .. | .ldlv .. | .cmst ..
  | .bopen .. | .bclose .. | .vstb .. | .vopen | .vclose .. | .vldv .. => some .mem
  | .tcopy .. | .tcopyo .. | .tgather .. | .tcow .. | .cstep .. | .spalloc .. | .spfree ..
  | .sprenew .. | .spstat .. | .crpush .. | .jdec .. | .mma .. | .mmasp .. | .acld .. | .acst ..
  | .acrd .. | .acwr .. | .ftupd .. | .ftdnd .. | .ftslvf .. | .ftslvb .. | .ftld .. | .ftst ..
  | .ftinit .. | .ftrow .. => some .eng
  | .bra .. | .bdiv .. | .join | .call .. | .calli .. | .ret | .bri .. | .exit | .nop | .yield
  | .barSync | .barArrive | .cbar | .gbar | .mbinit .. | .mbarr .. | .mbarx .. | .mbwait ..
  | .mbtest .. | .waitc .. | .qwait .. | .trap .. | .brk | .sret .. | .skill | .xrd .. | .xwr ..
  | .csrr .. | .csrw .. | .tlbiAll | .tlbiRegion .. | .tlbiPage .. | .tlbiPageall .. => some .ctl
  | i => if i.isVector then some .vec else none

/-- Privileged opcodes (R43). -/
def Instr.privileged : Instr → Bool
  | .sret .. | .skill | .xrd .. | .xwr .. | .csrr .. | .csrw .. | .tlbiAll | .tlbiRegion ..
  | .tlbiPage .. | .tlbiPageall .. => true
  | _ => false

/-- Whether a role may issue an engine opcode: 0 general, 1 copy, 2 matrix, 3 epilogue (R42). -/
def Instr.roleOk (i : Instr) (role : Nat) : Bool :=
  match i with
  | .tcopy .. | .tcopyo .. | .tgather .. | .tcow .. | .cstep .. => role == 0 || role == 1
  | .mma .. | .mmasp .. => role == 0 || role == 2
  | .acld .. | .acst .. | .acrd .. | .acwr .. | .ftupd .. | .ftdnd .. | .ftslvf .. | .ftslvb ..
  | .ftld .. | .ftst .. | .ftinit .. | .ftrow .. => role == 0 || role == 2 || role == 3
  | _ => true

/-- RND is permitted on words that round, and RNE on SFU words (R248). -/
def Instr.rndOk (i : Instr) (r : Nat) : Bool :=
  match i with
  | .vfadd .. | .vfsub .. | .vfmul .. | .vfscl .. | .vfma .. | .vfms .. | .vfnma .. | .vfnms ..
  | .vfrnd .. | .vffrc .. | .vh2fma .. | .vb2fma .. => r ≤ 5
  | .vcvt _ _ e => if e.toNat ≤ 9 || e.toNat = 12 || e.toNat = 13 then r ≤ 5 else r = 0
  | .vrcp .. | .vrsq .. | .vsqrt .. | .vlog2 .. | .vex2 .. | .vtanh .. | .vex2s .. | .vhyp .. => r ≤ 1
  | _ => r = 0

end Sys2Proof

namespace Sys2Proof.Machine

/-- The prefix's checks on its base (R27, R28). -/
def pfxOk (p : Option (Nat × Bool × Nat × Src)) (i : Instr) : Bool :=
  match p with
  | some (m, _, r, o) => i.isVector && m ≤ 20 && i.rndOk r && o.ok && (i.takesOp4 || !o.isLit)
  | none => true

/-- What stands before an instruction's issue. -/
inductive Gate where
  | go
  | wait
  | stop (st : Stop)
  deriving DecidableEq, Repr

namespace State

/-- The decode checks that hold for an instruction word by itself (R33 to R43). -/
def permitted (s : State) (i : Instr) : Option Cause :=
  if !(i.wf && pfxOk s.pfx i) then some .illegal
  else if (s.reads i ++ i.writes).any fun k => k < 128 && s.me.budget ≤ k then some .illegal
  else if i.privileged && !s.isPriv then some .priv
  else if !i.roleOk s.me.role then some .role
  else none

/-- Flights of the issuing warp, oldest first. -/
def myFlights (s : State) : List (Nat × Flight) :=
  s.flights.filter fun e => warpKey e.2.core e.2.slot == s.cur && !e.2.landing

end State

/-- Registers a flight writes when its data arrives (R142). -/
def Flight.keys (f : Flight) : List Nat :=
  (if f.scalar then sKeys f.dst f.ndst else vKeys f.dst f.ndst)
    ++ match f.dst2 with
      | some t => [128 + t]
      | none => []

namespace State

/-- Whether a register waits for load data issued before this chain (R22, R142). -/
def pending (s : State) (key : Nat) : Bool :=
  s.myFlights.any fun e =>
    !e.2.returned && (s.src == none || e.1 < s.srcId) && e.2.keys.contains key

/-- The fault mark on a register, the oldest load's (R143). -/
def markOn (s : State) (keys : List Nat) : Option Mark :=
  (s.before.marks.filter fun m =>
    keys.any fun k => (if m.scalar then 128 + m.reg else m.reg) ≤ k && k < (if m.scalar then 128 + m.reg else m.reg) + m.n).foldl
    (fun (a : Option Mark) m => match a with
      | some x => if m.fl < x.fl then some m else some x
      | none => some m) none

/-- Whether an SFU word, or a factor-tile word with a vector destination, issued before this chain has
still to write a register (R249, R290, R292). -/
def sfuBusy (s : State) (keys : List Nat) : Bool :=
  (s.sfu.any fun r =>
    warpKey r.core r.slot == s.cur && (s.src == none || r.id < s.srcId) && keys.contains r.dst)
  || s.ops.any fun e =>
    warpKey e.2.core e.2.slot == s.cur && (s.src == none || e.1 < s.srcId) && (match e.2.kind with
      | .ftrow | .ftslv _ => keys.contains e.2.n
      | _ => false)

/-- Words that read or clear the lane flags, or report ARITH from them (R260, R269). -/
def onFlags : Instr → Bool
  | .srd _ n => n.toNat == 2
  | .swr n _ => n.toNat == 2
  | .barSync | .barArrive | .cbar | .gbar | .exit => true
  | _ => false

/-- Whether an SFU word issued before this chain has still to set lane flags that an instruction uses (R249, R257, R260;
log entry 10). -/
def flagsBusy (s : State) (i : Instr) : Bool :=
  State.onFlags i
    && s.sfu.any fun r => warpKey r.core r.slot == s.cur && (s.src == none || r.id < s.srcId)

/-- Order of a factor tile of the issuing block. -/
def ftOrder (s : State) (t : Nat) : Nat := (s.myBlock.ftiles.get t {}).order

/-- An FTINIT or FTLD of the issuing block's tile is queued or running, so its order may change (R289). -/
def ftChanging (s : State) (t : Nat) : Bool :=
  s.ops.any fun e => e.2.blk == s.myBlk && e.2.tile == t && (e.2.kind == .ftinit || e.2.kind == .ftld)

/-- The lanes of its vector sources a factor-tile word reads (R289); none while it has to wait. -/
def ftLanes (s : State) : Instr → Option LaneMask
  | .ftinit _ _ o => some (maskIf fun l => l < (s.readScalar o).toNat)
  | .ftupd t _ | .ftdnd t _ | .ftslvf t _ _ | .ftslvb t _ _ =>
    some (if s.ftChanging t.toNat then 0 else maskIf fun l => l < s.ftOrder t.toNat)
  | _ => none

/-- Lanes of a v register whose poison, in the halves asked for, a read would consume. -/
def badLanes (s : State) (n : Nat) (m : LaneMask) (halves : Nat) : Option Nat :=
  (laneList m).find? fun l => (s.before.bad.get (Warp.vKey n l) 0 &&& halves) != 0

/-- The stop a poisoned register raises (R331, R336). -/
def poisonStop (lane reg : Nat) : Stop :=
  { cause := .regpoison, data := BitVec.ofNat 32 (256 * lane + reg % 128) }

/-- The lanes of its first source a shuffle's active lanes select (R258). -/
def shuffleLane (s : State) (x : Bool) (b : Src) (l : Nat) : Nat :=
  let i := (s.readLane b l).toNat % 128
  let j := if x then l ^^^ i else i
  if j < 96 then j else l

/-- The first of some registers whose poison, in the halves asked for, a read in lanes `m` consumes. -/
def poisonIn (s : State) (m : LaneMask) (keys : List Nat) (halves : Nat) : Option Stop :=
  keys.findSome? fun k =>
    if k < 128 then (s.badLanes k m halves).map fun l => poisonStop l k
    else if (s.before.bad.get (Warp.sKey (k - 128)) 0 &&& halves) != 0 then some (poisonStop 0 (k - 128))
    else none

/-- The lanes an instruction reads its vector sources in. -/
def readMask (s : State) (i : Instr) : LaneMask :=
  match s.ftLanes i with
  | some m => m
  | none => if i.isVector then s.actMask else s.execMask

/-- The poisoned source of its own that an instruction consumes (R336): of a shuffle's first source the selected lanes
alone. -/
def poisonOwn (s : State) (i : Instr) : Option Stop :=
  let m := s.readMask i
  let sel (x : Bool) (b : Src) : LaneMask := maskIf fun l => (laneList m).any fun n => s.shuffleLane x b n == l
  match i with
  | .vshfl _ a b => s.poisonIn m (b.keys 1) 1 <|> s.poisonIn (sel false b) (a.keys 1) 3
  | .vshfx _ a b => s.poisonIn m (b.keys 1) 1 <|> s.poisonIn (sel true b) (a.keys 1) 3
  | i => i.halves.findSome? fun e => s.poisonIn m e.1 e.2

/-- The first poisoned source an instruction consumes, its prefix's included; of a scale it reads the low bits (R254,
R336). -/
def poisonOf (s : State) (i : Instr) : Option Stop :=
  if s.before.bad = [] then none
  else
    let low := match i with
      | .vcvt .. => 1
      | _ => 3
    s.poisonOwn i <|> s.poisonIn (s.readMask i) s.maskReads 3 <|> s.poisonIn (s.readMask i) (s.op4Reads i) low

/-- The checks on the registers an instruction names: pending loads and fault marks (R142, R143), SFU
results (R249, R260), poison (R336).
DEDUCED, log entry 18. -/
def hazard (s : State) (i : Instr) : Gate :=
  let keys := s.reads i ++ i.writes
  match keys.find? s.pending with
  | some k => .stop { cause := .loadhaz, data := BitVec.ofNat 32 k }
  | none =>
    match s.markOn keys with
    | some m => .stop m.stop
    | none =>
      if s.sfuBusy keys || s.flagsBusy i then .wait
      else match s.poisonOf i with
        | some st => .stop st
        | none => .go

/-- Everything that stands before an instruction's own effect. -/
def gate (s : State) (i : Instr) : Gate :=
  match s.permitted i with
  | some c => .stop { cause := c }
  | none => s.hazard i

/-- An instruction issues: its checks, then its effect. -/
def issue (s : State) (i : Instr) (k : State) : State :=
  match s.gate i with
  | .go => k
  | .wait => s.wait
  | .stop st => s.raise st

/-- A vector word issues: with no lane in exec it does nothing at all (R247). -/
def issueVec (s : State) (i : Instr) (k : State) : State :=
  match s.permitted i with
  | some c => s.fail c
  | none => if s.execMask = 0 then s.done else s.issue i k

end State

end Sys2Proof.Machine
end

