-- ==== Sys2Proof/Machine/Flags.lean ====
section
/-!
DEFINITION. Floating-point flags, rounding modes and compare conditions (12_vector_scalar.md R248,
R253, R260, R269).
-/

namespace Sys2Proof.Machine

/-- The integer conditions of R253. -/
def intCond (k : Nat) (a b : Word) : Bool :=
  match k with
  | 0 => a == b
  | 1 => a != b
  | 2 => a.slt b
  | 3 => a.sle b
  | 4 => b.slt a
  | 5 => b.sle a
  | 6 => a.ult b
  | _ => b.ule a

/-- The floating-point conditions of R253, with the invalid flag each sets. -/
def fltCond (k : Nat) (a b : Word) : Bool × Flags :=
  let x := unpack .fp32 a.toNat
  let y := unpack .fp32 b.toNat
  let o := fCmp x y
  let sn := snanFlag [x, y]
  let any : Flags := if o = none then flInvalid else 0
  match k with
  | 0 => (o == some .eq, sn)
  | 1 => (o == some .lt || o == some .gt, sn)
  | 2 => (o == some .lt, any)
  | 3 => (o == some .lt || o == some .eq, any)
  | 4 => (o == some .gt, any)
  | 5 => (o == some .gt || o == some .eq, any)
  | 6 => (o == none, sn)
  | _ => (o != none, sn)

namespace State

/-- The mode of FPCTL.RND, as it stood before the chain (R269). -/
def dynMode (s : State) : RMode := RMode.ofCode s.before.rnd

/-- The rounding mode of a vector word (R248). -/
def rmode (s : State) : RMode :=
  match s.pfx with
  | some (_, _, r, _) => if r = 0 then s.dynMode else RMode.ofCode r
  | none => s.dynMode

end State

/-- ORs flags into the lanes of a mask (R260). -/
def orFlags (vf : Vector LaneMask 5) (m : LaneMask) (f : Nat → Flags) : Vector LaneMask 5 :=
  Vector.ofFn fun k : Fin 5 => (vf[k]) ||| maskIf fun l => m.getLsbD l && (f l).getLsbD k.val

def Warp.addFlags (w : Warp) (m : LaneMask) (f : Nat → Flags) : Warp := { w with vf := orFlags w.vf m f }
def Warp.addScalarFlags (w : Warp) (f : Flags) : Warp := { w with sf := w.sf ||| f }

/-- Lanes with a flag that TEN enables, and the enabled scalar flags (R260, R331). -/
def Warp.arithLanes (w : Warp) : LaneMask :=
  (List.range 5).foldl (fun m k => if w.ten.getLsbD k then m ||| w.vf[k]?.getD 0 else m) 0
def Warp.arithScalar (w : Warp) : BitVec 5 := w.sf &&& w.ten

/-- FPFLAGS.VF: OR over the lanes of each flag (R269). -/
def Warp.flagsOr (w : Warp) : BitVec 5 :=
  BitVec.ofNat 5 ((List.range 5).foldl (fun n k => if w.vf[k]?.getD 0 = 0 then n else n + 2 ^ k) 0)

end Sys2Proof.Machine
end

