-- ==== Sys2Proof/Machine/Vector.lean ====
section
/-!
DEFINITION. The vector words (12_vector_scalar.md R247 to R260): integer and logic, compares,
conversions, floating point, special functions, lanes and masks.
-/

namespace Sys2Proof.Machine

/-! Word functions of R252 and R265, shared with the scalar words. -/

/-- Saturation to a signed word. -/
def satWord (i : Int) : Word :=
  if i < -2 ^ 31 then 0x80000000 else if 2 ^ 31 - 1 < i then 0x7FFFFFFF else BitVec.ofInt 32 i
def mulHigh (a b : Word) : Word := BitVec.ofInt 32 (a.toInt * b.toInt / 2 ^ 32)
def mulHighU (a b : Word) : Word := BitVec.ofNat 32 (a.toNat * b.toNat / 2 ^ 32)
def shl (a b : Word) : Word := a <<< (b.toNat % 32)
def shr (a b : Word) : Word := a >>> (b.toNat % 32)
def sar (a b : Word) : Word := a.sshiftRight (b.toNat % 32)
def rol (a b : Word) : Word := a.rotateLeft (b.toNat % 32)
def sminWord (a b : Word) : Word := if b.slt a then b else a
def smaxWord (a b : Word) : Word := if a.slt b then b else a
def uminWord (a b : Word) : Word := if b.ult a then b else a
def umaxWord (a b : Word) : Word := if a.ult b then b else a
def popWord (a : Word) : Word := BitVec.ofNat 32 (popcount a.toNat 32)
/-- Leading zeros, 32 for 0. -/
def clzWord (a : Word) : Word := if a = 0 then 32 else BitVec.ofNat 32 (31 - a.toNat.log2)
/-- Trailing zeros, 32 for 0. -/
def ctzWord (a : Word) : Word := BitVec.ofNat 32 (((List.range 32).find? a.toNat.testBit).getD 32)
def brevWord (a : Word) : Word := a.reverse

namespace State

/-- A lane's old destination. -/
def oldLane (s : State) (d l : Nat) : Word := lane (s.before.vreg d) l

/-- Lanes a vector word writes: act, and with Z all of exec (R247). -/
def writeMask (s : State) : LaneMask := if s.zeroing then s.execMask else s.actMask

/-- The shared vector effect (R247, R251). -/
def vecPut (s : State) (d : Nat) (r : Nat → Word) : State :=
  (s.setV d s.writeMask (lanesOf fun l => if s.actMask.getLsbD l then r l else 0)).done

/-- The same for words that set flags, in lanes of act (R260). -/
def vecPutF (s : State) (d : Nat) (r : Nat → Word × Flags) : State :=
  ((s.setV d s.writeMask (lanesOf fun l => if s.actMask.getLsbD l then (r l).1 else 0)).modMe
    (·.addFlags s.actMask fun l => (r l).2)).done

/-- A write of one half leaves the other's poison, as `old` has it, in the lanes written (R336). -/
def keepHalf (s : State) (old : Tab Nat) (d : Nat) (m : LaneMask) (half : Nat) : State :=
  if half = 0 || old = [] then s
  else s.modMe fun w => { w with bad := (laneList m).foldl (fun (t : Tab Nat) l =>
    let x := old.get (Warp.vKey d l) 0 &&& half
    if x = 0 then t else t.put (Warp.vKey d l) x) w.bad }

/-- One bit a lane into a mask triple (R253). -/
def maskPut (s : State) (t : Nat) (r : Nat → Bool) : State :=
  let bits := maskIf fun l => s.actMask.getLsbD l && r l
  (s.modMe fun w => w.setTriple t ((w.triple t &&& ~~~s.writeMask) ||| (bits &&& s.writeMask))).done

/-- Lanes of a subgroup. -/
def subMask (j : Nat) : LaneMask := BitVec.ofNat 96 ((2 ^ 32 - 1) * 2 ^ (32 * j))

/-- An SFU word's results are queued, one entry a beat performed (R247, R257). -/
def sfuPut (s : State) (d : Nat) (r : Nat → Word × Flags) : State :=
  let vals := lanesOf fun l => if s.actMask.getLsbD l then (r l).1 else 0
  let flags := orFlags (Vector.replicate 5 0) s.actMask fun l => (r l).2
  ((List.range 3).foldl (fun (s' : State) j =>
    let m := s.writeMask &&& subMask j
    if m = 0 then s'
    else
      let (id, s') := s'.fresh
      { s' with
        sfu := s'.sfu ++ [{ id := id, core := s.myCore, slot := s.mySlot, dst := d, sub := j, lanes := m
                            vals := vals, flags := flags.map (· &&& subMask j) }]
        agenda := s'.agenda ++ [.sfuResultWrite s.myCore] }) s).done

/-- An SFU result reaches its register, and its flags the lanes (R257). -/
def sfuLand (s : State) (r : SfuRes) : State :=
  { s.modWarp (warpKey r.core r.slot) fun w =>
      { w.setV r.dst r.lanes r.vals with vf := Vector.ofFn fun k : Fin 5 => w.vf[k] ||| r.flags[k] } with
    sfu := s.sfu.filter (·.id != r.id) }

/-- Every result of a warp drains (R334). -/
def sfuDrain (s : State) (k : Nat) : State :=
  (s.sfu.filter fun r => warpKey r.core r.slot == k).foldl sfuLand s

end State

/-! Integer and logic (R252). -/

/-- VADD (R252). -/
def execVadd (d : BitVec 7) (a : Src) (b : Src) (s : State) : Result :=
  .next (s.issueVec (.vadd d a b) (s.vecPut d.toNat fun l => (s.readLane a l) + (s.readLane b l)))

/-- VSUB (R252). -/
def execVsub (d : BitVec 7) (a : Src) (b : Src) (s : State) : Result :=
  .next (s.issueVec (.vsub d a b) (s.vecPut d.toNat fun l => (s.readLane a l) - (s.readLane b l)))

/-- VADDS (R252). -/
def execVadds (d : BitVec 7) (a : Src) (b : Src) (s : State) : Result :=
  .next (s.issueVec (.vadds d a b) (s.vecPut d.toNat fun l => satWord ((s.readLane a l).toInt + (s.readLane b l).toInt)))

/-- VSUBS (R252). -/
def execVsubs (d : BitVec 7) (a : Src) (b : Src) (s : State) : Result :=
  .next (s.issueVec (.vsubs d a b) (s.vecPut d.toNat fun l => satWord ((s.readLane a l).toInt - (s.readLane b l).toInt)))

/-- VMUL (R252). -/
def execVmul (d : BitVec 7) (a : Src) (b : Src) (s : State) : Result :=
  .next (s.issueVec (.vmul d a b) (s.vecPut d.toNat fun l => (s.readLane a l) * (s.readLane b l)))

/-- VMULH (R252). -/
def execVmulh (d : BitVec 7) (a : Src) (b : Src) (s : State) : Result :=
  .next (s.issueVec (.vmulh d a b) (s.vecPut d.toNat fun l => mulHigh (s.readLane a l) (s.readLane b l)))

/-- VMULHU (R252). -/
def execVmulhu (d : BitVec 7) (a : Src) (b : Src) (s : State) : Result :=
  .next (s.issueVec (.vmulhu d a b) (s.vecPut d.toNat fun l => mulHighU (s.readLane a l) (s.readLane b l)))

/-- VMAD (R252). -/
def execVmad (d : BitVec 7) (a : Src) (b : Src) (s : State) : Result :=
  .next (s.issueVec (.vmad d a b) (s.vecPut d.toNat fun l => (s.readLane a l) * (s.readLane b l) + s.readOp4 (s.oldLane d.toNat) l))

/-- VAND (R252). -/
def execVand (d : BitVec 7) (a : Src) (b : Src) (s : State) : Result :=
  .next (s.issueVec (.vand d a b) (s.vecPut d.toNat fun l => (s.readLane a l) &&& (s.readLane b l)))

/-- VANDN (R252). -/
def execVandn (d : BitVec 7) (a : Src) (b : Src) (s : State) : Result :=
  .next (s.issueVec (.vandn d a b) (s.vecPut d.toNat fun l => (s.readLane a l) &&& ~~~(s.readLane b l)))

/-- VOR (R252). -/
def execVor (d : BitVec 7) (a : Src) (b : Src) (s : State) : Result :=
  .next (s.issueVec (.vor d a b) (s.vecPut d.toNat fun l => (s.readLane a l) ||| (s.readLane b l)))

/-- VXOR (R252). -/
def execVxor (d : BitVec 7) (a : Src) (b : Src) (s : State) : Result :=
  .next (s.issueVec (.vxor d a b) (s.vecPut d.toNat fun l => (s.readLane a l) ^^^ (s.readLane b l)))

/-- VSHL (R252). -/
def execVshl (d : BitVec 7) (a : Src) (b : Src) (s : State) : Result :=
  .next (s.issueVec (.vshl d a b) (s.vecPut d.toNat fun l => shl (s.readLane a l) (s.readLane b l)))

/-- VSHR (R252). -/
def execVshr (d : BitVec 7) (a : Src) (b : Src) (s : State) : Result :=
  .next (s.issueVec (.vshr d a b) (s.vecPut d.toNat fun l => shr (s.readLane a l) (s.readLane b l)))

/-- VSAR (R252). -/
def execVsar (d : BitVec 7) (a : Src) (b : Src) (s : State) : Result :=
  .next (s.issueVec (.vsar d a b) (s.vecPut d.toNat fun l => sar (s.readLane a l) (s.readLane b l)))

/-- VROL (R252). -/
def execVrol (d : BitVec 7) (a : Src) (b : Src) (s : State) : Result :=
  .next (s.issueVec (.vrol d a b) (s.vecPut d.toNat fun l => rol (s.readLane a l) (s.readLane b l)))

/-- VMIN (R252). -/
def execVmin (d : BitVec 7) (a : Src) (b : Src) (s : State) : Result :=
  .next (s.issueVec (.vmin d a b) (s.vecPut d.toNat fun l => sminWord (s.readLane a l) (s.readLane b l)))

/-- VMAX (R252). -/
def execVmax (d : BitVec 7) (a : Src) (b : Src) (s : State) : Result :=
  .next (s.issueVec (.vmax d a b) (s.vecPut d.toNat fun l => smaxWord (s.readLane a l) (s.readLane b l)))

/-- VMINU (R252). -/
def execVminu (d : BitVec 7) (a : Src) (b : Src) (s : State) : Result :=
  .next (s.issueVec (.vminu d a b) (s.vecPut d.toNat fun l => uminWord (s.readLane a l) (s.readLane b l)))

/-- VMAXU (R252). -/
def execVmaxu (d : BitVec 7) (a : Src) (b : Src) (s : State) : Result :=
  .next (s.issueVec (.vmaxu d a b) (s.vecPut d.toNat fun l => umaxWord (s.readLane a l) (s.readLane b l)))

/-- VPOPC (R252). -/
def execVpopc (d : BitVec 7) (a : Src) (s : State) : Result :=
  .next (s.issueVec (.vpopc d a) (s.vecPut d.toNat fun l => popWord (s.readLane a l)))

/-- VCLZ (R252). -/
def execVclz (d : BitVec 7) (a : Src) (s : State) : Result :=
  .next (s.issueVec (.vclz d a) (s.vecPut d.toNat fun l => clzWord (s.readLane a l)))

/-- VBREV (R252). -/
def execVbrev (d : BitVec 7) (a : Src) (s : State) : Result :=
  .next (s.issueVec (.vbrev d a) (s.vecPut d.toNat fun l => brevWord (s.readLane a l)))

/-- VCTZ (R252). -/
def execVctz (d : BitVec 7) (a : Src) (s : State) : Result :=
  .next (s.issueVec (.vctz d a) (s.vecPut d.toNat fun l => ctzWord (s.readLane a l)))

/-- VMOV (R252). -/
def execVmov (d : BitVec 7) (a : Src) (s : State) : Result :=
  .next (s.issueVec (.vmov d a) (s.vecPut d.toNat fun l => s.readLane a l))

/-- VNOT (R252). -/
def execVnot (d : BitVec 7) (a : Src) (s : State) : Result :=
  .next (s.issueVec (.vnot d a) (s.vecPut d.toNat fun l => ~~~(s.readLane a l)))

/-! Compares (R253). -/

/-- VICMP (R253). -/
def execVicmp (t : BitVec 5) (k : BitVec 3) (a : Src) (b : Src) (s : State) : Result :=
  .next (s.issueVec (.vicmp t k a b)
    (s.maskPut t.toNat fun l => intCond k.toNat (s.readLane a l) (s.readLane b l)))

/-- VFCMP (R253). -/
def execVfcmp (t : BitVec 5) (k : BitVec 3) (a : Src) (b : Src) (s : State) : Result :=
  .next (s.issueVec (.vfcmp t k a b)
    ((s.maskPut t.toNat fun l => (fltCond k.toNat (s.readLane a l) (s.readLane b l)).1).modMe
      (·.addFlags s.actMask fun l => (fltCond k.toNat (s.readLane a l) (s.readLane b l)).2)))

/-! Floating point (R255) and conversions (R254). -/

/-- A result pattern as a word. -/
def wordF (r : Nat × Flags) : Word × Flags := (BitVec.ofNat 32 r.1, r.2)
def fp (a : Word) : FVal := unpack .fp32 a.toNat

def fpAdd (m : RMode) (a b : Word) : Word × Flags := wordF (fAdd .fp32 m (fp a) (fp b))
def fpSub (m : RMode) (a b : Word) : Word × Flags := wordF (fAdd .fp32 m (fp a) (fp b).neg)
def fpMul (m : RMode) (a b : Word) : Word × Flags := wordF (fMul .fp32 m (fp a) (fp b))

/-- VFSCL: a times 2^n, n clamped to -400 to 400. -/
def fpScale (m : RMode) (a b : Word) : Word × Flags :=
  let n : Int := max (-400) (min 400 b.toInt)
  wordF (match fp a with
    | .num g k e => fConv .fp32 m (.num g k (e + n))
    | x => fConv .fp32 m x)

/-- The FMA family: the product and the addend negated as asked. -/
def fpFma (f : Fmt) (m : RMode) (np nc : Bool) (a b c : Word) : Word × Flags :=
  let x := unpack f a.toNat
  let z := unpack f c.toNat
  wordF (fFma f m (if np then x.neg else x) (unpack f b.toNat) (if nc then z.neg else z))

/-- A fused multiply-add of each 16-bit half. -/
def fpHalves (f : Fmt) (m : RMode) (a b c : Word) : Word × Flags :=
  let half (h : Nat) : Nat × Flags :=
    let x (w : Word) := unpack f (bits w.toNat (16 * h) 16)
    fFma f m (x a) (x b) (x c)
  (BitVec.ofNat 32 ((half 0).1 + 2 ^ 16 * (half 1).1), (half 0).2 ||| (half 1).2)

def fpMinMax (isMax : Bool) (a b : Word) : Word × Flags := wordF (fMinMax .fp32 isMax a.toNat b.toNat)
def fpRound (m : RMode) (a : Word) : Word × Flags := wordF (fRound .fp32 m a.toNat)

/-- VFFRC: a less its floor, rounded. -/
def fpFrac (m : RMode) (a : Word) : Word × Flags :=
  wordF (fAdd .fp32 m (fp a) (unpack .fp32 (fRound .fp32 .rdn a.toNat).1).neg)

/-- An integer times 2^sc as FP32. -/
def intToFp (m : RMode) (i : Int) (sc : Int) : Word × Flags :=
  wordF (roundMag .fp32 m (i < 0) i.natAbs sc false)

/-- FP32 times 2^sc to an integer between bounds. -/
def fpToInt (m : RMode) (lo hi sc : Int) (a : Word) : Word × Flags :=
  let r := fToRange m lo hi sc (fp a)
  (BitVec.ofInt 32 r.1, r.2)

/-- The conversions of R254: `c` the fourth operand, `d` the old destination. -/
def convert (code : Nat) (m : RMode) (c d a : Word) : Word × Flags :=
  let f : Int := (c.extractLsb' 0 8).toInt
  let lo16 (r : Nat × Flags) : Word × Flags := (BitVec.ofNat 32 (bits d.toNat 16 16 * 2 ^ 16 + r.1), r.2)
  let hi16 (r : Nat × Flags) : Word × Flags := (BitVec.ofNat 32 (r.1 * 2 ^ 16 + bits d.toNat 0 16), r.2)
  match code with
  | 0 => intToFp m a.toInt 0
  | 1 => intToFp m a.toNat 0
  | 2 => fpToInt m (-2 ^ 31) (2 ^ 31 - 1) 0 a
  | 3 => fpToInt m 0 (2 ^ 32 - 1) 0 a
  | 4 => intToFp m a.toInt (-f)
  | 5 => intToFp m a.toNat (-f)
  | 6 => fpToInt m (-2 ^ 31) (2 ^ 31 - 1) f a
  | 7 => fpToInt m 0 (2 ^ 32 - 1) f a
  | 8 => lo16 (fConv .bf16 m (fp a))
  | 9 => hi16 (fConv .bf16 m (fp a))
  | 10 => (BitVec.ofNat 32 (bits a.toNat 0 16 * 2 ^ 16), 0)
  | 11 => (BitVec.ofNat 32 (bits a.toNat 16 16 * 2 ^ 16), 0)
  | 12 => lo16 (fConv .fp16 m (fp a))
  | 13 => hi16 (fConv .fp16 m (fp a))
  | 14 => wordF (fConv .fp32 .rne (unpack .fp16 (bits a.toNat 0 16)))
  | _ => wordF (fConv .fp32 .rne (unpack .fp16 (bits a.toNat 16 16)))

/-- VFADD (R255). -/
def execVfadd (d : BitVec 7) (a : Src) (b : Src) (s : State) : Result :=
  .next (s.issueVec (.vfadd d a b) (s.vecPutF d.toNat fun l => fpAdd s.rmode (s.readLane a l) (s.readLane b l)))

/-- VFSUB (R255). -/
def execVfsub (d : BitVec 7) (a : Src) (b : Src) (s : State) : Result :=
  .next (s.issueVec (.vfsub d a b) (s.vecPutF d.toNat fun l => fpSub s.rmode (s.readLane a l) (s.readLane b l)))

/-- VFMUL (R255). -/
def execVfmul (d : BitVec 7) (a : Src) (b : Src) (s : State) : Result :=
  .next (s.issueVec (.vfmul d a b) (s.vecPutF d.toNat fun l => fpMul s.rmode (s.readLane a l) (s.readLane b l)))

/-- VFSCL (R255). -/
def execVfscl (d : BitVec 7) (a : Src) (b : Src) (s : State) : Result :=
  .next (s.issueVec (.vfscl d a b) (s.vecPutF d.toNat fun l => fpScale s.rmode (s.readLane a l) (s.readLane b l)))

/-- VFMA (R255). -/
def execVfma (d : BitVec 7) (a : Src) (b : Src) (s : State) : Result :=
  .next (s.issueVec (.vfma d a b) (s.vecPutF d.toNat fun l => fpFma .fp32 s.rmode false false (s.readLane a l) (s.readLane b l) (s.readOp4 (s.oldLane d.toNat) l)))

/-- VFMS (R255). -/
def execVfms (d : BitVec 7) (a : Src) (b : Src) (s : State) : Result :=
  .next (s.issueVec (.vfms d a b) (s.vecPutF d.toNat fun l => fpFma .fp32 s.rmode false true (s.readLane a l) (s.readLane b l) (s.readOp4 (s.oldLane d.toNat) l)))

/-- VFNMA (R255). -/
def execVfnma (d : BitVec 7) (a : Src) (b : Src) (s : State) : Result :=
  .next (s.issueVec (.vfnma d a b) (s.vecPutF d.toNat fun l => fpFma .fp32 s.rmode true false (s.readLane a l) (s.readLane b l) (s.readOp4 (s.oldLane d.toNat) l)))

/-- VFNMS (R255). -/
def execVfnms (d : BitVec 7) (a : Src) (b : Src) (s : State) : Result :=
  .next (s.issueVec (.vfnms d a b) (s.vecPutF d.toNat fun l => fpFma .fp32 s.rmode true true (s.readLane a l) (s.readLane b l) (s.readOp4 (s.oldLane d.toNat) l)))

/-- VFMIN (R255). -/
def execVfmin (d : BitVec 7) (a : Src) (b : Src) (s : State) : Result :=
  .next (s.issueVec (.vfmin d a b) (s.vecPutF d.toNat fun l => fpMinMax false (s.readLane a l) (s.readLane b l)))

/-- VFMAX (R255). -/
def execVfmax (d : BitVec 7) (a : Src) (b : Src) (s : State) : Result :=
  .next (s.issueVec (.vfmax d a b) (s.vecPutF d.toNat fun l => fpMinMax true (s.readLane a l) (s.readLane b l)))

/-- VFRND (R255). -/
def execVfrnd (d : BitVec 7) (a : Src) (s : State) : Result :=
  .next (s.issueVec (.vfrnd d a) (s.vecPutF d.toNat fun l => fpRound s.rmode (s.readLane a l)))

/-- VFFRC (R255). -/
def execVffrc (d : BitVec 7) (a : Src) (s : State) : Result :=
  .next (s.issueVec (.vffrc d a) (s.vecPutF d.toNat fun l => fpFrac s.rmode (s.readLane a l)))

/-- VH2FMA (R255). -/
def execVh2fma (d : BitVec 7) (a : Src) (b : Src) (s : State) : Result :=
  .next (s.issueVec (.vh2fma d a b) (s.vecPutF d.toNat fun l => fpHalves .fp16 s.rmode (s.readLane a l) (s.readLane b l) (s.readOp4 (s.oldLane d.toNat) l)))

/-- VB2FMA (R255). -/
def execVb2fma (d : BitVec 7) (a : Src) (b : Src) (s : State) : Result :=
  .next (s.issueVec (.vb2fma d a b) (s.vecPutF d.toNat fun l => fpHalves .bf16 s.rmode (s.readLane a l) (s.readLane b l) (s.readOp4 (s.oldLane d.toNat) l)))

/-- VFABS (R255): a pattern copy. -/
def execVfabs (d : BitVec 7) (a : Src) (s : State) : Result :=
  .next (s.issueVec (.vfabs d a) (s.vecPut d.toNat fun l => (s.readLane a l) &&& 0x7FFFFFFF))

/-- VFNEG (R255): a pattern copy. -/
def execVfneg (d : BitVec 7) (a : Src) (s : State) : Result :=
  .next (s.issueVec (.vfneg d a) (s.vecPut d.toNat fun l => (s.readLane a l) ^^^ 0x80000000))

/-- VCVT (R254). -/
def execVcvt (d : BitVec 7) (a : Src) (e : BitVec 8) (s : State) : Result :=
  .next (s.issueVec (.vcvt d a e)
    ((s.vecPutF d.toNat fun l => convert e.toNat s.rmode (s.readOp4 (fun _ => 0) l) (s.oldLane d.toNat l) (s.readLane a l)).keepHalf
      s.before.bad d.toNat s.actMask (Instr.keptHalf (.vcvt d a e))))

/-! Special functions (R257). -/

/-- VRCP (R257). -/
def execVrcp (d : BitVec 7) (a : Src) (s : State) : Result :=
  .next (s.issueVec (.vrcp d a) (s.sfuPut d.toNat fun l => wordF (sfRcp (s.readLane a l).toNat)))

/-- VRSQ (R257). -/
def execVrsq (d : BitVec 7) (a : Src) (s : State) : Result :=
  .next (s.issueVec (.vrsq d a) (s.sfuPut d.toNat fun l => wordF (sfRsq (s.readLane a l).toNat)))

/-- VSQRT (R257). -/
def execVsqrt (d : BitVec 7) (a : Src) (s : State) : Result :=
  .next (s.issueVec (.vsqrt d a) (s.sfuPut d.toNat fun l => wordF (sfSqrt (s.readLane a l).toNat)))

/-- VLOG2 (R257). -/
def execVlog2 (d : BitVec 7) (a : Src) (s : State) : Result :=
  .next (s.issueVec (.vlog2 d a) (s.sfuPut d.toNat fun l => wordF (sfLog2 (s.readLane a l).toNat)))

/-- VEX2 (R257). -/
def execVex2 (d : BitVec 7) (a : Src) (s : State) : Result :=
  .next (s.issueVec (.vex2 d a) (s.sfuPut d.toNat fun l => wordF (sfEx2 (s.readLane a l).toNat)))

/-- VTANH (R257). -/
def execVtanh (d : BitVec 7) (a : Src) (s : State) : Result :=
  .next (s.issueVec (.vtanh d a) (s.sfuPut d.toNat fun l => wordF (sfTanh (s.readLane a l).toNat)))

/-- VEX2S (R257). -/
def execVex2s (d : BitVec 7) (a : Src) (b : Src) (s : State) : Result :=
  .next (s.issueVec (.vex2s d a b) (s.sfuPut d.toNat fun l => wordF (sfEx2s (s.readLane a l).toNat (s.readLane b l).toNat (s.readOp4 (fun _ => 0x3F800000) l).toNat)))

/-- VHYP (R257). -/
def execVhyp (d : BitVec 7) (a : Src) (b : Src) (s : State) : Result :=
  .next (s.issueVec (.vhyp d a b) (s.sfuPut d.toNat fun l => wordF (sfHyp (s.readLane a l).toNat (s.readLane b l).toNat)))

/-- SFU_RESULT_WRITE (R257): the oldest result of a core's SFU is written. -/
def execSfuResultWrite (core : Nat) (s : State) : Result :=
  .next (match s.sfu.find? (·.core == core) with
    | some r => (s.sfuLand r).done
    | none => s.done)

/-! Lanes and masks (R258, R259). -/

/-- VSHFL (R258). -/
def execVshfl (d : BitVec 7) (a : Src) (b : Src) (s : State) : Result :=
  .next (s.issueVec (.vshfl d a b) (s.vecPut d.toNat fun l => s.readLane a (s.shuffleLane false b l)))

/-- VSHFX (R258). -/
def execVshfx (d : BitVec 7) (a : Src) (b : Src) (s : State) : Result :=
  .next (s.issueVec (.vshfx d a b) (s.vecPut d.toNat fun l => s.readLane a (s.shuffleLane true b l)))

/-- VMTOV (R259). -/
def execVmtov (d : BitVec 7) (t : BitVec 8) (s : State) : Result :=
  .next (s.issueVec (.vmtov d t)
    (s.vecPut d.toNat fun l => if (s.before.triple t.toNat).getLsbD l then 1 else 0))

/-- VVTOM (R259). -/
def execVvtom (t : BitVec 7) (a : Src) (s : State) : Result :=
  .next (s.issueVec (.vvtom t a) (s.maskPut t.toNat fun l => s.readLane a l != 0))

end Sys2Proof.Machine
end

