-- ==== Sys2Proof/Machine/Special.lean ====
section
/-!
DEFINITION. The warp special registers of SRD and SWR (12_vector_scalar.md R267 to R271,
14_factor_tile.md R287).
-/

namespace Sys2Proof.Machine

/-- FPFLAGS (R269). -/
def Warp.fpflags (w : Warp) : Word := (w.sf.zeroExtend 32 <<< 8) ||| w.flagsOr.zeroExtend 32

/-- FPCTL (R269). -/
def Warp.fpctl (w : Warp) : Word := (w.ten.zeroExtend 32 <<< 8) ||| BitVec.ofNat 32 w.rnd

/-- VIEWST (R127). -/
def Warp.viewst (w : Warp) : Word :=
  BitVec.ofNat 32 ((if w.vopen then 8 * w.seen.length + 4 else 0) + w.vstatus % 4)

/-- SPLIT (R270). -/
def Warp.split (w : Warp) : Word :=
  BitVec.ofNat 32 (2 ^ 16 * w.back + (w.stack.filter fun e => !e.reconv).length)

/-- Instructions counted on a path: those that have left it stand at the front, completed (R141). -/
def inFlight (l : List Flying) : Nat := (l.dropWhile (·.2)).length

/-- A write of FPFLAGS clears the flags written with 1 (R269). -/
def Warp.clearFlags (w : Warp) (x : Word) : Warp :=
  { w with
    sf := w.sf &&& ~~~(x.extractLsb' 8 5)
    vf := Vector.ofFn fun k : Fin 5 => if x.getLsbD k.val then 0 else w.vf[k] }

/-- A write of FPCTL; an RND of 0, 6 or 7 leaves the mode (R269). -/
def Warp.setFpctl (w : Warp) (x : Word) : Warp :=
  let r := bits x.toNat 0 3
  { w with ten := x.extractLsb' 8 5, rnd := if r = 0 || r = 6 || r = 7 then w.rnd else r }

/-- A write of FTSTAT clears LOST, and with it LTILE and LCOL (R287). -/
def Warp.clearLost (w : Warp) (x : Word) : Warp :=
  if x.getLsbD 31 then { w with ftLost := false, ftTile := 0, ftCol := 0 } else w

namespace State

/-- The LCLK of a warp's core (R168). -/
def lclkOf (s : State) (k : Nat) : Nat := (s.core (keyCore k)).lclk

/-- WSTATUS of a warp (R268); the trap warp belongs to no block and reads BSLOT as 0.
DESIGN CHOICE, log entry 71. -/
def wstatus (s : State) (k : Nat) : Word :=
  let w := s.warp k
  let b := s.block w.blk
  let trap := keySlot k == 64
  BitVec.ofNat 32 ((if trap then 0 else 2 ^ 17 * b.bslot) + 256 * w.stack.length
    + 16 * (if trap then 0 else b.cls) + (if trap || b.priv then 8 else 0) + w.role)

/-- FTSTAT of a warp: its own loss fields and the orders of its block's tiles (R287). -/
def ftstat (s : State) (k : Nat) : Word :=
  let w := s.warp k
  let n (t : Nat) : Nat := if keySlot k == 64 then 0 else ((s.block w.blk).ftiles.get t {}).order
  BitVec.ofNat 32 ((if w.ftLost then 2 ^ 31 else 0) + 2 ^ 23 * w.ftTile + 2 ^ 16 * w.ftCol
    + 256 * n 1 + n 0)

/-- The value of a special register, with no latch (R267). -/
def special' (s : State) (k n : Nat) : Word :=
  let w := s.warp k
  match n with
  | 0x00 => s.wstatus k
  | 0x01 => w.cause
  | 0x02 => w.fpflags
  | 0x03 => w.fpctl
  | 0x04 => lowWord (s.nowCore (keyCore k))
  | 0x05 => highWord (s.nowCore (keyCore k))
  | 0x06 => lowWord (s.lclkOf k)
  | 0x07 => highWord (s.lclkOf k)
  | 0x08 => w.viewst
  | 0x09 => w.bid.extractLsb' 0 32
  | 0x0A => w.bid.extractLsb' 32 32
  | 0x0B => BitVec.ofNat 32 (inFlight w.cntG)
  | 0x0C => BitVec.ofNat 32 (inFlight w.cntS)
  | 0x0D => BitVec.ofNat 32 (inFlight w.cntW)
  | 0x0E => BitVec.ofNat 32 (inFlight w.cntV)
  | 0x0F => BitVec.ofNat 32 (s.core (keyCore k)).tret
  | 0x10 => s.ftstat k
  | 0x11 => if w.ftTrap then 1 else 0
  | _ => w.split

/-- A write of a special register; the read-only ones do not change (R267). -/
def setSpecial (s : State) (k n : Nat) (x : Word) : State :=
  s.modWarp k fun w =>
    match n with
    | 0x02 => w.clearFlags x
    | 0x03 => w.setFpctl x
    | 0x10 => w.clearLost x
    | 0x11 => { w with ftTrap := x.getLsbD 0 }
    | _ => w

/-- An SRD: a low register latches its high half, a high one uses the latch up (R271). -/
def srdValue (s : State) (n : Nat) : Word :=
  let w := s.me
  match n with
  | 0x05 => w.latTime.getD (s.special' s.cur n)
  | 0x07 => w.latLclk.getD (s.special' s.cur n)
  | 0x0A => w.latBnd.getD (s.special' s.cur n)
  | n => s.special' s.cur n

def srdLatch (s : State) (n : Nat) : State :=
  s.modMe fun w =>
    match n with
    | 0x04 => { w with latTime := some (s.special' s.cur 0x05) }
    | 0x05 => { w with latTime := none }
    | 0x06 => { w with latLclk := some (s.special' s.cur 0x07) }
    | 0x07 => { w with latLclk := none }
    | 0x09 => { w with latBnd := some (s.special' s.cur 0x0A) }
    | 0x0A => { w with latBnd := none }
    | _ => w

end State

/-- SRD (R267). -/
def execSrd (d : BitVec 6) (n : BitVec 8) (s : State) : Result :=
  .next (s.issue (.srd d n) (((s.srdLatch n.toNat).setS d.toNat (s.srdValue n.toNat)).done))

/-- SWR (R267). -/
def execSwr (n : BitVec 6) (b : Src) (s : State) : Result :=
  .next (s.issue (.swr n b) ((s.setSpecial s.cur n.toNat (s.readScalar b)).done))

end Sys2Proof.Machine
end

