-- ==== Sys2Proof/Machine/Translate.lean ====
section
/-!
DEFINITION. Page walks, translation look-aside buffers and permission checks (02_main_memory.md R52
to R62), and the memory reads and writes that engines and queue engines make in one step at a line's
home.
-/

namespace Sys2Proof.Machine

/-- What an access needs of its leaf (R56). -/
inductive Need where
  | r | w | rw | x
  deriving DecidableEq, Repr

/-- How a walk ends (R54, R55): the leaf, a failure with the level and the TIER it names (R59), a held leaf; or
it waits at the home of a table entry. -/
inductive WalkRes where
  | leaf (l : Leaf)
  | fail (c : Cause) (level tier : Nat)
  | held
  | wait
  deriving DecidableEq, Repr

/-- How a one-step access to memory ends; one that is held is made again later. -/
inductive Got where
  | bytes (bs : List Byte)
  | fail (c : Cause) (level tier : Nat)
  | held
  deriving DecidableEq, Repr

/-- A failure under a leaf names its TIER (R59). -/
def Got.under (g : Got) (tier : Nat) : Got :=
  match g with
  | .fail c level _ => .fail c level tier
  | g => g

/-- Who makes an access: the core for TLBs and locality, and the context it is made in. -/
structure Agent where
  core : Option Nat := none
  /-- Die the access leaves from. -/
  die : Nat := 0
  region : Nat := 0
  root : Nat := 0
  part : Nat := 0
  ns : Bool := false
  lease : Nat := 2000
  /-- Class of the work (R89), and the warp's key plus one where the access keeps its place at a home (R81). -/
  cls : Nat := 1
  key : Nat := 0
  deriving DecidableEq, Repr

/-- The warp slot an access is sent from; for what is no warp's, one that none has. -/
def Agent.who (a : Agent) : Nat :=
  if a.key != 0 then a.key - 1
  else match a.core with
    | some c => warpKey c 64
    | none => 65 * 768 + a.die

/-- A valid leaf's malformations (R54). -/
def leafBad (e level : Nat) : Bool :=
  bits e 52 12 != 0 || bits e 12 4 != 0 || bits e 11 1 != 0 || bits e 9 2 == 3 || bits e 7 2 == 3
    || level == 3 || bits e 16 (10 * level) != 0

/-- A table pointer's malformations (R54). -/
def tableBad (e level : Nat) : Bool := bits e 52 12 != 0 || bits e 2 11 != 0 || level == 0

/-- The leaf an entry holds, for a virtual address: an alias page is resolved as it is filled, one
64 KiB page at a time (R47, R53, R56). DEDUCED, log entry 14. -/
def leafOf (e level va : Nat) : Leaf :=
  let log := 16 + 10 * level
  let pa := bits e 16 36 * 2 ^ 16
  let page := pa + va % 2 ^ log / 2 ^ 16 * 2 ^ 16
  let aliased := aliasBase ≤ page && page < aliasTop
  { pa := if aliased then resolveAlias page else pa
    log := if aliased then 16 else log
    page := log
    tier := bits e 9 2, pol := bits e 7 2, shared := e.testBit 6, ns := e.testBit 5
    x := e.testBit 4, w := e.testBit 3, r := e.testBit 2 }

/-- The physical address of a virtual one under a leaf (R56). -/
def Leaf.phys (l : Leaf) (va : Nat) : Nat := l.pa / 2 ^ l.log * 2 ^ l.log + va % 2 ^ l.log

/-- Permission and world of an access under a leaf (R56, R57). -/
def Leaf.permits (l : Leaf) (need : Need) (ns : Bool) : Bool :=
  (match need with
    | .r => l.r
    | .w => l.w
    | .rw => l.r && l.w
    | .x => l.x) && !(ns && !l.ns)

namespace State

/-- A one-step access has to wait at the home of a line: with the line's requests, or behind those before it (R81). -/
def kept (s : State) (line part cls key : Nat) : Bool :=
  s.lineBusy line part || s.silent line || s.behind (0, key) cls line

/-- It waits there; an engine's request keeps its place (R81, R200). -/
def keepPlace (s : State) (line part cls key : Nat) : State :=
  if key = 0 then s else s.enterLineq (0, key) cls part line

/-- A line read at its home in one step: owner recalled and partials merged first (R58, R61, R80); it waits while
the line's requests do, but for the module's own accesses.
DEDUCED, log entry 13. -/
def readLine (s : State) (line part : Nat) (ns : Bool) (p : Policy) (cls : Nat := 1) (key : Nat := 0) : State × Got :=
  if !isMemory line then (s, .fail .xlate 0 0)
  else if p.waits && s.kept line part cls key then (s.keepPlace line part cls key, .held)
  else match s.homeCheck line part ns p.openTo with
    | some c => (s.leaveLineq (0, key) line, .fail c 0 0)
    | none =>
      let s := (s.leaveLineq (0, key) line).homeEnter line part ns p.openTo
      let s := if p.leaves then s.mergeResv line part else s.collect line part
      let s := if p.allocates then s.fillSlice line part ns (p == .stream)
        else if (s.sliceLine line).isSome then s else s.count line false
      (s.dirRoom line, if s.isPoisoned line then .fail .poison 0 0 else .bytes (s.homeData line))

/-- Bytes written at a line's home in one step by an agent that may be a core; a whole line clears its poison
(R97, R103, R167). -/
def writeLine (s : State) (line part : Nat) (ns : Bool) (p : Policy) (who : Option Nat) (off : Nat) (bs : List Byte)
    (cls : Nat := 1) (key : Nat := 0) : State × Got :=
  if !isMemory line then (s, .fail .xlate 0 0)
  else if p.waits && s.kept line part cls key then (s.keepPlace line part cls key, .held)
  else match s.homeCheck line part ns p.openTo with
    | some c => (s.leaveLineq (0, key) line, .fail c 0 0)
    | none =>
      let s := (s.leaveLineq (0, key) line).homeEnter line part ns p.openTo
      let s := if p.leaves then s.mergeResv line part else s.collectForWrite line part
      let s := if p.allocates then s.fillSlice line part ns (p == .stream) else s
      let s := s.homeWrite line part (patch · off bs) (bs.length = 128)
      let s := match who with
        | some c => s.setWriter line c
        | none => s
      (s.dirRoom line, .bytes [])

/-- A table entry read through its home slice, as an ordinary read of the context that walks (R57, R61); a table in
the alias range is where the alias resolves to (R47), and one in no memory has no entry to read.
DEDUCED, log entry 13.
DESIGN CHOICE, log entry 68. -/
def readEntry (s : State) (at' part : Nat) (ns : Bool) : State × Got :=
  let pa := resolveAlias at'
  match s.readLine (pa / 128) part ns .cached with
  | (s, .bytes d) => (s, .bytes (slice d (pa % 128) 8))
  | r => r

/-- The levels of a walk from a table at `level` down (R52 to R57). -/
def walkFrom (s : State) (va part : Nat) (ns : Bool) : Nat → Nat → State × WalkRes
  | 0, _ => (s, .fail .xlate 0 0)
  | level + 1, table =>
    match s.readEntry (table + 8 * bits va (16 + 10 * level) 10) part ns with
    | (s, .fail c _ _) => (s, .fail c level 0)
    | (s, .held) => (s, .wait)
    | (s, .bytes bs) =>
      let e := leNat bs
      if !e.testBit 0 then
        if e.testBit 1 && e.testBit 11 && level < 3 then (s, .held) else (s, .fail .xlate level 0)
      else if e.testBit 1 then
        if leafBad e level then (s, .fail .xlate level 0)
        else
          let l := leafOf e level va
          match placeOf (l.phys va) with
          | .reserved => (s, .fail .xlate level l.tier)
          | _ => (s, .leaf l)
      else if tableBad e level then (s, .fail .xlate level 0)
      else s.walkFrom va part ns level (bits e 13 39 * 2 ^ 13)

/-- A page walk from a root table (R52). -/
def walk (s : State) (root va part : Nat) (ns : Bool) : State × WalkRes := s.walkFrom va part ns 4 root

def TlbEnt.hits (t : TlbEnt) (region va : Nat) : Bool :=
  t.region == region && t.va / 2 ^ t.leaf.log == va / 2 ^ t.leaf.log

/-- A core's translation of an address in its L1 TLB, or its rod's L2 TLB (R60). -/
def tlbLookup (s : State) (core region va : Nat) : Option Leaf :=
  match s.tlb.find? fun t => t.core == core && t.rod == none && TlbEnt.hits t region va with
  | some t => some t.leaf
  | none => (s.tlb.find? fun t => t.rod == some (rodOf core) && TlbEnt.hits t region va).map (·.leaf)

/-- Keeps the first `n` entries that a test selects, and every other one. -/
def keepFirst {α : Type} (p : α → Bool) : Nat → List α → List α
  | _, [] => []
  | n, a :: l =>
    if p a then (match n with
      | 0 => keepFirst p 0 l
      | n + 1 => a :: keepFirst p n l)
    else a :: keepFirst p n l

/-- The entry's set: 32 of an L1's 64 KiB entries, one of its other entries, 1024 of an L2 (R60).
DESIGN CHOICE, log entry 12. -/
def TlbEnt.set (t : TlbEnt) : Nat × Nat :=
  let n := t.va / 2 ^ t.leaf.log
  match t.rod with
  | none => if t.leaf.log = 16 then (0, n % 32) else (1, 0)
  | some _ => (2, n % 1024)

/-- The ways of its set (R60). -/
def TlbEnt.ways (t : TlbEnt) : Nat :=
  match t.rod with
  | none => if t.leaf.log = 16 then 4 else 32
  | some _ => 8

/-- A TLB takes an entry; the oldest of a full set goes (R60). -/
def tlbPut (t : List TlbEnt) (e : TlbEnt) : List TlbEnt :=
  let same (x : TlbEnt) : Bool := x.rod == e.rod && (e.rod.isSome || x.core == e.core)
  let t := t.filter fun x => !(same x && TlbEnt.hits x e.region e.va && x.leaf.log == e.leaf.log)
  keepFirst (fun x => same x && TlbEnt.set x == TlbEnt.set e) (TlbEnt.ways e) (e :: t)

/-- Fills the L1 TLB of a core and the L2 TLB of its rod (R60, R61). -/
def tlbFill (s : State) (core region va : Nat) (l : Leaf) : State :=
  let e : TlbEnt := { core := core, rod := none, region := region, va := va, leaf := l }
  { s with tlb := tlbPut (tlbPut s.tlb { e with rod := some (rodOf core) }) e }

/-- The walk of a page that a die has under way, or the held leaf it found there (R55, R61). -/
def pageWalk (s : State) (die region root page : Nat) : Option Walk :=
  s.walks.find? fun w => w.die == die && w.region == region && w.root == root && w.page == page && !w.queued
def setWalk (s : State) (id : Nat) (f : Walk → Walk) : State :=
  { s with walks := s.walks.map fun (x : Walk) => if x.id = id then f x else x }
/-- Walks a die has under way: those at a held leaf have given up their slot (R55). -/
def walksOf (s : State) (die : Nat) : Nat := (s.walks.filter fun w => w.die == die && !w.held && !w.queued).length

/-- A walk made in one step; a held leaf is walked again 1 µs later (R55). -/
def walkOnce (s : State) (a : Agent) (va : Nat) (w : Option Walk) : State × WalkRes :=
  let (s, r) := s.walk a.root va a.part a.ns
  match r with
  | .held =>
    let due := s.now a.die + 1000
    (match w with
      | some w => s.setWalk w.id ({ · with at' := due })
      | none =>
        let (n, s) := s.fresh
        { s with walks := s.walks ++ [{ id := n, die := a.die, region := a.region, root := a.root, part := a.part, ns := a.ns
                                        page := va / 65536, waiters := [], held := true, at' := due }] }, .held)
  | _ => (match w with
      | some w => if w.waiters = [] then { s with walks := s.walks.filter (·.id != w.id) } else s
      | none => s, r)

/-- A core's miss waits in its rod's miss queue for a walk slot, or for room on its page's walk (R61). -/
def queueFor (s : State) (a : Agent) (va : Nat) : State :=
  match a.core with
  | none => s
  | some c =>
    let mine (w : Walk) : Bool := w.queued && w.die == a.die && w.region == a.region && w.root == a.root
      && w.page == va / 65536 && w.waiters == [(0, c + 1)]
    if s.walks.any mine then s
    else
      let (n, s) := s.fresh
      let w : Walk := { id := n, die := a.die, region := a.region, root := a.root, part := a.part, ns := a.ns
                        page := va / 65536, waiters := [(0, c + 1)], queued := true, cls := a.cls }
      { s with walks := s.walks ++ [w], missq := s.missq ++ [(0, n)] }

/-- A core's miss joins the walk of its page, whose end fills the core's TLBs (R61). -/
def joinFor (s : State) (a : Agent) (va : Nat) (w : Walk) : State :=
  match a.core with
  | none => s
  | some c =>
    if w.waiters.contains (0, c + 1) then s
    else if w.waiters.length < 256 then s.setWalk w.id fun x => { x with waiters := x.waiters ++ [(0, c + 1)] }
    else s.queueFor a va

/-- A miss of an engine, a fetch or a queue engine: it joins the walk of its page that is under way, waits for a walk
slot, or out the time of a held leaf; else its walk takes one step (R55, R61).
DESIGN CHOICE, log entry 67. -/
def walkFor (s : State) (a : Agent) (va : Nat) : State × WalkRes :=
  match s.pageWalk a.die a.region a.root (va / 65536) with
  | some w =>
    if !w.held then (s.joinFor a va w, .held)
    else if w.at' ≤ s.now a.die && s.walksOf a.die < 64 then s.walkOnce a va (some w) else (s, .held)
  | none => if s.walksOf a.die < 64 then s.walkOnce a va none else (s.queueFor a va, .held)

/-- Translation in one step, for engines, fetches and queue engines; the TLBs are used and filled when
the agent is on a core (R60, R61, R401). -/
def translate (s : State) (a : Agent) (va : Nat) (need : Need) : State × WalkRes :=
  if vaTop ≤ va then (s, .fail .xlate 3 0)
  else
    let hit := match a.core with
      | some c => s.tlbLookup c a.region va
      | none => none
    let (s, r) := match hit with
      | some l => (s, WalkRes.leaf l)
      | none =>
        let (s, r) := s.walkFor a va
        match r, a.core with
        | .leaf l, some c => (s.tlbFill c a.region va l, r)
        | _, _ => (s, r)
    match r with
    | .leaf l =>
      match placeOf (l.phys va) with
      | .reserved => (s, .fail .xlate 0 l.tier)
      | _ => if l.permits need a.ns then (s, r) else (s, .fail .prot 0 l.tier)
    | .wait => (s, .held)
    | _ => (s, r)

/-! Fabric windows (R353, R354): what stands behind them is outside the module, so whether the target
refuses (PROT) and what it returns are free values. -/

/-- FWINn_CTL after reset: PORT 0xF. -/
def fwinCtl0 : Nat := 15 * 2 ^ 44
def fwinCtlOf (s : State) (die n : Nat) : Nat := (s.die die).fwinCtl.get n fwinCtl0
def fwinBaseOf (s : State) (die n : Nat) : Nat := (s.die die).fwinBase.get n 0

/-- The window a fabric address lies in: its control register and the target address; none for an
invalid window or a unit beyond LIMIT. -/
def fabricAt (s : State) (die pa : Nat) : Option (Nat × Nat) :=
  let n := (pa - fabricBase) / 2 ^ 39
  let ctl := s.fwinCtlOf die n
  let off := pa % 2 ^ 39
  if ctl.testBit 63 && off / 2 ^ 16 ≤ bits ctl 0 23 then some (ctl, s.fwinBaseOf die n + off) else none

/-- Whether a window's target is a host. -/
def fabricHost (ctl : Nat) : Bool := ctl.testBit 62

/-- The answer of the target: refused, or `n` bytes.
DESIGN CHOICE, log entry 21. -/
def fabricAnswer (s : State) (n : Nat) : State × Got :=
  let refused := (Config.freeByte s.drawn).toNat % 2 = 1
  ({ s with drawn := s.drawn + n + 1 },
    if refused then .fail .prot 0 0 else .bytes ((List.range n).map fun i => Config.freeByte (s.drawn + 1 + i)))

/-- The egress port of a window for a warp's flow to its device: PORT, or one of 0 to 11 by a hash that the rule
leaves open (R353).
DESIGN CHOICE, log entry 21. -/
def egress (ctl who : Nat) : Nat :=
  if bits ctl 44 4 < 12 then bits ctl 44 4 else Config.spread who (bits ctl 48 12) % 12

/-- The ordered flow a warp's accesses through a window belong to: its device and port (R354). -/
def orderedFlow (s : State) (die pa who : Nat) : Option (Nat × Nat) :=
  match s.fabricAt die pa with
  | some (ctl, _) => if ctl.testBit 61 then some (bits ctl 48 12, egress ctl who) else none
  | none => none

/-- The frame of an access through a window (R351, R353, R399). -/
def fabricFrame (s : State) (die who : Nat) (kind : Myder) (ctl addr : Nat) (bs : List Byte) : OutMsg :=
  { port := egress ctl who, kind := kind, key := bits ctl 38 6, target := bits ctl 48 12, addr := addr
    device := (s.die die).devId, inc := (s.core (keyCore who)).inc, rod := ctl.testBit 61, bytes := bs }

/-- A frame leaves through a window for its target, which refuses or answers `n` bytes. -/
def fabricSend (s : State) (die who : Nat) (kind : Myder) (pa : Nat) (bs : List Byte) (n : Nat) : State × Got :=
  match s.fabricAt die pa with
  | none => (s, .fail .xlate 0 0)
  | some (ctl, t) =>
    ({ s with outbox := s.outbox ++ [s.fabricFrame die who kind ctl t bs] } : State).fabricAnswer n

def fabricRead (s : State) (die who pa n : Nat) : State × Got := s.fabricSend die who .mread pa (leBytes 4 n) n
def fabricWrite (s : State) (die who pa : Nat) (bs : List Byte) : State × Got := s.fabricSend die who .mwrite pa bs 0

/-- Reads `n` bytes of one line through an agent's translation. -/
def readVa (s : State) (a : Agent) (va n : Nat) (need : Need) : State × Got :=
  match s.translate a va need with
  | (s, .leaf l) =>
    let pa := l.phys va
    match placeOf pa with
    | .memory _ =>
      match s.readLine (pa / 128) a.part l.ns l.policy a.cls a.key with
      | (s, .bytes d) => (s, .bytes (slice d (pa % 128) n))
      | (s, g) => (s, g.under l.tier)
    | .fabric =>
      let (s, g) := s.fabricRead a.die a.who pa n
      (s, g.under l.tier)
    | _ => (s, .fail .prot 0 l.tier)
  | (s, .fail c l t) => (s, .fail c l t)
  | (s, _) => (s, .held)

/-- Writes bytes of one line through an agent's translation; the acknowledgment's lease end, and the copies of the
agent's own die that it clears (R97). -/
def writeVa (s : State) (a : Agent) (va : Nat) (bs : List Byte) : State × Got × Nat :=
  match s.translate a va .w with
  | (s, .leaf l) =>
    let pa := l.phys va
    match placeOf pa with
    | .memory _ =>
      match s.writeLine (pa / 128) a.part l.ns l.policy a.core (pa % 128) bs a.cls a.key with
      | (s, .bytes _) => (s.ackClears a.die (pa / 128), .bytes [], s.ackLend (pa / 128))
      | (s, g) => (s, g.under l.tier, 0)
    | .fabric =>
      let (s, g) := s.fabricWrite a.die a.who pa bs
      (s, g.under l.tier, 0)
    | _ => (s, .fail .prot 0 l.tier, 0)
  | (s, .fail c l t) => (s, .fail c l t, 0)
  | (s, _) => (s, .held, 0)

/-- Reads over several lines, one line piece after another. -/
def readSpan (s : State) (a : Agent) (va : Nat) (need : Need) : List Nat → State × Got
  | [] => (s, .bytes [])
  | n :: ns =>
    match s.readVa a va n need with
    | (s, .bytes bs) =>
      match s.readSpan a (va + n) need ns with
      | (s, .bytes more) => (s, .bytes (bs ++ more))
      | r => r
    | r => r

/-- The pieces of a span that each lie in one line. -/
def piecesFrom (va : Nat) : Nat → Nat → List Nat
  | 0, _ => []
  | _, 0 => []
  | fuel + 1, n =>
    let k := min n (128 - va % 128)
    k :: piecesFrom (va + k) fuel (n - k)

/-- Reads `n` bytes from an address (for records of engines and queue engines). -/
def readBytes (s : State) (a : Agent) (va n : Nat) (need : Need) : State × Got :=
  s.readSpan a va need (piecesFrom va (n / 128 + 2) n)

/-- Writes over several lines, one after another, until one fails. -/
def writeSpan (s : State) (a : Agent) (va : Nat) (bs : List Byte) : List Nat → State × Got × Nat
  | [] => (s, .bytes [], 0)
  | n :: ns =>
    match s.writeVa a va (bs.take n) with
    | (s, .bytes _, l) =>
      let (s, g, l') := s.writeSpan a (va + n) (bs.drop n) ns
      (s, g, max l l')
    | r => r

def writeBytes (s : State) (a : Agent) (va : Nat) (bs : List Byte) : State × Got × Nat :=
  s.writeSpan a va bs (piecesFrom va (bs.length / 128 + 2) bs.length)

/-- The issuing context as an agent (R323, R332). -/
def agent (s : State) : Agent :=
  { core := some s.myCore, die := dieOf s.myCore, region := s.ctxRegion, root := s.ctxRoot
    part := s.ctxPart, ns := s.ctxNs, lease := s.ctxLease, cls := s.ctxCls }

/-- A block's context as an agent on its core. -/
def blockAgent (s : State) (b : Nat) : Agent :=
  let x := s.block b
  { core := some x.core, die := dieOf x.core, region := x.xregion, root := x.xroot, part := x.part
    ns := x.ns, lease := x.lease, cls := x.cls }

/-- A queue engine's accesses for a region (R401). -/
def regionAgent (r : Region) : Agent :=
  { die := r.die, region := r.id, root := r.xroot, part := r.part, ns := r.ns, lease := r.lease, cls := r.cls }

/-- Bytes written by physical address at their homes, line by line (context records, bundle records). -/
def physWrite (s : State) (pa : Nat) (bs : List Byte) : State :=
  ((piecesFrom pa (bs.length / 128 + 2) bs.length).foldl
    (fun (e : State × Nat) n =>
      ((e.1.writeLine ((pa + e.2) / 128) 0 false .sys none ((pa + e.2) % 128) ((bs.drop e.2).take n)).1, e.2 + n))
    (s, 0)).1

/-- Bytes read by physical address at their homes. -/
def physRead (s : State) (pa n : Nat) : State × List Byte :=
  let r := (piecesFrom pa (n / 128 + 2) n).foldl
    (fun (e : State × List Byte × Nat) n =>
      let line := (pa + e.2.2) / 128
      let s := (e.1.readLine line 0 false .sys).1
      (s, e.2.1 ++ slice (s.homeData line) ((pa + e.2.2) % 128) n, e.2.2 + n))
    (s, [], 0)
  (r.1, r.2.1)

/-- Queue-engine accesses to a region control block, by physical address: in the region's world, with no partition
check, performed at the home slice without allocation (R401). -/
def rcbRead (s : State) (pa n : Nat) (ns : Bool) : State × Got :=
  let r := (piecesFrom pa (n / 128 + 2) n).foldl
    (fun (e : State × Got × Nat) n =>
      match e.2.1 with
      | .bytes bs =>
        (match e.1.readLine ((pa + e.2.2) / 128) 0 ns .rcb with
        | (s, .bytes d) => (s, .bytes (bs ++ slice d ((pa + e.2.2) % 128) n), e.2.2 + n)
        | (s, g) => (s, g, e.2.2))
      | _ => e)
    (s, .bytes [], 0)
  (r.1, r.2.1)
def rcbWrite (s : State) (pa : Nat) (bs : List Byte) (ns : Bool) : State :=
  (s.writeLine (pa / 128) 0 ns .rcb none (pa % 128) bs).1

end State

end Sys2Proof.Machine
end

