-- ==== Sys2Proof/Machine/Control.lean ====
section
/-!
DEFINITION. Control flow (15_control_flow.md): the divergence stack, branches, joins, calls, EXIT, and
TRAP and BRK (17_traps_preemption.md R337).
-/

namespace Sys2Proof.Machine

/-! The divergence stack (R298, R300). -/

/-- RPC of an entry that has none (R298). -/
def noRpc : Nat := 2 ^ 64 - 1

/-- The 32 bytes of an entry (R298). -/
def StackEnt.bytes (e : StackEnt) : List Byte :=
  leBytes 8 e.pc ++ leBytes 8 e.rpc ++ leBytes 12 e.mask.toNat ++ leBytes 4 (if e.reconv then 1 else 0)

def StackEnt.ofBytes (l : List Byte) : StackEnt where
  pc := fieldAt l 0 8
  rpc := fieldAt l 8 8
  mask := BitVec.ofNat 96 (fieldAt l 16 12)
  reconv := bits (fieldAt l 28 4) 0 1 == 1

namespace State

/-- PSIZE of the issuing warp's private space; the trap warp has none (R136, R400). -/
def myPsize (s : State) : Nat := if s.isTrap then 0 else s.myBlock.psize

/-- The spill area of a warp: where its slot 0 stands (R300). -/
def spillArea (s : State) (k : Nat) : Nat :=
  let b := s.block (s.warp k).blk
  b.pbase + (s.warp k).widx * 96 * b.psize + (b.psize - 80) / 4 * 384

/-- A failed private access of a push, pop or EXIT: precise, with no effect (R300). -/
def spillStop (va : Nat) (c : Cause) (level tier : Nat) : Stop := { cause := c, level := level, tier := tier, addr := va }

/-- Every piece of a span is translated, in turn: the first that fails raises. -/
def reach (s : State) (need : Need) (va : Nat) : List Nat → Eff
  | [] => .ok s
  | n :: ns =>
    match s.translate s.agent va need with
    | (s, .leaf _) => s.reach need (va + n) ns
    | (_, .fail c level tier) => .stop (spillStop va c level tier)
    | (s, _) => .wait s

/-- The issuing warp's spill slots: those below `n` are read, `f` of their bytes stands in those below `m`
afterwards, and `k` goes on with what was read (R300). -/
def spill (s : State) (n m : Nat) (f : List Byte → List Byte) (k : State → List Byte → Eff) : Eff :=
  let va := s.spillArea s.cur
  (s.reach .r va (piecesFrom va (n + 2) (32 * n))).bind fun s =>
  (s.reach .w va (piecesFrom va (m + 2) (32 * m))).bind fun s =>
  match s.readBytes s.agent va (32 * n) .r with
  | (s', .bytes bs) =>
    (match s'.writeBytes s.agent va (f bs) with
    | (s', .bytes _, lend) => k (s'.modCore s.myCore fun c => { c with leasemax := max c.leasemax lend }) bs
    | (_, .fail c level tier, _) => .stop (spillStop va c level tier)
    | (_, .held, _) => .wait s)
  | (_, .fail c level tier) => .stop (spillStop va c level tier)
  | (_, .held) => .wait s

/-- Pushes an entry.  Slot `j` holds the `j`-th spilled entry below the held ones: the deepest held one, when 16
are held, goes to slot 0 and those spilled before it move up (R300).
DEDUCED, log entry 28. -/
def stackPush (s : State) (e : StackEnt) : Eff :=
  let w := s.me
  if 256 ≤ w.stack.length then Eff.fail .stackovf
  else if w.stack.length - w.spilled < 16 then .ok (s.modMe fun w => { w with stack := e :: w.stack })
  else if s.myPsize < 80 then Eff.fail .stackovf
  else
    match w.stack[15]? with
    | none => Eff.fail .stackovf
    | some old =>
      s.spill w.spilled (w.spilled + 1) (old.bytes ++ ·) fun s _ =>
        .ok (s.modMe fun w => { w with stack := e :: w.stack, spilled := w.spilled + 1 })

/-- The `n` entries from a place of the spill area. -/
def entriesIn (bs : List Byte) (n : Nat) : List StackEnt :=
  (List.range n).map fun i => StackEnt.ofBytes (slice bs (32 * i) 32)

/-- Fills the topmost 16 spilled entries back when a pop leaves none held; the rest move down (R300).
DEDUCED, log entry 28. -/
def stackFill (s : State) : Eff :=
  let w := s.me
  if w.spilled = 0 || w.spilled < w.stack.length then .ok s
  else
    let n := min 16 w.spilled
    s.spill w.spilled (w.spilled - n) (·.drop (32 * n)) fun s bs =>
      .ok (s.modMe fun w => { w with stack := entriesIn bs n ++ w.stack.drop n, spilled := w.spilled - n })

/-- Pops the top entry (R300). -/
def stackPop (s : State) : Eff := (s.modMe fun w => { w with stack := w.stack.tail }).stackFill

/-- The current reconvergence address: the top entry's RPC, or none (R298). -/
def currentRpc (s : State) : Nat := ((s.me.stack.head?).map (·.rpc)).getD noRpc

/-- A split starts with a lane set (R298, R303). -/
def startSplit (s : State) (m : LaneMask) : State :=
  s.modMe fun w => ({ w with sls := m, back := 0 } : Warp).setTriple 0 m

/-- PC of the packet the chain stands in. -/
def pc (s : State) : Nat := s.pos.1

/-- A checked target: ALIGN, then BOUNDS (R18, R301, R309). -/
def target (t : Int) : Option Cause :=
  if t % 12 ≠ 0 then some .align else if t < 0 || 2 ^ 56 ≤ t then some .bounds else none

/-- A transfer to an entry's PC, which must be a multiple of 12 (R18). -/
def enterAt (s : State) (e : StackEnt) : Eff := if e.pc % 12 ≠ 0 then Eff.fail .align else .ok (s.jump e.pc)

/-- The top entry exchanges with the running split, which would go on at `tgt` (R305). -/
def rotate (s : State) (tgt : Nat) : Eff :=
  match s.me.stack with
  | e :: rest =>
    let out : StackEnt := { e with pc := tgt, mask := s.me.sls }
    ((s.modMe fun w => { w with stack := out :: rest }).startSplit e.mask).enterAt e
  | [] => .ok (s.jump tgt)

/-- Whether the top entry is a SPLIT. -/
def topSplit (s : State) : Bool :=
  match s.me.stack with
  | e :: _ => !e.reconv
  | [] => false

/-- A taken BRA or uniform BDIV (R305). -/
def branch (s : State) (tgt : Nat) : State :=
  if s.pc < tgt then s.jump tgt
  else if s.me.back < 63 then (s.modMe fun w => { w with back := w.back + 1 }).jump tgt
  else if s.topSplit then s.run (s.rotate tgt)
  else s.jump tgt

/-- Any other transfer sets BACK to 0 (R305). -/
def transfer (s : State) (tgt : Nat) : State := (s.modMe fun w => { w with back := 0 }).jump tgt

end State

/-- A signed count of packets from a position. -/
def packets (pc : Nat) (off : Int) : Int := pc + 12 * off

/-- Whether BRA is taken (R302). -/
def State.braTaken (s : State) (k r : Nat) : Bool :=
  let x := s.before.sreg r
  let e := s.execMask
  let m := s.before.triple r
  match k with
  | 0 => true
  | 1 => x == 0
  | 2 => x != 0
  | 3 => x.msb
  | 4 => (e &&& m) != 0
  | 5 => e != 0 && (e &&& ~~~m) == 0
  | _ => (e &&& m) == 0

/-- BRA (R302, R305). -/
def execBra (k : BitVec 4) (r : BitVec 6) (o : BitVec 14) (s : State) : Result :=
  .next (s.issue (.bra k r o)
    (if s.braTaken k.toNat r.toNat then
      match State.target (packets s.pc o.toInt) with
      | some c => s.fail c
      | none => s.branch (packets s.pc o.toInt).toNat
    else s.done))

/-- BDIV (R303).
DEDUCED, log entry 29. -/
def execBdiv (r : BitVec 6) (o : BitVec 14) (lit : Word) (s : State) : Result :=
  .next (s.issue (.bdiv r o lit)
    (let rpc := packets s.pc lit.toInt
     let tgt := packets s.pc o.toInt
     let e := s.execMask
     let m := s.before.triple r.toNat
     match State.target rpc, State.target tgt with
     | some c, _ => s.fail c
     | _, some c => s.fail c
     | none, none =>
       if e &&& m = 0 then s.done
       else if e &&& ~~~m = 0 then s.branch tgt.toNat
       else
         s.run ((s.stackPush ⟨rpc.toNat, s.currentRpc, e, true⟩).bind fun s =>
           (s.stackPush ⟨tgt.toNat, rpc.toNat, e &&& m, false⟩).bind fun s =>
             .ok (s.startSplit (e &&& ~~~m)).done)))

/-- JOIN's loop over the stack (R304); the fuel is its depth. -/
def State.joinLoop (s : State) : Nat → Eff
  | 0 => .ok s.done
  | n + 1 =>
    match s.me.stack with
    | [] => .ok s.done
    | e :: _ =>
      if !e.reconv && e.rpc == s.pc then
        s.stackPop.bind fun s => (s.startSplit e.mask).enterAt e
      else if e.reconv && e.pc == s.pc then
        s.stackPop.bind fun s => (s.startSplit e.mask).joinLoop n
      else .ok s.done

/-- JOIN (R304). -/
def execJoin (s : State) : Result :=
  .next (s.issue .join (s.run (s.joinLoop (s.me.stack.length + 1))))

/-- CALL (R309). -/
def execCall (o : BitVec 22) (s : State) : Result :=
  .next (s.issue (.call o)
    (match State.target (packets s.pc o.toInt) with
     | some c => s.fail c
     | none => (s.setSpair 60 (s.pc + 12)).transfer (packets s.pc o.toInt).toNat))

/-- CALLI (R309): the target is read first. -/
def execCalli (a : Src) (s : State) : Result :=
  .next (s.issue (.calli a)
    (match State.target (s.readPair a 0) with
     | some c => s.fail c
     | none => (s.setSpair 60 (s.pc + 12)).transfer (s.readPair a 0)))

/-- RET (R309). -/
def execRet (s : State) : Result :=
  .next (s.issue .ret
    (match State.target (s.before.spair 60) with
     | some c => s.fail c
     | none => s.transfer (s.before.spair 60)))

/-- BRI (R309). -/
def execBri (a : Src) (s : State) : Result :=
  .next (s.issue (.bri a)
    (match State.target (s.readPair a 0) with
     | some c => s.fail c
     | none => s.transfer (s.readPair a 0)))

/-- NOP (R307). -/
def execNop (s : State) : Result := .next (s.issue .nop s.done)

/-- YIELD (R307): youngest for issue, and the top SPLIT runs next. -/
def execYield (s : State) : Result :=
  .next (s.issue .yield
    (let t := s.modMe fun w => { w with age := s.turnOf s.cur }
     s.run (if s.topSplit then t.rotate (s.pc + 12) else .ok t.done)))

/-! EXIT (R310). -/

namespace State

/-- The oldest fault mark of a warp (R143). -/
def oldestMark (w : Warp) : Option Mark :=
  w.marks.foldl (fun (a : Option Mark) m => match a with
    | some x => if m.fl < x.fl then some m else some x
    | none => some m) none

/-- Loads and view operations of a warp are all back (R310). -/
def loadsBack (w : Warp) : Bool := inFlight w.cntG = 0 && inFlight w.cntS = 0 && inFlight w.cntV = 0

/-- ARITH, when an enabled flag is set (R260, R329). -/
def arithStop (w : Warp) : Option Stop :=
  if w.arithLanes = 0 && w.arithScalar = 0 then none
  else some { cause := .arith, precise := false, lanes := w.arithLanes, data := w.arithScalar.zeroExtend 32 }

/-- ARITH at the issuing word, by the enables from before its chain (R269). -/
def arithNow (s : State) : Option Stop := arithStop { s.me with ten := s.before.ten }

/-- The warp retires: it stops issuing, at its EXIT, and `WARP_RETIRE` ends it (R310, R333). -/
def retire (s : State) : State :=
  if s.isTrap then { s.endHandling s.myCore with out := .moved }
  else
    { (s.modMe fun w => { (w.goto s.pos) with run := .exiting, exTen := s.before.ten }).push [.warpRetire s.myCore s.mySlot] with out := .moved }

/-- The lanes of X leave SLS and every entry, the spilled ones where they stand (R310). -/
def removeLanes (s : State) (x : LaneMask) : Eff :=
  let out (e : StackEnt) : StackEnt := { e with mask := e.mask &&& ~~~x }
  let n := s.me.spilled
  let go (s : State) : Eff := .ok (s.modMe fun w => { w with sls := w.sls &&& ~~~x, stack := w.stack.map out })
  if n = 0 then go s
  else s.spill n n (fun bs => (entriesIn bs n).flatMap fun e => (out e).bytes) fun s _ => go s

/-- EXIT's loop over the stack (R310); the fuel is its depth, and `leave` retires the warp. -/
def exitLoop (leave : State → Eff) (s : State) : Nat → Eff
  | 0 => leave s
  | n + 1 =>
    match s.me.stack with
    | [] => leave s
    | e :: _ =>
      s.stackPop.bind fun s => if e.mask = 0 then s.exitLoop leave n else (s.startSplit e.mask).enterAt e

end State

/-- EXIT (R310): retirement waits for the warp's loads, raises their faults and reports ARITH. -/
def execExit (s : State) : Result :=
  .next (s.issue .exit
    (let leave (t : State) : Eff :=
      if !State.loadsBack s.before then .wait s
      else match State.oldestMark s.before, s.arithNow with
        | some m, _ => .stop m.stop
        | _, some st => .stop st
        | none, none => .ok t.retire
     if s.me.stack = [] then s.run (leave s)
     else s.run ((s.removeLanes s.execMask).bind fun t => t.exitLoop leave (t.me.stack.length + 1))))

/-- WARP_RETIRE (R310): the exiting warp ends once what its own chain issued is back, SFU results included,
and ARITH is reported for the flags these set (R260), by the enables from before that chain (R269). -/
def execWarpRetire (core slot : Nat) (s : State) : Result :=
  .next (let k := warpKey core slot
    let w := s.warp k
    if w.run != .exiting then s.done
    else if !State.loadsBack w || s.sfu.any fun r => r.core == core && r.slot == slot then
      (s.push [.warpRetire core slot]).done
    else match State.oldestMark w, State.arithStop { w with ten := w.exTen } with
      | some m, _ => (s.deliver k m.stop).done
      | _, some st => (s.deliver k st).done
      | none, none => ((s.endWarp k).push [.blockRetire w.blk]).done)

/-! TRAP and BRK (R337): transfers, then their cause; the warp resumes at the next packet (R329). -/

namespace State

/-- The halt record carries the running split's exec (R312). -/
def trapStop (s : State) (st : Stop) : State :=
  { s with npos := (s.pc + 12, 0, false) }.raise { st with after := true, lanes := s.before.exec }

end State

/-- TRAP (R337). -/
def execTrap (k : Src) (s : State) : Result :=
  .next (s.issue (.trap k) (s.trapStop { cause := .trapi, data := s.readScalar k }))

/-- BRK (R337). -/
def execBrk (s : State) : Result :=
  .next (s.issue .brk (s.trapStop { cause := .brk, data := 4 }))

end Sys2Proof.Machine
end

