-- ==== Sys2Proof/Machine/Pad.lean ====
section
/-!
DEFINITION. The scratchpad as loads, stores and engines reach it: rows, stamps, deadlines and
allocations (10_scratchpad.md R214 to R218), range locks (07_consistency.md R172), barrier objects
(R226, R227), and generic addresses with their checks (06_memory_instructions.md R135 to R139).
-/

namespace Sys2Proof.Machine

/-! Rows (R214 to R217). -/

namespace State

def rowSt (s : State) (core row : Nat) : RowSt := (s.core core).rows.get row {}

/-- The absolute restore time of a row, in ns, rounded down to 256 ns (R215). -/
def rowStamp (s : State) (core row : Nat) : Nat :=
  let n := s.nowCore core / 256
  256 * (n - (n % 65536 + 65536 - (s.rowSt core row).stamp % 65536) % 65536)

/-- The age of a row (R215). -/
def rowAge (s : State) (core row : Nat) : Nat :=
  256 * ((s.nowCore core / 256 % 65536 + 65536 - (s.rowSt core row).stamp % 65536) % 65536)

/-- A row restored or written in full: its stamp is the time its first chunk was (R215). -/
def restoreRow (s : State) (core row : Nat) : State :=
  let t := s.nowCore core / 256 % 65536
  s.modCore core fun c => { c with rows := c.rows.put row { stamp := t, expired := false } }

def restoreRows (s : State) (core first n : Nat) : State :=
  (List.range n).foldl (fun (s : State) i => s.restoreRow core (first + i)) s

/-- EXPIRED is set on a row (R215, R225). -/
def expireRow (s : State) (core row : Nat) : State :=
  s.modCore core fun c => { c with rows := c.rows.put row { c.rows.get row {} with expired := true } }

end State

/-! Allocations (R217, R218). -/

def Alloc.hasRow (a : Alloc) (r : Nat) : Bool := a.first ≤ r && r < a.first + a.rows
def Alloc.hasOff (a : Alloc) (off : Nat) : Bool := a.hasRow (off / 4096)
def Alloc.rowList (a : Alloc) : List Nat := (List.range a.rows).map (a.first + ·)

namespace State

/-- The live allocation of a block that covers an offset. -/
def allocAt (s : State) (blk off : Nat) : Option Alloc := s.allocs.find? fun a => a.blk == blk && a.hasOff off

/-- The allocation whose row it is, of any block on a core. -/
def allocOfRow (s : State) (core row : Nat) : Option Alloc := s.allocs.find? fun a => a.core == core && a.hasRow row

/-- The expiry of a row's allocation; none for AUTO (R217). -/
def rowExpiry (s : State) (core row : Nat) : Option Nat :=
  match s.allocOfRow core row with
  | some a => if a.auto then none else some a.exp
  | none => none

/-- Whether a read of a row is refused now (R217). -/
def rowStale (s : State) (core row : Nat) : Bool :=
  (s.rowSt core row).expired
    || (match s.rowExpiry core row with
        | some e => e < s.nowCore core
        | none => false)
    || (s.core core).tret < s.rowAge core row

/-- deadline(r) of R217. -/
def rowDeadline (s : State) (core row : Nat) : Nat :=
  let t := s.rowStamp core row + (s.core core).tret
  match s.rowExpiry core row with
  | some e => min e t
  | none => t

/-- Whether an operation of `bound` ns that reads a row may not start (R217). -/
def rowLate (s : State) (core row bound : Nat) : Bool :=
  (s.rowSt core row).expired || s.rowDeadline core row < s.nowCore core + bound

/-- The rows a range of offsets touches. -/
def rowsOf (off n : Nat) : List Nat :=
  if n = 0 then [] else (List.range ((off + n - 1) / 4096 + 1 - off / 4096)).map (off / 4096 + ·)

/-- Some row of a range of offsets fails R217. -/
def staleRange (s : State) (core off n : Nat) : Bool := (rowsOf off n).any (s.rowStale core)
def lateRange (s : State) (core off n bound : Nat) : Bool := (rowsOf off n).any fun r => s.rowLate core r bound

/-- Whether every byte of a range lies in live allocations of a block. -/
def padCovered (s : State) (blk off n : Nat) : Bool :=
  off + n ≤ 2 ^ 23 && (rowsOf off n).all fun r => (s.allocAt blk (4096 * r)).isSome

def padRead (s : State) (core off n : Nat) : List Byte := (s.core core).pad.readN off n
def padWrite (s : State) (core off : Nat) (bs : List Byte) : State :=
  s.modCore core fun c => { c with pad := c.pad.writeN off bs }
def padWord (s : State) (core off : Nat) : Nat := leNat (s.padRead core off 4)

/-! Range locks (R172). -/

end State

def Range.meets (a b : Range) : Bool :=
  a.pad == b.pad && a.space == b.space && a.lo < b.lo + b.len && b.lo < a.lo + a.len

namespace State

/-- Whether a thread access of a core overlaps a locked range (R172). -/
def locked (s : State) (core : Nat) (r : Range) (write : Bool) : Bool :=
  s.locks.any fun l => l.core == core && (l.dsts.any r.meets || (write && l.srcs.any r.meets))

/-- Whether an engine operation must wait for a locked range (R172). -/
def engineWaits (s : State) (core : Nat) (srcs dsts : List Range) : Bool :=
  s.locks.any fun l => l.core == core &&
    (srcs.any (fun r => l.dsts.any r.meets) || dsts.any fun r => l.dsts.any r.meets || l.srcs.any r.meets)

/-- The range-lock table of a core is full: 32 entries. -/
def locksFull (s : State) (core : Nat) : Bool := 32 ≤ (s.locks.filter (·.core == core)).length

def dropLock (s : State) (op : Nat) : State := { s with locks := s.locks.filter (·.op != op) }

/-! Barrier objects (R226, R227). -/

end State

/-- A barrier object by field. -/
structure MBar where
  phase : Bool
  held : Nat
  expect : Nat
  pend : Nat
  bytes : Nat
  status : Nat
  deriving DecidableEq, Repr

namespace State

def mbar (s : State) (core off : Nat) : MBar :=
  let w := s.padWord core off
  { phase := w.testBit 31, held := bits w 16 15, expect := bits w 0 16, pend := s.padWord core (off + 4)
    bytes := s.padWord core (off + 8), status := s.padWord core (off + 12) }

def setMbar (s : State) (core off : Nat) (m : MBar) : State :=
  s.padWrite core off
    (leBytes 4 ((if m.phase then 2 ^ 31 else 0) + 2 ^ 16 * m.held + m.expect) ++ leBytes 4 m.pend
      ++ leBytes 4 m.bytes ++ leBytes 4 m.status)

end State

/-- PEND less `n` arrivals, in 32 bits (R14). -/
def MBar.less (m : MBar) (n : Nat) : Nat := (m.pend + 2 ^ 32 - n) % 2 ^ 32

/-- The end of every update: held arrivals are made once no byte is due, and PEND = 0 completes the
phase (R227). -/
def MBar.settle (m : MBar) : MBar :=
  let m := if m.bytes = 0 && 0 < m.held then { m with pend := m.less m.held, held := 0 } else m
  if m.pend = 0 then { m with phase := !m.phase, pend := m.expect } else m

/-- An engine countdown (R227). -/
def MBar.countdown (m : MBar) (n : Nat) : MBar :=
  (if n ≤ m.bytes then { m with bytes := m.bytes - n }
    else { m with bytes := 0, status := if m.status = 0 then 11 else m.status }).settle

namespace State

/-- The core's tag (R164) joins those of the arrivals on an object. -/
def mbTag (s : State) (from' core off : Nat) : State :=
  let c := s.core from'
  s.modCore core fun k =>
    let (a, b) := k.mbTags.get off (0, 0)
    { k with mbTags := k.mbTags.put off (max a c.lclk, max b c.leasemax) }

/-- A completed wait on an object takes the arrivals' tags (R164, R171). -/
def mbAcquire (s : State) (core off dst : Nat) : State :=
  let (a, b) := (s.core core).mbTags.get off (0, 0)
  s.modCore dst fun k => { k with lclk := max k.lclk a, leasemax := max k.leasemax b }

/-- The first engine failure is written to STATUS, word 3, while it is 0 (R111, R201). -/
def mbStatus (s : State) (core off v : Nat) : State :=
  if (s.mbar core off).status = 0 then s.padWrite core (off + 12) (leBytes 4 v) else s

end State

/-! Generic addresses (R135 to R139). -/

/-- Where an address leads. -/
inductive Tgt where
  | global (va : Nat)
  | priv (off : Nat)
  | pad (off : Nat)
  | cluster (blk off : Nat)
  deriving DecidableEq, Repr

namespace State

/-- A block's scratchpad identity as a pointer names it. -/
def identOf (s : State) (b : Nat) : Nat := (s.block b).ident

/-- The block of the issuing block's cluster that a cluster-shared pointer names (R138). -/
def clusterTarget (s : State) (ident off : Nat) : Option Nat :=
  let bs := (s.clusterBlks s.myBlk).filter fun b => s.identOf b == ident && (s.block b).state != .retired
  match bs.find? fun b => (s.allocAt b off).isSome with
  | some b => some b
  | none => bs.head?

/-- Checks 1 and 2 of R139: the window and its zero bits, then the identity.  The number is the
check that failed. -/
def decodeAddr (s : State) (a : Nat) : Except (Nat × Cause) Tgt :=
  if bits a 56 8 = 0 then .ok (.global a)
  else if bits a 56 8 ≠ 0xFF || 2 < bits a 52 4 || s.isTrap then .error (1, .bounds)
  else if bits a 52 4 = 0 then
    (if bits a 32 20 = 0 then .ok (.priv (a % 2 ^ 32)) else .error (1, .bounds))
  else if bits a 23 19 ≠ 0 then .error (1, .bounds)
  else
    let ident := 32 * bits a 47 5 + bits a 42 5
    let off := a % 2 ^ 23
    if bits a 52 4 = 1 then
      (if ident = s.identOf s.myBlk then .ok (.pad off) else .error (2, .foreignsp))
    else match s.clusterTarget ident off with
      | some b => .ok (if b = s.myBlk then .pad off else .cluster b off)
      | none => .error (2, .bounds)

/-- The global address of a byte of a lane's private space (R136). -/
def privVa (s : State) (lane off : Nat) : Nat :=
  s.myBlock.pbase + s.me.widx * 96 * s.myBlock.psize + off / 4 * 384 + lane * 4 + off % 4

end State

/-- What an instruction's accesses are, for the checks of R139. -/
structure Form where
  size : Nat
  reads : Bool := false
  writes : Bool := false
  atomic : Bool := false
  /-- LDCL and STCL: no global or private address (R148). -/
  shared : Bool := false
  /-- ORD = SC: no scratchpad or cluster-shared lane (R148). -/
  sc : Bool := false
  /-- Only global addresses (VSTB, VLDV). -/
  plain : Bool := false
  deriving DecidableEq, Repr

namespace State

/-- The ranges of an access on its core's range-lock table. -/
def tgtRanges (s : State) (lane size : Nat) : Tgt → List Range
  | .global va => [⟨false, s.ctxRegion, va, size⟩]
  | .priv off =>
    if size ≤ 4 then [⟨false, s.ctxRegion, s.privVa lane off, size⟩]
    else (List.range (size / 4)).map fun i => ⟨false, s.ctxRegion, s.privVa lane (off + 4 * i), 4⟩
  | .pad off => [⟨true, s.identOf s.myBlk, off, size⟩]
  | .cluster b off => if (s.block b).core = s.myCore then [⟨true, s.identOf b, off, size⟩] else []

/-- Checks 3 to 6 of R139 of one lane's target; the number of the first that fails. -/
def checkTgt (s : State) (f : Form) (lane addr : Nat) (t : Tgt) : Option (Nat × Cause) :=
  if addr % f.size ≠ 0 then some (3, .align)
  else if (match t with
      | .global _ => f.shared
      | .priv off => f.shared || f.atomic || s.myBlock.psize < off + f.size
        -- spilled stack entries hold the window's last 80 bytes (R300)
        || (s.me.spilled != 0 && s.myBlock.psize < off + f.size + 80)
      | .pad off => f.sc || (s.allocAt s.myBlk off).isNone
      | .cluster b off => f.sc || (s.allocAt b off).isNone) then some (4, .bounds)
  else if (s.tgtRanges lane f.size t).any fun r => s.locked s.myCore r f.writes then some (5, .rangelock)
  else if f.reads && (match t with
      | .pad off => s.staleRange s.myCore off f.size
      | .cluster b off => (s.block b).core == s.myCore && s.staleRange s.myCore off f.size
      | _ => false) then some (6, .stale)
  else none

/-- One lane's address through all the checks of R139. -/
def checkLane (s : State) (f : Form) (lane addr : Nat) : Except (Nat × Cause) Tgt :=
  if f.plain && vaTop ≤ addr then .error (1, .bounds)
  else match s.decodeAddr addr with
    | .error e => .error e
    | .ok t =>
      match s.checkTgt f lane addr t with
      | some e => .error e
      | none => .ok t

end State

/-- The lanes' failures: the earliest check that any lane fails, with the lanes that fail it and the
lowest one's address (R139). -/
def firstFailure (l : List (Nat × Nat × Except (Nat × Cause) Tgt)) : Option Stop :=
  let bad := l.filterMap fun e => match e.2.2 with
    | .error x => some (e.1, e.2.1, x)
    | .ok _ => none
  match bad.foldl (fun (m : Option Nat) e => match m with
      | some n => some (min n e.2.2.1)
      | none => some e.2.2.1) none with
  | none => none
  | some n =>
    let fs := bad.filter fun e => e.2.2.1 == n
    match fs.head? with
    | some e => some { cause := e.2.2.2, addr := e.2.1, lanes := maskIf fun x => fs.any fun f => f.1 == x }
    | none => none

namespace State

/-- Every lane's target, or the cause the access raises (R139). -/
def checkAll (s : State) (f : Form) (addrs : List (Nat × Nat)) : Except Stop (List (Nat × Tgt)) :=
  let l := addrs.map fun e => (e.1, e.2, s.checkLane f e.1 e.2)
  match firstFailure l with
  | some st => .error st
  | none => .ok (l.filterMap fun e => match e.2.2 with
      | .ok t => some (e.1, t)
      | .error _ => none)

end State

end Sys2Proof.Machine
end

