-- ==== Sys2Proof/Machine/Window.lean ====
section
/-!
DEFINITION. The configuration window (02_main_memory.md R49 to R51) and the events its registers
start: domains and shares (03_cache_deck.md R70 to R77), dead agents (04_crossing_dies.md R100 to
R103), bundle registers (05_bundles.md R115, R121), regions (16_scheduling.md R314), pre-emption
requests (17_traps_preemption.md R344), grants and fabric windows (18_host_and_peers.md).
-/

namespace Sys2Proof.Machine

namespace State

def modDomain (s : State) (die n : Nat) (f : Domain → Domain) : State :=
  s.modDie die fun d => { d with doms := d.doms.setIfInBounds n (f (s.domain die n)) }

/-- DOMn_MASK takes effect only when the domain is quiesced and empty, the mask is not zero and names
no slice that is off (R72): one with ON = 0, whatever its PWR.
DESIGN CHOICE, log entry 56. -/
def domMask (s : State) (die n mask : Nat) : State :=
  let d := s.domain die n
  let m := mask % 2 ^ 32
  let offNamed := (List.range 32).any fun k => m.testBit k && !(s.slc die k).on
  if d.quiesce && !d.busy && m != 0 && !offNamed then s.modDomain die n ({ · with mask := m }) else s

/-- DOMn_BASE and DOMn_LIMIT are ignored while EN = 1 and QUIESCE = 0 (R72). -/
def domRange (s : State) (die n : Nat) (limit : Bool) (value : Nat) : State :=
  let d := s.domain die n
  let u := bits value 16 36
  if d.en && !d.quiesce then s
  else s.modDomain die n fun d => if limit then { d with limit := u } else { d with base := u }

/-- Setting QUIESCE holds requests and starts emptying the domain (R73). -/
def domStart (s : State) (die n : Nat) : State :=
  if (s.domain die n).quiesce then s
  else (s.modDomain die n ({ · with quiesce := true, busy := true })).push [.domDrainComplete die n]

/-- The requests held at a domain of a die, of flights and of engines. -/
def domHeld (s : State) (die n : Nat) (w : LineWait) : Bool :=
  isMemory w.line && homeDie w.line == die && s.domainOf w.line == n

/-- Clearing QUIESCE releases the held requests, class 0 first (R73); while BUSY is 1 it abandons the emptying.
DESIGN CHOICE, log entry 56. -/
def domGo (s : State) (die n : Nat) : State :=
  let s := if (s.domain die n).quiesce then
      { s with lineq := s.lineq.map fun (w : LineWait) => if s.domHeld die n w then { w with queued := true } else w }
    else s
  s.modDomain die n ({ · with quiesce := false, busy := false })

/-- EN of domain 0 ignores writes (R70). -/
def domEn (s : State) (die n : Nat) (en : Bool) : State :=
  if n = 0 then s else s.modDomain die n ({ · with en := en })

def domCtl (s : State) (die n value : Nat) : State :=
  let s := s.domEn die n (value.testBit 0)
  if value.testBit 1 then s.domStart die n else s.domGo die n

/-- Every line something of the module holds. -/
def linesHeld (s : State) : List Nat :=
  (s.slices.map (·.line) ++ s.l1.map (·.line) ++ s.rdc.map (·.line) ++ s.wbs.map (·.line) ++ s.resv.map (·.line)).dedup

/-- A change of SHARE (R75). -/
def partShare (s : State) (die part value : Nat) : State :=
  let n := value % 8
  let d := s.die die
  if 4 < n || (d.shareNew.get? part).isSome || n = s.share die part then s
  else (s.modDie die fun d => { d with shareNew := d.shareNew.put part n }).push [.partShareDone die part]

/-- PWR = 0 is taken only when no mask of the die names the slice (R76). -/
def sliceOff (s : State) (die sc : Nat) : State :=
  let named := (List.range 4).any fun n => (s.domain die n).mask.testBit sc
  if named || !(s.slc die sc).pwr then s
  else s.modSlice die sc ({ · with pwr := false })

/-- Power-on takes effect at once; the slice is empty and every FLOOR is its MCLK (R76, R105). -/
def sliceOn (s : State) (die sc : Nat) : State :=
  if (s.slc die sc).on then s.modSlice die sc ({ · with pwr := true })
  else s.modSlice die sc fun x => { x with on := true, pwr := true, floors := [], floor0 := x.mclk, tags := [] }

/-- A core with no block is powered off: L1 written back, instruction cache and dictionaries
discarded (R77). -/
def coreOff (s : State) (c : Nat) : State :=
  if s.blocksOn c != [] then s
  else
    let lines := (s.l1.filter (·.core == c)).map (·.line)
    let s := lines.foldl (fun (s : State) l => s.coreLeaves c l) s
    let s := { s with chunks := s.chunks.filter (·.core != c) }
    s.modCore c ({ · with powered := false, dicts := Vector.replicate 2 {} })

/-- DEAD_CTL with GO: the agent's incarnation rises and the scrub begins (R101, R102).
DEDUCED, log entry 24. -/
def declareDead (s : State) (die kind agent : Nat) : State :=
  let s := s.modDie die ({ · with deadKind := kind, deadAgent := agent })
  if 3 ≤ kind || 32 ≤ agent || (kind = 2 && 24 ≤ agent) || (s.die die).deadBusy then s
  else
    let s := match kind with
      | 0 => s.modCore (32 * die + agent) fun c => { c with inc := (c.inc + 1) % 256 }
      | 1 => s.modSlice die agent fun x => { x with inc := (x.inc + 1) % 256, dead := true }
      | _ => (s.modDie die fun d => { d with incs := d.incs.put agent ((d.incs.get agent 0 + 1) % 256) }).modDie agent
          ({ · with dead := true })
    (s.modDie die ({ · with deadBusy := true, scrubKind := kind, scrubAgent := agent })).push [.scrubComplete die]

def deadCtl (s : State) (die value : Nat) : State :=
  let kind := bits value 28 2
  let agent := bits value 0 5
  if value.testBit 31 then (if (s.die die).deadBusy then s else s.declareDead die kind agent)
  else s.modDie die ({ · with deadKind := kind, deadAgent := agent })

/-- The incarnation DEAD_CTL shows (R101). -/
def deadInc (s : State) (die : Nat) : Nat :=
  let d := s.die die
  match d.deadKind with
  | 0 => (s.core (32 * die + d.deadAgent)).inc
  | 1 => (s.slc die d.deadAgent).inc
  | 2 => d.incs.get d.deadAgent 0
  | _ => 0

/-- Whether a die has a companion record that is not FREE (R115, R399). -/
def bundlesLive (s : State) (die : Nat) : Bool := s.brecs.any fun r => r.die == die && r.st != 0

def bundleBase (s : State) (die : Nat) (versions : Bool) (value : Nat) : State :=
  if s.bundlesLive die then s
  else s.modDie die fun d =>
    if versions then { d with vbase := some (bits value 25 27 * 2 ^ 25) }
    else { d with bbase := some (bits value 22 30 * 2 ^ 22) }

def devIdSet (s : State) (die value : Nat) : State :=
  if s.bundlesLive die then s else s.modDie die ({ · with devId := value % 2 ^ 12 })

/-- The block with a BSLOT on a core. -/
def blockAt (s : State) (core bslot : Nat) : Option Nat :=
  (s.blocksOn core).find? fun b => (s.block b).bslot == bslot

/-- PREEMPT_REQ.GO: a request for a block's cluster begins (R344, R345). -/
def preemptStart (s : State) (core bslot : Nat) (park : Bool) : State :=
  let s := s.modCore core fun c => { c with preempt := { c.preempt with park := park, bslot := bslot } }
  if (s.core core).preempt.busy then s
  else match s.blockAt core bslot with
    | none => s.endPreempt core 6
    | some b =>
      let bs := (s.clusterBlks b).filter fun x => (s.block x).state != .retired
      let bs := if bs = [] then [b] else bs
      if bs.any fun x => (s.block x).state == .halted then s.endPreempt core 5
      else (s.modCore core fun c =>
          { c with preempt := { c.preempt with busy := true, parking := park, saving := false, result := 0, blks := bs } }).push
        [.evictionProceed core]

/-- PREEMPT_REQ.CANCEL withdraws a request that is not saving (R344). -/
def preemptStop (s : State) (core : Nat) : State :=
  let p := (s.core core).preempt
  if p.busy && !p.saving then s.endPreempt core 3 else s

def preemptWrite (s : State) (core value : Nat) : State :=
  let park := value.testBit 28
  let bslot := bits value 16 6
  let s := s.modCore core fun c => { c with preempt := { c.preempt with park := park, bslot := bslot } }
  if value.testBit 30 then s.preemptStop core
  else if value.testBit 31 then s.preemptStart core bslot park
  else s

/-- PREEMPT_REQ as it reads (R344). -/
def preemptRead (s : State) (core : Nat) : Nat :=
  let p := (s.core core).preempt
  (if p.busy then 2 ^ 29 else 0) + (if p.park then 2 ^ 28 else 0) + 2 ^ 16 * p.bslot + p.result

def regionOf (s : State) (die id : Nat) : Option Region := s.regions.find? fun r => r.die == die && r.id == id
def modRegion (s : State) (die id : Nat) (f : Region → Region) : State :=
  { s with regions := s.regions.map fun (r : Region) => if r.die = die && r.id = id then f r else r }

/-- Whether a region is active on a die (R314). -/
def regionActive (s : State) (die id : Nat) : Bool := ((s.regionOf die id).map (·.active)).getD false

/-- REGn_CTL.GO: activation begins (R314). -/
def regionStart (s : State) (die id : Nat) : State :=
  if (s.die die).regBusy.contains id then s
  else (s.modDie die fun d => { d with regBusy := id :: d.regBusy }).push [.regionActivationDone die id]

/-- REGn_CTL.STOP: placement and watching end; the region's values stay for blocks placed (R314). -/
def regionEnd (s : State) (die id : Nat) : State :=
  s.modRegion die id ({ · with active := false, watch := [] })

def regionCtl (s : State) (die id value : Nat) : State :=
  match value.testBit 31, value.testBit 30 with
  | true, false => s.regionStart die id
  | false, true => s.regionEnd die id
  | _, _ => s

end State

/-- The writable bits of INGk_CTL, FWINn_CTL and FWINn_BASE (R352, R353). -/
def ingCtlBits (v : Nat) : Nat := bits v 61 3 * 2 ^ 61 + bits v 49 6 * 2 ^ 49 + bits v 0 36
def fwinCtlBits (v : Nat) : Nat :=
  let port := bits v 44 4
  bits v 61 3 * 2 ^ 61 + bits v 48 12 * 2 ^ 48 + (if 12 ≤ port then 15 else port) * 2 ^ 44
    + bits v 38 6 * 2 ^ 38 + bits v 0 23

namespace State

/-- What an access-counter entry holds (R51). -/
def counterRead (s : State) (die i : Nat) : Nat :=
  let (r, w) := (s.die die).counts.get i (0, 0)
  2 ^ 32 * w + r
def counterWrite (s : State) (die i value : Nat) : State :=
  s.modDie die fun d => { d with counts := d.counts.put i (value % 2 ^ 32, value / 2 ^ 32 % 2 ^ 32) }

end State

/-- A register of a die's part of the configuration window. -/
inductive CfgReg where
  | domMask (n : Nat) | domBase (n : Nat) | domLimit (n : Nat) | domCtl (n : Nat)
  | partShare (p : Nat) | deadCtl | bndlDiag | bndlHorizon | bndlBase | bndlVbase
  | preempt (c : Nat) | ctxBase | ctxN | fwinCtl (n : Nat) | fwinBase (n : Nat)
  | ingCtl (k : Nat) | ingBase (k : Nat) | pwrStat | devId | sliceCtl (k : Nat)
  | regPtr (id : Nat) | regCtl (id : Nat) | counter (i : Nat)
  deriving DecidableEq, Repr

/-- Registers whose width is W64; the others are W32 (R50). -/
def CfgReg.w64 : CfgReg → Bool
  | .domBase _ | .domLimit _ | .bndlBase | .bndlVbase | .ctxBase | .fwinCtl _ | .fwinBase _
  | .ingCtl _ | .ingBase _ | .regPtr _ | .counter _ => true
  | _ => false

/-- The register at an offset of a die's part (R49 and the register tables of spec/).
DEDUCED, log entry 22. -/
def cfgRegAt (off : Nat) : Option CfgReg :=
  if 0x10000 ≤ off && off < 0x10080 then
    match off % 0x20 with
    | 0 => some (.domMask ((off - 0x10000) / 0x20))
    | 8 => some (.domBase ((off - 0x10000) / 0x20))
    | 16 => some (.domLimit ((off - 0x10000) / 0x20))
    | 24 => some (.domCtl ((off - 0x10000) / 0x20))
    | _ => none
  else if 0x20000 ≤ off && off < 0x20200 then (if off % 8 = 0 then some (.partShare ((off - 0x20000) / 8)) else none)
  else if off = 0x30000 then some .deadCtl
  else if off = 0x40000 then some .bndlDiag
  else if off = 0x40008 then some .bndlHorizon
  else if off = 0x40010 then some .bndlBase
  else if off = 0x40018 then some .bndlVbase
  else if 0x50000 ≤ off && off < 0x50100 then (if off % 8 = 0 then some (.preempt ((off - 0x50000) / 8)) else none)
  else if off = 0x51000 then some .ctxBase
  else if off = 0x51008 then some .ctxN
  else if 0x60000 ≤ off && off < 0x60000 + 3584 * 16 then
    match off % 16 with
    | 0 => some (.fwinCtl ((off - 0x60000) / 16))
    | 8 => some (.fwinBase ((off - 0x60000) / 16))
    | _ => none
  else if 0x6E000 ≤ off && off < 0x6E400 then
    match off % 16 with
    | 0 => some (.ingCtl ((off - 0x6E000) / 16))
    | 8 => some (.ingBase ((off - 0x6E000) / 16))
    | _ => none
  else if off = 0x70000 then some .pwrStat
  else if off = 0x70010 then some .devId
  else if 0x1000000 ≤ off && off < 0x1200000 then
    (if off % 0x10000 = 0 then some (.sliceCtl ((off - 0x1000000) / 0x10000)) else none)
  else if 0x3000000 ≤ off && off < 0x3010000 then
    match off % 16 with
    | 0 => some (.regPtr ((off - 0x3000000) / 16))
    | 8 => some (.regCtl ((off - 0x3000000) / 16))
    | _ => none
  else if 0x4000000 ≤ off && off < 0x4002000 then (if off % 8 = 0 then some (.counter ((off - 0x4000000) / 8)) else none)
  else if 0x4100000 ≤ off && off < 0x4200000 then
    (if off % 8 = 0 then some (.counter (1024 + (off - 0x4100000) / 8)) else none)
  else none

/-- The die and register an access of the configuration window reaches: none at an unassigned address
or under the other width (R49, R50). -/
def cfgTarget (pa : Nat) (w64 : Bool) : Option (Nat × CfgReg) :=
  let die := bits pa 32 8
  if 24 ≤ die || bits pa 40 8 != 0 then none
  else match cfgRegAt (pa % 2 ^ 32) with
    | some r => if r.w64 == w64 then some (die, r) else none
    | none => none

namespace State

/-- What a register reads as.  SHARE reads the old share while its change is BUSY (R75).
DESIGN CHOICE, log entry 56.
What the sensors of PWR_STAT show is free (R358).
DESIGN CHOICE, log entry 53. -/
def cfgValue (s : State) (die : Nat) (r : CfgReg) : Nat :=
  let d := s.die die
  match r with
  | .domMask n => (s.domain die n).mask
  | .domBase n => (s.domain die n).base * 2 ^ 16
  | .domLimit n => (s.domain die n).limit * 2 ^ 16
  | .domCtl n =>
    let x := s.domain die n
    (if x.busy then 4 else 0) + (if x.quiesce then 2 else 0) + if x.en then 1 else 0
  | .partShare p => (if (d.shareNew.get? p).isSome then 8 else 0) + s.share die p
  | .deadCtl => (if d.deadBusy then 2 ^ 30 else 0) + 2 ^ 28 * d.deadKind + (if d.deadFail then 2 ^ 27 else 0)
      + 2 ^ 16 * s.deadInc die + d.deadAgent
  | .bndlDiag => (if d.bdiagEn then 2 ^ 31 else 0) + d.bdelay
  | .bndlHorizon => d.hor
  | .bndlBase => d.bbase.getD 0
  | .bndlVbase => d.vbase.getD 0
  | .preempt c => s.preemptRead (32 * die + c)
  | .ctxBase => d.ctxBase
  | .ctxN => d.ctxN
  | .fwinCtl n => s.fwinCtlOf die n
  | .fwinBase n => s.fwinBaseOf die n
  | .ingCtl k => d.ingCtl.get k 0
  | .ingBase k => d.ingBase.get k 0
  | .pwrStat => 2 ^ 24 * (Config.sensor die 0 s.time % 2 ^ 8) + 2 ^ 16 * d.duty + Config.sensor die 1 s.time % 2 ^ 16
  | .devId => d.devId
  | .sliceCtl k => (if (s.slc die k).on then 256 else 0) + if (s.slc die k).pwr then 1 else 0
  | .regPtr id => d.regPtr.get id 0
  | .regCtl id => (if d.regBusy.contains id then 2 ^ 29 else 0) + (if s.regionActive die id then 2 ^ 28 else 0)
      + d.regErr.get id 0
  | .counter i => s.counterRead die i

/-- What a write of a register does. -/
def cfgSet (s : State) (die : Nat) (r : CfgReg) (v : Nat) : State :=
  match r with
  | .domMask n => s.domMask die n v
  | .domBase n => s.domRange die n false v
  | .domLimit n => s.domRange die n true v
  | .domCtl n => s.domCtl die n v
  | .partShare p => s.partShare die p v
  | .deadCtl => s.deadCtl die v
  | .bndlDiag => s.modDie die ({ · with bdiagEn := v.testBit 31, bdelay := v % 2 ^ 16 })
  | .bndlHorizon => if v % 2 ^ 16 < 10 then s else s.modDie die ({ · with hor := v % 2 ^ 16 })
  | .bndlBase => s.bundleBase die false v
  | .bndlVbase => s.bundleBase die true v
  | .preempt c => s.preemptWrite (32 * die + c) v
  | .ctxBase => s.modDie die ({ · with ctxBase := bits v 24 28 * 2 ^ 24 })
  | .ctxN => s.modDie die ({ · with ctxN := v % 2 ^ 16 })
  | .fwinCtl n => s.modDie die fun d => { d with fwinCtl := d.fwinCtl.put n (fwinCtlBits v) }
  | .fwinBase n => s.modDie die fun d => { d with fwinBase := d.fwinBase.put n (bits v 16 48 * 2 ^ 16) }
  | .ingCtl k => s.modDie die fun d => { d with ingCtl := d.ingCtl.put k (ingCtlBits v) }
  | .ingBase k => s.modDie die fun d => { d with ingBase := d.ingBase.put k (bits v 16 36 * 2 ^ 16) }
  | .pwrStat => s
  | .devId => s.devIdSet die v
  | .sliceCtl k => if v.testBit 0 then s.sliceOn die k else s.sliceOff die k
  | .regPtr id => s.modDie die fun d => { d with regPtr := d.regPtr.put id (bits v 9 43 * 2 ^ 9) }
  | .regCtl id => s.regionCtl die id v
  | .counter i => s.counterWrite die i v

/-- A load of the configuration window: 0 at an unassigned address (R49, R50). -/
def cfgRead (s : State) (pa : Nat) (w64 : Bool) : Nat :=
  match cfgTarget pa w64 with
  | some (die, r) => s.cfgValue die r
  | none => 0

/-- A store of the configuration window: nothing at an unassigned address. -/
def cfgWrite (s : State) (pa : Nat) (w64 : Bool) (v : Nat) : State :=
  match cfgTarget pa w64 with
  | some (die, r) => s.cfgSet die r v
  | none => s

end State

/-! The events of these registers. -/

/-- DOM_MASK_WRITE (R72). -/
def execDomMaskWrite (die n mask : Nat) (s : State) : Result := .next (s.domMask die n mask).done

/-- DOM_RANGE_WRITE (R72). -/
def execDomRangeWrite (die n : Nat) (limit : Bool) (value : Nat) (s : State) : Result :=
  .next (s.domRange die n limit value).done

/-- DOM_QUIESCE (R73). -/
def execDomQuiesce (die n : Nat) (s : State) : Result := .next (s.domStart die n).done

/-- DOM_RELEASE (R73). -/
def execDomRelease (die n : Nat) (s : State) : Result := .next (s.domGo die n).done

/-- DOM_ENABLE (R71). -/
def execDomEnable (die n : Nat) (en : Bool) (s : State) : Result := .next (s.domEn die n en).done

/-- DOM_DRAIN_COMPLETE (R73): once no transaction of the domain is open, every copy comes home, dirty
lines are written to memory, and lines and directory entries of the domain go; a slice declared dead counts as empty
(R102). -/
def execDomDrainComplete (die n : Nat) (s : State) : Result :=
  .next (
    let mine (l : Nat) : Bool := isMemory l && homeDie l == die && s.domainOf l == n && !(s.slc die (s.sliceOf l)).dead
    if !(s.domain die n).busy then s.done
    else if s.txns.any mine || (s.linesHeld.filter mine).any s.silent then (s.push [.domDrainComplete die n]).done
    else
      let s := (s.linesHeld.filter mine).foldl (fun (s : State) l =>
        let part := ((s.sliceLine l).map (·.part)).getD 0
        (s.revokeAll l part).evictSlice l) s
      let s := { s with dir := s.dir.filter fun e => !mine e.base }
      (s.modDomain die n ({ · with busy := false })).done)

/-- PART_SHARE_WRITE (R75). -/
def execPartShareWrite (die part share : Nat) (s : State) : Result := .next (s.partShare die part share).done

/-- PART_SHARE_DONE (R75): the partition's lines are written back and invalidated; the share applies. -/
def execPartShareDone (die part : Nat) (s : State) : Result :=
  .next (
    match (s.die die).shareNew.get? part with
    | none => s.done
    | some n =>
      let mine (l : Nat) : Bool := isMemory l && homeDie l == die &&
        (((s.sliceLine l).map (·.part)) == some part || ((s.dirEnt l).map (·.part)) == some part)
      if s.txns.any mine || (s.linesHeld.filter mine).any s.silent then (s.push [.partShareDone die part]).done
      else
        let s := (s.linesHeld.filter mine).foldl (fun (s : State) l => (s.revokeAll l part).evictSlice l) s
        (s.modDie die fun d => { d with shares := d.shares.put part n, shareNew := d.shareNew.del part }).done)

/-- SLICE_POWER_OFF (R76). -/
def execSlicePowerOff (die sc : Nat) (s : State) : Result := .next (s.sliceOff die sc).done

/-- SLICE_POWER_ON (R76). -/
def execSlicePowerOn (die sc : Nat) (s : State) : Result := .next (s.sliceOn die sc).done

/-- SLICE_OFF_COMPLETE (R76): the slice's contents are lost and ON is 0. -/
def execSliceOffComplete (die sc : Nat) (s : State) : Result :=
  .next (
    if (s.slc die sc).pwr then s.done
    else
      let s := { s with slices := s.slices.filter fun l => !(l.die == die && l.slice == sc) }
      (s.modSlice die sc ({ · with on := false })).done)

/-- CORE_POWER_OFF (R77). -/
def execCorePowerOff (core : Nat) (s : State) : Result := .next (s.coreOff core).done

/-- CORE_POWER_ON (R77). -/
def execCorePowerOn (core : Nat) (s : State) : Result :=
  .next (s.modCore core ({ · with powered := true })).done

/-- DEAD_CORE (R102). -/
def execDeadCore (die agent : Nat) (s : State) : Result := .next (s.declareDead die 0 agent).done

/-- DEAD_SLICE (R102). -/
def execDeadSlice (die agent : Nat) (s : State) : Result := .next (s.declareDead die 1 agent).done

/-- DEAD_DIE (R102). -/
def execDeadDie (die agent : Nat) (s : State) : Result := .next (s.declareDead die 2 agent).done

/-- BNDL_BASE_WRITE (R115). -/
def execBndlBaseWrite (die : Nat) (versions : Bool) (value : Nat) (s : State) : Result :=
  .next (s.bundleBase die versions value).done

/-- DEV_ID_WRITE (R399). -/
def execDevIdWrite (die value : Nat) (s : State) : Result := .next (s.devIdSet die value).done

/-- CONFIG_REGISTER_WRITE (R50). -/
def execConfigRegisterWrite (pa : Nat) (w64 : Bool) (value : Nat) (s : State) : Result :=
  .next (s.cfgWrite pa w64 value).done

/-- PREEMPT_GO (R344, R345). -/
def execPreemptGo (core bslot : Nat) (park : Bool) (s : State) : Result :=
  .next (s.preemptStart core bslot park).done

/-- PREEMPT_CANCEL (R344). -/
def execPreemptCancel (core : Nat) (s : State) : Result := .next (s.preemptStop core).done

/-- REGION_GO (R314). -/
def execRegionGo (die region : Nat) (s : State) : Result := .next (s.regionStart die region).done

/-- REGION_STOP (R314). -/
def execRegionStop (die region : Nat) (s : State) : Result := .next (s.regionEnd die region).done

end Sys2Proof.Machine
end

