-- ==== Sys2Proof/Machine/Flights.lean ====
section
/-!
DEFINITION. Memory instructions in flight: counters and pending registers (06_memory_instructions.md
R140 to R144), the places where requests are performed (R80, R93, R97, R99, R149 to R156, R168), the
walks they wait on (02_main_memory.md R61), and their return.
-/

namespace Sys2Proof.Machine

/-! Atomic operations (R153 to R155). -/

/-- The Carry combination a non-returning atomic may fold into (R153). -/
def carryOf (fn : Nat) (w64 : Bool) : Option CarryOp :=
  match fn with
  | 0 => some ⟨if w64 then 1 else 0, false⟩
  | 1 => if w64 then none else some ⟨4, false⟩
  | 2 => if w64 then none else some ⟨7, false⟩
  | 3 => if w64 then none else some ⟨5, false⟩
  | 4 => if w64 then none else some ⟨8, false⟩
  | 5 => some ⟨10, w64⟩
  | 6 => some ⟨11, w64⟩
  | 7 => some ⟨12, w64⟩
  | 9 => some ⟨2, false⟩
  | 10 => some ⟨6, false⟩
  | 11 => some ⟨9, false⟩
  | 12 => some ⟨3, false⟩
  | _ => none

/-- The result of an atomic from memory `m` and operand `x` (R153). -/
def atomOp (fn : Nat) (w64 : Bool) (m x : Nat) : Nat :=
  match fn with
  | 0 => CarryOp.combine ⟨if w64 then 1 else 0, false⟩ m x
  | 1 => CarryOp.combine ⟨4, w64⟩ m x
  | 2 => CarryOp.combine ⟨7, w64⟩ m x
  | 3 => min m x
  | 4 => max m x
  | 5 => m &&& x
  | 6 => m ||| x
  | 7 => m ^^^ x
  | 9 => CarryOp.combine ⟨2, false⟩ m x
  | 10 => CarryOp.combine ⟨6, false⟩ m x
  | 11 => CarryOp.combine ⟨9, false⟩ m x
  | 12 => CarryOp.combine ⟨3, false⟩ (m % 2 ^ 16) (x % 2 ^ 16)
      + 2 ^ 16 * CarryOp.combine ⟨3, false⟩ (m / 2 ^ 16) (x / 2 ^ 16)
  | _ => x

/-! A flight's pieces. -/

namespace Flight

/-- One piece performed on a line's bytes: the bytes after, and the piece with the value it read. -/
def applyAcc (f : Flight) (a : Acc) (d : List Byte) : List Byte × Acc :=
  let i := a.va % 128
  let m := leNat (slice d i a.size)
  match f.kind with
  | .store => (patch d i (leBytes a.size a.val), a)
  | .atomic fn => (patch d i (leBytes a.size (atomOp fn f.w64 m a.val)), { a with val := m })
  | .cas => (if m = a.cmp then patch d i (leBytes a.size a.val) else d, { a with val := m })
  | _ => (d, { a with val := m })

/-- All pieces of a request, in ascending lane order (R149, R150, R154). -/
def apply (f : Flight) (k : Nat) (d : List Byte) : List Byte × Flight :=
  let r := f.accs.foldl (fun (e : List Byte × List Acc) a =>
    if a.req = k && a.bad.isNone then
      let (d, a) := f.applyAcc a e.1
      (d, e.2 ++ [a])
    else (e.1, e.2 ++ [a])) (d, [])
  (r.1, { f with accs := r.2 })

def req (f : Flight) (k : Nat) : Req := f.reqs[k]?.getD { win := .global, vline := 0 }
def key (f : Flight) : Nat := warpKey f.core f.slot
def die (f : Flight) : Nat := dieOf f.core
def isSc (f : Flight) : Bool := f.ord == 3
/-- An acquire at RMT, performed at the home and never at a copy (R167). -/
def isRmt (f : Flight) : Bool := f.ord == 1 && f.scp == 7
/-- Whether the instruction completes by returning data, not by an acknowledgment (R141). -/
def returns (f : Flight) : Bool := f.paths &&& 11 != 0
/-- The paths a request's lanes are on: a load counted on both G and S has those of each window (R140). -/
def pathOf (f : Flight) (r : Req) : Nat :=
  if f.paths &&& 3 = 3 then (match r.win with
    | .global => 1
    | _ => 2) else f.paths
/-- The paths not yet left on which every lane has completed (R141). -/
def ready (f : Flight) : Nat :=
  if f.landing || f.paths &&& 3 != 3 then (if f.reqs.all (·.done) then f.paths ||| 16 else 0)
  else
    let on (p : Nat) : Nat :=
      if f.landed &&& p = 0 && f.reqs.all fun r => r.done || f.pathOf r != p then p else 0
    on 1 + on 2
/-- What the accesses need of their leaves (R56). -/
def need (f : Flight) : Need :=
  match f.kind with
  | .store | .vstb => .w
  | .atomic _ | .cas | .cmst => .rw
  | .cache fn => if fn ≤ 1 then .r else .w
  | _ => .r

end Flight

namespace State

/-- The context record of a block that has one (R344, R347). -/
def ctxAddr (s : State) (b : Nat) : Option Nat :=
  let x := s.block b
  x.ctx.map fun n => (s.die (dieOf x.core)).ctxBase + n * 2 ^ 24

/-- Vector registers the images of the warps before one take, budgets as allocated (R317, R347). -/
def imageStart (budgets : List Nat) (widx : Nat) : Nat := ((budgets.take widx).map fun n => (n + 7) / 8 * 8).sum

/-- Declared budgets of a saved block's warps. -/
def imageBudgets (s : State) (b : Nat) : List Nat := (s.block b).images.map (·.2.budget)

/-- The warp index of a landing flight's warp. -/
def imageOf (s : State) (f : Flight) : Nat := ((s.block f.blk).slots.findIdx? (· == f.slot)).getD 0

/-- The pieces of a warp's 4 KiB image that its open bundle and its view fill, by offset (R134, R347). -/
def versionPieces (s : State) (w : Warp) : List (Nat × List Byte) :=
  let fail := ((s.brecs.find? fun r => r.die == w.brecDie && r.idx == w.brecIdx && r.bid == w.bid).map (·.fail)).getD 0
  [(0x174, leBytes 4 w.viewst.toNat),
    (0x1C0, leBytes 8 w.bid.toNat ++ leBytes 4 w.brecIdx ++ leBytes 4 fail ++ w.btab.flatMap fun l => leBytes 8 (128 * l)),
    (0x540, leBytes 8 w.vt0 ++ leBytes 8 w.vstatus ++ w.seen.flatMap fun e =>
      leBytes 8 (128 * e.line) ++ e.data ++ leBytes 4 e.side.toNat ++ leBytes 4 0)]

/-- Writes them into the record of a block that is out, for the warp of a flight (R134). -/
def saveVersions (s : State) (f : Flight) : State :=
  match s.ctxAddr f.blk with
  | some a =>
    let i := s.imageOf f
    (s.versionPieces ((s.block f.blk).images.get i {})).foldl (fun (s : State) p => s.physWrite (a + 0x1000 + 0x1000 * i + p.1) p.2) s
  | none => s

/-- A store fault that arrives while its block is evicted is kept in the issuer's record (R346). -/
def keepFault (slot : Nat) (st : Stop) (w : Warp) : Warp :=
  let gone := w.run == .exited
  let r := st.record (st.fpos.getD (0, 0, false)) w.position
  { w with
    cause := setCause w.cause .storeflt
    frec := if w.frec.valid then { w.frec with more := min 255 (w.frec.more + 1) }
      else { r with issExit := gone, exSlot := if gone then slot else 0 } }

def imageFault (s : State) (b slot : Nat) (st : Stop) : State :=
  s.modBlock b fun x =>
    let ws := x.images.map fun e => (e.1, if x.slots[e.1]? = some slot then keepFault slot st e.2 else e.2)
    { x with images := ws, kept := x.kept <|> x.slots.findIdx? (· == slot) }

/-- A failed store of a flight reaches its issuer (R144, R346). -/
def flightFault (s : State) (f : Flight) (st : Stop) : State :=
  if f.landing then s.imageFault f.blk f.slot st else s.storeFault f.key st

def modReq (s : State) (id k : Nat) (g : Req → Req) : State :=
  s.modFlight id fun f => { f with reqs := f.reqs.set k (g (f.req k)) }

/-- A request is finished; with the last one of a path the instruction returns on it or is acknowledged
(R141). -/
def finishReq (s : State) (id k : Nat) (g : Req → Req) : State :=
  let s := s.modReq id k fun r => { g r with done := true, sent := false }
  match s.flights.get? id with
  | some f => if f.ready = 0 then s else s.pushNew (if f.returns then .loadDataReturn id else .storeAck id)
  | none => s

/-- What a flight's end has changed of a bundle is kept in the record of its block, if that is out (R134). -/
def savedFor (s : State) (f : Flight) : State := if f.landing then s.saveVersions f else s

/-- A request fails, with the TIER of a leaf its walk reached (R59); a failed staging marks its bundle FAULT (R124,
R126). -/
def failReq (s : State) (id k : Nat) (c : Cause) (level : Nat) (tier : Nat := 0) : State :=
  let s := match s.flights.get? id with
    | some f =>
      if f.kind == FKind.vstb then
        { s with brecs := s.brecs.map fun (r : BRec) =>
            if r.die = f.x && r.idx = f.y && r.bid = f.bid then
              { r with
                fail := if r.fail = 0 then 3 else r.fail
                got := match (f.req k).leaf with
                  | some _ => if r.got.contains ((f.req k).pa / 128) then r.got else r.got ++ [(f.req k).pa / 128]
                  | none => r.got }
            else r }.savedFor f
      else s
    | none => s
  s.finishReq id k fun r => { r with fail := some (c, level), tier := tier }

/-- The request waits and is looked at again. -/
def requeue (s : State) (id k : Nat) : State := s.push [.tlbMissWalk id k]

/-- The tag a flight's write leaves on a line that had `t` (R164, R179); an SC operation's LCLK is the one its request
carries (R168). -/
def tagAfter (s : State) (f : Flight) (t : Tag) : Tag :=
  let c := s.core f.core
  if f.ord == 2 || f.ord == 3 || f.tagged then t.max ⟨if f.isSc then f.lclk else c.lclk, c.leasemax⟩ else t

/-! Walks (R61). -/

/-- A miss waits in its rod's miss queue (R61). -/
def queueMiss (s : State) (id k : Nat) : State :=
  if s.missq.contains (id, k) then s else { s with missq := s.missq ++ [(id, k)] }

/-- Whether a miss can join the walk of its page, or start one (R61). -/
def walkRoom (s : State) (f : Flight) (va : Nat) : Bool :=
  match s.pageWalk f.die f.region f.root (va / 65536) with
  | some w => w.waiters.length < 256
  | none => s.walksOf f.die < 64

/-- Joins the walk of a request's page, or starts one; it waits while the walks or the page's waiters
are full. -/
def joinWalk (s : State) (id k : Nat) (f : Flight) (va : Nat) : State :=
  if !s.walkRoom f va then s.queueMiss id k
  else match s.pageWalk f.die f.region f.root (va / 65536) with
    | some w => s.setWalk w.id fun x => { x with waiters := x.waiters ++ [(id, k)] }
    | none =>
      let (n, s) := s.fresh
      let w : Walk := { id := n, die := f.die, region := f.region, root := f.root, part := f.part, ns := f.ns
                        page := va / 65536, waiters := [(id, k)] }
      { s with walks := s.walks ++ [w] }.push [.walkComplete n]

/-- The die and class of a miss that waits in a rod's miss queue: a request's, or a queued walk's (R61). -/
def missOf (s : State) (e : Nat × Nat) : Option (Nat × Nat) :=
  if e.1 = 0 then (s.walks.find? fun w => w.id == e.2 && w.queued).map fun w => (w.die, w.cls)
  else (s.flights.get? e.1).map fun f => (f.die, f.cls)

/-- A queued walk of a core takes a slot, or joins the walk of its page (R61). -/
def serveWalk (s : State) (w : Walk) : State :=
  match s.pageWalk w.die w.region w.root w.page with
  | some x =>
    if 256 ≤ x.waiters.length then s
    else
      let s := s.setWalk x.id fun x => { x with waiters := x.waiters ++ w.waiters }
      { s with walks := s.walks.filter (·.id != w.id), missq := s.missq.filter (· != (0, w.id)) }
  | none =>
    if 64 ≤ s.walksOf w.die then s
    else ({ s.setWalk w.id ({ · with queued := false }) with missq := s.missq.filter (· != (0, w.id)) } : State).push
      [.walkComplete w.id]

/-- A miss of the queues goes on if it can: its page is translated by now, or it joins or starts the walk of it. -/
def serveMiss (s : State) (e : Nat × Nat) : State :=
  if e.1 = 0 then (match s.walks.find? fun w => w.id == e.2 && w.queued with
    | some w => s.serveWalk w
    | none => s)
  else match s.flights.get? e.1 with
    | none => s
    | some f =>
      let va := 128 * (f.req e.2).vline
      let out : State := { s with missq := s.missq.filter (· != e) }
      if (s.tlbLookup f.core f.region va).isSome then out.requeue e.1 e.2
      else if s.walkRoom f va then out.joinWalk e.1 e.2 f va
      else s

/-- The miss queues of a die once a walk slot may be free: one miss after another, those of class 0 first, otherwise
in arrival order (R61). -/
def serveMisses (s : State) (die : Nat) : State :=
  let of (p : Nat → Bool) := s.missq.filter fun e => match s.missOf e with
    | some (d, cls) => d == die && p cls
    | none => false
  (of (· == 0) ++ of (· != 0)).foldl serveMiss s

/-! Requests at a scratchpad bank (R137, R138, R214). -/

/-- Performs a request on scratchpad bytes of a core. -/
def performPad (s : State) (id k : Nat) (f : Flight) (core line : Nat) : State :=
  let (d, f) := f.apply k (s.padRead core (128 * line) 128)
  let s := { s with flights := s.flights.put id f }
  let s := match f.kind with
    | .store | .atomic _ | .cas => s.padWrite core (128 * line) d
    | _ => s
  s.finishReq id k fun r => r

/-- A cluster-shared request at another core's bank: range locks and retention are checked there, lane by lane
(R172, R217). -/
def performCluster (s : State) (id k : Nat) (f : Flight) (b line : Nat) : State :=
  let core := (s.block b).core
  let writes := f.kind != .load
  let check (a : Acc) : Option Cause :=
    if a.req != k || core == f.core then none
    else if s.locked core ⟨true, s.identOf b, a.va, a.size⟩ writes then some .rangelock
    else if f.kind != .store && s.staleRange core a.va a.size then some .stale
    else none
  let f := { f with accs := f.accs.map fun a => { a with bad := a.bad <|> check a } }
  ({ s with flights := s.flights.put id f } : State).performPad id k f core line

/-! Requests outside the module's memory. -/

/-- A fabric window (R354): atomics and the versioned accesses to a host raise PROT; what a target
answers is free.  An atomic is sent as its function, 255 for a compare and swap, with its operands.
DESIGN CHOICE, log entry 21. -/
def performFabric (s : State) (id k : Nat) (f : Flight) (pa : Nat) : State :=
  let line := pa / 128 * 128
  match s.fabricAt f.die pa with
  | none => s.failReq id k .xlate 0
  | some (ctl, _) =>
    let plain := f.kind == .load || f.kind == .store
    if fabricHost ctl && !plain then s.failReq id k .prot 0
    else
      let mine := f.accs.filter (·.req == k)
      let (s, bad) := mine.foldl (fun (e : State × Option Cause) a =>
        match e.2 with
        | some _ => e
        | none =>
          let at' := line + a.va % 128
          let (s, g) := match f.kind with
            | .load => e.1.fabricRead f.die f.key at' a.size
            | .store => e.1.fabricWrite f.die f.key at' (leBytes a.size a.val)
            | .atomic fn => e.1.fabricSend f.die f.key .matom at' (leBytes 1 fn ++ leBytes a.size a.val) a.size
            | _ => e.1.fabricSend f.die f.key .matom at' (leBytes 1 255 ++ leBytes a.size a.val ++ leBytes a.size a.cmp) a.size
          match g with
          | .bytes bs =>
            (s.modFlight id fun f => { f with accs := f.accs.map fun x => if x = a then { x with val := leNat bs } else x }, none)
          | .fail c _ _ => (s, some c)
          | .held => (s, some .xlate)) (s, none)
      match bad with
      | some c => s.failReq id k c 0
      | none => s.finishReq id k fun r => r

/-- Whether a flight's context is privileged (R332). -/
def flightPriv (s : State) (f : Flight) : Bool := f.slot == 64 || (s.block f.blk).priv

/-- The configuration window (R50): privileged, naturally aligned W32 or W64, in lane order.  Everything else but
a load or a store answers PROT there; of VLDV and LDLV the rule does not speak.
DESIGN CHOICE, log entry 59. -/
def performConfig (s : State) (id k : Nat) (f : Flight) (pa : Nat) : State :=
  let line := pa / 128 * 128
  let mine := f.accs.filter (·.req == k)
  if !s.flightPriv f then s.failReq id k .prot 0
  else if f.kind != .load && f.kind != .store then s.failReq id k .prot 0
  else if f.width != 4 && f.width != 8 then s.failReq id k .align 0
  else
    let s := mine.foldl (fun (s : State) a =>
      let at' := line + a.va % 128
      if f.kind == .store then s.cfgWrite at' (f.width == 8) a.val
      else s.modFlight id fun f =>
        { f with accs := f.accs.map fun x => if x = a then { x with val := s.cfgRead at' (f.width == 8) } else x }) s
    s.finishReq id k fun r => r

/-! Requests served by the core's L1 or its die's remote-data cache (R80, R94, R96, R156). -/

/-- Whether a cached copy may serve a flight: same world, and same partition at the home. -/
def mayHit (s : State) (f : Flight) (l : Leaf) (line : Nat) (ns : Bool) : Bool :=
  ns == l.ns && (match s.dirEnt line with
    | some e => e.part == f.part
    | none => true)

/-- A valid, readable L1 copy (R78, R94). -/
def l1Hit (s : State) (f : Flight) (l : Leaf) (line : Nat) : Option L1Line :=
  match s.l1Line f.core line with
  | some x =>
    let ok := match x.st with
      | .c _ => false
      | _ => true
    if ok && s.mayHit f l line x.ns && (x.lease = 0 || s.leaseValid f.die x.lease) then some x else none
  | none => none

/-- A valid leased copy in the die's remote-data cache (R94). -/
def rdcHit (s : State) (f : Flight) (l : Leaf) (line : Nat) : Option RdcLine :=
  match s.rdcLine f.die line with
  | some x => if x.op == none && s.mayHit f l line x.ns && s.leaseValid f.die x.lease then some x else none
  | none => none

/-- Performs a read request on bytes a copy or the home supplies. -/
def finishRead (s : State) (id k : Nat) (f : Flight) (d : List Byte) (t : Tag) (g : Req → Req) : State :=
  let (_, f') := f.apply k d
  ({ s with flights := s.flights.put id f' }).finishReq id k fun r => { g r with tag := t, data := d }

/-- Fills the L1 of a core with a line. -/
def fillL1 (s : State) (core line : Nat) (st : CopyState) (d : List Byte) (lease : Nat) (ns : Bool) (t : Tag) (cls : Nat) : State :=
  (s.l1Room core line cls).putL1 { core := core, line := line, st := st, data := d, lease := lease, ns := ns, tag := t }

/-- Performs a write or an atomic in the core's own L1 line, which becomes M (R78, R156). -/
def writeL1 (s : State) (id k : Nat) (f : Flight) (x : L1Line) (g : Req → Req) : State :=
  let (d, f') := f.apply k x.data
  let s := { s with flights := s.flights.put id f' }
  let s := s.putL1 { x with st := .m, data := d, tag := s.tagAfter f x.tag }
  s.finishReq id k fun r => { g r with tag := x.tag }

/-- A load of a memory line (R58, R80, R94, R167, R168). -/
def loadLine (s : State) (id k : Nat) (f : Flight) (l : Leaf) (line : Nat) : State :=
  let cached := !l.shared && l.pol == 0
  let remote := homeDie line != f.die
  let here := !f.isSc && !f.isRmt && !s.isPoisoned line && f.kind == .load
  let miss := s.push [if remote then .homeLoadMissRemote id k else .homeLoadMissCore id k]
  if !here then miss
  else match (if cached then s.l1Hit f l line else none) with
    | some x => s.finishRead id k f x.data x.tag id'
    | none =>
      match (if remote && !l.shared && l.pol != 2 then s.rdcHit f l line else none) with
      | some x =>
        let s := if cached then
            (s.putRdc { x with vec := if x.vec.contains f.core then x.vec else f.core :: x.vec }).fillL1 f.core line .s
              x.data x.lease x.ns x.tag f.cls
          else s.putRdc x
        s.finishRead id k f x.data x.tag id'
      | none => miss
where id' (r : Req) : Req := r

/-- A store to a memory line (R80, R97, R168). -/
def storeLine (s : State) (id k : Nat) (f : Flight) (l : Leaf) (line : Nat) : State :=
  let remote := homeDie line != f.die
  if !remote && !l.shared && l.pol == 0 && !f.isSc then
    match s.l1Hit f l line with
    | some x =>
      if x.st == .m || x.st == .e then s.writeL1 id k f x (fun r => r) else s.push [.homeOwnershipMiss id k]
    | none => s.push [.homeOwnershipMiss id k]
  else
    let s := if remote then s.dropL1 f.core line else s
    s.push [.homeRemoteWrite id k]

/-- The Carry operation a flight folds under, if it may (R156). -/
def foldOf (f : Flight) (l : Leaf) : Option CarryOp :=
  match f.kind with
  | .atomic fn => if f.paths == 4 && f.ord == 0 && !l.shared && l.pol != 2 then carryOf fn f.w64 else none
  | _ => none

/-- Folds a flight's updates into a partial's bytes. -/
def foldInto (s : State) (id k : Nat) (f : Flight) (d : List Byte) : State × List Byte :=
  let (d, f') := f.apply k d
  ({ s with flights := s.flights.put id f' }, d)

/-- An atomic on a memory line at one of its places (R156). -/
def atomLine (s : State) (id k : Nat) (f : Flight) (l : Leaf) (line : Nat) : State :=
  let remote := homeDie line != f.die
  let cached := !l.shared && l.pol == 0
  match foldOf f l with
  | some op =>
    if remote then
      let s := s.dropL1 f.core line
      match s.rdcLine f.die line with
      | some x =>
        if x.op == some op && s.mayHit f l line x.ns then
          let (s, d) := s.foldInto id k f x.data
          (s.putRdc { x with data := d }).finishReq id k fun r => r
        else s.push [.homeCarryRequest id k]
      | none => s.push [.homeCarryRequest id k]
    else if cached then
      match s.l1Line f.core line with
      | some x =>
        if x.st == .c op && s.mayHit f l line x.ns then
          let (s, d) := s.foldInto id k f x.data
          (s.putL1 { x with data := d }).finishReq id k fun r => r
        else s.push [.homeCarryRequest id k]
      | none => s.push [.homeCarryRequest id k]
    else s.push [.homeAtomic id k]
  | none =>
    if !remote && cached && !f.isSc && !f.isRmt then
      match s.l1Hit f l line with
      | some x =>
        if (x.st == .m || x.st == .e) && !s.isPoisoned line then s.writeL1 id k f x (fun r => r)
        else s.push [.homeOwnershipMiss id k]
      | none => s.push [.homeOwnershipMiss id k]
    else
      let s := if remote then s.dropL1 f.core line else s
      s.push [.homeAtomic id k]

/-! CACHE on one line (R87, R88). -/

/-- The next line of a CACHE, or its acknowledgment.
DEDUCED, log entry 23. -/
def cacheNext (s : State) (id : Nat) (va : Nat) : State :=
  match s.flights.get? id with
  | some f =>
    if f.y ≤ va then
      if f.paths = 0 then { s with flights := s.flights.del id }
      else s.finishReq id 0 fun r => r
    else
      (s.modFlight id fun f =>
        { f with x := va, reqs := [{ win := .global, vline := va / 128 }] }).requeue id 0
  | none => s

/-- A failure of CACHE: PF skips, the others record a store fault; the page is skipped, as far as its leaf shows
where it ends (R87). -/
def cacheFail (s : State) (id : Nat) (f : Flight) (c : Cause) (level : Nat) (page : Bool) : State :=
  let va := 128 * (f.req 0).vline
  let leaf := (f.req 0).leaf
  let log := (leaf.map (·.page)).getD 16
  let s := if f.paths = 0 then s
    else s.flightFault f
      { cause := .storeflt, under := c.bit, addr := va, level := level, tier := (leaf.map (·.tier)).getD (f.req 0).tier
        precise := false, fpos := some (f.pc, f.pslot, f.pexp) }
  s.cacheNext id (if page then (va / 2 ^ log + 1) * 2 ^ log else va + 128)

/-- Instruction caches drop a line, and dictionary RAMs that hold it become stale (R87). -/
def dropCode (s : State) (line : Nat) : State :=
  { s with
    chunks := s.chunks.filter fun c => !c.lines.contains line
    cores := s.cores.map fun (e : Nat × Core) =>
      if e.2.dicts.toList.any fun (d : DictRam) => d.lines.contains line then
        (e.1, { e.2 with dicts := e.2.dicts.map fun (d : DictRam) => if d.lines.contains line then { d with stale := true } else d })
      else e }

/-- A staged version of the device's own whose bundle is gone may be cleared by INV (R88, R133). -/
def dropOrphans (s : State) (line : Nat) : State :=
  { s with vers := s.vers.filter fun (v : VerEnt) =>
      !(v.line = line && v.staged && bits v.side.toNat 1 12 == (s.die (bits v.side.toNat 13 5)).devId
        && !s.brecs.any fun r => r.bid == v.bid && r.st != 0) }

/-- WB, INV and WBINV at a line's home (R87); a line of a SHARED or UC page is discarded from instruction caches and
dictionary RAMs too, though only its home slice's copy is acted on (R88).
DESIGN CHOICE, log entry 68. -/
def cacheHome (s : State) (f : Flight) (l : Leaf) (fn line : Nat) : State :=
  let uncached := l.shared || l.pol == 2
  if fn = 1 then (if uncached then s.cleanSlice line else (s.collect line f.part).cleanSlice line)
  else
    let s := if fn = 3 then (if uncached then s.cleanSlice line else (s.collect line f.part).cleanSlice line) else s
    let s := if uncached then s
      else
        -- copies are discarded without their data
        let s := s.settleLine line
        let s := { s with
          resv := s.resv.filter (·.line != line)
          l1 := s.l1.map fun (x : L1Line) => if x.line = line then { x with st := .s } else x
          rdc := s.rdc.map fun (x : RdcLine) => if x.line = line then { x with op := none } else x }
        s.revokeAll line f.part
    ((s.dropSlice line).dropCode line).dropOrphans line

/-- Lines whose Carry holders, owners, sharers or leased copies must still answer before CACHE acts. -/
def cacheMsgs (s : State) (fn : Nat) (l : Leaf) (line : Nat) : List Instr :=
  if l.shared || l.pol == 2 then []
  else if fn = 2 then
    (allDies.filter fun d => (s.rdcLine d line).isSome && d != homeDie line &&
      ((s.rdcLine d line).map (·.op)).getD none == none).map (.leaseRevocation · line)
  else if fn = 1 then s.recallMsgs line
  else s.invalidateMsgs line none ++
    (allDies.filter fun d => (s.rdcLine d line).isSome && d != homeDie line).map (.leaseRevocation · line)

/-- Whether a line has Carry partials or reservations (R79, R110). -/
def carrying (s : State) (line : Nat) : Bool :=
  (match s.dirState line with
    | .ca .. => true
    | _ => false) || s.resv.any (·.line == line)

/-- The home takes up a transaction on a line and sends its messages (R81). -/
def openTxn (s : State) (id k line : Nat) (ms : List Instr) : State :=
  let s := (s.modReq id k ({ · with sent := true })).keepOld line
  let s := { s with txns := if s.txns.contains line then s.txns else line :: s.txns }
  ms.foldl (fun (s : State) m => s.pushNew m) s
/-- The transaction of a request is over. -/
def closeTxn (s : State) (r : Req) (line : Nat) : State :=
  if r.sent then { s.dropOld line with txns := s.txns.filter (· != line) } else s

/-- CACHE on the line its flight stands at (R87, R88): a prefetch takes no line that has partials. -/
def cacheLine (s : State) (id : Nat) (f : Flight) (l : Leaf) (fn line : Nat) : State :=
  let r := f.req 0
  let next := 128 * r.vline + 128
  if fn = 0 then
    (if l.shared || l.pol == 2 || l.pol != 0 && homeDie line = f.die || (s.l1Hit f l line).isSome
        || (s.rdcHit f l line).isSome || s.isPoisoned line || s.carrying line then s.cacheNext id next
     else s.push [if homeDie line = f.die then .homeLoadMissCore id 0 else .homeLoadMissRemote id 0])
  else if !r.sent && (s.lineBusy line f.part || s.behind (id, 0) f.cls line) then
    (s.enterLineq (id, 0) f.cls f.part line).requeue id 0
  else if !r.sent && s.redirected f.core line then s.push [.redirect id 0]
  else match s.homeCheck line f.part l.ns l.shared with
    | some c => (s.closeTxn r line).cacheFail id f c 0 false
    | none =>
      let s := (s.settleFrom false f.core line).settleFrom true f.die line
      let s := s.homeEnter line f.part l.ns l.shared
      let ms := s.cacheMsgs fn l line
      if ms != [] then (s.openTxn id 0 line ms).requeue id 0
      else (((s.cacheHome f l fn line).closeTxn r line).dirRoom line).cacheNext id next

/-! The life of a request. -/

/-- The ordered flow a request of a flight would leave in (R354). -/
def flowOf (s : State) (f : Flight) (l : Leaf) (vline : Nat) : Option (Nat × Nat) :=
  match placeOf (l.phys (128 * vline)) with
  | .fabric => s.orderedFlow f.die (l.phys (128 * vline)) f.key
  | _ => none

/-- Whether an earlier access of the warp to the same bytes is still to be performed (R151), or an
earlier access of the configuration window (R50), or an earlier one has still to leave in the same ordered flow
(R354). -/
def blockedBy (s : State) (id : Nat) (f : Flight) (k : Nat) : Bool :=
  let r := f.req k
  let isCfg (l : Leaf) (va : Nat) : Bool := placeOf (l.phys va) == .config
  s.flights.any fun e =>
    let bytes := match e.2.kind with
      | .vstb => f.kind == .vstb
      | _ => true
    e.1 < id && e.2.key == f.key && !e.2.landing
      && (match e.2.kind with
        | .cache _ | .tlbi .. | .bopen | .bclose => false
        | _ => true)
      && e.2.reqs.any fun q => !q.done && q.win == r.win &&
        ((bytes && q.vline == r.vline) || (r.win == .global && (match q.leaf, r.leaf with
          | some a, some b => (bytes && a.phys (128 * q.vline) == b.phys (128 * r.vline))
              || (bytes && isCfg a (128 * q.vline) && isCfg b (128 * r.vline))
              || ((s.flowOf f b r.vline).isSome && s.flowOf f b r.vline == s.flowOf f a q.vline)
          | none, some b => (bytes && (q.vline % 512 == r.vline % 512 || isCfg b (128 * r.vline)))
              || (s.flowOf f b r.vline).isSome
          | _, none => false)))

/-- A request of a CMST is ready: its line is translated, or cannot be, and nothing earlier stands before it; with
the last one the CMST goes to its home, and its core drops its copies of lines of other dies (R97, R108). -/
def cmstReady (s : State) (id k : Nat) (g : Req → Req) : State :=
  let s := s.modReq id k fun r => { g r with ready := true }
  match s.flights.get? id with
  | some f =>
    if f.reqs.all (·.ready) then
      let far := (f.reqs.map (·.pa / 128)).filter fun l => homeDie l != f.die
      (far.foldl (fun (s : State) l => s.dropL1 f.core l) s).pushNew (.cmstAtHome id)
    else s
  | none => s

/-- A translated request goes to where its line is served. -/
def route (s : State) (id k : Nat) (f : Flight) (l : Leaf) : State :=
  let va := 128 * (f.req k).vline
  let pa := l.phys va
  let allowed := l.permits f.need f.ns
  match f.kind with
  | .cmst => s.cmstReady id k fun r => r
  | .cache fn =>
    (match placeOf pa with
      | .reserved => s.cacheFail id f .xlate 0 true
      | .config => s.cacheFail id f .prot 0 true
      | .fabric => if allowed then s.cacheNext id (va + 128) else s.cacheFail id f .prot 0 true
      | .memory _ => if allowed then s.cacheLine id f l fn (pa / 128) else s.cacheFail id f .prot 0 true)
  | _ =>
    match placeOf pa with
    | .reserved => s.failReq id k .xlate 0
    | .fabric =>
      if !allowed then s.failReq id k .prot 0
      else match f.kind with
        | .vstb => s.push [.bundleStaging id k]
        | .vldv => s.push [.viewConsume id k]
        | .ldlv => s.push [.ldlvAtHome id]
        | _ => s.performFabric id k f pa
    | .config => if !allowed then s.failReq id k .prot 0 else s.performConfig id k f pa
    | .memory _ =>
      let line := pa / 128
      if !allowed then s.failReq id k .prot 0
      else match f.kind with
        | .load => s.loadLine id k f l line
        | .store => s.storeLine id k f l line
        | .atomic _ | .cas => s.atomLine id k f l line
        | .ldlv => s.push [.ldlvAtHome id]
        | .vstb => s.push [.bundleStaging id k]
        | .vldv => s.push [.viewConsume id k]
        | _ => s.finishReq id k fun r => r

/-- A request is looked at: it waits for what stands before it, is performed at a scratchpad bank, or
is translated and sent on. -/
def advance (s : State) (id k : Nat) : State :=
  match s.flights.get? id with
  | none => s
  | some f =>
    let r := f.req k
    if r.done || !f.released || f.reqs.length ≤ k then s
    else if f.kind == .vldv && (f.reqs.take k).any (!·.done) then s.requeue id k
    else match r.win with
      | .pad => if s.blockedBy id f k then s.requeue id k else s.performPad id k f f.core r.vline
      | .cluster b => if s.blockedBy id f k then s.requeue id k else s.performCluster id k f b r.vline
      | .global =>
        match r.leaf with
        | some l => if s.blockedBy id f k then s.requeue id k else s.route id k f l
        | none =>
          let va := 128 * r.vline
          match s.tlbLookup f.core f.region va with
          | some l =>
            let s := s.modReq id k fun r => { r with leaf := some l, pa := l.phys va }
            match s.flights.get? id with
            | some f => if s.blockedBy id f k then s.requeue id k else s.route id k f l
            | none => s
          | none => s.joinWalk id k f va

/-- A flight's requests set out; they carry the core's LCLK (R168). -/
def sendReqs (s : State) (id : Nat) (n : Nat) : State :=
  (s.modFlight id fun f => { f with lclk := (s.core f.core).lclk }).push ((List.range n).map fun k => .tlbMissWalk id k)

end State

/-- TLB_MISS_WALK (R61): a request is looked at; a miss in both TLBs joins or starts a walk, or waits. -/
def execTlbMissWalk (fl req : Nat) (s : State) : Result := .next (s.advance fl req).done

namespace State

/-- A walk ends for one of its waiters: its TLBs are filled and it goes on, or its access fails (R61); a fetch or an
engine asks again. -/
def endWait (s : State) (w : Walk) (e : Nat × Nat) (r : WalkRes) : State :=
  if e.1 = 0 then (match r with
    | .leaf l => s.tlbFill (e.2 - 1) w.region (65536 * w.page) l
    | _ => s)
  else match s.flights.get? e.1 with
  | none => s
  | some f =>
    match r with
    | .leaf l =>
      let va := 128 * (f.req e.2).vline
      ((s.tlbFill f.core f.region va l).modReq e.1 e.2 fun r => { r with leaf := some l, pa := l.phys va }).requeue e.1 e.2
    | .fail c level tier =>
      (match f.kind with
        | .cache _ => s.cacheFail e.1 { f with reqs := f.reqs.modify 0 ({ · with tier := tier }) } c level true
        | .cmst => s.cmstReady e.1 e.2 fun r => { r with fail := some (c, level), tier := tier }
        | _ => s.failReq e.1 e.2 c level tier)
    | _ => s

end State

/-- WALK_COMPLETE (R61): the walk fills the TLBs of its waiters, fails their accesses, is held, or waits for the
home of a table entry; a slot it gives up serves the miss queues. -/
def execWalkComplete (walk : Nat) (s : State) : Result :=
  .next (
    match s.walks.find? fun w => w.id == walk && !w.held && !w.queued with
    | none => s.done
    | some w =>
      match s.walk w.root (65536 * w.page) w.part w.ns with
      | (s, .wait) => (s.push [.walkComplete walk]).done
      | (s, .held) =>
        ((s.setWalk walk fun x => { x with held := true, at' := s.now x.die + 1000 }).serveMisses w.die).done
      | (s, r) =>
        let s := { s with walks := s.walks.filter (·.id != walk) }
        ((w.waiters.foldl (fun (s : State) e => s.endWait w e r) s).serveMisses w.die).done)

/-- HELD_LEAF_REWALK (R55): a held walk starts again 1 µs later. -/
def execHeldLeafRewalk (walk : Nat) (s : State) : Result :=
  .next (
    match s.walks.find? fun w => w.id == walk && w.held && w.at' ≤ s.now w.die with
    | none => s.done
    | some w =>
      if 64 ≤ s.walksOf w.die then s.done
      else ((s.setWalk walk ({ · with held := false })).push [.walkComplete walk]).done)

/-! Homes (R80, R81). -/

namespace State

/-- Drain requests an RMT acquire sends before it is performed: to the last writer the entry records,
or to every core when none is recorded (R167). -/
def drainTargets (s : State) (line : Nat) : List Nat :=
  match (s.dirEnt line).bind (·.writer) with
  | some c => [c]
  | none => List.range 768

/-- One request at its home: it waits while held, while the line has another transaction, or behind those that wait
for the line before it; it is redirected, refused, or waits for the copies in its way; then it is performed.  What its
core and its die have sent about the line before has arrived by then (R81).  An acquire at RMT whose drains are still
to be answered is no transaction on the line: it keeps its place, and others, which those drains may wait for, go
before it (R167).
DEDUCED, log entry 72. -/
def atHome (s : State) (ev : Instr) (id k : Nat) (msgs : State → Flight → Leaf → Nat → List Instr)
    (perform : State → Flight → Leaf → Nat → State) : State :=
  match s.flights.get? id with
  | none => s
  | some f =>
    let r := f.req k
    match r.leaf with
    | none => s
    | some l =>
      let line := r.pa / 128
      if r.done then s
      else if !r.sent && (s.lineBusy line f.part || s.behind (id, k) f.cls line) then
        (s.enterLineq (id, k) f.cls f.part line).push [ev]
      else if !r.sent && s.redirected f.core line then s.push [.redirect id k]
      else match s.homeCheck line f.part l.ns l.shared with
        | some c =>
          let s := s.closeTxn r line
          match f.kind with
          | .cache _ => s.cacheNext id (128 * r.vline + 128)
          | _ => s.failReq id k c 0
        | none =>
          if f.isRmt && r.acks = 0 then
            let cs := s.drainTargets line
            let s := (s.enterLineq (id, k) f.cls f.part line).modReq id k ({ · with acks := 1 })
            let s := s.modFlight id fun f => { f with drains := f.drains + cs.length, result := max f.result s.nextId }
            s.push (cs.map (.drainRequest · id) ++ [ev])
          else if f.isRmt && 0 < f.drains then s.push [ev]
          else
            let s := (s.settleFrom false f.core line).settleFrom true f.die line
            let s := s.homeEnter line f.part l.ns l.shared
            let ms := if l.shared then [] else msgs s f l line
            if ms = [] then (perform (s.closeTxn r line) f l line).dirRoom line
            else (s.openTxn id k line ms).push [ev]

/-- An SC operation's stamp at the home of its line, from the LCLK its request carries (R168, R169). -/
def scStamp (s : State) (f : Flight) (line : Nat) : State × Nat :=
  if f.isSc then
    let t := s.homeTag line f.part
    let n := max (f.lclk + 1) (t.stamp + 1)
    let s := if 2 ^ 48 - 1 ≤ n then s.log "STAMPMAX" [line] else s
    let n := min n (2 ^ 48 - 1)
    (s.setHomeTag line f.part { t with stamp := n }, n)
  else (s, 0)

/-- A request performed at the slice: the line is brought there as its page's policy has it (R58). -/
def atSlice (s : State) (f : Flight) (l : Leaf) (line : Nat) : State :=
  if l.shared || l.pol == 2 then (if (s.sliceLine line).isSome then s else s.count line false)
  else s.fillSlice line f.part l.ns (l.pol == 1)

/-- A load performed at the slice; no older leased copy on its die answers a later load (R162). DEDUCED, log entry 16. -/
def readAtSlice (s : State) (id k : Nat) (f : Flight) (l : Leaf) (line : Nat) : State :=
  let s := s.mergeResv line f.part
  if s.isPoisoned line then s.failReq id k .poison 0
  else
    let s := s.atSlice f l line
    let t := s.homeTag line f.part
    let (s, n) := s.scStamp f line
    (s.ackClears f.die line).finishRead id k f (s.homeData line) t fun r => { r with stamp := n }

/-- Whether a load is performed at the slice rather than by a grant. -/
def loadAtSlice (f : Flight) (l : Leaf) (remote : Bool) : Bool :=
  f.isSc || f.isRmt || l.shared || l.pol == 2 || (!remote && l.pol != 0)

/-- A prefetch never Carry-merges early (R87). -/
def prefetchSkips (s : State) (f : Flight) (line : Nat) : Bool := f.paths = 0 && s.carrying line

/-- Whether the owner of a line has still to be asked: one that holds it in O supplies it as it is (R80). -/
def asksOwner (s : State) (o core line : Nat) : Bool :=
  o != core && match s.dirState line, s.l1Line o line with
    | .ow .., some x => x.st != .o
    | _, _ => true

def loadCoreMsgs (s : State) (f : Flight) (l : Leaf) (line : Nat) : List Instr :=
  if s.prefetchSkips f line then []
  else if loadAtSlice f l false then s.recallMsgs line
  else match s.dirState line with
    | .ex o | .ow o _ => if s.asksOwner o f.core line then [.forward o line false] else []
    | .ca _ cs ds => cs.map (.carryCollect false · line) ++ ds.map (.carryCollect true · line)
    | _ => []

/-- A load, or a prefetch, has its line. -/
def endLoad (s : State) (id k : Nat) (f : Flight) (d : List Byte) (t : Tag) : State :=
  match f.kind with
  | .cache _ => s.cacheNext id (128 * (f.req k).vline + 128)
  | _ => s.finishRead id k f d t fun r => r

/-- The line a load asks for is poisoned (R103); a prefetch goes on. -/
def loadPoisoned (s : State) (id k : Nat) (f : Flight) : State :=
  match f.kind with
  | .cache _ => s.cacheNext id (128 * (f.req k).vline + 128)
  | _ => s.failReq id k .poison 0

/-- The grant of a load miss to a core of the home's die (R80, first rows): the owner's data and tag if it has an
owner (R164); a core that owns the line already reads its own copy, and one that is granted E may write it unseen, so
it is recorded (R167). -/
def grantLoadCore (s : State) (id k : Nat) (f : Flight) (l : Leaf) (line : Nat) : State :=
  if s.prefetchSkips f line then s.endLoad id k f [] {}
  else if loadAtSlice f l false then s.readAtSlice id k f l line
  else
    let s := s.mergeResv line f.part
    if s.isPoisoned line then s.loadPoisoned id k f
    else
      let e := s.dirFor line f.part
      let d := s.lineNow line
      let t := s.lineTag line f.part
      let own := (e.st == .ex f.core || (match e.st with
        | .ow o _ => o == f.core
        | _ => false)) && (s.l1Line f.core line).isSome
      if own then s.endLoad id k f d t
      else
        let s := s.fillSlice line f.part l.ns false
        let d := s.lineNow line
        let (st, cp) : DirState × CopyState := match e.st with
          | .u => if e.dies = [] then (.ex f.core, .e) else (.sh [f.core], .s)
          | .sh cs => (.sh (if cs.contains f.core then cs else f.core :: cs), .s)
          | .ex o => (.ex o, .e)
          | .ow o cs => (.ow o (if cs.contains f.core || o = f.core then cs else f.core :: cs), .s)
          | .ca .. => (.ex f.core, .e)
        let s := if cp == .e then s.bumpVer line f.part else s
        let s := s.putDir line { e with st := st, part := f.part, writer := if cp == .e then some f.core else e.writer }
        (s.fillL1 f.core line cp d 0 l.ns t f.cls).endLoad id k f d t

def loadRemoteMsgs (s : State) (f : Flight) (_l : Leaf) (line : Nat) : List Instr :=
  if s.prefetchSkips f line then [] else s.recallMsgs line

/-- The grant of S with a lease to another die (R80, R92, R93). -/
def grantLoadRemote (s : State) (id k : Nat) (f : Flight) (l : Leaf) (line : Nat) : State :=
  if s.prefetchSkips f line then s.endLoad id k f [] {}
  else if loadAtSlice f l true then s.readAtSlice id k f l line
  else
    let s := s.mergeResv line f.part
    if s.isPoisoned line then s.loadPoisoned id k f
    else
      let s := s.fillSlice line f.part l.ns (l.pol == 1)
      let e := s.dirFor line f.part
      let d := s.homeData line
      let t := s.homeTag line f.part
      let lease := s.now (homeDie line) + leaseOf f.lease
      let s := s.putDir line { e with
        dies := if e.dies.contains f.die then e.dies else f.die :: e.dies
        lend := max e.lend lease, part := f.part }
      let cached := l.pol == 0
      let s := (s.rdcRoom f.die line f.cls).insertRdc
        { die := f.die, line := line, data := d, lease := lease, ns := l.ns, tag := t, stream := l.pol == 1
          vec := (((s.rdcLine f.die line).map (·.vec)).getD []) ++ if cached then [f.core] else [] } (l.pol == 1)
      let s := if cached then s.fillL1 f.core line .s d lease l.ns t f.cls else s
      s.endLoad id k f d t

def ownMsgs (s : State) (f : Flight) (_l : Leaf) (line : Nat) : List Instr :=
  s.invalidateMsgs line (some f.core)

/-- A core owns a line whose other copies have gone: the line it then writes in its L1 (R80). -/
def ownLine (s : State) (core part : Nat) (l : Leaf) (line cls : Nat) : State × L1Line :=
  let s := s.fillSlice line part l.ns false
  let d := s.lineNow line
  let t : Tag := (((s.l1Line core line).map (·.tag)).getD ({} : Tag)).max (s.homeTag line part)
  let s := s.bumpVer line part
  let s := s.putDir line { s.dirFor line part with st := .ex core, part := part, writer := some core }
  let s := s.l1Room core line cls
  (s, { core := core, line := line, st := .m, data := d, ns := l.ns, tag := t })

/-- The grant of M, and the access performed in the core's L1 (R80). -/
def grantOwn (s : State) (id k : Nat) (f : Flight) (l : Leaf) (line : Nat) : State :=
  let s := s.mergeResv line f.part
  if f.kind != .store && s.isPoisoned line then s.failReq id k .poison 0
  else
    let (s, x) := s.ownLine f.core f.part l line f.cls
    s.writeL1 id k f x fun r => { r with lend := s.ackLend line }

def writeMsgs (s : State) (_f : Flight) (_l : Leaf) (line : Nat) : List Instr := s.invalidateMsgs line none

/-- A store or an atomic performed at the slice (R97, R153, R156). -/
def performAtSlice (s : State) (id k : Nat) (f : Flight) (l : Leaf) (line : Nat) : State :=
  let s := s.mergeResv line f.part
  if f.kind != .store && s.isPoisoned line then s.failReq id k .poison 0
  else
    let s := if f.kind == .store && (l.shared || l.pol == 2) then s else s.atSlice f l line
    let t := s.homeTag line f.part
    let s := { s with flights := s.flights.put id (f.apply k (s.homeData line)).2 }
    let s := s.homeWrite line f.part (fun d => (f.apply k d).1) false
    let (s, n) := s.scStamp f line
    let s := s.setHomeTag line f.part (s.tagAfter f (s.homeTag line f.part))
    let s := (s.setWriter line f.core).ackClears f.die line
    let lend := s.ackLend line
    s.finishReq id k fun r => { r with lend := lend, tag := t, stamp := n }

def carryMsgs (s : State) (f : Flight) (l : Leaf) (line : Nat) : List Instr :=
  match s.dirState line, foldOf f l with
  | .ca op cs ds, some o => if op = o then [] else cs.map (.carryCollect false · line) ++ ds.map (.carryCollect true · line)
  | _, _ => s.invalidateMsgs line none

/-- The partial a core, or a die, already holds of a line under an operation (R79). -/
def partialOf (s : State) (op : CarryOp) (die : Bool) (agent line : Nat) : Option (List Byte) :=
  if die then (match s.rdcLine agent line with
    | some x => if x.op == some op then some x.data else none
    | none => none)
  else match s.l1Line agent line with
    | some x => if x.st == .c op then some x.data else none
    | none => none

/-- The grant of C at the identity, and the fold into the partial the requester has (R79, R80, R156); a die's L1
copies of the line go as the grant returns to it (R97). -/
def grantCarry (s : State) (id k : Nat) (f : Flight) (l : Leaf) (line : Nat) : State :=
  match foldOf f l with
  | none => s.performAtSlice id k f l line
  | some op =>
    let s := if s.resv.any fun r => r.line == line && r.op != op then s.mergeResv line f.part else s
    let s := s.bumpVer line f.part
    let e := s.dirFor line f.part
    let die := homeDie line != f.die
    let agent := if die then f.die else f.core
    let lend := s.ackLend line
    let (cs, ds) : List Nat × List Nat := match e.st with
      | .ca _ cs ds => (cs, ds)
      | _ => ([], [])
    let cs := if !die && !cs.contains f.core then f.core :: cs else cs
    let ds := if die && !ds.contains f.die then f.die :: ds else ds
    let s := s.putDir line { e with st := .ca op cs ds, part := f.part, writer := some f.core }
    let (s, d) := s.foldInto id k f ((s.partialOf op die agent line).getD op.identityLine)
    let s := if die then
        ((s.rdcRoom f.die line f.cls).dropDieL1 f.die line).insertRdc
          { die := f.die, line := line, op := some op, data := d, ns := l.ns, stream := l.pol == 1 } (l.pol == 1)
      else s.fillL1 f.core line (.c op) d 0 l.ns {} f.cls
    s.finishReq id k fun r => { r with lend := lend }

end State

/-- HOME_LOAD_MISS_CORE (R80). -/
def execHomeLoadMissCore (fl req : Nat) (s : State) : Result :=
  .next (s.atHome (.homeLoadMissCore fl req) fl req State.loadCoreMsgs
    fun s f l line => s.grantLoadCore fl req f l line).done

/-- HOME_LOAD_MISS_REMOTE (R93). -/
def execHomeLoadMissRemote (fl req : Nat) (s : State) : Result :=
  .next (s.atHome (.homeLoadMissRemote fl req) fl req State.loadRemoteMsgs
    fun s f l line => s.grantLoadRemote fl req f l line).done

/-- HOME_OWNERSHIP_MISS (R80). -/
def execHomeOwnershipMiss (fl req : Nat) (s : State) : Result :=
  .next (s.atHome (.homeOwnershipMiss fl req) fl req State.ownMsgs
    fun s f l line => s.grantOwn fl req f l line).done

/-- HOME_REMOTE_WRITE (R97). -/
def execHomeRemoteWrite (fl req : Nat) (s : State) : Result :=
  .next (s.atHome (.homeRemoteWrite fl req) fl req State.writeMsgs
    fun s f l line => s.performAtSlice fl req f l line).done

/-- HOME_ATOMIC (R156). -/
def execHomeAtomic (fl req : Nat) (s : State) : Result :=
  .next (s.atHome (.homeAtomic fl req) fl req State.writeMsgs
    fun s f l line => s.performAtSlice fl req f l line).done

/-- HOME_CARRY_REQUEST (R80). -/
def execHomeCarryRequest (fl req : Nat) (s : State) : Result :=
  .next (s.atHome (.homeCarryRequest fl req) fl req State.carryMsgs
    fun s f l line => s.grantCarry fl req f l line).done

/-- CARRY_COLLECT (R99): the holder's partial is merged and its copy goes; a dead die never answers a home that
has not declared it, and nothing is taken from an agent whose scrub is under way (R100, R102). -/
def execCarryCollect (isDie : Bool) (agent line : Nat) (s : State) : Result :=
  .next (if (if isDie then s.mute agent line else s.scrubbing false agent line) then (s.push [.carryCollect isDie agent line]).done
    else ((if isDie then (s.dieLeaves agent line).dieForgets agent line else s.coreLeaves agent line).dirRoom line).done)

/-- FORWARD (R80): the owner supplies its data and drops to I, or keeps O or S; one whose scrub is under way gives
nothing, and the transaction ends with the scrub (R102). -/
def execForward (core line : Nat) (toI : Bool) (s : State) : Result :=
  .next (if s.scrubbing false core line then (s.push [.forward core line toI]).done
    else ((if toI then s.coreLeaves core line else s.coreShares core line).dirRoom line).done)

/-- INVALIDATION (R80). -/
def execInvalidation (core line : Nat) (s : State) : Result :=
  .next (if s.scrubbing false core line then (s.push [.invalidation core line]).done else ((s.coreLeaves core line).dirRoom line).done)

/-- LEASE_REVOCATION (R95): a dead die stays a sharer of a home that has not declared it until its leases end
(R102). -/
def execLeaseRevocation (die line : Nat) (s : State) : Result :=
  .next (if s.mute die line && (s.dirDies line).contains die then (s.push [.leaseRevocation die line]).done
    else (((s.dieLeaves die line).dieForgets die line).dirRoom line).done)

/-- HOME_WRITEBACK (R81): an owner's write-back, or a holder's partial, reaches the home. -/
def execHomeWriteback (holder : Bool × Nat) (line : Nat) (s : State) : Result :=
  .next ((s.settleFrom holder.1 holder.2 line).dirRoom line).done

/-- REDIRECT (R74): the requester takes the domain registers as they are and replays.
DEDUCED, log entry 60. -/
def execRedirect (fl req : Nat) (s : State) : Result :=
  .next (match s.flights.get? fl with
    | some f =>
      let home := dieOf f.core
      let doms := (List.range 4).map fun n => (n, s.domain home n)
      ((s.modCore f.core fun c => { c with doms := doms }).requeue fl req).done
    | none => s.done)

/-- DRAIN_REQUEST (R167): answered once what the core's warps counted on W before it is acknowledged
and the core's leases have passed. -/
def execDrainRequest (core fl : Nat) (s : State) : Result :=
  .next (match s.flights.get? fl with
    | none => s.done
    | some f =>
      let busy := s.flights.any fun e => e.2.core == core && e.2.paths &&& 4 != 0 && e.1 < f.result && e.1 != fl
      if busy || s.nowCore core ≤ (s.core core).leasemax then (s.push [.drainRequest core fl]).done
      else (s.modFlight fl fun f => { f with drains := f.drains - 1 }).done)

/-! Directory upkeep (R83, R93, R100). -/

/-- The state of two sibling entries merged, if they are compatible (R83). -/
def mergeStates : DirState → DirState → Option DirState
  | .u, .u => some .u
  | .u, .sh y => some (.sh y)
  | .sh x, .u => some (.sh x)
  | .sh x, .sh y => some (.sh (x ++ y).dedup)
  | .ex a, .ex b => if a = b then some (.ex a) else none
  | .ow a x, .ow b y => if a = b then some (.ow a (x ++ y).dedup) else none
  | .ca o x d, .ca p y e => if o = p then some (.ca o (x ++ y).dedup (d ++ e).dedup) else none
  | _, _ => none

/-- DIRECTORY_MERGE (R83): the entry at `base` of 2^log lines and its sibling above it; two that hold copies for
different partitions stay split.  The last writer is known afterwards only where both name it (R167).
DESIGN CHOICE, log entry 68. -/
def execDirectoryMerge (base log : Nat) (s : State) : Result :=
  .next (
    let find (b : Nat) := s.dir.find? fun e => e.base == b && e.log == log
    match find base, find (base + 2 ^ log) with
    | some a, some b =>
      let t := s.now (homeDie base)
      if base % 2 ^ (log + 1) != 0 || 9 ≤ log || t < a.touched + 64000 || t < b.touched + 64000
          || (a.part != b.part && !a.idle && !b.idle) then s.done
      else match mergeStates a.st b.st with
        | some st =>
          let e : DirEnt :=
            { base := base, log := log + 1, st := st, dies := (a.dies ++ b.dies).dedup
              part := if a.idle then b.part else a.part, lend := max a.lend b.lend
              touched := max a.touched b.touched, writer := if a.writer = b.writer then a.writer else none }
          { s with dir := e :: s.dir.filter fun x => !(x == a || x == b) }.done
        | none => s.done
    | _, _ => s.done)

/-- LEASE_END_CLEAR (R93): past LEND + 2 the entry lists no die as a sharer. -/
def execLeaseEndClear (base log : Nat) (s : State) : Result :=
  .next ({ s with dir := s.dir.map fun (e : DirEnt) =>
    if e.base = base && e.log = log && e.lend + 2 < s.now (homeDie base) then { e with dies := [] } else e } : State).done

/-- STALE_MESSAGE_DISCARD (R100): an acknowledgment or a write-back of an incarnation that is not the agent's
current one arrives; it changes no state and is logged. -/
def execStaleMessageDiscard (kind agent inc line : Nat) (s : State) : Result :=
  .next (
    let now := match kind with
      | 0 => (s.core agent).inc
      | 1 => (s.slc (homeDie line) agent).inc
      | _ => (s.die (homeDie line)).incs.get agent 0
    if inc == now then s.done
    else
      let s := { s with wbs := s.wbs.filter fun w => !((if w.die then 2 else 0) == kind && w.agent == agent && w.inc == inc
        && w.line == line) }
      (s.log "STALEMSG" [kind, agent, inc, line]).done)

/-! Return (R141 to R144). -/

/-- A counted instruction completes on a path; what has left no longer stands in the list (R141). -/
def completeOn (l : List Flying) (id : Nat) : List Flying :=
  (l.map fun e => if e.1 = id then (e.1, true) else e).dropWhile (·.2)

namespace Warp

/-- An instruction completes on some of its paths (R141). -/
def completeOn (w : Warp) (paths id : Nat) : Warp :=
  { w with
    cntG := if paths.testBit 0 then Machine.completeOn w.cntG id else w.cntG
    cntS := if paths.testBit 1 then Machine.completeOn w.cntS id else w.cntS
    cntW := if paths.testBit 2 then Machine.completeOn w.cntW id else w.cntW
    cntV := if paths.testBit 3 then Machine.completeOn w.cntV id else w.cntV }

/-- An instruction completes altogether: its acquire and its SC operation are over (R166, R168). -/
def completeAll (w : Warp) (paths id : Nat) : Warp :=
  { w.completeOn paths id with acq := w.acq.filter (· != id), scs := w.scs.filter (· != id) }

end Warp

/-- Zero or sign extension of a loaded value (R149). -/
def extendTo32 (size : Nat) (signed : Bool) (v : Nat) : Nat :=
  if size < 4 && signed && v.testBit (8 * size - 1) then v + (2 ^ 32 - 2 ^ (8 * size)) else v

namespace Flight

def failed (f : Flight) (a : Acc) : Bool := a.bad.isSome || (f.req a.req).fail.isSome

/-- Lanes with a failed piece. -/
def failedLanes (f : Flight) : LaneMask := maskIf fun l => f.accs.any fun a => a.lane == l && f.failed a

/-- The value a lane received, its pieces joined. -/
def laneValue (f : Flight) (l : Nat) : Nat :=
  let v := (f.accs.filter (·.lane == l)).foldl (fun n a => n + a.val * 2 ^ (8 * a.off)) 0
  extendTo32 f.width f.signed v

/-- Kinds whose failure is a load fault that SRET can replay: loads, returning atomics, view loads and LDLV (R143,
R131, R106).
DEDUCED, log entry 17. -/
def canReplay (f : Flight) : Bool :=
  match f.kind with
  | .load | .vldv | .ldlv | .atomic _ | .cas => true
  | _ => false

/-- The stop of a flight's first failed piece (R143, R144), with the TIER of its leaf (R59); the address of a lane of
the private window is the one it was translated to.
DESIGN CHOICE, log entry 70. -/
def failure (f : Flight) : Option Stop :=
  match f.accs.find? f.failed with
  | some a =>
    let r := f.req a.req
    let (c, level) := match a.bad with
      | some c => (c, 0)
      | none => r.fail.getD (.xlate, 0)
    some { cause := c, addr := a.va + a.base, lanes := f.failedLanes, level := level, replay := f.canReplay
           tier := (r.leaf.map (·.tier)).getD r.tier, fpos := some (f.pc, f.pslot, f.pexp) }
  | none => none

/-- The part of a flight whose lanes are on some of its paths (R141). -/
def onPaths (f : Flight) (paths : Nat) : Flight :=
  { f with accs := f.accs.filter fun a => f.pathOf (f.req a.req) &&& paths != 0 }

/-- Lanes whose data is written. -/
def goodLanes (f : Flight) : LaneMask :=
  maskIf fun l => (f.accs.any fun a => a.lane == l) && !f.failedLanes.getLsbD l

/-- Writes word `j` of every lane's value to its register; an s register takes lane 0's, under the SLS
of issue (R149, R299). -/
def writeDst (f : Flight) (w : Warp) (j : Nat) : Warp :=
  if f.scalar then
    if f.goodLanes.getLsbD 0 then
      let n := f.dst + j
      { w with
        s := w.s.setIfInBounds n (Warp.slsAnd f.sls n (BitVec.ofNat 32 (f.laneValue 0 / 2 ^ (32 * j))))
        bad := w.bad.del (Warp.sKey n) }
    else w
  else w.setV (f.dst + j) f.goodLanes (lanesOf fun l => BitVec.ofNat 32 (f.laneValue l / 2 ^ (32 * j)))

/-- The second destination of LDLV, sT (R106). -/
def writeDst2 (f : Flight) (w : Warp) : Warp :=
  match f.dst2 with
  | some t =>
    { w with
      s := w.s.setIfInBounds t (Warp.slsAnd f.sls t (BitVec.ofNat 32 f.result))
      bad := w.bad.del (Warp.sKey t) }
  | none => w

/-- What a return does to its warp: the data of the lanes that return now, the fault mark of those that have returned,
one for the instruction, and the counters of the paths it returns on (R141 to R143). -/
def land (f : Flight) (id paths : Nat) (last : Bool) (w : Warp) : Warp :=
  let now := f.onPaths (paths - (paths &&& f.landed))
  let w := if f.returned then w else (List.range f.ndst).foldl (fun w j => now.writeDst w j) w
  let w := match (f.onPaths (paths ||| f.landed)).failure with
    | some st =>
      let m : Mark := { fl := id, scalar := f.scalar, reg := f.dst, n := f.ndst, stop := st, paths := f.paths % 16, order := f.order }
      { w with marks := (w.marks.filter fun (x : Mark) => x.fl != id) ++ m :: (f.dst2.toList.map fun t => { m with scalar := true, reg := t, n := 1 }) }
    | none => f.writeDst2 w
  if last then w.completeAll paths id else w.completeOn paths id

/-- Largest lease end, stamp and tag its acknowledgments carried. -/
def lendMax (f : Flight) : Nat := f.reqs.foldl (fun n r => max n r.lend) 0
def stampMax (f : Flight) : Nat := f.reqs.foldl (fun n r => max n r.stamp) 0
def tagMax (f : Flight) : Tag := f.reqs.foldl (fun (t : Tag) r => t.max r.tag) {}
/-- A load's return joins its tags to those its warp's loads have returned (R164). -/
def landTag (f : Flight) (w : Warp) : Warp :=
  let t := f.tagMax
  { w with ldTag := (max w.ldTag.1 t.stamp, max w.ldTag.2 t.hold) }
def acquires (f : Flight) : Bool := f.ord == 1 || f.ord == 3

end Flight

namespace State

/-- What a return or an acknowledgment does to its core's clocks, and to those of a block that is out (R97, R164,
R168, R174). -/
def coreTakes (s : State) (f : Flight) : State :=
  let t := f.tagMax
  let lease := max f.lendMax (if f.acquires then t.hold else 0)
  let stamp := max f.stampMax (if f.acquires then t.stamp else 0)
  let s := s.modCore f.core fun c => { c with leasemax := max c.leasemax lease, lclk := max c.lclk stamp }
  if f.landing then s.modBlock f.blk fun b => { b with leasemax := max b.leasemax lease, lclk := max b.lclk stamp } else s

/-- Writes a landed word where the saved image keeps it: register `n` of a warp, a v register's lane
(R346, R347). -/
def imageWord (s : State) (b widx : Nat) (scalar : Bool) (n lane : Nat) (x : Nat) : State :=
  match s.ctxAddr b with
  | none => s
  | some a =>
    let at' := if scalar then a + 0x1000 + 0x1000 * widx + 4 * n
      else a + 0x100000 + 384 * (imageStart (s.imageBudgets b) widx + n) + 4 * lane
    s.physWrite at' (leBytes 4 (x % 2 ^ 32))

/-- The words of landing slot `i` of a block's record (R346). -/
def landingSlot (s : State) (b i : Nat) (bs : List Byte) : State :=
  match s.ctxAddr b with
  | some a => s.physWrite (a + 0x24000 + 32 * i) bs
  | none => s

/-- A landing slot's 32 bytes. -/
def landingBytes (f : Flight) (widx state : Nat) : List Byte :=
  let path := if f.paths.testBit 0 then 0 else if f.paths.testBit 1 then 1 else if f.paths.testBit 2 then 2 else 3
  let (c, a) : Nat × Nat := match f.failure with
    | some st => (st.cause.bit, st.addr)
    | none => (0, 0)
  let m := f.failedLanes
  leBytes 4 (widx + 2 ^ 8 * f.dst + (if f.scalar then 2 ^ 16 else 0) + 2 ^ 20 * path + 2 ^ 24 * state)
    ++ leBytes 4 c ++ (leBytes 4 (maskWord m 0).toNat ++ leBytes 4 (maskWord m 1).toNat ++ leBytes 4 (maskWord m 2).toNat)
    ++ leBytes 4 0 ++ leBytes 8 a

/-- A load that was in flight at its block's eviction lands in the saved image (R346). -/
def landInImage (s : State) (id : Nat) (f : Flight) : State :=
  let b := f.blk
  match (s.block b).images.find? fun e => f.slot = (s.block b).slots[e.1]?.getD 64 with
  | none => { s with flights := s.flights.del id }
  | some (widx, _) =>
    let s := s.modBlock b fun x => { x with images := x.images.put widx (f.landTag (f.land id f.paths true (x.images.get widx {}))) }
    let s := match f.dst2, f.failure with
      | some n, none => s.imageWord b widx true n 0 (((s.block b).images.get widx {}).sreg n).toNat
      | _, _ => s
    let s := (List.range f.ndst).foldl (fun (s : State) j =>
      if f.scalar then
        (if f.goodLanes.getLsbD 0 then
          s.imageWord b widx true (f.dst + j) 0 (((s.block b).images.get widx {}).sreg (f.dst + j)).toNat
        else s)
      else (laneList f.goodLanes).foldl (fun (s : State) l =>
        s.imageWord b widx false (f.dst + j) l (f.laneValue l / 2 ^ (32 * j))) s) s
    let s := s.landingSlot b f.lslot (landingBytes f widx (if f.failure.isSome then 3 else 2))
    { s with flights := s.flights.del id }

/-- The data of a load arrives, on the paths whose lanes have all completed (R141 to R143, R149). -/
def returnLoad (s : State) (id : Nat) : State :=
  match s.flights.get? id with
  | none => s
  | some f =>
    let paths := f.ready
    if paths = 0 then s
    else
      let s := s.coreTakes f
      if f.landing then s.landInImage id f
      else
        let last := (f.landed ||| paths) % 16 == f.paths
        let s := s.modWarp f.key fun w => f.landTag (f.land id paths last w)
        if last then { s with flights := s.flights.del id }
        else s.modFlight id fun f => { f with landed := f.landed ||| paths }

/-- The last acknowledgment of an instruction counted on W (R144). -/
def ackStore (s : State) (id : Nat) : State :=
  match s.flights.get? id with
  | none => s
  | some f =>
    if !f.reqs.all (·.done) then s
    else
      let s := s.coreTakes f
      let s := { s with flights := s.flights.del id }
      let s := if f.landing then
          s.modBlock f.blk fun x => { x with images := x.images.map fun e => (e.1, e.2.completeAll f.paths id) }
        else s.modWarp f.key fun w => w.completeAll f.paths id
      match f.failure with
      | some st =>
        s.flightFault f
          { st with cause := .storeflt, under := st.cause.bit, precise := false, replay := false }
      | none => s

end State

/-- LOAD_DATA_RETURN (R149). -/
def execLoadDataReturn (fl : Nat) (s : State) : Result := .next (s.returnLoad fl).done

/-- STORE_ACK (R144). -/
def execStoreAck (fl : Nat) (s : State) : Result := .next (s.ackStore fl).done

/-- LANDING_SLOT_FILL (R346). -/
def execLandingSlotFill (fl : Nat) (s : State) : Result :=
  .next (match s.flights.get? fl with
    | some f => if f.landing then (s.returnLoad fl).done else s.done
    | none => s.done)

namespace State

/-- What a release waits for has been returned or acknowledged (R165). -/
def releaseAcked (s : State) (f : Flight) : Bool := f.before.all fun id => (s.flights.get? id).isNone

/-- LEASEMAX is taken as it stands once those acknowledgments are in (R98). -/
def latchLease (s : State) (id : Nat) : State :=
  s.modFlight id fun f =>
    if s.releaseAcked f && f.leaseAt.isNone then { f with leaseAt := some (s.core f.core).leasemax } else f

/-- Whether what a release waits for is over (R98, R165). -/
def releaseReady (s : State) (f : Flight) : Bool :=
  s.releaseAcked f && (f.scp < 4 || f.leaseAt.getD (s.core f.core).leasemax < s.nowCore f.core)

/-- A release's own write sets out once what it waits for is over; otherwise it is looked at again. -/
def tryRelease (s : State) (id : Nat) : State :=
  let s := s.latchLease id
  match s.flights.get? id with
  | none => s
  | some f =>
    if f.released then s
    else if s.releaseReady f then
      (s.modFlight id ({ · with released := true })).sendReqs id f.reqs.length
    else s.push [.releaseProceed id]

/-- Whether an entry of the TLBs, or a leaf a request holds, is selected by a TLBI (R64): by the page that is mapped,
which in the alias range is larger than what the entry stands for. -/
def tlbiSelects (kind sz region va : Nat) (r : Nat) (v : Nat) (l : Leaf) : Bool :=
  let size := sz == 3 || l.page == 16 + 10 * sz
  let covers := v / 2 ^ l.page == va / 2 ^ l.page
  match kind with
  | 0 => true
  | 1 => r == region
  | 2 => r == region && covers && size
  | _ => covers && size

/-- Whether a walk under way reads entries a TLBI selects (R64). -/
def tlbiWalk (kind region va : Nat) (w : Walk) : Bool :=
  match kind with
  | 0 => true
  | 1 => w.region == region
  | 2 => w.region == region && w.page / 2 ^ 20 == va / 65536 / 2 ^ 20
  | _ => w.page / 2 ^ 20 == va / 65536 / 2 ^ 20

end State

/-- RELEASE_PROCEED (R165). -/
def execReleaseProceed (fl : Nat) (s : State) : Result := .next (s.tryRelease fl).done

/-- Whether an access a TLBI waits for still uses its translation: it does until its data has returned or it is
acknowledged (R64). -/
def State.stillUses (s : State) (u : Nat × Nat × Nat) : Bool :=
  match s.flights.get? u.1 with
  | some f => (f.req u.2.1).vline == u.2.2 && (!(f.req u.2.1).done || f.ready != 0)
  | none => false

/-- TLBI_ACK (R64): the release is over, the selected entries go, and the acknowledgment follows once
no walk or access uses them. -/
def execTlbiAck (fl : Nat) (s : State) : Result :=
  let s := s.latchLease fl
  .next (match s.flights.get? fl with
    | none => s.done
    | some f =>
      match f.kind with
      | .tlbi kind sz =>
        if !f.released then
          if s.releaseReady f then
            let s := { s with tlb := s.tlb.filter fun t => !State.tlbiSelects kind sz f.x f.y t.region t.va t.leaf }
            let users := s.flights.flatMap fun e => (List.range e.2.reqs.length).filterMap fun k =>
              let r := e.2.req k
              match r.leaf with
              | some l => if State.tlbiSelects kind sz f.x f.y e.2.region (128 * r.vline) l then some (e.1, k, r.vline) else none
              | none => none
            let walks := (s.walks.filter fun w => !w.held && State.tlbiWalk kind f.x f.y w).map (·.id)
            ((s.modFlight fl fun f => { f with released := true, users := users, lines := walks }).push [.tlbiAck fl]).done
          else (s.push [.tlbiAck fl]).done
        else if f.users.all (fun u => !s.stillUses u)
            && f.lines.all (fun id => !s.walks.any fun w => w.id == id && !w.held) then
          (s.push [.storeAck fl]).done
        else (s.push [.tlbiAck fl]).done
      | _ => s.done)

end Sys2Proof.Machine
end

