-- ==== Sys2Proof/Machine/Access.lean ====
section
/-!
DEFINITION. Loads, stores, atomics, WAITC, SPTEST and SPCAST (06_memory_instructions.md), FENCE
(07_consistency.md R179), CACHE (03_cache_deck.md R87), LDLV and CMST (04_crossing_dies.md R106,
R108) and TLBI (02_main_memory.md R64).
-/

namespace Sys2Proof.Machine

/-- Bytes of a width code, and whether it sign-extends (R32). -/
def wSize (w : Nat) : Nat :=
  match w with
  | 0 => 1
  | 1 => 2
  | 2 => 4
  | 3 => 8
  | 4 => 16
  | 5 => 1
  | _ => 2
def wSigned (w : Nat) : Bool := w == 5 || w == 6

namespace State

/-- An acquire that has not returned holds later memory, engine and bundle instructions (R166). -/
def acqHolds (s : State) : Bool := s.before.acq != []

/-- What a release of the warp waits for at issue has come: its loads have returned and its W instructions are
acknowledged (R165). -/
def relAcked (s : State) : Bool := loadsBack s.before && inFlight s.before.cntW = 0

/-- A release at issue may proceed: at DEV or SYS the core's leases are over too, as LEASEMAX stood after those
acknowledgments (R98, R165). -/
def relReady (s : State) (scope : Nat) : Bool :=
  s.relAcked && (scope < 4 || s.me.leaseAt.getD (s.core s.myCore).leasemax < s.nowCore s.myCore)

/-- A release waits at issue, and keeps LEASEMAX as it is once the acknowledgments are in (R98). -/
def relWait (s : State) : State :=
  (if s.relAcked then s.modMe fun w => { w with leaseAt := w.leaseAt <|> some (s.core s.myCore).leasemax } else s).wait

/-- A flight in the issuing context. -/
def mkFlight (s : State) (kind : FKind) (paths : Nat) : Flight where
  core := s.myCore
  slot := s.mySlot
  blk := s.myBlk
  pc := s.pos.1
  pslot := s.pos.2.1
  pexp := s.pos.2.2
  kind := kind
  paths := paths
  part := s.ctxPart
  ns := s.ctxNs
  region := s.ctxRegion
  root := s.ctxRoot
  lease := s.ctxLease
  cls := s.ctxCls
  ord := 0
  scp := 0
  sls := s.before.sls
  lclk := (s.core s.myCore).lclk

/-- Line requests of a core that are still outstanding. -/
def outstanding (s : State) (core : Nat) : Nat :=
  (s.flights.map fun e => if e.2.core = core then (e.2.reqs.filter (!·.done)).length else 0).sum

/-- An instruction waits at issue for room in a counter, the store table or the outstanding-request
table (R141, R144), and an SC operation for the one before it (R168). -/
def mustWait (s : State) (f : Flight) : Bool :=
  let w := s.before
  (f.paths.testBit 0 && 2047 ≤ inFlight w.cntG) || (f.paths.testBit 1 && 2047 ≤ inFlight w.cntS)
    || (f.paths.testBit 2 && 2047 ≤ inFlight w.cntW) || (f.paths.testBit 3 && 2047 ≤ inFlight w.cntV)
    || (f.paths.testBit 2 && 2048 ≤ (s.flights.filter fun e => e.2.core == f.core && e.2.paths.testBit 2).length)
    || 2048 < s.outstanding f.core + f.reqs.length
    || (f.ord == 3 && w.scs != [])

/-- A flight is counted on its paths and is in flight (R140, R141). -/
def enter (s : State) (f : Flight) : Nat × State :=
  let (id, s) := s.fresh
  let order := s.me.counted.toList
  let s := s.modMe fun w => { w with
    cntG := if f.paths.testBit 0 then w.cntG ++ [(id, false)] else w.cntG
    cntS := if f.paths.testBit 1 then w.cntS ++ [(id, false)] else w.cntS
    cntW := if f.paths.testBit 2 then w.cntW ++ [(id, false)] else w.cntW
    cntV := if f.paths.testBit 3 then w.cntV ++ [(id, false)] else w.cntV
    counted := Vector.ofFn fun i : Fin 4 => w.counted[i] + if f.paths.testBit i.val then 1 else 0
    acq := if f.ord == 1 || f.ord == 3 then w.acq ++ [id] else w.acq
    scs := if f.ord == 3 then w.scs ++ [id] else w.scs }
  (id, { s with flights := s.flights.put id { f with order := order, tagged := s.me.relTag } })

/-- Whether a flight's own access waits as a release does (R165): REL, or SC, at BLK or wider. -/
def isRelease (f : Flight) : Bool := (f.ord == 2 || f.ord == 3) && f.scp != 0

/-- A memory instruction issues: it is counted, and its requests set out at once, or once what a
release waits for is over. -/
def launch (s : State) (f : Flight) : State :=
  let rel := isRelease f
  let before := if rel then (s.myFlights.filter fun e => e.2.kind != .bopen).map (·.1) else []
  let (id, s) := s.enter { f with before := before, released := !rel }
  if rel then (s.push [.releaseProceed id]).done
  else ((List.range f.reqs.length).foldl (fun (s : State) k =>
    if (f.req k).win = .pad then s.advance id k else s.requeue id k) s).done

/-- A target's pieces: window, address, byte place and size (R136: a wide private access is made of
words). -/
def pieces (s : State) (lane size : Nat) : Tgt → List (Win × Nat × Nat × Nat)
  | .global va => [(.global, va, 0, size)]
  | .priv off =>
    if size ≤ 4 then [(.global, s.privVa lane off, 0, size)]
    else (List.range (size / 4)).map fun i => (.global, s.privVa lane (off + 4 * i), 4 * i, 4)
  | .pad off => [(.pad, off, 0, size)]
  | .cluster b off => [(.cluster b, off, 0, size)]

/-- The pieces of every lane with the line requests they belong to. -/
def layOut (s : State) (size : Nat) (val cmp : Nat → Nat) (ts : List (Nat × Tgt)) : List Acc × List Req :=
  let ps := ts.flatMap fun e => (s.pieces e.1 size e.2).map fun p => (e.1, p)
  ps.foldl (fun (r : List Acc × List Req) p =>
    let (win, va, off, n) := p.2
    let q : Req := { win := win, vline := va / 128 }
    let (i, reqs) := match r.2.findIdx? (· == q) with
      | some i => (i, r.2)
      | none => (r.2.length, r.2 ++ [q])
    let cut (v : Nat) : Nat := v / 2 ^ (8 * off) % 2 ^ (8 * n)
    let base := match win with
      | .cluster b => 0xFF2 * 2 ^ 52 + s.identOf b * 2 ^ 42
      | _ => 0
    (r.1 ++ [{ lane := p.1, off := off, size := n, va := va, base := base, val := cut (val p.1), cmp := cut (cmp p.1), req := i }], reqs))
    ([], [])

/-- Whether a target is in the scratchpad or cluster-shared window. -/
def isPadTgt : Tgt → Bool
  | .pad _ | .cluster .. => true
  | _ => false

/-- The scope an access acts at: scratchpad lanes alone act at CLU at most (R148). -/
def scopeOf (ts : List (Nat × Tgt)) (scp : Nat) : Nat := if ts.all fun e => isPadTgt e.2 then min scp 2 else scp

/-- Sets out an access once its lanes pass R139, or raises the cause they fail with. -/
def access (s : State) (form : Form) (lanes : List (Nat × Nat)) (mk : List (Nat × Tgt) → Flight) : State :=
  if s.acqHolds then s.wait
  else match s.checkAll form lanes with
    | .error st => s.raise st
    | .ok ts =>
      let f := mk ts
      if s.mustWait f then s.wait else s.launch f

/-- A load (R149): from lanes and addresses to its destination registers. -/
def load (s : State) (o scp w : Nat) (dst ndst : Nat) (scalar shared : Bool) (lanes : List (Nat × Nat)) : State :=
  s.access { size := wSize w, reads := true, shared := shared, sc := o == 3 } lanes fun ts =>
    let (accs, reqs) := s.layOut (wSize w) (fun _ => 0) (fun _ => 0) ts
    let g := ts.any fun e => !isPadTgt e.2
    let p := ts.any fun e => isPadTgt e.2
    { s.mkFlight .load ((if g then 1 else 0) + if p then 2 else 0) with
      ord := o, scp := scopeOf ts scp, width := wSize w, signed := wSigned w, scalar := scalar
      dst := dst, ndst := ndst, accs := accs, reqs := reqs }

/-- The bytes a store lane writes (R147). -/
def storeValue (s : State) (d : Src) (w l : Nat) : Nat :=
  match d with
  | .v n => ((List.range (wRegs w)).map fun j => (lane (s.before.vreg (n.toNat + j)) l).toNat * 2 ^ (32 * j)).sum
  | .s n => ((List.range (wRegs w)).map fun j => (s.before.sreg (n.toNat + j)).toNat * 2 ^ (32 * j)).sum
  | d => (s.readLane d l).toNat

/-- A store (R150). -/
def store (s : State) (o scp w : Nat) (d : Src) (shared : Bool) (lanes : List (Nat × Nat)) : State :=
  s.access { size := wSize w, writes := true, shared := shared, sc := o == 3 } lanes fun ts =>
    let (accs, reqs) := s.layOut (wSize w) (s.storeValue d w) (fun _ => 0) ts
    { s.mkFlight .store 4 with
      ord := o, scp := scopeOf ts scp, width := wSize w, accs := accs, reqs := reqs }

/-- An atomic or a compare-and-swap (R154, R155). -/
def atomic (s : State) (kind : FKind) (o scp : Nat) (w64 nr scalar : Bool) (dst : Nat) (val cmp : Nat → Nat)
    (lanes : List (Nat × Nat)) : State :=
  let size := if w64 then 8 else 4
  s.access { size := size, reads := true, writes := true, atomic := true, sc := o == 3 } lanes fun ts =>
    let (accs, reqs) := s.layOut size val cmp ts
    { s.mkFlight kind (if nr then 4 else 1) with
      ord := o, scp := scopeOf ts scp, width := size, w64 := w64, scalar := scalar
      dst := dst, ndst := if nr then 0 else if w64 then 2 else 1, accs := accs, reqs := reqs }

/-- Active lanes with their addresses. -/
def lanesAt (s : State) (addr : Nat → Nat) : List (Nat × Nat) := (laneList s.execMask).map fun l => (l, addr l)

/-- A base address plus a sign-extended literal, modulo 2^64 (R148). -/
def plus64 (a : Nat) (lit : Word) : Nat := (a + (lit.signExtend 64).toNat) % 2 ^ 64

/-- The scratchpad pointer an offset register stands for (R148): an offset past 8 MiB has a bit
that must be 0. -/
def offPtr (s : State) (o : Nat) : Nat := 0xFF1 * 2 ^ 52 + s.identOf s.myBlk * 2 ^ 42 + o % 2 ^ 32

/-- The 64-bit value of a register pair of the issuing warp, v lane or s. -/
def vpair (s : State) (n l : Nat) : Nat := s.readPair (.v (BitVec.ofNat 7 n)) l

/-- A 32- or 64-bit operand of an atomic. -/
def atomVal (s : State) (scalar w64 : Bool) (n l : Nat) : Nat :=
  if scalar then (if w64 then s.before.spair n else (s.before.sreg n).toNat)
  else (if w64 then s.vpair n l else (lane (s.before.vreg n) l).toNat)

end State

/-- The register number of a destination. -/
def Src.num : Src → Nat
  | .v n => n.toNat
  | .s n => n.toNat
  | _ => 0

/-- VLD (R149). -/
def execVld (o : BitVec 2) (sc : BitVec 3) (w : BitVec 3) (d a : Src) (s : State) : Result :=
  .next (s.issueVec (.vld o sc w d a)
    (s.load o.toNat sc.toNat w.toNat (Src.num d) (wRegs w.toNat) false false (s.lanesAt (s.readPair a))))

/-- VLDO (R149). -/
def execVldo (o : BitVec 2) (sc : BitVec 3) (w : BitVec 3) (d a : Src) (lit : Word) (s : State) : Result :=
  .next (s.issueVec (.vldo o sc w d a lit)
    (s.load o.toNat sc.toNat w.toNat (Src.num d) (wRegs w.toNat) false false
      (s.lanesAt fun l => State.plus64 (s.readPair a l) lit)))

/-- VST (R150). -/
def execVst (o : BitVec 2) (sc : BitVec 3) (w : BitVec 3) (d a : Src) (s : State) : Result :=
  .next (s.issueVec (.vst o sc w d a)
    (s.store o.toNat sc.toNat w.toNat d false (s.lanesAt (s.readPair a))))

/-- VSTO (R150). -/
def execVsto (o : BitVec 2) (sc : BitVec 3) (w : BitVec 3) (d a : Src) (lit : Word) (s : State) : Result :=
  .next (s.issueVec (.vsto o sc w d a lit)
    (s.store o.toNat sc.toNat w.toNat d false (s.lanesAt fun l => State.plus64 (s.readPair a l) lit)))

/-- SLD (R149): one address, whatever the execute mask; in the private window it is lane 0's.
DESIGN CHOICE, log entry 70. -/
def execSld (o : BitVec 2) (sc : BitVec 3) (w : BitVec 3) (d a : Src) (lit : Word) (s : State) : Result :=
  .next (s.issue (.sld o sc w d a lit)
    (s.load o.toNat sc.toNat w.toNat (Src.num d) (wRegs w.toNat) true false
      [(0, State.plus64 (s.readPair a 0) lit)]))

/-- SST (R150), likewise.
DESIGN CHOICE, log entry 70. -/
def execSst (o : BitVec 2) (sc : BitVec 3) (w : BitVec 3) (d a : Src) (lit : Word) (s : State) : Result :=
  .next (s.issue (.sst o sc w d a lit)
    (s.store o.toNat sc.toNat w.toNat d false [(0, State.plus64 (s.readPair a 0) lit)]))

/-- LDSP (R149). -/
def execLdsp (o : BitVec 2) (sc : BitVec 3) (w : BitVec 3) (d a : Src) (s : State) : Result :=
  .next (s.issueVec (.ldsp o sc w d a)
    (s.load o.toNat sc.toNat w.toNat (Src.num d) (wRegs w.toNat) false false
      (s.lanesAt fun l => s.offPtr (s.readLane a l).toNat)))

/-- STSP (R150). -/
def execStsp (o : BitVec 2) (sc : BitVec 3) (w : BitVec 3) (d a : Src) (s : State) : Result :=
  .next (s.issueVec (.stsp o sc w d a)
    (s.store o.toNat sc.toNat w.toNat d false (s.lanesAt fun l => s.offPtr (s.readLane a l).toNat)))

/-- LDCL (R149). -/
def execLdcl (o : BitVec 2) (sc : BitVec 3) (w : BitVec 3) (d a : Src) (s : State) : Result :=
  .next (s.issueVec (.ldcl o sc w d a)
    (s.load o.toNat sc.toNat w.toNat (Src.num d) (wRegs w.toNat) false true (s.lanesAt (s.readPair a))))

/-- STCL (R150). -/
def execStcl (o : BitVec 2) (sc : BitVec 3) (w : BitVec 3) (d a : Src) (s : State) : Result :=
  .next (s.issueVec (.stcl o sc w d a)
    (s.store o.toNat sc.toNat w.toNat d true (s.lanesAt (s.readPair a))))

/-- VATOM (R154). -/
def execVatom (o : BitVec 2) (sc : BitVec 3) (w : BitVec 1) (f : BitVec 4) (d : BitVec 7) (p : BitVec 6)
    (n : BitVec 1) (s : State) : Result :=
  .next (s.issueVec (.vatom o sc w f d p n)
    (s.atomic (.atomic f.toNat) o.toNat sc.toNat (w == 1) (n == 1) false d.toNat
      (s.atomVal false (w == 1) d.toNat) (fun _ => 0) (s.lanesAt (s.vpair (2 * p.toNat)))))

/-- SATOM (R154): it acts once, whatever the execute mask. -/
def execSatom (o : BitVec 2) (sc : BitVec 3) (w : BitVec 1) (f : BitVec 4) (d : BitVec 6) (p : BitVec 6)
    (n : BitVec 1) (s : State) : Result :=
  .next (s.issue (.satom o sc w f d p n)
    (s.atomic (.atomic f.toNat) o.toNat sc.toNat (w == 1) (n == 1) true d.toNat
      (s.atomVal true (w == 1) d.toNat) (fun _ => 0) [(0, s.before.spair (2 * p.toNat))]))

/-- VCAS (R155): compare value in vD, new value after it. -/
def execVcas (o : BitVec 2) (sc : BitVec 3) (w : BitVec 1) (d : BitVec 7) (p : BitVec 6) (s : State) : Result :=
  .next (s.issueVec (.vcas o sc w d p)
    (s.atomic .cas o.toNat sc.toNat (w == 1) false false d.toNat
      (s.atomVal false (w == 1) (d.toNat + 1 + w.toNat)) (s.atomVal false (w == 1) d.toNat)
      (s.lanesAt (s.vpair (2 * p.toNat)))))

/-- SCAS (R155). -/
def execScas (o : BitVec 2) (sc : BitVec 3) (w : BitVec 1) (d : BitVec 6) (p : BitVec 6) (s : State) : Result :=
  .next (s.issue (.scas o sc w d p)
    (s.atomic .cas o.toNat sc.toNat (w == 1) false true d.toNat
      (s.atomVal true (w == 1) (d.toNat + 1 + w.toNat)) (s.atomVal true (w == 1) d.toNat)
      [(0, s.before.spair (2 * p.toNat))]))

/-! SPTEST and SPCAST (R158). -/

namespace State

/-- The class code of a pointer and the own bit. -/
def spClass (s : State) (p : Nat) : Nat :=
  let win := bits p 52 12
  let ident := bits p 42 10
  if bits p 56 8 = 0 then 8
  else if win = 0xFF0 && bits p 32 20 = 0 then 0
  else if win = 0xFF1 && bits p 23 19 = 0 then
    1 + if !s.isTrap && ident = s.identOf s.myBlk then 16 else 0
  else if win = 0xFF2 && bits p 23 19 = 0 then
    2 + if !s.isTrap && (s.clusterTarget ident (p % 2 ^ 23)).isSome then 16 else 0
  else 15

/-- A valid scratchpad pointer of the issuing block. -/
def ownPad (s : State) (p : Nat) : Bool := s.spClass p = 17

/-- A cluster-shared pointer that names the issuing block's identity. -/
def ownCluster (s : State) (p : Nat) : Bool :=
  bits p 52 12 = 0xFF2 && bits p 23 19 = 0 && !s.isTrap && bits p 42 10 = s.identOf s.myBlk

/-- The identity SPCAST.PTR writes; the trap warp has none (R400), so there it is a free value.
DESIGN CHOICE, log entry 1. -/
def castIdent (s : State) : Nat :=
  if s.isTrap then ((Config.freeByte s.drawn).toNat + 256 * (Config.freeByte (s.drawn + 1)).toNat) % 1024
  else s.identOf s.myBlk

/-- The 64-bit result of SPCAST in a lane. DEDUCED, log entry 26. -/
def spCast (s : State) (m : Nat) (a : Src) (l : Nat) : Nat :=
  let p := s.readPair a l
  match m with
  | 0 => if s.ownPad p then p % 2 ^ 23 else 0xFFFFFFFF
  | 1 =>
    let o := (s.readLane a l).toNat
    if o < 2 ^ 23 then 0xFF1 * 2 ^ 52 + s.castIdent * 2 ^ 42 + o else 0
  | 2 => if s.ownPad p then p % 2 ^ 52 + 0xFF2 * 2 ^ 52 else 0
  | _ => if s.ownCluster p then p % 2 ^ 52 + 0xFF1 * 2 ^ 52 else 0

end State

/-- SPTEST (R158). -/
def execSptest (d : BitVec 7) (a : Src) (s : State) : Result :=
  .next (s.issueVec (.sptest d a)
    ((s.setV d.toNat s.execMask (lanesOf fun l => BitVec.ofNat 32 (s.spClass (s.readPair a l)))).done))

/-- SPCAST (R158). -/
def execSpcast (d : BitVec 7) (a : Src) (m : BitVec 8) (s : State) : Result :=
  .next (s.issueVec (.spcast d a m)
    (let lo := s.setV d.toNat s.execMask (lanesOf fun l => lowWord (s.spCast m.toNat a l))
     let r := if m = 0 then lo
       else lo.setV (d.toNat + 1) s.execMask (lanesOf fun l => highWord (s.spCast m.toNat a l))
     (if s.isTrap && m == 1 then { r with drawn := r.drawn + 2 } else r).done))

/-! WAITC (R146). -/

namespace State

/-- Instructions in flight on a path of a warp, G S W V as 0 to 3. -/
def pathCount (w : Warp) (i : Nat) : Nat :=
  inFlight (match i with
    | 0 => w.cntG
    | 1 => w.cntS
    | 2 => w.cntW
    | _ => w.cntV)

/-- A faulted load that had to leave a named counter for the wait to end (R143, R146). -/
def waitcMark (w : Warp) (paths n : Nat) : Option Mark :=
  (w.marks.filter fun m => (List.range 4).any fun i =>
      paths.testBit i && m.paths.testBit i && n + (m.order[i]?.getD 0) + 1 ≤ w.counted[i]?.getD 0).foldl
    (fun (a : Option Mark) m => match a with
      | some x => if m.fl < x.fl then some m else some x
      | none => some m) none

end State

/-- WAITC (R146): its waiting may become a blocking point (`WAITC_BLOCKING_TIMER`). -/
def execWaitc (v w sf g : BitVec 1) (t : Src) (s : State) : Result :=
  .next (s.issue (.waitc v w sf g t)
    (let paths := g.toNat + 2 * sf.toNat + 4 * w.toNat + 8 * v.toNat
     let n := (s.readScalar t).toNat
     if (List.range 4).all fun i => !paths.testBit i || State.pathCount s.before i ≤ n then
       match State.waitcMark s.before paths n with
       | some m => s.raise m.stop
       | none => (s.modMe fun w => { w with wake := .none, wakeOk := false }).done
     else if s.me.wake == .waitc paths n then s.wait
     else (s.modMe fun w => { w with wake := .waitc paths n, wakeAt := s.nowCore s.myCore, wakeOk := false }).wait))

/-- WAITC_BLOCKING_TIMER (R146): after 2 µs a WAITC becomes a blocking point if a load it waits for
targets a line homed elsewhere, or waits on a held leaf. -/
def execWaitcBlockingTimer (core slot : Nat) (s : State) : Result :=
  .next (let k := warpKey core slot
    let w := s.warp k
    match w.wake with
    | .waitc paths n =>
      -- the loads that must leave a named counter for the wait to end
      let awaited (f : Flight) : Bool := f.key == k && [0, 1, 3].any fun i =>
        paths.testBit i && f.paths.testBit i && !f.landed.testBit i && n + (f.order[i]?.getD 0) + 1 ≤ w.counted[i]?.getD 0
      let far := s.flights.any fun e => awaited e.2 && e.2.reqs.any fun r =>
        !r.done && ((match r.leaf with
          | some _ => (match placeOf r.pa with
            | .memory d => d != dieOf core
            | .fabric => true
            | _ => false)
          | none => false) || s.walks.any fun x => x.held && x.waiters.any fun y => y.1 == e.1)
      if w.wakeAt + 2000 < s.nowCore core && far then (s.modWarp k ({ · with wakeOk := true })).done else s.done
    | _ => s.done)

/-! FENCE (R179). -/

/-- FENCE: ORD 0 AR, 1 ACQ, 2 REL, 3 SC. -/
def execFence (o : BitVec 2) (sc : BitVec 3) (s : State) : Result :=
  .next (s.issue (.fence o sc)
    (if s.acqHolds then s.wait
    else if sc = 0 then s.done
    else if !State.loadsBack s.before then s.wait
    else if o != 1 && !s.relReady sc.toNat then s.relWait
    else if o = 3 && s.before.scs != [] then s.wait
    else
      let t := s.me.ldTag
      let s := if o = 2 then s
        else s.modCore s.myCore fun c => { c with lclk := max c.lclk t.1, leasemax := max c.leasemax t.2 }
      let s := if o = 1 then s else s.modMe ({ · with relTag := true })
      let s := if o = 3 then
          (let n := (s.core s.myCore).lclk + 1
           let s := if 2 ^ 48 - 1 ≤ n then s.log "STAMPMAX" [s.myCore] else s
           s.modCore s.myCore ({ · with lclk := min n (2 ^ 48 - 1) }))
        else s
      s.done))

/-! CACHE (R87). -/

/-- CACHE over a range: FN 0 PF, 1 WB, 2 INV, 3 WBINV. -/
def State.cacheOp (s : State) (fn : Nat) (l a : Src) : State :=
  let va := s.readPair a 0
  let n := (s.readScalar l).toNat
  if s.acqHolds then s.wait
  else if vaTop ≤ va || vaTop < va + n then s.raise { cause := .bounds, addr := va }
  else if n = 0 then s.done
  else
    let f : Flight := { s.mkFlight (.cache fn) (if fn = 0 then 0 else 4) with
      x := va / 128 * 128, y := va + n, reqs := [{ win := .global, vline := va / 128 }] }
    if s.mustWait f then s.wait
    else
      let (id, s) := s.enter f
      (s.requeue id 0).done

/-- CACHE.PF (R87). -/
def execCachePf (l a : Src) (s : State) : Result := .next (s.issue (.cachePf l a) (s.cacheOp 0 l a))
/-- CACHE.WB (R87). -/
def execCacheWb (l a : Src) (s : State) : Result := .next (s.issue (.cacheWb l a) (s.cacheOp 1 l a))
/-- CACHE.INV (R87). -/
def execCacheInv (l a : Src) (s : State) : Result := .next (s.issue (.cacheInv l a) (s.cacheOp 2 l a))
/-- CACHE.WBINV (R87). -/
def execCacheWbinv (l a : Src) (s : State) : Result := .next (s.issue (.cacheWbinv l a) (s.cacheOp 3 l a))

/-! LDLV and CMST (R106, R108). -/

/-- Whether an access of the issuing core to global bytes overlaps a locked range (R172). -/
def State.lockedVa (s : State) (va n : Nat) (write : Bool) : Bool :=
  s.locked s.myCore ⟨false, s.ctxRegion, va, n⟩ write

/-- LDLV (R106). -/
def execLdlv (d : BitVec 7) (t a : Src) (s : State) : Result :=
  .next (s.issueVec (.ldlv d t a)
    (let va := s.readPair a 0
     if s.acqHolds then s.wait
     else if va % 128 ≠ 0 then s.raise { cause := .align, addr := va, lanes := s.execMask }
     else if vaTop ≤ va then s.raise { cause := .bounds, addr := va, lanes := s.execMask }
     else if s.lockedVa va 128 false then s.raise { cause := .rangelock, addr := va, lanes := s.execMask }
     else
       let f : Flight := { s.mkFlight .ldlv 8 with
         scp := 5, dst := d.toNat, ndst := 1, dst2 := some (Src.num t)
         accs := (laneList s.execMask).map fun l => { lane := l, off := 0, size := 4, va := va + 4 * (l % 32) }
         reqs := [{ win := .global, vline := va / 128 }] }
       if s.mustWait f then s.wait else s.launch f))

namespace State

/-- A versioned access outside the module: the window must be a peer's; it is sent with what it carries, and its answer
is free (R354). -/
def peerAnswer (s : State) (f : Flight) (kind : Myder) (pa : Nat) (bs : List Byte) (n : Nat) : State × Got :=
  match s.fabricAt f.die pa with
  | none => (s, .fail .xlate 0 0)
  | some (ctl, _) => if fabricHost ctl then (s, .fail .prot 0 0) else s.fabricSend f.die f.key kind pa bs n

end State

/-- LDLV_AT_HOME (R106): line and token in one transaction; no copy is made. -/
def execLdlvAtHome (fl : Nat) (s : State) : Result :=
  .next (match s.flights.get? fl with
    | none => s.done
    | some f =>
      let pa := (f.req 0).pa
      let need := match (f.req 0).leaf with
        | some l => l.permits .r f.ns
        | none => false
      if !need then (s.failReq fl 0 .prot 0).done
      else match placeOf pa with
        | .fabric =>
          match s.peerAnswer f .mread pa (leBytes 4 132) 132 with
          | (s, .bytes bs) =>
            let s := s.modFlight fl ({ · with result := leNat (bs.drop 128) })
            (s.finishRead fl 0 { f with result := leNat (bs.drop 128) } (bs.take 128) {} fun r => r).done
          | (s, .fail c _ _) => (s.failReq fl 0 c 0).done
          | (s, .held) => (s.failReq fl 0 .xlate 0).done
        | _ =>
          (s.atHome (.ldlvAtHome fl) fl 0 State.loadRemoteMsgs fun s f l line =>
            let s := s.mergeResv line f.part
            if s.isPoisoned line then s.failReq fl 0 .poison 0
            else
              let s := s.atSlice f l line
              let f := { f with result := s.tokenOf line f.part }
              (s.ackClears f.die line).finishRead fl 0 f (s.homeData line) (s.homeTag line f.part) fun r => r).done)

namespace State

/-- The line addresses, tokens and data of a CMST descriptor, or its status BADDESC (R107, R108). -/
def cmstDesc (h d : List Byte) : Option (List (Nat × Nat × List Byte)) :=
  let n := fieldAt h 0 4
  let es := (List.range n).map fun i => (fieldAt h (16 + 16 * i) 8, fieldAt h (24 + 16 * i) 4, slice d (128 * i) 128)
  let bad := n = 0 || 4 < n || fieldAt h 4 8 ≠ 0 || fieldAt h 12 4 ≠ 0
  if bad then none
  else if (List.range n).any (fun i => fieldAt h (28 + 16 * i) 4 ≠ 0)
      || es.any (fun e => e.1 % 128 ≠ 0 || vaTop ≤ e.1) || !(es.map (·.1)).Nodup then none
  else some es

/-- The check of R139 on a scratchpad range an instruction reads as a whole. -/
def padReadCheck (s : State) (off n : Nat) : Option Cause :=
  if s.isTrap || !s.padCovered s.myBlk off n then some .bounds
  else if s.locked s.myCore ⟨true, s.identOf s.myBlk, off, n⟩ false then some .rangelock
  else if s.staleRange s.myCore off n then some .stale
  else none

end State

/-- CMST (R108): the descriptor is read at issue. -/
def execCmst (o : BitVec 2) (sc : BitVec 3) (t d : Src) (s : State) : Result :=
  .next (s.issue (.cmst o sc t d)
    (let off := (s.readScalar d).toNat
     if s.acqHolds then s.wait
     else if off % 128 ≠ 0 then s.raise { cause := .align, addr := off }
     else match s.padReadCheck off 128 with
       | some c => s.raise { cause := c, addr := off }
       | none =>
         let h := s.padRead s.myCore off 128
         let n := fieldAt h 0 4
         let len := 128 * min n 4
         match (if n ≤ 4 then s.padReadCheck (off + 128) len else none) with
         | some c => s.raise { cause := c, addr := off + 128 }
         | none =>
           match State.cmstDesc h (s.padRead s.myCore (off + 128) len) with
           | none => (s.setS (Src.num t) 3).done
           | some es =>
             match es.find? fun e => s.lockedVa e.1 128 true with
             | some e => s.raise { cause := .rangelock, addr := e.1 }
             | none =>
             let f : Flight := { s.mkFlight .cmst 1 with
               ord := o.toNat, scp := sc.toNat, scalar := true, dst := Src.num t, ndst := 1
               accs := [{ lane := 0, off := 0, size := 4, va := (es.head?.map (·.1)).getD 0 }]
               reqs := es.map fun e => { win := .global, vline := e.1 / 128 }
               toks := es.map (·.2.1), datas := es.map (·.2.2) }
             if s.mustWait f then s.wait else s.launch f))

namespace State

/-- Ends a CMST with a status (R108). -/
def cmstEnd (s : State) (id : Nat) (status lend : Nat) (t : Tag) : State :=
  (s.modFlight id fun f => { f with
      accs := f.accs.map fun a => { a with val := status }
      reqs := f.reqs.map fun r => { r with done := true, sent := false, lend := lend, tag := t } }).push [.loadDataReturn id]

/-- How a versioned access through a window fails before it leaves (R354). -/
def windowFault (s : State) (die pa : Nat) : Option Cause :=
  match s.fabricAt die pa with
  | none => some .xlate
  | some (ctl, _) => if fabricHost ctl then some .prot else none

/-- A CMST to a peer (R354): one frame with the target address, the token and the data of every line; lines of
different devices share no slice (R108). -/
def cmstPeer (s : State) (f : Flight) : State × Got :=
  let at' (r : Req) : Nat × Nat := ((s.fabricAt f.die r.pa).map fun x => (bits x.1 48 12, x.2)).getD (0, 0)
  if f.reqs.any fun r => (at' r).1 != (at' (f.req 0)).1 then (s, .bytes [2])
  else s.peerAnswer f .matom (f.req 0).pa ((List.range f.reqs.length).flatMap fun k =>
    leBytes 8 (at' (f.req k)).2 ++ leBytes 4 (f.toks[k]?.getD 0) ++ f.datas[k]?.getD []) 4

/-- Ends a CMST with a load fault at one of its lines. -/
def cmstFail (s : State) (id k : Nat) (c : Cause) (level : Nat) : State :=
  (s.modFlight id fun f => { f with
      accs := f.accs.map fun a => { a with va := 128 * (f.req k).vline, req := k }
      reqs := f.reqs.map fun r => { r with done := true, sent := false, fail := some (c, level) } }).push [.loadDataReturn id]

end State

/-- CMST_AT_HOME (R108): all lines as one transaction; they are written only if every token matches.  A line whose
walk failed, or whose page forbids it, is a load fault. -/
def execCmstAtHome (fl : Nat) (s : State) : Result :=
  .next (match s.flights.get? fl with
    | none => s.done
    | some f =>
      let n := f.reqs.length
      let ks := List.range n
      let line (k : Nat) : Nat := (f.req k).pa / 128
      let lines := ks.map line
      let sent := (f.req 0).sent
      if f.reqs.any (·.done) || !f.reqs.all (·.ready) then s.done
      else match ks.findSome? fun k => (f.req k).fail.map fun c => (k, c) with
        | some (k, c) => (s.cmstFail fl k c.1 c.2).done
        | none =>
        match ks.find? fun k => !((f.req k).leaf.map fun l => l.permits .rw f.ns).getD false with
        | some k => (s.cmstFail fl k .prot 0).done
        | none =>
        match ks.find? fun k => placeOf (f.req k).pa == .config with
        | some k => (s.cmstFail fl k .prot 0).done
        | none =>
        if ks.any fun k => placeOf (f.req k).pa == .fabric then
          if ks.all fun k => placeOf (f.req k).pa == .fabric then
            match ks.findSome? fun k => (s.windowFault f.die (f.req k).pa).map fun c => (k, c) with
            | some (k, c) => (s.cmstFail fl k c 0).done
            | none =>
              match s.cmstPeer f with
              | (s, .bytes bs) => (s.cmstEnd fl (leNat bs % 256) 0 {}).done
              | (s, .fail c _ _) => (s.cmstFail fl 0 c 0).done
              | (s, .held) => (s.cmstFail fl 0 .xlate 0).done
          else (s.cmstEnd fl 2 0 {}).done
        else if !sent && lines.any fun l => s.redirected f.core l then (s.push [.redirect fl 0]).done
        else if lines.any fun l => homeDie l != homeDie (line 0) || s.sliceOf l != s.sliceOf (line 0) then
          (s.cmstEnd fl 2 0 {}).done
        else if !sent && ks.any fun k => s.lineBusy (line k) f.part || s.behind (fl, k) f.cls (line k) then
          ((ks.foldl (fun (s : State) k => s.enterLineq (fl, k) f.cls f.part (line k)) s).push [.cmstAtHome fl]).done
        else
          let pol (k : Nat) : Policy := ((f.req k).leaf.map Leaf.policy).getD .cached
          let ns (k : Nat) : Bool := ((f.req k).leaf.map (·.ns)).getD false
          let free (s : State) : State :=
            if sent then { lines.foldl State.dropOld s with txns := s.txns.filter fun x => !lines.contains x } else s
          match ks.findSome? fun k => (s.homeCheck (line k) f.part (ns k) (pol k).openTo).map fun c => (k, c) with
          | some (k, c) => ((free s).cmstFail fl k c 0).done
          | none =>
            let s := lines.foldl (fun (s : State) l => (s.settleFrom false f.core l).settleFrom true f.die l) s
            let s := ks.foldl (fun (s : State) k => s.homeEnter (line k) f.part (ns k) (pol k).openTo) s
            let ms := ks.flatMap fun k => if (pol k).leaves then [] else s.invalidateMsgs (line k) none
            if ms ≠ [] then
              let s := ks.foldl (fun (s : State) k => (s.modReq fl k ({ · with sent := true })).keepOld (line k)) s
              let s := { s with txns := (s.txns ++ lines).dedup }
              ((ms.foldl (fun (s : State) m => s.pushNew m) s).push [.cmstAtHome fl]).done
            else
              let s := free s
              let s := ks.foldl (fun (s : State) k => s.mergeResv (line k) f.part) s
              let mis := (ks.map fun k =>
                if (f.toks[k]?.getD 0) = s.tokenOf (line k) f.part then 0 else 2 ^ k).sum
              let t := ks.foldl (fun (t : Tag) k => t.max (s.homeTag (line k) f.part)) {}
              let s := if mis ≠ 0 then s
                else ks.foldl (fun (s : State) k =>
                  let s := if (pol k).allocates then s.fillSlice (line k) f.part (ns k) (pol k == .stream) else s
                  let s := s.homeWrite (line k) f.part (fun _ => f.datas[k]?.getD []) true
                  let s := s.setHomeTag (line k) f.part (s.tagAfter f (s.homeTag (line k) f.part))
                  s.setWriter (line k) f.core) s
              let s := lines.foldl (fun (s : State) l => (s.ackClears f.die l).dirRoom l) s
              let lend := lines.foldl (fun n l => max n (s.ackLend l)) 0
              (s.cmstEnd fl (if mis = 0 then 0 else 1 + 16 * mis) lend t).done)

/-! TLBI (R64). -/

/-- TLBI of a kind: 0 ALL, 1 REGION, 2 PAGE, 3 PAGEALL. -/
def State.tlbi (s : State) (kind sz : Nat) (r a : Option Src) : State :=
  let va := (a.map fun a => s.readPair a 0).getD 0
  let reg := (r.map fun r => (s.readScalar r).toNat % 2 ^ 12).getD 0
  if s.acqHolds then s.wait
  else if 2 ≤ kind && bits va 56 8 ≠ 0 then s.raise { cause := .bounds, addr := va }
  else
    let f : Flight := { s.mkFlight (.tlbi kind sz) 4 with
      scp := 4, x := reg, y := va, released := false
      -- not what an earlier TLBI waits for (R65)
      before := (s.myFlights.filter fun e => e.2.paths.testBit 2 && (match e.2.kind with
        | .tlbi .. => false
        | _ => true)).map (·.1) }
    if s.mustWait f then s.wait
    else
      let (id, s) := s.enter f
      (s.push [.tlbiAck id]).done

/-- TLBI.ALL (R64). -/
def execTlbiAll (s : State) : Result := .next (s.issue .tlbiAll (s.tlbi 0 0 none none))
/-- TLBI.REGION (R64). -/
def execTlbiRegion (r : Src) (s : State) : Result := .next (s.issue (.tlbiRegion r) (s.tlbi 1 0 (some r) none))
/-- TLBI.PAGE (R64). -/
def execTlbiPage (z : BitVec 2) (r a : Src) (s : State) : Result :=
  .next (s.issue (.tlbiPage z r a) (s.tlbi 2 z.toNat (some r) (some a)))
/-- TLBI.PAGEALL (R64). -/
def execTlbiPageall (z : BitVec 2) (a : Src) (s : State) : Result :=
  .next (s.issue (.tlbiPageall z a) (s.tlbi 3 z.toNat none (some a)))

end Sys2Proof.Machine
end

