-- ==== Sys2Proof/Machine/Bundles.lean ====
section
/-!
DEFINITION. Store bundles and views (05_bundles.md), and the scrub of a dead agent that meets them
(04_crossing_dies.md R102, R133).
-/

namespace Sys2Proof.Machine

/-! Names (R114, R117). -/

/-- Side metadata that names record `idx` of a die (R117). -/
def sideName (device die idx : Nat) : Word := BitVec.ofNat 32 (2 ^ 18 * idx + 2 ^ 13 * die + 2 * device + 1)
def sideV (w : Word) : Bool := w.getLsbD 0
def sideDie (w : Word) : Nat := bits w.toNat 13 5
def sideIdx (w : Word) : Nat := bits w.toNat 18 14
def sideDevice (w : Word) : Nat := bits w.toNat 1 12

namespace State

def sideOf (s : State) (die idx : Nat) : Word := sideName (s.die die).devId die idx

def brec (s : State) (die idx : Nat) : Option BRec := s.brecs.find? fun r => r.die == die && r.idx == idx
def modBrec (s : State) (die idx : Nat) (g : BRec → BRec) : State :=
  { s with brecs := s.brecs.map fun (r : BRec) => if r.die = die && r.idx = idx then g r else r }

/-- STAMP and lines of the bundle that metadata names (R117, R128): its record's, read at its home; what a peer's
record holds is free. -/
def bundleOf (s : State) (w : Word) : Nat × List Nat :=
  if !sideV w then (0, [])
  else if sideDevice w == (s.die (sideDie w)).devId then
    match s.brec (sideDie w) (sideIdx w) with
    | some r => (r.stamp, r.lines)
    | none => (0, [])
  else
    let word (i : Nat) : Nat := leNat ((List.range 8).map fun j => Config.peerRecord s.drawn w (8 * i + j))
    (word 1 / 256, (List.range (bits (word 1) 3 5)).map fun i => bits (word (2 + i)) 7 45)

/-- stamp(X) of R128. -/
def stampOf (s : State) (w : Word) : Nat := (s.bundleOf w).1
/-- B lists L (R128). -/
def listsLine (s : State) (w : Word) (line : Nat) : Bool := (s.bundleOf w).2.contains line

/-- The bytes of a companion record (R116). -/
def recBytes (r : BRec) : List Byte :=
  leBytes 8 r.bid.toNat ++ leBytes 8 (r.st + 8 * r.lines.length + 256 * (r.stamp % 2 ^ 56))
    ++ (r.lines.map fun l => leBytes 8 (128 * l)).flatten

/-- The hardware writes a record's bytes in the bundle directory (R115, R116); those of a FREE record are zeros.
DESIGN CHOICE, log entry 65. -/
def writeRec (s : State) (die idx : Nat) : State :=
  match (s.die die).bbase with
  | none => s
  | some base =>
    s.physWrite (base + 256 * idx) (match s.brec die idx with
      | some r => recBytes r
      | none => List.replicate 16 0)

/-- A record becomes FREE (R120). -/
def freeRec (s : State) (die idx : Nat) : State :=
  ({ s with brecs := s.brecs.filter fun r => !(r.die == die && r.idx == idx) } : State).writeRec die idx

end State

/-- BOPEN (R123); the trap warp has no slot of its own, and SLOT is 0 there.
DEDUCED, log entry 25.
DESIGN CHOICE, log entry 64. -/
def execBopen (d : Src) (s : State) : Result :=
  .next (s.issue (.bopen d)
    (let die := dieOf s.myCore
     let c := s.myCore % 32
     let f : Flight := { s.mkFlight .bopen 1 with
       scalar := true, dst := Src.num d, ndst := 2, accs := [{ lane := 0, off := 0, size := 8, va := 0 }]
       reqs := [{ win := .global, vline := 0, done := true }] }
     if s.acqHolds then s.wait
     else if s.me.bid ≠ 0 then s.fail .bundle
     else if s.mustWait f then s.wait
     else
       let free := if (s.die die).bbase.isSome && (s.die die).vbase.isSome then
           (List.range 16384).find? fun i => (s.brec die i).isNone
         else none
       match free with
       | none =>
         let (id, s) := s.enter f
         (s.push [.loadDataReturn id]).done
       | some idx =>
         let n := ((s.die die).seqs.get c 0 + 1) % 2 ^ 36
         let seq := if n = 0 then 1 else n
         let bid := 2 ^ 52 * (s.die die).devId + 2 ^ 47 * die + 2 ^ 42 * c + 2 ^ 36 * (s.mySlot % 64) + seq
         let s := s.modDie die fun x => { x with seqs := x.seqs.put c seq }
         let s := ({ s with brecs := s.brecs ++
           [{ die := die, idx := idx, bid := BitVec.ofNat 64 bid, st := 1, core := s.myCore, cls := s.ctxCls }] } : State)
         let s := s.writeRec die idx
         let s := s.modMe fun w => { w with bid := BitVec.ofNat 64 bid, brecDie := die, brecIdx := idx, btab := [] }
         let (id, s) := s.enter { f with accs := [{ lane := 0, off := 0, size := 8, va := 0, val := bid }] }
         (s.push [.loadDataReturn id]).done))

/-- BCLOSE (R124): the bundle leaves the warp at once; its commit follows the release and the answers. -/
def execBclose (o : BitVec 2) (sc : BitVec 3) (t : Src) (s : State) : Result :=
  .next (s.issue (.bclose o sc t)
    (let w := s.me
     let rel := o == 2 && sc != 0
     let f : Flight := { s.mkFlight .bclose 4 with
       ord := o.toNat, scp := sc.toNat, scalar := true, dst := Src.num t, ndst := 1
       accs := [{ lane := 0, off := 0, size := 4, va := 0 }], released := !rel
       before := if rel then (s.myFlights.filter fun e => e.2.kind != .bopen).map (·.1) else [] }
     if s.acqHolds then s.wait
     else if w.bid = 0 then s.fail .bundle
     else if s.mustWait f then s.wait
     else
       let (id, s) := s.enter f
       let s := s.modBrec w.brecDie w.brecIdx fun r => { r with closer := some id }
       let s := s.modMe fun w => { w with bid := 0, btab := [] }
       (s.push ((if rel then [.releaseProceed id] else []) ++ [.commitRequest w.brecDie w.brecIdx])).done))

namespace State

/-- The checks of bundle stores and view loads: a global address, alignment, then the range locks (R126, R131, R172). -/
def plainCheck (s : State) (write : Bool) (size : Nat) (lanes : List (Nat × Nat)) : Option Stop :=
  firstFailure (lanes.map fun e =>
    (e.1, e.2, if vaTop ≤ e.2 then .error (1, .bounds) else if e.2 % size ≠ 0 then .error (3, .align)
      else if s.lockedVa e.2 size write then .error (5, .rangelock) else .ok (.global e.2)))

end State

/-- VSTB (R126). -/
def execVstb (w : BitVec 3) (d a : Src) (s : State) : Result :=
  .next (s.issueVec (.vstb w d a)
    (let size := wSize w.toNat
     let lanes := s.lanesAt (s.readPair a)
     if s.acqHolds then s.wait
     else if s.me.bid = 0 then s.fail .bundle
     else match s.plainCheck true size lanes with
       | some st => s.raise st
       | none =>
         let (accs, reqs) := s.layOut size (s.storeValue d w.toNat) (fun _ => 0) (lanes.map fun e => (e.1, .global e.2))
         let new := (reqs.map (·.vline)).filter fun l => !s.me.btab.contains l
         let f : Flight := { s.mkFlight .vstb 4 with
           width := size, accs := accs, reqs := reqs, x := s.me.brecDie, y := s.me.brecIdx, bid := s.me.bid }
         if 30 < s.me.btab.length + new.length then s.fail .bundle
         else if s.mustWait f then s.wait
         else (s.modMe fun w => { w with btab := w.btab ++ new }).launch f))

/-! Versions at a home (R118, R119). -/

namespace State

def staged (s : State) (line : Nat) : Option VerEnt := s.vers.find? fun v => v.line == line && v.staged
def previous (s : State) (line : Nat) : Option VerEnt := s.vers.find? fun v => v.line == line && !v.staged
def side' (s : State) (line : Nat) : Word := s.side.get line 0

/-- Room for one more entry in a die's version store: the oldest previous version makes way; none when
every entry is staged (R118). -/
def versionRoom (s : State) (die : Nat) : Option State :=
  let mine := s.vers.filter fun v => homeDie v.line == die
  if mine.length < 262144 then some s
  else match mine.find? fun v => !v.staged with
    | some old => some { s with vers := s.vers.filter (· != old) }
    | none => none

/-- A staging of bytes under a mask, by bundle `b`, on a line whose copies have been brought home: the
state and the answer, 0 OK, 1 CONFLICT, 2 NOSPACE, 3 FAULT, and the stamp that goes with it.  The staged copy is the
whole line with the bundle's bytes laid over it (R119).  A version is B's own when its record and BID are B's: one that
a dead bundle left is not (R133).  Where several rows hold, B's own version comes first, then FAULT, then NOSPACE.
DESIGN CHOICE, log entry 69. -/
def stageAt (s : State) (line : Nat) (b : Word) (bid : DWord) (mask : Nat) (bs : List Byte) : State × Nat × Nat :=
  let lay (old : List Byte) : List Byte :=
    (List.range 128).map fun i => if mask.testBit i then bs[i]?.getD 0 else old[i]?.getD 0
  match s.staged line with
  | some v =>
    if v.side = b && v.bid = bid then
      ({ s with vers := s.vers.map fun (x : VerEnt) =>
          if x = v then { x with data := lay x.data, mask := x.mask ||| mask } else x }, 0, 0)
    else (s, 1, 0)
  | none =>
    if s.isPoisoned line && mask % 2 ^ 128 ≠ 2 ^ 128 - 1 then (s, 3, 0)
    else match s.versionRoom (homeDie line) with
      | none => (s, 2, 0)
      | some s =>
        let s := if (s.sliceLine line).isSome then s else s.count line false
        let v : VerEnt := { line := line, staged := true, data := lay (s.homeData line), mask := mask, side := b, bid := bid }
        ({ s with vers := s.vers ++ [v] }, 0, s.stampOf (s.side' line))

/-- A staging that its home only answers, with no effect of a write: CONFLICT, NOSPACE or FAULT (R119). -/
def stageRefused (s : State) (line : Nat) (b : Word) (bid : DWord) (mask : Nat) : Bool :=
  match s.staged line with
  | some v => !(v.side == b && v.bid == bid)
  | none => (s.isPoisoned line && mask % 2 ^ 128 ≠ 2 ^ 128 - 1) || (s.versionRoom (homeDie line)).isNone

/-- A staging is held while another bundle's version awaits its promotion (R119). -/
def stageHeld (s : State) (line : Nat) (b : Word) (bid : DWord) : Bool :=
  match s.staged line with
  | some v => !(v.side == b && v.bid == bid) && v.notice.isSome
  | none => false

/-- The mask and bytes a flight stages on one line, later lanes over earlier ones (R126). -/
def stageBytes (f : Flight) (k : Nat) : Nat × List Byte :=
  (f.accs.filter (·.req == k)).foldl (fun (e : Nat × List Byte) a =>
    let i := a.va % 128
    (e.1 ||| (2 ^ a.size - 1) * 2 ^ i, patch e.2 i (leBytes a.size a.val))) (0, List.replicate 128 0)

end State

/-- BUNDLE_STAGING (R119): the home forms or extends a staged copy, or refuses. -/
def execBundleStaging (fl req : Nat) (s : State) : Result :=
  .next (match s.flights.get? fl with
    | none => s.done
    | some f =>
      let r := f.req req
      let line := r.pa / 128
      let b := s.sideOf f.x f.y
      let (mask, bs) := State.stageBytes f req
      let answer (s : State) (a st : Nat) : State :=
        (s.modReq fl req ({ · with answer := a, bst := st })).push [.stagingAnswer fl req]
      let allowed := r.done || (match r.leaf with
        | some l => (s.homeCheck line f.part l.ns l.shared).isNone
        | none => true)
      match placeOf r.pa with
      | .fabric =>
        match s.peerAnswer f .bstage r.pa (leBytes 4 b.toNat ++ leBytes 16 mask ++ bs) 9 with
        | (s, .bytes x) => (answer s (leNat (x.take 1) % 4) (leNat (x.drop 1))).done
        | (s, .fail c _ _) => (s.failReq fl req c 0).done
        | (s, .held) => (s.failReq fl req .xlate 0).done
      | _ =>
        if allowed && s.stageHeld line b f.bid then (s.push [.bundleStaging fl req]).done
        else
          (s.atHome (.bundleStaging fl req) fl req
              (if s.stageRefused line b f.bid mask then fun _ _ _ _ => [] else State.writeMsgs) fun s _ _ line =>
            let s := if s.stageRefused line b f.bid mask then s else s.mergeResv line f.part
            let (s, a, st) := s.stageAt line b f.bid mask bs
            answer s a st).done)

/-- STAGING_ANSWER (R126): a failure marks the bundle; the largest stamp is kept. -/
def execStagingAnswer (fl req : Nat) (s : State) : Result :=
  .next (match s.flights.get? fl with
    | none => s.done
    | some f =>
      let r := f.req req
      if r.done then s.done
      else
        let s := s.modBrec f.x f.y fun b => if b.bid ≠ f.bid then b else { b with
          fail := if b.fail = 0 then r.answer else b.fail
          got := if b.got.contains (r.pa / 128) then b.got else b.got ++ [r.pa / 128]
          gotStamp := max b.gotStamp r.bst }
        let s := s.savedFor f
        (s.finishReq fl req fun r => r).done)

/-! Commit (R120, R124). -/

namespace State

/-- The vstb flights of a record's bundle that are still to be answered. -/
def stagingLeft (s : State) (die idx : Nat) : Bool :=
  s.flights.any fun e => e.2.kind == .vstb && e.2.x == die && e.2.y == idx
    && ((s.brec die idx).map (·.bid)) == some e.2.bid

/-- A warp's flight writes back, into its slot or its saved image and record (R134, R346). -/
def writeBack (s : State) (f : Flight) (g : Warp → Warp) : State :=
  if f.landing then
    (s.modBlock f.blk fun x =>
      { x with images := x.images.map fun e => (e.1, if x.slots[e.1]? == some f.slot then g e.2 else e.2) }).saveVersions f
  else s.modWarp f.key g

end State

/-- COMMIT_REQUEST (R120): the list is written, then the bundle commits; or it aborts. -/
def execCommitRequest (die idx : Nat) (s : State) : Result :=
  .next (match s.brec die idx with
    | none => s.done
    | some r =>
      let held := (r.closer.bind s.flights.get?).any fun f => !f.released
      if 3 ≤ r.st then s.done
      else if held || s.stagingLeft die idx then (s.push [.commitRequest die idx]).done
      else
        let closer := r.closer.toList
        let say (s : State) (code : Nat) : State :=
          (closer.foldl (fun (s : State) id => s.modFlight id ({ · with result := code })) s).push (closer.map .commitAnswer)
        if r.fail != 0 then
          let s := s.modBrec die idx fun r => { r with st := 4, lines := r.got, outstanding := r.got.length }
          let s := say (s.writeRec die idx) r.fail
          if r.got = [] then ((s.freeRec die idx).push (closer.map .bcloseComplete)).done
          else (s.push (r.got.map (.discardNotice die idx ·))).done
        else if r.st = 1 then
          let s := s.modBrec die idx fun r => { r with st := 2, lines := r.got }
          ((s.writeRec die idx).push [.commitRequest die idx]).done
        else if r.got = [] then ((say (s.freeRec die idx) 0).push (closer.map .bcloseComplete)).done
        else
          let stamp := max (s.now die) (r.gotStamp + 1)
          let tag := match r.closer.bind s.flights.get? with
            | some f => if f.ord = 2 then ((s.core f.core).lclk, (s.core f.core).leasemax) else (0, 0)
            | none => (0, 0)
          let s := s.modBrec die idx fun r => { r with st := 3, stamp := stamp, outstanding := r.lines.length, tag := tag }
          let s := say (s.writeRec die idx) 0
          (s.push (r.got.map (.promotionNotice die idx ·))).done)

/-- COMMIT_ANSWER (R124): sSt takes the status. -/
def execCommitAnswer (fl : Nat) (s : State) : Result :=
  .next (match s.flights.get? fl with
    | none => s.done
    | some f =>
      let f := { f with accs := f.accs.map fun a => { a with val := f.result } }
      let s := s.writeBack f fun w => f.writeDst w 0
      let s := if f.landing then s.imageWord f.blk (s.imageOf f) true f.dst 0 f.result else s
      (s.modFlight fl ({ · with returned := true })).done)

namespace State

/-- The partition of a line's directory entry (R84). -/
def partOf (s : State) (line : Nat) : Nat := ((s.dirEnt line).map (·.part)).getD 0

/-- A notice leaves for a line of a peer with the name of its bundle, 0 a promotion, 1 a discard, 2 a forget notice;
the peer's acknowledgment, which may come at any time, carries no lease end: none crosses a device (R351, R354, R356).
DESIGN CHOICE, log entry 21. -/
def peerNotice (s : State) (die idx kind line : Nat) : State :=
  let core := ((s.brec die idx).map (·.core)).getD 0
  (match s.fabricAt die (128 * line) with
    | some (ctl, t) =>
      { s with outbox := s.outbox ++
        [s.fabricFrame die (warpKey core 64) .bnote ctl t (leBytes 1 kind ++ leBytes 4 (s.sideOf die idx).toNat)] }
    | none => s).push [.noticeAck die idx 0]

/-- Metadata and versions of a promotion of the staged version `v` (R119). -/
def promote (s : State) (line : Nat) (v : VerEnt) (tag : Tag) : State :=
  let part := s.partOf line
  let s := s.mergeResv line part
  let d := ((s.staged line).getD v).data
  let s := if (s.sliceLine line).isSome then s else s.count line false
  let prev : VerEnt := { line := line, staged := false, data := s.homeData line, side := s.side' line
                         stamp := s.stampOf (s.side' line) }
  let s := { s with
    vers := (s.vers.filter fun (x : VerEnt) => x.line != line) ++ [prev]
    side := s.side.put line v.side }
  let s := s.homeWrite line part (fun _ => d) true
  s.setHomeTag line part ((s.homeTag line part).max tag)

/-- Whether BNDL_DIAG still delays a promotion whose notice has arrived (R121). -/
def delayed (s : State) (v : VerEnt) : Bool :=
  let d := s.die (homeDie v.line)
  match v.notice with
  | some t => d.bdiagEn && s.now (homeDie v.line) < t + 1000 * d.bdelay
  | none => false

def setNotice (s : State) (v : VerEnt) (hd : Option Sender) : State :=
  { s with vers := s.vers.map fun (x : VerEnt) =>
    if x = v then { x with notice := some (s.now (homeDie v.line)), sender := hd } else x }

/-- A promotion whose notice has arrived: held while BNDL_DIAG delays it, performed as a write once
the copies are home, then acknowledged (R119, R121). -/
def tryPromote (s : State) (die idx line : Nat) : State :=
  match s.brec die idx, s.staged line with
  | some r, some v =>
    if v.side ≠ s.sideOf die idx || v.bid ≠ r.bid then s
    else
      let s := if v.notice.isSome then s else s.setNotice v none
      match s.staged line with
      | none => s
      | some v =>
        if s.delayed v then s
        else if (!v.opened && s.lineBusy line (s.partOf line)) || s.silent line then s.push [.promotionNotice die idx line]
        else
          let ms := s.invalidateMsgs line none
          if ms ≠ [] then
            let s := ({ s with
              txns := if s.txns.contains line then s.txns else line :: s.txns
              vers := s.vers.map fun (x : VerEnt) => if x = v then { x with opened := true } else x } : State).keepOld line
            (ms.foldl (fun (s : State) m => s.pushNew m) s).push [.promotionNotice die idx line]
          else
            let s := if v.opened then { s.dropOld line with txns := s.txns.filter (· != line) } else s
            let s := s.promote line v ⟨r.tag.1, r.tag.2⟩
            let s := s.setWriter line r.core
            s.push [.noticeAck die idx (s.ackLend line)]
  | _, _ => s

end State

/-- PROMOTION_NOTICE (R119, R133): a line homed on a dead die refuses, and BCLOSE records a store
fault with POISON. -/
def execPromotionNotice (die idx line : Nat) (s : State) : Result :=
  .next (if !isMemory line then (s.peerNotice die idx 0 line).done
    else if (s.die (homeDie line)).dead then
      let s := match (s.brec die idx).bind fun r => r.closer.bind s.flights.get? with
        | some f => s.flightFault f
            { cause := .storeflt, under := Cause.poison.bit, addr := 128 * line, precise := false
              fpos := some (f.pc, f.pslot, f.pexp) }
        | none => s
      (s.push [.noticeAck die idx 0]).done
    else (s.tryPromote die idx line).done)

/-- PROMOTION_DELAY_EXPIRY (R121). -/
def execPromotionDelayExpiry (die idx line : Nat) (s : State) : Result := .next (s.tryPromote die idx line).done

/-- DISCARD_NOTICE (R119). -/
def execDiscardNotice (die idx line : Nat) (s : State) : Result :=
  .next (if !isMemory line then (s.peerNotice die idx 1 line).done
    else (({ s with vers := s.vers.filter fun (v : VerEnt) =>
        !(v.line == line && v.staged && v.side == s.sideOf die idx && (s.brec die idx).any fun r => r.bid == v.bid) } : State).push
      [.noticeAck die idx 0]).done)

namespace State

/-- Metadata naming a bundle is cleared, in the line and its previous version (R119). -/
def forget (s : State) (line : Nat) (b : Word) : State :=
  let off (w : Word) : Word := if w = b then w &&& ~~~1 else w
  { s with
    side := if s.side' line = b then s.side.put line (off b) else s.side
    vers := s.vers.map fun (v : VerEnt) => if v.line = line && !v.staged then { v with side := off v.side } else v }

end State

/-- FORGET_NOTICE (R119). -/
def execForgetNotice (die idx line : Nat) (s : State) : Result :=
  .next (if !isMemory line then (s.peerNotice die idx 2 line).done
    else ((s.forget line (s.sideOf die idx)).push [.noticeAck die idx 0]).done)

/-- NOTICE_ACK (R120). -/
def execNoticeAck (die idx lend : Nat) (s : State) : Result :=
  .next (match s.brec die idx with
    | none => s.done
    | some r =>
      let n := r.outstanding - 1
      let s := s.modBrec die idx fun r => { r with outstanding := n, ackt := s.now die, lend := max r.lend lend }
      if n ≠ 0 then s.done
      else
        let s := match r.closer with
          | some id =>
            (s.modFlight id fun f => { f with lines := r.lines, y := max r.lend lend }).push [.bcloseComplete id]
          | none => s
        let s := s.modBrec die idx fun r => { r with closer := none }
        if r.st = 4 || r.forgetting then (s.freeRec die idx).done else s.done)

/-- BCLOSE_COMPLETE (R124): the issuing die's copies of the lines go, LEASEMAX rises, and W is
acknowledged. -/
def execBcloseComplete (fl : Nat) (s : State) : Result :=
  .next (match s.flights.get? fl with
    | none => s.done
    | some f =>
      let s := f.lines.foldl (fun (s : State) l => if isMemory l then s.ackClears f.die l else s) s
      let s := s.modCore f.core fun c => { c with leasemax := max c.leasemax f.y }
      -- a block that is out keeps what it has met (R174)
      let s := if f.landing then s.modBlock f.blk fun b => { b with leasemax := max b.leasemax f.y } else s
      (s.push [.storeAck fl]).done)

/-- FORGET_HORIZON_EXPIRY (R120). -/
def execForgetHorizonExpiry (die idx : Nat) (s : State) : Result :=
  .next (match s.brec die idx with
    | none => s.done
    | some r =>
      if r.st = 3 && r.outstanding = 0 && !r.forgetting && r.ackt + 1000 * (s.die die).hor < s.now die then
        let s := s.modBrec die idx fun r => { r with forgetting := true, outstanding := r.lines.length }
        (s.push (r.lines.map (.forgetNotice die idx ·))).done
      else s.done)

/-! Views (R127 to R131). -/

/-- VOPEN (R130). -/
def execVopen (s : State) : Result :=
  .next (s.issue .vopen
    (if s.acqHolds then s.wait
     else (s.modMe fun w => { w with vopen := true, vstatus := 0, vt0 := s.nowCore s.myCore, seen := [] }).done))

/-- VCLOSE (R130). -/
def execVclose (t : Src) (s : State) : Result :=
  .next (s.issue (.vclose t)
    (if s.acqHolds then s.wait
     else if !s.me.vopen then s.fail .bundle
     else if s.myFlights.any fun e => e.2.kind == .vldv then s.wait
     else ((s.setS (Src.num t) (BitVec.ofNat 32 s.me.vstatus)).modMe fun w => { w with vopen := false, seen := [] }).done))

/-- VLDV (R131): its lines are consumed in the order of the lowest lane that touches each. -/
def execVldv (o : BitVec 2) (sc : BitVec 3) (w : BitVec 3) (d a : Src) (s : State) : Result :=
  .next (s.issueVec (.vldv o sc w d a)
    (let size := wSize w.toNat
     let lanes := s.lanesAt (s.readPair a)
     if s.acqHolds then s.wait
     else if !s.me.vopen then s.fail .bundle
     else match s.plainCheck false size lanes with
       | some st => s.raise st
       | none =>
         let (accs, reqs) := s.layOut size (fun _ => 0) (fun _ => 0) (lanes.map fun e => (e.1, .global e.2))
         let f : Flight := { s.mkFlight .vldv 8 with
           ord := o.toNat, scp := sc.toNat, width := size, signed := wSigned w.toNat
           dst := Src.num d, ndst := wRegs w.toNat, accs := accs, reqs := reqs, x := s.me.vt0 }
         if s.mustWait f then s.wait else s.launch f))

namespace State

/-- The seen bundle of greatest stamp that lists a line and is newer than `st` (R128). -/
def missing (s : State) (seen : List Seen) (line st : Nat) : Option Seen :=
  (seen.filter fun e => sideV e.side && st < e.stamp && s.listsLine e.side line).foldl
    (fun (a : Option Seen) e => match a with
      | some x => if x.stamp < e.stamp then some e else some x
      | none => some e) none

/-- Some line consumed before, older than a bundle that lists it (R128). -/
def fractured (s : State) (seen : List Seen) (x : Word) : Bool :=
  sideV x && seen.any fun e => s.listsLine x e.line && e.stamp < s.stampOf x

/-- What a view needs of a line beside its current version (R128). -/
inductive Want where
  | nothing
  /-- The version of a bundle. -/
  | version (b : Word)
  | previous
  deriving DecidableEq, Repr

/-- Missing-version fetch and previous-version repair (R128). -/
def wants (s : State) (seen : List Seen) (line : Nat) (x : Word) : Want :=
  match s.missing seen line (s.stampOf x) with
  | some b => .version b.side
  | none => if s.fractured seen x then .previous else .nothing

/-- What a home of the module retains of it: the staged copy while its bundle's promotion is pending, or the previous
version (R118, R128). -/
def retained (s : State) (line : Nat) : Want → Option (List Byte × Word)
  | .nothing => none
  | .previous => (s.previous line).map fun p => (p.data, p.side)
  | .version b =>
    let old := match s.previous line with
      | some p => if p.side = b then some (p.data, p.side) else none
      | none => none
    match s.staged line with
    | some v => if v.side = b then some (v.data, v.side) else old
    | none => old

/-- Whether consume returns before it fits anything: the line is seen, the view has ended, or it is too old (R128). -/
def consumeEarly (seen : List Seen) (status line : Nat) (late : Bool) (cur : List Byte) : Option (List Byte × Nat × List Seen) :=
  match seen.find? fun e => e.line == line with
  | some e => some (e.data, status, seen)
  | none => if 2 ≤ status then some (cur, status, seen) else if late then some (cur, 2, seen) else none

/-- The rest of consume(L), from the current version and the one that was needed, if it is retained: the bytes, the
view status after it and what the seen table gains (R128). -/
def consumeFit (s : State) (seen : List Seen) (status line : Nat) (cur : List Byte) (x : Word) (w : Want)
    (got : Option (List Byte × Word)) : List Byte × Nat × List Seen :=
  let repaired := w != .nothing
  match (if repaired then got else some (cur, x)) with
  | none => (cur, 2, seen)
  | some (d, y) =>
    if repaired && s.wants seen line y != .nothing then (cur, 2, seen)
    else
      let status := if repaired && status = 0 then 1 else status
      if 16 ≤ seen.length then (d, 3, seen)
      else (d, status, seen ++ [{ line := line, data := d, side := y, stamp := s.stampOf y }])

/-- consume(L) of R128 at a home of the module. -/
def consume (s : State) (seen : List Seen) (status t0 line : Nat) : List Byte × Nat × List Seen :=
  let die := homeDie line
  let cur := s.lineNow line
  match consumeEarly seen status line (t0 + 1000 * (s.die die).hor < s.now die) cur with
  | some r => r
  | none =>
    let w := s.wants seen line (s.side' line)
    s.consumeFit seen status line cur (s.side' line) w (s.retained line w)

/-- consume(L) at a peer's home: what the peer answers is free, its current version with metadata and whether the view
is too old for it, then a version that is needed and whether the peer retains it (R128, R354). -/
def consumePeer (s : State) (f : Flight) (seen : List Seen) (status line : Nat) : State × Except Cause (List Byte × Nat × List Seen) :=
  match consumeEarly (seen.filter (·.line == line)) 0 line false [] with
  | some r => (s, .ok (r.1, status, seen))
  | none =>
    match s.peerAnswer f .mread (128 * line) (leBytes 4 133 ++ leBytes 8 f.x) 133 with
    | (s, .fail c _ _) => (s, .error c)
    | (s, .held) => (s, .error .xlate)
    | (s, .bytes bs) =>
      let cur := bs.take 128
      let x : Word := BitVec.ofNat 32 (fieldAt bs 128 4)
      match consumeEarly seen status line (fieldAt bs 132 1 % 2 == 1) cur with
      | some r => (s, .ok r)
      | none =>
        match s.wants seen line x with
        | .nothing => (s, .ok (s.consumeFit seen status line cur x .nothing none))
        | w =>
          let wanted := match w with
            | .version b => b.toNat
            | _ => 0
          match s.peerAnswer f .mread (128 * line) (leBytes 4 133 ++ leBytes 8 f.x ++ leBytes 4 wanted) 133 with
          | (s, .bytes bs) =>
            let got := if fieldAt bs 132 1 % 2 = 1 then some (bs.take 128, BitVec.ofNat 32 (fieldAt bs 128 4)) else none
            (s, .ok (s.consumeFit seen status line cur x w got))
          | (s, .fail c _ _) => (s, .error c)
          | (s, .held) => (s, .error .xlate)

/-- The view of the warp that issued a view load; one that has ended since promises nothing. -/
def viewOf (s : State) (f : Flight) : Warp :=
  if f.landing then
    match (s.block f.blk).images.find? fun e => (s.block f.blk).slots[e.1]? == some f.slot with
    | some e => e.2
    | none => {}
  else s.warp f.key

end State

/-- VIEW_CONSUME (R128). -/
def execViewConsume (fl req : Nat) (s : State) : Result :=
  .next (match s.flights.get? fl with
    | none => s.done
    | some f =>
      let r := f.req req
      let line := r.pa / 128
      let w := s.viewOf f
      let mine := w.vopen && w.vt0 == f.x
      let put (s : State) (st : Nat) (seen : List Seen) : State :=
        if mine then s.writeBack f fun w => { w with vstatus := st, seen := seen } else s
      let seen := if mine then w.seen else []
      let status := if mine then w.vstatus else 2
      match placeOf r.pa with
      | .fabric =>
        match s.consumePeer f seen status line with
        | (s, .ok (d, st, seen)) => ((put { s with drawn := s.drawn + 1 } st seen).finishRead fl req f d {} fun r => r).done
        | (s, .error c) => (s.failReq fl req c 0).done
      | _ =>
        (s.atHome (.viewConsume fl req) fl req State.loadRemoteMsgs fun s f l line =>
          let s := s.mergeResv line f.part
          if s.isPoisoned line && !(seen.any fun e => e.line == line) then s.failReq fl req .poison 0
          else
            let s := s.atSlice f l line
            let (d, st, seen) := s.consume seen status f.x line
            (put { s with drawn := s.drawn + 1 } st seen).finishRead fl req f d (s.homeTag line f.part) fun r => r).done)

/-! The scrub of a dead agent (R102, R133). -/

namespace State

/-- A line of a die's homes. -/
def homedOn (die l : Nat) : Bool := isMemory l && homeDie l == die

/-- Lines are poisoned. -/
def poisonAll (s : State) (lines : List Nat) : State := lines.foldl (fun (s : State) l => s.setPoison l) s

/-- Lines of a die's homes that an agent's write-backs, still on their way, would bring (R100). -/
def wbLines (s : State) (die : Nat) (isDie : Bool) (agent : Nat) : List Nat :=
  (s.wbs.filter fun w => w.die == isDie && w.agent == agent && homedOn die w.line).map (·.line)

/-- The scrub for a dead core: what it held in S or E is removed, in M, O or C poisoned; its open
bundles abort (R102, R133). -/
def scrubCore (s : State) (die core : Nat) : State :=
  let mine (l : Nat) : Bool := homedOn die l
  let lost := s.l1.filter fun x => x.core == core && mine x.line && x.st != .s && x.st != .e
  let s := s.poisonAll (lost.map (·.line) ++ s.wbLines die false core)
  let s := { s with
    l1 := s.l1.filter fun x => !(x.core == core && mine x.line)
    dir := s.dir.map fun (e : DirEnt) => if mine e.base then { e with st := DirEnt.without core e.st } else e }
  let dead := s.brecs.filter fun r => r.die == die && r.core == core && (r.st == 1 || r.st == 2)
  -- what the dead bundles have asked for is asked no longer
  let s := { s with agenda := s.agenda.filter fun (i : Instr) => match i with
    | .commitRequest d idx => !dead.any fun r => r.die == d && r.idx == idx
    | _ => true }
  dead.foldl (fun (s : State) r =>
    if r.lines = [] then s.freeRec r.die r.idx
    else
      let s := s.modBrec r.die r.idx fun x => { x with st := 4, outstanding := x.lines.length, closer := none }
      (s.writeRec r.die r.idx).push (r.lines.map (.discardNotice r.die r.idx ·))) s

/-- The scrub for a dead slice, whose directory goes with it: its dirty lines are lost and poisoned; of the lines it
served, copies in S or E are removed, and lines held in M, O or C are poisoned (R102).
DEDUCED, log entry 66. -/
def scrubSlice (s : State) (die sc : Nat) : State :=
  let mine (l : Nat) : Bool := homedOn die l && s.sliceOf l == sc
  let cores := s.l1.filter fun x => mine x.line
  let dies := s.rdc.filter fun x => mine x.line
  let lost := (s.slices.filter fun x => x.die == die && x.slice == sc && x.dirty).map (·.line)
    ++ (cores.filter fun x => x.st != .s && x.st != .e).map (·.line)
    ++ (dies.filter fun x => x.op != none).map (·.line)
    ++ (s.wbs.filter fun w => mine w.line).map (·.line) ++ (s.resv.filter fun r => mine r.line).map (·.line)
  let s := s.poisonAll lost
  let s := { s with
    slices := s.slices.filter fun x => !(x.die == die && x.slice == sc)
    l1 := s.l1.filter fun x => !mine x.line
    rdc := s.rdc.filter fun x => !mine x.line
    wbs := s.wbs.filter fun w => !mine w.line
    resv := s.resv.filter fun r => !mine r.line }
  let s := cores.foldl (fun (s : State) x => s.coreForgets x.core x.line) s
  dies.foldl (fun (s : State) x => s.dieForgets x.die x.line) s

/-- The scrub on a die for a dead die: leased sharers go, Carry lines it held are poisoned, and staged
versions its records name are promoted if their notice has arrived, else discarded (R102, R133). -/
def scrubDie (s : State) (die dead : Nat) : State :=
  let mine (l : Nat) : Bool := homedOn die l
  let lost := s.rdc.filter fun x => x.die == dead && mine x.line && x.op != none
  let s := s.poisonAll (lost.map (·.line) ++ s.wbLines die true dead)
  let s := { s with
    rdc := s.rdc.filter fun x => !(x.die == dead && mine x.line)
    l1 := s.l1.filter fun x => !(dieOf x.core == dead && mine x.line)
    dir := s.dir.map fun (e : DirEnt) =>
      if mine e.base then
        { e with st := DirEnt.withoutDie dead e.st, dies := e.dies.filter (· != dead) }
      else e }
  let vs := s.vers.filter fun v => v.staged && mine v.line && sideDie v.side == dead
    && sideDevice v.side == (s.die die).devId
  vs.foldl (fun (s : State) v =>
    if v.notice.isSome then (s.collectForWrite v.line (s.partOf v.line)).promote v.line v {}
    else { s with vers := s.vers.filter (· != v) }) s

end State

/-- SCRUB_COMPLETE (R102): of the agent named when GO was written; whether a dead slice's directory can be read is
free, and when it cannot, nothing is scrubbed (R101).
DESIGN CHOICE, log entry 1. -/
def execScrubComplete (die : Nat) (s : State) : Result :=
  .next (let d := s.die die
    if !d.deadBusy then s.done
    else
      let unread := d.scrubKind = 1 && (Config.freeByte s.drawn).toNat % 2 = 1
      let s := if d.scrubKind = 1 then { s with drawn := s.drawn + 1 } else s
      let s :=
        if unread then s
        else match d.scrubKind with
          | 0 => s.scrubCore die (32 * die + d.scrubAgent)
          | 1 => s.scrubSlice die d.scrubAgent
          | _ => s.scrubDie die d.scrubAgent
      (s.modDie die fun d => { d with
        deadBusy := false, deadFail := if d.scrubKind = 1 then unread else d.deadFail }).done)

end Sys2Proof.Machine
end

