-- ==== Sys2Proof/Machine/Engine.lean ====
section
/-!
DEFINITION. What the engine instructions share: the range-lock table (07_consistency.md R172), the
record or descriptor read at issue (09_copy_engine.md R199), countdowns and failure statuses (R201),
scratchpad rows written in full (R202), and the element formats of the engines (08_number_formats.md
R180 to R191).
-/

namespace Sys2Proof.Machine

namespace State

/-! Ranges and locks (R172). -/

/-- The bytes a warp's accesses issued before `limit` have still to reach. -/
def unperformed (s : State) (key limit : Nat) : List Range :=
  (s.flights.filter fun e => warpKey e.2.core e.2.slot == key && e.1 < limit && !e.2.landing).flatMap fun e =>
    e.2.accs.filterMap fun a =>
      let q := e.2.req a.req
      if q.done then none
      else some (match q.win with
        | .global => ⟨false, e.2.region, a.va, a.size⟩
        | .pad => ⟨true, s.identOf e.2.blk, a.va, a.size⟩
        | .cluster b => ⟨true, s.identOf b, a.va, a.size⟩)

/-- Whether some of those bytes lie in ranges an engine operation is to read or write. -/
def unsettled (s : State) (key limit : Nat) (rs : List Range) : Bool :=
  (s.unperformed key limit).any fun r => rs.any r.meets

/-- What issued before the chain has a lower number (R22). -/
def chainId (s : State) : Nat := if s.src.isSome then s.srcId else s.nextId

/-- A range of the issuing block's scratchpad, and of memory in its region. -/
def padRange (s : State) (off n : Nat) : Range := ⟨true, s.identOf s.myBlk, off, n⟩
def memRange (s : State) (va n : Nat) : Range := ⟨false, s.ctxRegion, va, n⟩

/-- Whether an operation waits at issue: the table is full or its ranges are locked. -/
def locksWait (s : State) (core : Nat) (srcs dsts : List Range) : Bool :=
  s.locksFull core || s.engineWaits core srcs dsts

/-- An operation is accepted with its range-lock entry. -/
def accept (s : State) (o : EngOp) (srcs dsts : List Range) (tile : Option (Nat × Nat)) : Nat × State :=
  let (id, s) := s.fresh
  (id, { s with
    ops := s.ops.put id o
    locks := s.locks ++ [{ core := o.core, op := id, srcs := srcs, dsts := dsts, bar := o.bar, tile := tile }] })

/-- An operation as the issuing warp hands it over. -/
def mkOp (s : State) (kind : OpKind) : EngOp where
  core := s.myCore
  slot := s.mySlot
  blk := s.myBlk
  pc := s.pos.1
  pslot := s.pos.2.1
  pexp := s.pos.2.2
  kind := kind
  cls := s.ctxCls

/-- The ranges of an operation's lock. -/
def opRanges (s : State) (id : Nat) : List Range :=
  (s.locks.filter (·.op == id)).flatMap fun l => l.srcs ++ l.dsts

/-- Whether an operation has to wait for accesses its warp made before it (R172). -/
def opHeld (s : State) (id : Nat) (o : EngOp) : Bool := s.unsettled (warpKey o.core o.slot) id (s.opRanges id)

/-- The operation leaves the machine with its range-lock entry. -/
def endOp (s : State) (id : Nat) : State := ({ s with ops := s.ops.del id } : State).dropLock id

/-! The record (R199). -/

end State

/-- How reading a record at issue ends. -/
inductive Record where
  | ok (s : State) (bs : List Byte)
  | stop (st : Stop)
  | wait (s : State)

namespace State

/-- The record of `n` bytes at a generic address: global, or the block's own scratchpad window. -/
def readRecord (s : State) (ra n : Nat) : Record :=
  match s.decodeAddr ra with
  | .ok (.global va) =>
    let rs := [s.memRange va n]
    if s.unsettled s.cur s.chainId rs || s.engineWaits s.myCore rs [] then .wait s
    else match s.readVa s.agent va n .r with
      | (s, .bytes bs) => .ok s bs
      | (_, .fail c level tier) => .stop { cause := c, addr := ra, level := level, tier := tier }
      | (s, .held) => .wait s
  | .ok (.pad off) =>
    let rs := [s.padRange off n]
    if bits ra 52 4 ≠ 1 || !s.padCovered s.myBlk off n then .stop { cause := .bounds, addr := ra }
    else if s.unsettled s.cur s.chainId rs || s.engineWaits s.myCore rs [] then .wait s
    else if s.staleRange s.myCore off n then .stop { cause := .stale, addr := ra }
    else .ok s (s.padRead s.myCore off n)
  | _ => .stop { cause := .bounds, addr := ra }

/-! Countdowns and statuses (R201, R227). -/

/-- A failure that a warp is to be told of at its next completed wait (R201), with the TIER of its leaf (R59). -/
def tellWarp (s : State) (o : EngOp) (c : Cause) (mask tier : Nat) : State :=
  let k := warpKey o.core o.slot
  match o.bar with
  | some b =>
    if o.t && s.hasWarp k && (s.warp k).blk = o.blk && (s.warp k).run != .exited then
      s.modWarp k fun w => { w with tcause := w.tcause ++ [(b, c, mask, tier)] }
    else s
  | none => s

/-- The cause of a status code (R111, R201). -/
def codeCause (c : Nat) : Cause :=
  match c with
  | 2 => .peerlost
  | 4 => .xlate
  | 5 => .prot
  | 6 => .stale
  | 7 => .poison
  | _ => .bounds

/-- The status code of a memory failure (R201). -/
def causeCode (c : Cause) : Nat :=
  match c with
  | .xlate => 4
  | .prot => 5
  | .poison => 7
  | _ => 6

/-- An operation's unit fails: the status is written while word 3 is 0, and the warp is told of the
operation's first failure (R201). -/
def failUnit (s : State) (id code unit : Nat) (tier : Nat := 0) : State :=
  match s.ops.get? id with
  | none => s
  | some o =>
    let s := match o.bar with
      | some b => s.mbStatus o.core b (code + 256 * unit)
      | none => s
    if o.status ≠ 0 then s
    else (s.modOp id ({ · with status := code })).tellWarp o (codeCause code) 0 tier

/-- An operation counts bytes down on its object: an engine release (R171, R201, R227). -/
def countBytes (s : State) (id n : Nat) : State :=
  match s.ops.get? id with
  | none => s
  | some o =>
    match o.bar with
    | none => s
    | some b =>
      let was := (s.mbar o.core b).status
      let s := (s.setMbar o.core b ((s.mbar o.core b).countdown n)).mbTag o.core o.core b
      if was = 0 && (s.mbar o.core b).status = 11 && o.status = 0 then
        (s.modOp id ({ · with status := 11 })).tellWarp o .bounds 0 0
      else s

/-! Scratchpad rows an operation writes (R202). -/

/-- An operation writes bytes of its core's scratchpad; the time of each row's first write is kept. -/
def opWrite (s : State) (id off : Nat) (bs : List Byte) : State :=
  match s.ops.get? id with
  | none => s
  | some o =>
    let now := s.nowCore o.core
    (s.padWrite o.core off bs).modOp id fun o =>
      { o with rows := (rowsOf off bs.length).foldl (fun (t : Tab Nat) r =>
          if (t.get? r).isSome then t else t.put r now) o.rows }

/-- Rows in which an operation leaves bytes unwritten. -/
def opTear (s : State) (id off n : Nat) : State :=
  s.modOp id fun o => { o with torn := o.torn ++ rowsOf off n }

/-- The restore stamps of the rows of a range an operation has written in full. -/
def opStamps (s : State) (id off n : Nat) : State :=
  match s.ops.get? id with
  | none => s
  | some o =>
    (rowsOf off n).foldl (fun (s : State) r =>
      if off ≤ 4096 * r && 4096 * (r + 1) ≤ off + n && !o.torn.contains r then
        match o.rows.get? r with
        | some t => s.modCore o.core fun c =>
            { c with rows := c.rows.put r { stamp := t / 256 % 65536, expired := false } }
        | none => s
      else s) s

/-! Memory reads and writes of an accepted operation (R200). -/

/-- How an engine's access within one line finds its place. -/
inductive Reach where
  | memory (line : Nat) (l : Leaf)
  | fabric (pa : Nat) (l : Leaf)
  | fail (c : Cause) (tier : Nat)
  | held

/-- An operation's requests: from its block's context, in its class (R200); they keep their places at the homes (R81). -/
def opAgent (s : State) (o : EngOp) : Agent :=
  { s.blockAgent o.blk with cls := o.cls, key := warpKey o.core o.slot + 1 }

/-- The line an engine's access reaches (R200); the configuration window refuses it (R50). -/
def opPlace (s : State) (o : EngOp) (va : Nat) (need : Need) : State × Reach :=
  match s.translate (s.opAgent o) va need with
  | (s, .leaf l) =>
    let pa := l.phys va
    (s, match placeOf pa with
      | .memory _ => .memory (pa / 128) l
      | .fabric => .fabric pa l
      | _ => .fail .prot l.tier)
  | (s, .fail c _ t) => (s, .fail c t)
  | (s, _) => (s, .held)

/-- What a copy, or the home, gives an engine: the line's bytes and tag. -/
inductive Line where
  | got (d : List Byte) (t : Tag)
  | fail (c : Cause)
  | held

/-- The engine's request as a copy's tag check sees it. -/
def opFlight (s : State) (o : EngOp) : Flight :=
  { s.mkFlight .load 0 with core := o.core, part := (s.block o.blk).part }

/-- A load miss of an engine on its own die: the owner shares, partials are merged, and no L1 takes the line (R80,
R200). -/
def opLoadHere (s : State) (o : EngOp) (l : Leaf) (line : Nat) : State × Line :=
  let a := s.opAgent o
  let part := a.part
  if s.kept line part a.cls a.key then (s.keepPlace line part a.cls a.key, .held)
  else match s.homeCheck line part l.ns false with
    | some c => (s.leaveLineq (0, a.key) line, .fail c)
    | none =>
      let s := (s.leaveLineq (0, a.key) line).homeEnter line part l.ns false
      let s := match s.dirState line with
        | .ex c | .ow c _ => (s.coreShares c line).mergeResv line part
        | _ => s.collect line part
      let s := (s.fillSlice line part l.ns false).dirRoom line
      (s, if s.isPoisoned line then .fail .poison else .got (s.lineNow line) (s.lineTag line part))

/-- A load of an engine from another die's line: its own die's leased copy, or a grant of one (R92 to R94, R200). -/
def opLoadFar (s : State) (o : EngOp) (l : Leaf) (line : Nat) : State × Line :=
  let x := s.block o.blk
  let die := dieOf o.core
  match s.rdcHit (s.opFlight o) l line with
  | some c => (if l.pol = 1 then s else s.putRdc c, .got c.data c.tag)
  | none =>
    let a := s.opAgent o
    match s.readLine line x.part l.ns l.policy a.cls a.key with
    | (s, .held) => (s, .held)
    | (s, .fail c _ _) => (s, .fail c)
    | (s, .bytes d) =>
      let t := s.homeTag line x.part
      let lease := s.now (homeDie line) + leaseOf x.lease
      let e := s.dirFor line x.part
      let s := s.putDir line { e with
        dies := if e.dies.contains die then e.dies else die :: e.dies, lend := max e.lend lease, part := x.part }
      let s := (s.rdcRoom die line o.cls).insertRdc
        { die := die, line := line, data := d, lease := lease, ns := l.ns, tag := t, stream := l.pol == 1
          vec := ((s.rdcLine die line).map (·.vec)).getD [] } (l.pol = 1)
      (s.dirRoom line, .got d t)

/-- A line an engine loads: a valid copy in the core's L1 serves it, else it is served as a load miss would be
(R200). -/
def opLoadLine (s : State) (o : EngOp) (l : Leaf) (line : Nat) : State × Line :=
  match l.policy with
  | .uc | .shared | .rcb | .sys => home s
  | p =>
    if s.isPoisoned line then home s
    else match (if p == .cached then s.l1Hit (s.opFlight o) l line else none) with
      | some x => (s, .got x.data x.tag)
      | none =>
        if homeDie line ≠ dieOf o.core then s.opLoadFar o l line
        else if p == .cached then s.opLoadHere o l line else home s
where
  home (s : State) : State × Line :=
    let a := s.opAgent o
    match s.readLine line a.part l.ns l.policy a.cls a.key with
    | (s, .held) => (s, .held)
    | (s, .fail c _ _) => (s, .fail c)
    | (s, .bytes d) => (s, .got d (s.homeTag line a.part))

/-- A read within one line, with the tag of the copy it read (R164, R200). -/
def opRead (s : State) (o : EngOp) (va n : Nat) : State × Got × Tag :=
  match s.opPlace o va .r with
  | (s, .memory line l) =>
    (match s.opLoadLine o l line with
    | (s, .got d t) => (s, .bytes (slice d (va % 128) n), t)
    | (s, .fail c) => (s, .fail c 0 l.tier, {})
    | (s, .held) => (s, .held, {}))
  | (s, .fabric pa l) =>
    let (s, g) := s.fabricRead (dieOf o.core) (warpKey o.core o.slot) pa n
    (s, g.under l.tier, {})
  | (s, .fail c t) => (s, .fail c 0 t, {})
  | (s, .held) => (s, .held, {})

/-- A store of an engine to a line of its own die: in its core's L1, which owns the line from then on (R80, R200); a
whole line clears its poison (R103). -/
def opStoreHere (s : State) (o : EngOp) (l : Leaf) (line off : Nat) (bs : List Byte) : State × Got × Nat :=
  let write (s : State) (x : L1Line) : State :=
    let s := if bs.length = 128 then { s with poison := s.poison.filter (· != line) } else s
    s.putL1 { x with st := .m, data := patch x.data off bs }
  match s.l1Hit (s.opFlight o) l line with
  | some x =>
    if x.st == .m || x.st == .e then (write s x, .bytes [], 0) else own s write
  | none => own s write
where
  own (s : State) (write : State → L1Line → State) : State × Got × Nat :=
    let a := s.opAgent o
    let part := a.part
    if s.kept line part a.cls a.key then (s.keepPlace line part a.cls a.key, .held, 0)
    else match s.homeCheck line part l.ns false with
      | some c => (s.leaveLineq (0, a.key) line, .fail c 0 l.tier, 0)
      | none =>
        let s := (s.leaveLineq (0, a.key) line).homeEnter line part l.ns false
        let mine := match s.dirState line with
          | .ex c | .ow c _ => c == o.core
          | _ => false
        let s := match s.dirState line with
          | .ow _ cs => if mine then cs.foldl (fun (s : State) c => if c = o.core then s else s.coreLeaves c line) s
            else s.collectForWrite line part
          | .sh cs => cs.foldl (fun (s : State) c => if c = o.core then s else s.coreLeaves c line) s
          | .ex _ => if mine then s else s.collectForWrite line part
          | _ => s.collectForWrite line part
        let s := s.mergeResv line part
        let lend := s.ackLend line
        let (s, x) := s.ownLine o.core part l line o.cls
        ((write s x).dirRoom line, .bytes [], lend)

/-- A write within one line, performed as a store of its bytes, with its acknowledgment's lease end (R80, R97, R200). -/
def opStore (s : State) (o : EngOp) (va : Nat) (bs : List Byte) : State × Got × Nat :=
  match s.opPlace o va .w with
  | (s, .memory line l) =>
    if homeDie line = dieOf o.core && l.policy == .cached then s.opStoreHere o l line (va % 128) bs
    else (if homeDie line = dieOf o.core then s else s.dropL1 o.core line).writeVa (s.opAgent o) va bs
  | (s, .fail c t) => (s, .fail c 0 t, 0)
  | (s, .held) => (s, .held, 0)
  | (s, .fabric _ _) => s.writeVa (s.opAgent o) va bs

end State

/-- Bytes read over several lines: `none` for the bytes of a line that failed; and the first failure, with its
leaf's TIER. -/
structure Gathered where
  bytes : List (Option Byte) := []
  fail : Option (Cause × Nat) := none
  held : Bool := false

/-- What one line's access adds to a read or a write over several. -/
def Gathered.join (g : Gathered) (x : Piece) : Gathered :=
  { g with
    bytes := g.bytes ++ if x.fail.isSome then List.replicate x.len none else x.bytes.map some
    fail := g.fail <|> x.fail }

namespace State

/-- A unit's piece that has been read or written already. -/
def pieceOf (s : State) (id unit va n : Nat) : Option Piece :=
  (s.ops.get? id).bind fun o => o.pend.find? fun x => x.unit == unit && x.va == va && x.len == n

/-- A piece is kept until its unit is done: no line is read or written twice for it (R200). -/
def keepPiece (s : State) (id : Nat) (x : Piece) : State := s.modOp id fun o => { o with pend := o.pend ++ [x] }

/-- A unit's reads or writes over several lines, each by itself. -/
def opPieces (s : State) (id unit va n : Nat) (access : State → Nat → Nat → State × Option Piece) : State × Gathered :=
  let r := (piecesFrom va (n / 128 + 2) n).foldl (fun (e : State × Gathered × Nat) k =>
    let (s, g, at') := e
    match s.pieceOf id unit at' k with
    | some x => (s, g.join x, at' + k)
    | none =>
      match access s at' k with
      | (s, some x) => (s.keepPiece id x, g.join x, at' + k)
      | (s, none) => (s, { g with held := true }, at' + k)) (s, {}, va)
  (r.1, r.2.1)

/-- A read over several lines, each line by itself. -/
def opGather (s : State) (id unit : Nat) (o : EngOp) (va n : Nat) : State × Gathered :=
  s.opPieces id unit va n fun s at' k =>
    match s.opRead o at' k with
    | (s, .bytes bs, _) => (s, some { unit := unit, va := at', len := k, bytes := bs })
    | (s, .fail c _ t, _) => (s, some { unit := unit, va := at', len := k, fail := some (c, t) })
    | (s, .held, _) => (s, none)

/-- A store of an operation over several lines; each acknowledgment's LEND joins the core's LEASEMAX
(R171, R200). -/
def opScatter (s : State) (id unit : Nat) (o : EngOp) (va : Nat) (bs : List Byte) : State × Gathered :=
  s.opPieces id unit va bs.length fun s at' k =>
    match s.opStore o at' ((bs.drop (at' - va)).take k) with
    | (s, .bytes _, lend) =>
      (s.modCore o.core fun c => { c with leasemax := max c.leasemax lend }, some { unit := unit, va := at', len := k })
    | (s, .fail c _ t, _) => (s, some { unit := unit, va := at', len := k, fail := some (c, t) })
    | (s, .held, _) => (s, none)

end State

/-- Clocks of 5/3 ns as nanoseconds, rounded up (R272, R280).
DESIGN CHOICE, log entry 55. -/
def clocksNs (n : Nat) : Nat := (5 * n + 2) / 3

/-! Element formats (R180 to R191). -/

/-- An E4M3 code (R182). -/
def e4m3Val (x : Nat) : FVal :=
  let n := x.testBit 7
  let e := bits x 3 4
  let m := bits x 0 3
  if e = 15 && m = 7 then .nan false else if e = 0 then .num n m (-9) else .num n (8 + m) ((e : Int) - 10)

/-- An FP4 code (R184). -/
def fp4Val (x : Nat) : FVal :=
  let n := x.testBit 3
  let e := bits x 1 2
  let m := bits x 0 1
  if e = 0 then .num n m (-1) else .num n (2 + m) ((e : Int) - 2)

/-- The E4M3 code of an FP4 code (R205). -/
def fp4ToE4m3 (x : Nat) : Nat :=
  ([0x00, 0x30, 0x38, 0x3C, 0x40, 0x44, 0x48, 0x4C][x % 8]?.getD 0) + if x.testBit 3 then 0x80 else 0

/-- The value of a floating-point element type: 0 E4M3, 1 E5M2, 4 BF16, 5 FP16, 6 FP4, 9 FP32 (R205). -/
def floatElem (t x : Nat) : FVal :=
  match t with
  | 0 => e4m3Val x
  | 1 => unpack .e5m2 x
  | 4 => unpack .bf16 x
  | 5 => unpack .fp16 x
  | 6 => fp4Val x
  | _ => unpack .fp32 x

/-- The value of an integer element type: 2 INT8, 3 UINT8, 7 INT4, 11 INT32 (R185, R205). -/
def intElem (t x : Nat) : Int :=
  match t with
  | 2 => sint 8 x
  | 3 => x
  | 7 => sint 4 x
  | _ => sint 32 x

def isFloatType (t : Nat) : Bool := t == 0 || t == 1 || t == 4 || t == 5 || t == 6 || t == 9
def isIntType (t : Nat) : Bool := t == 2 || t == 3 || t == 7 || t == 11

/-- Bits of an element in memory (R205). -/
def storeBits (t : Nat) : Nat :=
  if t = 6 || t = 7 then 4 else if t = 4 || t = 5 then 16 else if t = 9 || t = 11 then 32 else 8

/-- Bytes of a scratchpad element. -/
def padBytes (t : Nat) : Nat := if t = 4 || t = 5 then 2 else if t = 9 || t = 11 then 4 else 1

/-- A finite magnitude rounded RNE into a narrow format, saturating at code `top` (R191). -/
def satMag (mb : Nat) (emin : Int) (top m : Nat) (e : Int) : Nat :=
  if m = 0 then 0
  else
    let t := e + Nat.log2 m
    let q := (if t < emin then emin else t) - mb
    let n := if q ≤ e then m * 2 ^ (e - q).toNat else (roundShift .rne false m (q - e).toNat false).1
    let code := if t < emin then n else (t - emin).toNat * 2 ^ mb + n
    min top code

/-- Conversion into an 8-bit or 4-bit floating-point format (R191). -/
def satFloat (t : Nat) (v : FVal) : Nat :=
  let (mb, emin, top, inf, nan, sg) : Nat × Int × Nat × Nat × Nat × Nat :=
    if t = 0 then (3, -6, 0x7E, 0x7E, 0x7F, 0x80)
    else if t = 1 then (2, -14, 0x7B, 0x7C, 0x7E, 0x80)
    else (1, 0, 0x7, 0x7, 0x0, 0x8)
  match v with
  | .nan _ => nan
  | .inf n => inf + if n then sg else 0
  | .num n m e => satMag mb emin top m e + if n then sg else 0

/-- Conversion of a floating-point element to a target (R188, R191, R209). -/
def narrowFloat (t : Nat) (v : FVal) : Nat :=
  match t with
  | 4 => (fConv .bf16 .rne v).1
  | 5 => (fConv .fp16 .rne v).1
  | t => satFloat t v

/-- Conversion of an integer element to a target, saturating (R191). -/
def narrowInt (t : Nat) (x : Int) : Nat :=
  let (lo, hi, w) : Int × Int × Nat := if t = 2 then (-128, 127, 8) else if t = 3 then (0, 255, 8) else (-8, 7, 4)
  (BitVec.ofInt w (max lo (min hi x))).toNat

/-- A value times a power of two, exactly. -/
def FVal.scale (v : FVal) (k : Int) : FVal :=
  match v with
  | .num n m e => .num n m (e + k)
  | v => v

/-- The eight weights of a VQ2 code as E4M3 codes, by R187. -/
def vq2Elem (table : List Byte) (c j : Nat) : Nat :=
  let entry := fieldAt table (2 * bits c 8 8) 2
  let sign := if j < 7 then c.testBit (j + 1) else ((List.range 8).filter c.testBit).length % 2 == 1
  ([0x30, 0x38, 0x3C, 0x40][bits entry (2 * j) 2]?.getD 0) + if sign then 0x80 else 0

end Sys2Proof.Machine
end

