-- ==== Sys2Proof/Machine/Collective.lean ====
section
/-!
DEFINITION. CSTEP, a step of a collective (04_crossing_dies.md R109 to R113): its descriptor, the
reservations it takes at the home slices, and the delivery of its lines.
-/

namespace Sys2Proof.Machine

/-- A step descriptor (R110). -/
structure StepDesc where
  op : Nat
  npeer : Nat
  bytes : Nat
  /-- Address, DEVICE and DIE of each target. -/
  targets : List (Nat × Nat × Nat)

def StepDesc.of (b : List Byte) : StepDesc :=
  let n := bits (fieldAt b 0 4) 4 4
  { op := bits (fieldAt b 0 4) 0 4, npeer := n, bytes := fieldAt b 4 4
    targets := (List.range n).map fun i =>
      (fieldAt b (0x10 + 16 * i) 8, bits (fieldAt b (0x18 + 16 * i) 4) 0 12, bits (fieldAt b (0x18 + 16 * i) 4) 16 5) }

/-- The limits of a descriptor (R110). -/
def StepDesc.ok (d : StepDesc) (b : List Byte) (acc : Bool) : Bool :=
  fieldAt b 0 4 < 256 && 1 ≤ d.npeer && d.npeer ≤ 8 && d.op ≤ 12
    && d.bytes % 128 = 0 && 128 ≤ d.bytes && d.bytes ≤ 2 ^ 22 && (!acc || d.bytes == 98304)
    && fieldAt b 8 8 = 0
    && (List.range d.npeer).all fun i =>
      let va := fieldAt b (0x10 + 16 * i) 8
      let w := fieldAt b (0x18 + 16 * i) 4
      va % 128 = 0 && va < vaTop && w < 2 ^ 21 && bits w 12 4 = 0 && fieldAt b (0x1C + 16 * i) 4 = 0

def StepDesc.lines (d : StepDesc) : Nat := d.bytes / 128
def StepDesc.carry (d : StepDesc) : CarryOp := { code := d.op }

namespace State

/-- Whether a tile of a block is the locked source of a CSTEP (R111). -/
def tileLocked (s : State) (blk t : Nat) : Bool := s.locks.any fun l => l.tile == some (blk, t)

/-- Matrix operations of a block on one of its tiles that have not retired, and pair operations on a
partner's tile (R282). -/
def tileBusy (s : State) (blk t : Nat) : Bool :=
  s.ops.any fun e =>
    e.2.tile == t && (match e.2.kind with
      | .mma .. | .acld | .acst => e.2.blk == blk || (match e.2.pair with
          | some (_, b) => b == blk
          | none => false)
      | _ => false)

/-- A recorded STALE of a tile, raised at the next instruction that names it (R281). -/
def tileStale (s : State) (t : Nat) : Option Stop := (s.myBlock.mstale.find? fun e => e.1 == t).map (·.2.2)
def dropStale (s : State) (t : Nat) : State := s.modMyBlock fun b => { b with mstale := b.mstale.filter (·.1 != t) }

/-- What an instruction that names a tile checks first: a recorded STALE. -/
def onTile (s : State) (t : Nat) (k : State) : State :=
  match s.tileStale t with
  | some st => (s.dropStale t).raise st
  | none => k

/-- One line of a CSTEP's source (R110, R111): scratchpad bytes, or 32 elements of the tile. -/
def stepSource (s : State) (o : EngOp) (acc : Bool) (line : Nat) : List Byte :=
  if acc then
    let t := (s.block o.blk).accs.get o.tile []
    (List.range 32).flatMap fun i => leBytes 4 (t.get (32 * line + i) 0).toNat
  else s.padRead o.core (o.off + 128 * line) 128

end State

/-- CSTEP (R109, R111). -/
def execCstep (p : BitVec 1) (sr : BitVec 2) (a b d : BitVec 6) (t : BitVec 1) (s : State) : Result :=
  .next (s.issue (.cstep p sr a b d t)
    (let acc := sr == 1
     let src := (s.before.sreg a.toNat).toNat
     let tile := src % 8
     let dsc := (s.before.sreg b.toNat).toNat
     let bar := (s.before.sreg d.toNat).toNat
     let go : State :=
       if dsc % 256 ≠ 0 then s.raise { cause := .align, addr := dsc }
       else if bar % 16 ≠ 0 then s.raise { cause := .align, addr := bar }
       else if !acc && src % 128 ≠ 0 then s.raise { cause := .align, addr := src }
       else if !s.padCovered s.myBlk dsc 256 then s.raise { cause := .bounds, addr := dsc }
       else if !s.padCovered s.myBlk bar 16 then s.raise { cause := .bounds, addr := bar }
       else if s.unsettled s.cur s.chainId [s.padRange dsc 256] || s.engineWaits s.myCore [s.padRange dsc 256] [] then s.wait
       else if s.staleRange s.myCore dsc 256 then s.raise { cause := .stale, addr := dsc }
       else
         let r := s.padRead s.myCore dsc 256
         let x := StepDesc.of r
         if !x.ok r acc then s.raise { cause := .bounds, addr := dsc }
         else if acc && s.myBlock.nacc ≤ tile then s.fail .bounds
         else if !acc && !s.padCovered s.myBlk src x.bytes then s.raise { cause := .bounds, addr := src }
         else if acc && s.tileBusy s.myBlk tile then s.wait
         else
           let srcs := if acc then [] else [s.padRange src x.bytes]
           if s.locksWait s.myCore srcs [] then s.wait
           else
             let o := { s.mkOp (.cstep acc (p == 1)) with
               off := if acc then 0 else src, bar := some bar, t := t == 1, record := r, tile := tile
               left := List.replicate x.npeer x.bytes, regs := [x.npeer * x.lines] }
             let (id, s) := s.accept o srcs [] (if acc then some (s.myBlk, tile) else none)
             (s.push [.cstepReserve id]).done
     if s.acqHolds then s.wait
     else if s.isTrap then s.fail .bounds
     else if acc then s.onTile tile go else go))

namespace State

/-- Where a target line lies. -/
inductive Place where
  | home (line : Nat) (l : Leaf)
  | peer (pa : Nat)
  | bad (code : Nat)
  | held

/-- The home of a target's line: XLATE, PROT or BADPEER where it is not to be reached (R111), PEERLOST
where its die is dead (R113); it waits while the line's requests do (R73, R81, R102).  A host window takes no CSTEP
(R354).
DEDUCED, log entry 33. -/
def stepPlace (s : State) (o : EngOp) (x : StepDesc) (target line : Nat) : State × Place :=
  let (va, device, die) := x.targets.getD target (0, 0, 0)
  let a := s.opAgent o
  match s.translate a (va + 128 * line) .rw with
  | (s, .held) => (s, .held)
  | (s, .fail c _ _) => (s, .bad (causeCode c))
  | (s, .wait) => (s, .held)
  | (s, .leaf l) =>
    let pa := l.phys (va + 128 * line)
    let here := dieOf o.core
    match placeOf pa with
    | .memory _ =>
      if device ≠ (s.die here).devId || die ≠ homeDie (pa / 128) then (s, .bad 3)
      else if (s.die (homeDie (pa / 128))).dead then (s, .bad 2)
      else
        let ln := pa / 128
        if s.kept ln a.part a.cls a.key then (s.keepPlace ln a.part a.cls a.key, .held)
        else
          let s := s.leaveLineq (0, a.key) ln
          match s.homeCheck ln a.part l.ns l.shared with
          | some c => (s, .bad (causeCode c))
          | none => (s.homeEnter ln a.part l.ns l.shared, .home ln l)
    | .fabric =>
      match s.fabricAt here pa with
      | none => (s, .bad 4)
      | some (ctl, t) =>
        if fabricHost ctl then (s, .bad 5)
        else if device ≠ bits ctl 48 12 || (isMemory (t / 128) && die ≠ homeDie (t / 128)) then (s, .bad 3)
        else (s, .peer pa)
    | _ => (s, .bad 5)

/-- Reservations a home slice holds. -/
def sliceResvs (s : State) (die sc : Nat) : Nat :=
  (s.resv.filter fun r => homeDie r.line == die && s.sliceOf r.line == sc).length

/-- Copies that are not partials of the same combination leave, as for a Carry grant (R80); a request of a SHARED page
leaves them as they are (R58). -/
def clearFor (s : State) (line part : Nat) (p : Policy) (op : CarryOp) : State :=
  if p.leaves then s
  else match s.dirState line with
  | .ca op' _ _ => if op' = op then s else s.collectForWrite line part
  | _ => s.collectForWrite line part

/-- Whether a line has a reservation under an operation. -/
def reserved (s : State) (line : Nat) (op : CarryOp) : Bool := s.resv.any fun r => r.line == line && r.op == op

/-- A reservation of a line under an operation; none when the slice has none left (R110, R111). -/
def reserve (s : State) (line part : Nat) (p : Policy) (op : CarryOp) (id : Nat) : Option State :=
  if s.reserved line op then
    some { s with resv := s.resv.map fun (r : Resv) => if r.line = line then { r with steps := id :: r.steps } else r }
  else
    let s := (s.mergeResv line part).clearFor line part p op
    if 4096 ≤ s.sliceResvs (homeDie line) (s.sliceOf line) then none
    else some { s with resv := s.resv ++ [{ line := line, op := op, data := op.identityLine, steps := [id] }] }

/-- A step gives back every reservation it has taken. -/
def releaseResvs (s : State) (id : Nat) : State :=
  { s with resv := (s.resv.map fun (r : Resv) => { r with steps := r.steps.filter (· != id) }).filter fun r =>
      r.steps != [] || r.data != r.op.identityLine }

/-- A step is over: the status with the done mask goes to word 3, PEERLOST is kept for the warp, the
last bytes are counted and the lock goes (R111). -/
def stepEnd (s : State) (id bytes : Nat) : State :=
  match s.ops.get? id with
  | none => s
  | some o =>
    let mask := ((List.range 8).filter fun i => o.left[i]? == some 0).foldl (fun n i => n + 2 ^ i) 0
    let s := s.mbStatus o.core (o.bar.getD 0) (o.status + 256 * mask)
    let s := if o.status = 2 then s.tellWarp o .peerlost mask 0 else s
    ((s.releaseResvs id).countBytes id bytes).endOp id

/-- A line of a target is accounted for, delivered or not. -/
def stepLine (s : State) (id : Nat) : State :=
  match s.ops.get? id with
  | none => s
  | some o =>
    let n := o.regs.getD 0 0 - 1
    let s := s.modOp id ({ · with regs := [n] })
    if n = 0 then s.stepEnd id 128 else s.countBytes id 128

/-- A stale row, or a dead target, ends the step with its own status: nothing more is delivered (R111, R113). -/
def stepStop (s : State) (id code : Nat) : State :=
  s.modOp id fun o => if o.entered then o else { o with status := code, entered := true }

/-- The first failure of a step. -/
def stepFail (s : State) (id code : Nat) : State :=
  if code = 2 then s.stepStop id 2
  else s.modOp id fun o => { o with status := if o.status = 0 then code else o.status }

/-- A line's contribution at its home: into the reservation, taken again where an access has merged it meanwhile; or,
PLAIN, element by element (R111).  With no reservation left to take again it goes element by element too.
DESIGN CHOICE, log entry 63. -/
def deliverLine (s : State) (line part : Nat) (p : Policy) (core : Option Nat) (op : CarryOp) (plain : Bool) (id : Nat) (data : List Byte) : State :=
  let direct : State :=
    let s := (if p.leaves then s.mergeResv line part else s.collectForWrite line part).mergeCarry line part op data
    match core with
    | some c => s.setWriter line c
    | none => s
  if plain then direct
  else match (if s.reserved line op then some s else s.reserve line part p op id) with
    | some s =>
      { s with resv := s.resv.map fun (r : Resv) =>
          if r.line = line then { r with data := op.mergeLine r.data data, steps := r.steps.filter (· != id) } else r }
    | none => direct

/-- Every line of every target. -/
def stepLines (x : StepDesc) : List (Nat × Nat) :=
  (List.range x.npeer).flatMap fun i => (List.range x.lines).map fun l => (i, l)

/-- Phase 2 begins: every line is to be delivered. -/
def stepDeliver (s : State) (id : Nat) (x : StepDesc) : State :=
  s.push ((stepLines x).map fun e => .cstepDeliver id e.1 e.2)

end State

/-- Whether an operation is a CSTEP, from a tile, and whether plain. -/
def EngOp.step (o : EngOp) : Option (Bool × Bool) :=
  match o.kind with
  | .cstep a p => some (a, p)
  | _ => none

namespace State

/-- The slice a step's next reservation is asked of, if it needs one (R111). -/
def stepAsks (s : State) (id : Nat) : Option (Nat × Nat) :=
  match s.ops.get? id with
  | some o =>
    let x := StepDesc.of o.record
    (match o.step with
    | some (_, false) =>
      if o.stage < x.npeer * x.lines then
        (match (s.stepPlace o x (o.stage / x.lines) (o.stage % x.lines)).2 with
        | .home line _ => if s.reserved line x.carry then none else some (homeDie line, s.sliceOf line)
        | _ => none)
      else none
    | _ => none)
  | none => none

/-- Of two requests that meet at a slice with one reservation left, that of lower class, then of lower partition, goes
first (R112); a step that still waits for its warp's accesses has sent none. -/
def stepYields (s : State) (id : Nat) : Bool :=
  match s.ops.get? id, s.stepAsks id with
  | some o, some (die, sc) =>
    s.sliceResvs die sc == 4095 && s.agenda.any fun i => match i with
      | .cstepReserve other => other != id && s.stepAsks other == some (die, sc) && (match s.ops.get? other with
          | some p => !s.opHeld other p &&
            (p.cls < o.cls || (p.cls == o.cls && (s.block p.blk).part < (s.block o.blk).part))
          | none => false)
      | _ => false
  | _, _ => false

/-- A CARRY frame to a peer (R351): what it asks, 0 a reservation, 1 to give one back, 2 a delivery, 3 a PLAIN one, with
OP and the data.
DESIGN CHOICE, log entry 21. -/
def carrySend (s : State) (o : EngOp) (pa ask op : Nat) (data : List Byte) : State × Got :=
  s.fabricSend (dieOf o.core) (warpKey o.core o.slot) .carry pa (leBytes 1 ask ++ leBytes 1 op ++ data) 0

/-- Reservations a step has taken at peers are given back (R111). -/
def releasePeers (s : State) (o : EngOp) (x : StepDesc) : State :=
  ((stepLines x).take o.stage).foldl (fun (s : State) e =>
    match s.stepPlace o x e.1 e.2 with
    | (s, .peer pa) => (s.carrySend o pa 1 x.op []).1
    | (s, _) => s) s

/-- Whether a peer that took a contribution is lost before it acknowledges: free (R113, R354). -/
def peerLost (s : State) : State × Bool :=
  ({ s with drawn := s.drawn + 1 }, (Config.freeByte s.drawn).toNat % 2 == 1)

end State

/-- CSTEP_RESERVE (R111, R112): phase 1, one line's reservation after another; a refusal ends the step
NOSLOT with nothing delivered. -/
def execCstepReserve (op : Nat) (s : State) : Result :=
  .next (match s.ops.get? op with
    | none => s.done
    | some o =>
      match o.step with
      | none => s.done
      | some (_, plain) =>
        let x := StepDesc.of o.record
        let s := s.modOp op ({ · with started := true })
        if s.opHeld op o then (s.push [.cstepReserve op]).done
        else if plain || x.npeer * x.lines ≤ o.stage then (s.stepDeliver op x).done
        else if s.stepYields op then (s.push [.cstepReserve op]).done
        else
          let again (s : State) : State := ((s.modOp op fun o => { o with stage := o.stage + 1 }).push [.cstepReserve op]).done
          let refused (s : State) : State :=
            (((s.releaseResvs op).releasePeers o x).stepFail op 1).stepEnd op (x.bytes * x.npeer) |>.done
          match s.stepPlace o x (o.stage / x.lines) (o.stage % x.lines) with
          | (s, .home line l) =>
            match s.reserve line (s.block o.blk).part l.policy x.carry op with
            | some s => again s
            | none => refused s
          | (s, .peer pa) =>
            match s.carrySend o pa 0 x.op [] with
            | (s, .bytes _) => again s
            | (s, _) => refused s
          | (s, .bad _) => again s
          | (s, .held) => (s.push [.cstepReserve op]).done)

/-- CSTEP_DELIVER (R111, R113): one line of one target is read and delivered. -/
def execCstepDeliver (op target line : Nat) (s : State) : Result :=
  .next (match s.ops.get? op with
    | none => s.done
    | some o =>
      match o.step with
      | none => s.done
      | some (acc, plain) =>
        let x := StepDesc.of o.record
        if o.entered then (s.stepLine op).done
        else if !acc && s.staleRange o.core (o.off + 128 * line) 128 then ((s.stepStop op 6).stepLine op).done
        else
          let data := s.stepSource o acc line
          match s.stepPlace o x target line with
          | (s, .home ln l) =>
            let s := (s.deliverLine ln (s.block o.blk).part l.policy (some o.core) x.carry plain op data).ackClears (dieOf o.core) ln
            let s := s.dirRoom ln
            (s.push [.cstepLineAck op target (s.ackLend ln)]).done
          | (s, .peer pa) =>
            match s.carrySend o pa (if plain then 3 else 2) x.op data with
            | (s, .bytes _) =>
              match s.peerLost with
              | (s, true) => ((s.stepStop op 2).stepLine op).done
              | (s, false) => (s.push [.cstepLineAck op target 0]).done
            | (s, .fail c _ _) => ((s.stepFail op (State.causeCode c)).stepLine op).done
            | (s, .held) => s.done
          | (s, .bad code) => ((s.stepFail op code).stepLine op).done
          | (s, .held) => (s.push [.cstepDeliver op target line]).done)

/-- CSTEP_LINE_ACK (R97, R111): a line's acknowledgment, with LEND; none comes from a die that has been declared dead
meanwhile (R113). -/
def execCstepLineAck (op target lend : Nat) (s : State) : Result :=
  .next (match s.ops.get? op with
    | none => s.done
    | some o =>
      let tgt := (StepDesc.of o.record).targets.getD target (0, 0, 0)
      if tgt.2.1 = (s.die (dieOf o.core)).devId && (s.die tgt.2.2).dead then ((s.stepStop op 2).stepLine op).done
      else
      let s := s.modCore o.core fun c => { c with leasemax := max c.leasemax lend }
      let s := s.modOp op fun o => { o with left := o.left.modify target (· - 128) }
      (s.stepLine op).done)

end Sys2Proof.Machine
end

