-- ==== Sys2Proof/Machine/CopyEngine.lean ====
section
/-!
DEFINITION. The copy engine (09_copy_engine.md R198 to R213): TCOPY, TCOPYO, TGATHER and TCOW with
their records, and the events that carry out what they accepted.
-/

namespace Sys2Proof.Machine

/-! Canonical tiles (R204). -/

/-- Rows (A) or columns (B and BK) of a tile. -/
def tileOuter (lay : Nat) : Nat := if lay = 0 then 96 else 256
/-- Place of the element of row or column `i` at position `k`, `e` bytes wide. -/
def tilePlace (lay e i k : Nat) : Nat := k / 16 * (tileOuter lay * 16 * e) + i * 16 * e + k % 16 * e
def tileData (lay e k : Nat) : Nat := tileOuter lay * k * e
def up256 (n : Nat) : Nat := (n + 255) / 256 * 256
/-- Place of a scale byte. -/
def tileScale (lay e kk i k : Nat) : Nat := up256 (tileData lay e kk) + k / 32 * tileOuter lay + i
/-- Bytes of a tile with its scale tile. -/
def tileBytes (lay e k : Nat) (scaled : Bool) : Nat :=
  if scaled then up256 (tileData lay e k) + k / 32 * tileOuter lay else tileData lay e k

/-- A TCOPY or TCOPYO record (R206, R208). -/
structure CopyRec where
  maddr : Nat
  stride : Nat
  outer : Nat
  len : Nat
  k : Nat
  sfmt : Nat
  lay : Nat
  scaled : Bool
  ifmt : Nat
  saddr : Nat
  taddr : Nat

def CopyRec.of (b : List Byte) : CopyRec where
  maddr := fieldAt b 0 8
  stride := fieldAt b 8 4
  outer := fieldAt b 0xC 2
  len := fieldAt b 0xC 4
  k := bits (fieldAt b 0x10 4) 0 13
  sfmt := bits (fieldAt b 0x14 4) 0 4
  lay := bits (fieldAt b 0x14 4) 4 2
  scaled := (fieldAt b 0x14 4).testBit 6
  ifmt := bits (fieldAt b 0x14 4) 8 4
  saddr := fieldAt b 0x18 8
  taddr := fieldAt b 0x20 8

/-- Whether the bytes of a record from a place on are 0. -/
def zeroFrom (b : List Byte) (i n : Nat) : Bool := (slice b i n).all (· == 0)

/-- The limits on a tile's storage format, layout, extents and scales that TCOPY and TGATHER share:
`rows` along the outer axis, `k` positions (R206, R210). -/
def tileOk (sfmt lay : Nat) (scaled : Bool) (rows k : Nat) : Bool :=
  lay ≤ 2 && sfmt ≤ 8 && 1 ≤ rows && rows ≤ tileOuter lay && k % 16 = 0 && 16 ≤ k && k ≤ 4096
    && (!(scaled || sfmt == 8) || k % 32 = 0)
    && (lay != 2 || (sfmt ≤ 5 && !scaled))
    && !(scaled && (sfmt == 2 || sfmt == 3 || sfmt == 4 || sfmt == 5 || sfmt == 7))

namespace CopyRec

def linear (r : CopyRec) : Bool := r.lay == 3
/-- Whether scales go with the tile: SCALED, or VQ2 (R206). -/
def scales (r : CopyRec) : Bool := !r.linear && (r.scaled || r.sfmt == 8)

/-- LEN contiguous bytes (R206). -/
def linearOk (r : CopyRec) : Bool := r.sfmt == 10 && 16 ≤ r.len && r.len ≤ 2 ^ 23 && r.len % 16 = 0

/-- The limits of a TCOPY record (R206). -/
def inOk (r : CopyRec) (b : List Byte) : Bool :=
  r.maddr < vaTop && r.maddr % 16 = 0 && fieldAt b 0x14 4 < 2 ^ 7 && zeroFrom b 0x28 24
    && (if r.linear then r.linearOk
      else tileOk r.sfmt r.lay r.scaled r.outer r.k && r.stride % 16 = 0 && fieldAt b 0x10 4 < 2 ^ 13
        && (!r.scales || r.saddr < vaTop) && (r.sfmt != 8 || (r.taddr < vaTop && r.taddr % 64 = 0)))

/-- The limits of a TCOPYO record (R208). -/
def outOk (r : CopyRec) (b : List Byte) : Bool :=
  let w := fieldAt b 0x14 4
  r.maddr < vaTop && r.maddr % 16 = 0 && w < 2 ^ 12 && !w.testBit 7 && r.taddr = 0 && zeroFrom b 0x28 24
    && (r.ifmt ≤ 5 || r.ifmt == 9 || r.ifmt == 11)
    && (!r.scaled || r.sfmt == 0 || r.sfmt == 1 || r.sfmt == 6)
    && (if r.linear then r.linearOk
      else r.lay == 0 && r.sfmt ≤ 7 && r.stride % 16 = 0 && fieldAt b 0x10 4 < 2 ^ 13
        && 1 ≤ r.outer && r.outer ≤ 4096 && 1 ≤ r.k && r.k ≤ 4096
        && (isFloatType r.ifmt == isFloatType r.sfmt)
        && (storeBits r.sfmt != 4 || r.k % 2 = 0)
        && (!r.scaled || (r.k % 32 = 0 && r.saddr < vaTop)))

/-- Memory rows, and bytes of each: along k, but for BK along the columns (R205, R206). -/
def memRows (r : CopyRec) : Nat := if r.lay = 2 then r.k else r.outer
def rowElems (r : CopyRec) : Nat := if r.lay = 2 then r.outer else r.k
def rowBytes (r : CopyRec) : Nat :=
  if r.sfmt = 8 then r.rowElems / 4 else r.rowElems * storeBits r.sfmt / 8

/-- Bytes the copy moves in scratchpad (R201). -/
def padTotal (r : CopyRec) : Nat :=
  if r.linear then r.len else tileBytes r.lay (padBytes r.sfmt) r.k r.scales

/-- The extents in memory: data, scales, table. -/
def memExtents (r : CopyRec) : List (Nat × Nat) :=
  if r.linear then [(r.maddr, r.len)]
  else [(r.maddr, (r.memRows - 1) * r.stride + r.rowBytes)]
    ++ (if r.scales then [(r.saddr, r.memRows * (r.k / 32))] else [])
    ++ (if r.sfmt = 8 then [(r.taddr, 512)] else [])

/-- Bytes of a TCOPYO source. -/
def outPad (r : CopyRec) : Nat := if r.linear then r.len else r.outer * r.k * padBytes r.ifmt

/-- Line pieces of a contiguous copy: address and length. -/
def piece (r : CopyRec) (j : Nat) : Nat × Nat :=
  let a := if j = 0 then r.maddr else 128 * (r.maddr / 128 + j)
  (a, min (r.maddr + r.len) (128 * (a / 128 + 1)) - a)

/-- Units of the operation: memory rows, or lines of a contiguous copy. -/
def units (r : CopyRec) : Nat :=
  if r.linear then (r.maddr % 128 + r.len + 127) / 128 else r.memRows

end CopyRec

/-- A TGATHER record (R210). -/
structure GatherRec where
  table : Nat
  pool : Nat
  tok0 : Nat
  ntok : Nat
  bt : Nat
  blkBytes : Nat
  headOff : Nat
  tokStride : Nat
  scaleOff : Nat
  sfmt : Nat
  lay : Nat
  scaled : Bool
  dim : Nat
  nblk : Nat

def GatherRec.of (b : List Byte) : GatherRec where
  table := fieldAt b 0 8
  pool := fieldAt b 8 8
  tok0 := fieldAt b 0x10 4
  ntok := fieldAt b 0x14 2
  bt := 16 * 2 ^ bits (fieldAt b 0x14 4) 16 2
  blkBytes := fieldAt b 0x18 4
  headOff := fieldAt b 0x1C 4
  tokStride := fieldAt b 0x20 4
  scaleOff := fieldAt b 0x24 4
  sfmt := bits (fieldAt b 0x28 4) 0 4
  lay := bits (fieldAt b 0x28 4) 4 2
  scaled := (fieldAt b 0x28 4).testBit 6
  dim := bits (fieldAt b 0x2C 4) 0 13
  nblk := fieldAt b 0x30 4

namespace GatherRec

def scales (r : GatherRec) : Bool := r.scaled || r.sfmt == 8
/-- k positions of the tile, and rows or columns the tokens or the vector elements fill. -/
def k (r : GatherRec) : Nat := if r.lay = 2 then r.ntok else r.dim
def outer (r : GatherRec) : Nat := if r.lay = 2 then r.dim else r.ntok

def ok (r : GatherRec) (b : List Byte) : Bool :=
  r.table < vaTop && r.table % 4 = 0 && r.pool < vaTop && r.pool % 128 = 0 && fieldAt b 0x14 4 < 2 ^ 18
    && r.blkBytes % 128 = 0 && r.headOff % 16 = 0 && r.tokStride % 16 = 0 && fieldAt b 0x28 4 < 2 ^ 7
    && fieldAt b 0x2C 4 < 2 ^ 13 && 1 ≤ r.nblk && zeroFrom b 0x34 12
    && tileOk r.sfmt r.lay r.scaled r.outer r.k

def padTotal (r : GatherRec) : Nat := tileBytes r.lay (padBytes r.sfmt) r.k r.scales
/-- Table entries read. -/
def first (r : GatherRec) : Nat := r.tok0 / r.bt
def entries (r : GatherRec) : Nat := (r.tok0 + r.ntok - 1) / r.bt + 1 - r.first

def memExtents (r : GatherRec) : List (Nat × Nat) :=
  [(r.table + 4 * r.first, 4 * r.entries), (r.pool, r.nblk * r.blkBytes)]

end GatherRec

/-- A TCOW record (R212). -/
structure CowRec where
  entry : Nat
  pool : Nat
  blkBytes : Nat
  nblk : Nat
  refs : Nat
  free : Nat
  next : Nat

def CowRec.of (b : List Byte) : CowRec where
  entry := fieldAt b 0 8
  pool := fieldAt b 8 8
  blkBytes := fieldAt b 0x10 4
  nblk := fieldAt b 0x14 4
  refs := fieldAt b 0x18 8
  free := fieldAt b 0x20 8
  next := fieldAt b 0x28 8

def CowRec.ok (r : CowRec) (b : List Byte) : Bool :=
  r.entry < vaTop && r.entry % 4 = 0 && r.pool < vaTop && r.pool % 128 = 0 && r.blkBytes % 128 = 0
    && 1 ≤ r.nblk && r.nblk ≤ 0xFFFFFFFE && r.refs < vaTop && r.refs % 4 = 0 && r.free < vaTop
    && r.free % 8 = 0 && r.next < vaTop && r.next % 4 = 0 && zeroFrom b 0x30 16

namespace State

/-! Issue (R199). -/

/-- Operations a core's copy engine holds. -/
def copyOps (s : State) (core : Nat) : Nat :=
  (s.ops.filter fun e => e.2.core == core && (match e.2.kind with
    | .tcopy | .tcopyo | .tgather | .tcow => true
    | _ => false)).length

/-- What a record asks of scratchpad and memory: whether its limits hold, whether the offset is
aligned for its kind, the bytes at the offset, and source and destination extents. -/
structure Plan where
  ok : Bool
  aligned : Bool
  pad : Nat
  srcs : List Range
  dsts : List Range

/-- The plan of a record (R204, R206 to R212).
DEDUCED, log entry 32. -/
def copyPlan (s : State) (kind : OpKind) (off : Nat) (b : List Byte) : Plan :=
  let mem := List.map fun (e : Nat × Nat) => s.memRange e.1 e.2
  match kind with
  | .tcopy =>
    let r := CopyRec.of b
    { ok := r.inOk b, aligned := r.linear || off % 256 = 0, pad := r.padTotal
      srcs := mem r.memExtents, dsts := [s.padRange off r.padTotal] }
  | .tcopyo =>
    let r := CopyRec.of b
    { ok := r.outOk b, aligned := true, pad := r.outPad
      srcs := [s.padRange off r.outPad], dsts := mem (r.memExtents.take 2) }
  | .tgather =>
    let r := GatherRec.of b
    { ok := r.ok b, aligned := off % 256 = 0, pad := r.padTotal
      srcs := mem r.memExtents, dsts := [s.padRange off r.padTotal] }
  | _ =>
    let r := CowRec.of b
    { ok := r.ok b, aligned := true, pad := 16, srcs := []
      dsts := [s.memRange r.entry 4, s.padRange off 16] }

/-- Issue of a copy-engine operation (R199). -/
def copyIssue (s : State) (kind : OpKind) (a b d : BitVec 6) (t : BitVec 1) : State :=
  let off := (s.before.sreg a.toNat).toNat
  let bar := (s.before.sreg d.toNat).toNat
  let ra := s.before.spair b.toNat
  if s.acqHolds then s.wait
  else if s.isTrap then s.fail .bounds
  else if bar % 16 ≠ 0 then s.raise { cause := .align, addr := bar }
  else if ra % 64 ≠ 0 then s.raise { cause := .align, addr := ra }
  else if off % (if kind == .tgather then 256 else 16) ≠ 0 then s.raise { cause := .align, addr := off }
  else if !s.padCovered s.myBlk bar 16 then s.raise { cause := .bounds, addr := bar }
  else if 16 ≤ s.copyOps s.myCore then s.wait
  else match s.readRecord ra 64 with
    | .wait s => s.wait
    | .stop st => s.raise st
    | .ok s r =>
      let p := s.copyPlan kind off r
      if !p.aligned then s.raise { cause := .align, addr := off }
      else if !p.ok then s.raise { cause := .bounds, addr := ra }
      else if !s.padCovered s.myBlk off p.pad then s.raise { cause := .bounds, addr := off }
      else if s.locksWait s.myCore p.srcs p.dsts then s.wait
      else
        let o := { s.mkOp kind with off := off, bar := some bar, t := t == 1, record := r }
        let (id, s) := s.accept o p.srcs p.dsts none
        (s.push [if kind == .tcow then .tcowStep id else .copyOpStart id]).done

end State

/-- TCOPY (R198, R199). -/
def execTcopy (a b d : BitVec 6) (t : BitVec 1) (s : State) : Result :=
  .next (s.issue (.tcopy a b d t) (s.copyIssue .tcopy a b d t))

/-- TCOPYO (R198, R199). -/
def execTcopyo (a b d : BitVec 6) (t : BitVec 1) (s : State) : Result :=
  .next (s.issue (.tcopyo a b d t) (s.copyIssue .tcopyo a b d t))

/-- TGATHER (R198, R199). -/
def execTgather (a b d : BitVec 6) (t : BitVec 1) (s : State) : Result :=
  .next (s.issue (.tgather a b d t) (s.copyIssue .tgather a b d t))

/-- TCOW (R198, R199). -/
def execTcow (a b d : BitVec 6) (t : BitVec 1) (s : State) : Result :=
  .next (s.issue (.tcow a b d t) (s.copyIssue .tcow a b d t))

namespace State

/-! Elements on their way in (R205, R207, R211). -/

/-- The scratchpad code of element `k` of a memory row; none where a byte did not arrive. -/
def elemIn (sfmt : Nat) (table : List Byte) (row : List (Option Byte)) (k : Nat) : Option Nat :=
  let byte (i : Nat) : Option Nat := (row[i]?.join).map (·.toNat)
  let half (i : Nat) : Option Nat := (byte i).bind fun a => (byte (i + 1)).map fun b => a + 256 * b
  match sfmt with
  | 4 | 5 => half (2 * k)
  | 6 => (byte (k / 2)).map fun b => fp4ToE4m3 (bits b (4 * (k % 2)) 4)
  | 7 => (byte (k / 2)).map fun b => (BitVec.ofInt 8 (sint 4 (bits b (4 * (k % 2)) 4))).toNat
  | 8 => (half (2 * (k / 8))).map fun c => vq2Elem table c (k % 8)
  | _ => byte k

/-- Writes one value, or leaves its bytes as they are. -/
def putElem (s : State) (id at' n : Nat) (x : Option Nat) : State :=
  match x with
  | some v => s.opWrite id at' (leBytes n v)
  | none => s.opTear id at' n

/-- The elements of one memory row, or of one token, go to their canonical places: `i` is its place on
its axis, along k for BK. -/
def placeRow (s : State) (id off sfmt lay n i : Nat) (table : List Byte) (row : List (Option Byte)) : State :=
  let e := padBytes sfmt
  (List.range n).foldl (fun (s : State) j =>
    let at' := if lay = 2 then tilePlace lay e j i else tilePlace lay e i j
    s.putElem id (off + at') e (elemIn sfmt table row j)) s

/-- The scale bytes of row or column `i`. -/
def placeScales (s : State) (id off lay e kk i : Nat) (row : List (Option Byte)) : State :=
  (List.range (kk / 32)).foldl (fun (s : State) g =>
    s.putElem id (off + tileScale lay e kk i (32 * g)) 1 ((row[g]?.join).map (·.toNat))) s

/-- Zero elements and scales 0x7F in the rows or columns from `n` on (R204). -/
def fillTile (s : State) (id off lay e kk n : Nat) (scaled : Bool) : State :=
  ((List.range (tileOuter lay)).drop n).foldl (fun (s : State) i =>
    let s := (List.range kk).foldl (fun (s : State) k => s.putElem id (off + tilePlace lay e i k) e (some 0)) s
    if scaled then s.placeScales id off lay e kk i (List.replicate (kk / 32) (some 0x7F)) else s) s

/-- An operation's last countdown: stamps, the countdown, and the lock goes (R201, R202). -/
def lastCount (s : State) (id off n bytes : Nat) : State := ((s.opStamps id off n).countBytes id bytes).endOp id

/-- A unit is done: its bytes are counted, and the operation ends with its last unit. `fill` is done
and counted with the last. -/
def unitDone (s : State) (id unit bytes off pad : Nat) (fill : State → State) (rest : Nat) : State :=
  match s.ops.get? id with
  | none => s
  | some o =>
    let left := o.units.filter (· != unit)
    let s := s.modOp id fun o => { o with units := left, pend := o.pend.filter (·.unit != unit) }
    if left = [] then (fill s).lastCount id off pad (bytes + rest) else s.countBytes id bytes

/-- The failures of a unit's reads or writes. -/
def noteFail (s : State) (id unit : Nat) (g : Gathered) : State :=
  match g.fail with
  | some (c, tier) => s.failUnit id (causeCode c) unit tier
  | none => s

/-- One memory row or line of a TCOPY (R207), and whether it is done: it may have to wait for its lines (R55, R81). -/
def copyIn (s : State) (id unit : Nat) (o : EngOp) : State × Bool :=
  let r := CopyRec.of o.record
  if r.linear then
    let (va, n) := r.piece unit
    let (s, g) := s.opGather id unit o va n
    if g.held then (s, false)
    else
      let at' := o.off + (va - r.maddr)
      let s := s.noteFail id 0 g
      let s := match g.fail with
        | some _ => s.opTear id at' n
        | none => s.opWrite id at' (g.bytes.map fun (b : Option Byte) => b.getD 0)
      (s.unitDone id unit n o.off r.len (fun s => s) 0, true)
  else
    let e := padBytes r.sfmt
    let (s, g) := s.opGather id unit o (r.maddr + unit * r.stride) r.rowBytes
    let (s, gs) := if r.scales then s.opGather id unit o (r.saddr + unit * (r.k / 32)) (r.k / 32) else (s, {})
    if g.held || gs.held then (s, false)
    else
      let bad := o.idx.head?
      let row := if bad.isSome then [] else g.bytes
      let s := match bad with
        | some c => s.failUnit id (c % 256) unit (c / 256)
        | none => s.noteFail id unit g
      let s := (s.noteFail id unit gs).placeRow id o.off r.sfmt r.lay r.rowElems unit (o.record.drop 64) row
      let s := if r.scales then s.placeScales id o.off r.lay e r.k unit gs.bytes else s
      let bytes := r.rowElems * e + if r.scales then r.k / 32 else 0
      let fill (s : State) := s.fillTile id o.off r.lay e r.k r.outer r.scales
      (s.unitDone id unit bytes o.off r.padTotal fill (r.padTotal - r.memRows * bytes), true)

/-- One token of a TGATHER (R211). -/
def gatherToken (s : State) (id unit : Nat) (o : EngOp) : State × Bool :=
  let r := GatherRec.of o.record
  let e := padBytes r.sfmt
  let tok := r.tok0 + unit
  let idx := o.idx.getD (tok / r.bt - r.first) 0
  let slot := tok % r.bt
  let bytes := r.dim * e + if r.scales then r.dim / 32 else 0
  let n := if r.sfmt = 8 then r.dim / 4 else r.dim * storeBits r.sfmt / 8
  let base := r.pool + idx * r.blkBytes
  let fill (s : State) := s.fillTile id o.off r.lay e r.k r.outer r.scales
  let table := o.record.drop 64
  let scales (s : State) (row : List (Option Byte)) : State :=
    if r.scales then s.placeScales id o.off r.lay e r.k unit row else s
  let place (s : State) (sfmt : Nat) (row : List (Option Byte)) : State :=
    s.placeRow id o.off sfmt r.lay r.dim unit table row
  let done (s : State) : State × Bool :=
    (s.unitDone id unit bytes o.off r.padTotal fill (r.padTotal - r.ntok * bytes), true)
  if 2 ^ 32 ≤ idx then done (scales (place (s.failUnit id ((idx - 2 ^ 32) % 256) unit ((idx - 2 ^ 32) / 256)) r.sfmt []) [])
  else if r.nblk ≤ idx then
    let zeros := List.replicate (r.dim * e) (some (0 : Byte))
    done (scales (place (s.failUnit id 8 unit) (if e = 2 then 4 else 0) zeros) (List.replicate (r.dim / 32) (some 0x7F)))
  else
    let (s, g) := s.opGather id unit o (base + r.headOff + slot * r.tokStride) n
    let (s, gs) := if r.scales then s.opGather id unit o (base + r.scaleOff + slot * (r.dim / 32)) (r.dim / 32) else (s, {})
    if g.held || gs.held then (s, false)
    else done (scales (place ((s.noteFail id unit g).noteFail id unit gs) r.sfmt g.bytes) gs.bytes)

end State

/-! Elements on their way out (R209). -/

/-- The largest magnitude of a group that is not NaN, as mantissa and exponent; none for an infinity. -/
def groupMax (vs : List FVal) : Option (Nat × Int) :=
  vs.foldl (fun (a : Option (Nat × Int)) v =>
    match a, v with
    | none, _ => none
    | some _, .inf _ => none
    | some (m, e), .num _ m' e' => if fLess (.num false m e) (.num false m' e') then some (m', e') else some (m, e)
    | a, .nan _ => a) (some (0, 0))

/-- The scale byte of a group: p is ceil(log2(m / F)), F being 448, 57,344 or 6 by target (R209). -/
def groupScale (t : Nat) (vs : List FVal) : Nat :=
  match groupMax vs with
  | none => 254
  | some (m, e) =>
    if m = 0 then 127
    else
      let (fm, fe) : Nat × Int := if t = 0 then (7, 6) else if t = 1 then (7, 13) else (3, 1)
      let p := e + Nat.log2 m - fe - 2
      let fits (p : Int) : Bool := !fLess (.num false fm (fe + p)) (.num false m e)
      let p := if fits (p - 1) then p - 1 else if fits p then p else if fits (p + 1) then p + 1 else p + 2
      (max 0 (min 254 (p + 127))).toNat

/-- A row of target codes packed by R185. -/
def packRow (t : Nat) (xs : List Nat) : List Byte :=
  if storeBits t = 4 then
    (List.range (xs.length / 2)).map fun i => BitVec.ofNat 8 (xs.getD (2 * i) 0 % 16 + 16 * (xs.getD (2 * i + 1) 0 % 16))
  else xs.flatMap (leBytes (storeBits t / 8))

/-- The codes of a row of elements, with its scale bytes (R209). -/
def narrowRow (r : CopyRec) (row : List Byte) : List Nat × List Byte :=
  let e := padBytes r.ifmt
  let raw := (List.range r.k).map fun k => fieldAt row (e * k) e
  if isFloatType r.ifmt then
    let vs := raw.map (floatElem r.ifmt)
    let sc := if r.scaled then (List.range (r.k / 32)).map fun g => groupScale r.sfmt ((vs.drop (32 * g)).take 32) else []
    let ys := (List.range r.k).map fun k =>
      let v := vs.getD k (.num false 0 0)
      narrowFloat r.sfmt (if r.scaled then v.scale (127 - (sc.getD (k / 32) 127 : Int)) else v)
    (ys, sc.map (BitVec.ofNat 8))
  else (raw.map fun x => narrowInt r.sfmt (intElem r.ifmt x), [])

namespace State

/-- One row or line of a TCOPYO (R209). -/
def copyOut (s : State) (id unit : Nat) (o : EngOp) : State × Bool :=
  let r := CopyRec.of o.record
  let (va, n, src, len) : Nat × Nat × Nat × Nat :=
    if r.linear then
      let (va, n) := r.piece unit
      (va, n, o.off + (va - r.maddr), n)
    else (r.maddr + unit * r.stride, r.rowBytes, o.off + unit * r.k * padBytes r.ifmt, r.k * padBytes r.ifmt)
  let bytes := n + if !r.linear && r.scaled then r.k / 32 else 0
  let num := if r.linear then 0 else unit
  let done (s : State) : State × Bool := (s.unitDone id unit bytes 0 0 (fun s => s) 0, true)
  if s.staleRange o.core src len then done (s.failUnit id 6 num)
  else
    let row := s.padRead o.core src len
    let (data, sc) : List Byte × List Byte := if r.linear then (row, [])
      else ((packRow r.sfmt (narrowRow r row).1), (narrowRow r row).2)
    let (s, g) := s.opScatter id unit o va data
    let (s, gs) := s.opScatter id unit o (r.saddr + unit * (r.k / 32)) sc
    if g.held || gs.held then (s, false) else done ((s.noteFail id num g).noteFail id num gs)

/-- The number under which a failure of a table's read is kept: its status and 256 times its TIER. -/
def failWord (f : Cause × Nat) : Nat := causeCode f.1 + 256 * f.2

/-- TGATHER's table entries, each read once; none when they have to wait. -/
def readTable (s : State) (id : Nat) (o : EngOp) (r : GatherRec) : Nat → Nat → State × Option (List Nat)
  | 0, _ => (s, some [])
  | n + 1, j =>
    let (s, g) := s.opGather id 0 o (r.table + 4 * j) 4
    let (s, xs) := s.readTable id o r n (j + 1)
    (s, if g.held then none else xs.map fun l =>
      (match g.fail with
      | some f => 2 ^ 32 + failWord f
      | none => leNat (g.bytes.map fun (b : Option Byte) => b.getD 0)) :: l)

/-- The VQ2 table: the one read last, read again when TADDR differs (R205). The numbers are a failure's
code; none when it has to wait. DEDUCED, log entry 32. A TGATHER on a core whose engine has read none yet decodes with
512 free bytes. DESIGN CHOICE, log entry 1. -/
def readVq (s : State) (id : Nat) (o : EngOp) (taddr : Option Nat) : State × Option (List Byte × List Nat) :=
  let c := s.core o.core
  let fromMem (a : Nat) : State × Option (List Byte × List Nat) :=
    let (s, g) := s.opGather id 0 o a 512
    if g.held then (s, none)
    else match g.fail with
      | some f => (s, some ([], [failWord f]))
      | none =>
        let t := g.bytes.map fun (b : Option Byte) => b.getD 0
        (s.modCore o.core ({ · with vqAddr := some a, vqTab := t }), some (t, []))
  match taddr, c.vqAddr with
  | some a, last => if last = some a then (s, some (c.vqTab, [])) else fromMem a
  | none, some _ => (s, some (c.vqTab, []))
  | none, none =>
    ({ s with drawn := s.drawn + 512 }, some ((List.range 512).map fun i => Config.freeByte (s.drawn + i), []))

/-- An operation starts, if its tables can be read: its units set out. -/
def copyStart (s : State) (id : Nat) (o : EngOp) : State × Bool :=
  let units (s : State) (n : Nat) : State × Bool :=
    ((s.modOp id ({ · with started := true, units := List.range n, pend := [] })).push ((List.range n).map (.copyLineComplete id ·)), true)
  match o.kind with
  | .tgather =>
    let r := GatherRec.of o.record
    match s.readTable id o r r.entries r.first with
    | (s, none) => (s, false)
    | (s, some idx) =>
      let s' := s.modOp id ({ · with idx := idx })
      if r.sfmt = 8 then
        match s'.readVq id o none with
        | (s, none) => (s, false)
        | (s, some (t, _)) => units (s.modOp id fun o => { o with record := o.record ++ t }) r.ntok
      else units s' r.ntok
  | .tcopy =>
    let r := CopyRec.of o.record
    if !r.linear && r.sfmt = 8 then
      match s.readVq id o (some r.taddr) with
      | (s, none) => (s, false)
      | (s, some (t, f)) => units (s.modOp id fun o => { o with record := o.record ++ t, idx := f }) r.units
    else units s r.units
  | _ => units s (CopyRec.of o.record).units

end State

/-- COPY_OP_START (R200, R203): the operation starts once the accesses its warp made before it to the
same bytes have been performed. -/
def execCopyOpStart (op : Nat) (s : State) : Result :=
  .next (match s.ops.get? op with
    | none => s.done
    | some o =>
      if o.started then s.done
      else if s.opHeld op o then (s.push [.copyOpStart op]).done
      else match s.copyStart op o with
        | (s, true) => s.done
        | (s, false) => (s.push [.copyOpStart op]).done)

/-- COPY_LINE_COMPLETE (R200, R207, R209, R211): one memory row, line or token. -/
def execCopyLineComplete (op unit : Nat) (s : State) : Result :=
  .next (match s.ops.get? op with
    | none => s.done
    | some o =>
      if !o.units.contains unit then s.done
      else
        let r := match o.kind with
          | .tcopy => s.copyIn op unit o
          | .tcopyo => s.copyOut op unit o
          | _ => s.gatherToken op unit o
        match r with
        | (s, true) => s.done
        | (s, false) => (s.push [.copyLineComplete op unit]).done)

/-! TCOW (R213), one access a step. -/

/-- TCOW's registers: e, c, n, copied, freed, h, nx, old, and the line being copied. -/
structure Cow where
  e : Nat := 0
  c : Nat := 0
  n : Nat := 0
  copied : Nat := 0
  freed : Nat := 0
  h : Nat := 0
  nx : Nat := 0
  line : Nat := 0

def Cow.of (l : List Nat) : Cow where
  e := l.getD 0 0
  c := l.getD 1 0
  n := l.getD 2 0
  copied := l.getD 3 0
  freed := l.getD 4 0
  h := l.getD 5 0
  nx := l.getD 6 0
  line := l.getD 7 0

def Cow.list (w : Cow) : List Nat := [w.e, w.c, w.n, w.copied, w.freed, w.h, w.nx, w.line]

namespace State

/-- TCOW goes on at a stage with its registers. -/
def cowNext (s : State) (id stage : Nat) (w : Cow) : State :=
  (s.modOp id ({ · with stage := stage, regs := w.list })).push [.tcowStep id]

/-- TCOW ends: the result record is written and 16 bytes are counted down. -/
def cowEnd (s : State) (id : Nat) (w : Cow) : State :=
  match s.ops.get? id with
  | none => s
  | some o =>
    let bs := leBytes 4 w.e ++ leBytes 4 w.c ++ leBytes 4 (w.copied + 2 * w.freed) ++ leBytes 4 0
    (s.opWrite id o.off bs).lastCount id 0 0 16

/-- TCOW stops where a failure occurs; the result record is not written. -/
def cowFail (s : State) (id : Nat) (c : Cause) (tier : Nat) : State := (s.failUnit id (causeCode c) 0 tier).lastCount id 0 0 16

/-- An acquire by an engine takes the tag of what it read (R164). -/
def opAcquire (s : State) (o : EngOp) (t : Tag) : State :=
  s.modCore o.core fun c => { c with lclk := max c.lclk t.stamp, leasemax := max c.leasemax t.hold }

/-- A release by an engine writes the core's tag: on the line as its core owns it, or as its home holds it (R164). -/
def opRelease (s : State) (o : EngOp) (va : Nat) : State :=
  match s.opPlace o va .w with
  | (_, .memory line _) =>
    let c := s.core o.core
    let t : Tag := ⟨c.lclk, c.leasemax⟩
    match s.l1Line o.core line with
    | some x => if x.st == .m then s.putL1 { x with tag := x.tag.max t } else home s line t
    | none => home s line t
  | _ => s
where
  home (s : State) (line : Nat) (t : Tag) : State :=
    let p := (s.block o.blk).part
    s.setHomeTag line p ((s.homeTag line p).max t)

/-- What follows a TCOW read of `n` bytes; it waits for a held leaf or line. -/
def cowGot (s : State) (id : Nat) (o : EngOp) (acq : Bool) (k : State → Nat → State) : Got → Tag → State
  | .bytes bs, t => k (if acq then s.opAcquire o t else s) (leNat bs)
  | .fail c _ tier, _ => s.cowFail id c tier
  | .held, _ => s.push [.tcowStep id]

/-- A TCOW load of `n` bytes, then what follows (R200, R213). -/
def cowLoad (s : State) (id : Nat) (o : EngOp) (va n : Nat) (acq : Bool) (k : State → Nat → State) : State :=
  let (s, g, t) := s.opRead o va n
  s.cowGot id o acq k g t

/-- A TCOW store. -/
def cowStore (s : State) (id : Nat) (o : EngOp) (va : Nat) (bs : List Byte) (rel : Bool) (k : State → State) : State :=
  if rel && s.nowCore o.core ≤ (s.core o.core).leasemax then s.push [.tcowStep id]
  else match s.opStore o va bs with
    | (s', .bytes _, lend) =>
      let s' := s'.modCore o.core fun c => { c with leasemax := max c.leasemax lend }
      k (if rel then s'.opRelease o va else s')
    | (s', .fail c _ tier, _) => s'.cowFail id c tier
    | (s', .held, _) => s'.push [.tcowStep id]

/-- The value an atomic finds, with its tag: never a leased copy's (R154, R156). -/
def opCurrent (s : State) (o : EngOp) (va n : Nat) : State × Got × Tag :=
  match s.opPlace o va .rw with
  | (s, .memory line _) =>
    if homeDie line = dieOf o.core then s.opRead o va n
    else
      let (s, g) := s.readVa (s.opAgent o) va n .rw
      (s, g, s.homeTag line (s.block o.blk).part)
  | (s, .fabric pa l) =>
    let host := ((s.fabricAt (dieOf o.core) pa).map fun x => fabricHost x.1).getD false
    if host then (s, .fail .prot 0 l.tier, {})
    else
      let (s, g) := s.fabricRead (dieOf o.core) (warpKey o.core o.slot) pa n
      (s, g.under l.tier, {})
  | (s, .fail c t) => (s, .fail c 0 t, {})
  | (s, .held) => (s, .held, {})

/-- A TCOW atomic: the old value, the new one to write if any, and what follows. -/
def cowAtomic (s : State) (id : Nat) (o : EngOp) (va n : Nat) (acq rel : Bool) (g : Nat → Option Nat)
    (k : State → Nat → State) : State :=
  let (s, x, t) := s.opCurrent o va n
  s.cowGot id o acq (fun s old =>
    match g old with
    | some v => s.cowStore id o va (leBytes n v) rel fun s => k s old
    | none => k s old) x t

/-- One step of a TCOW (R213).
DEDUCED, log entry 34. -/
def cowStep (s : State) (id : Nat) (o : EngOp) : State :=
  let r := CowRec.of o.record
  let w := Cow.of o.regs
  let lo := w.h % 2 ^ 32
  let bumped (link : Nat) : Nat := (w.h / 2 ^ 32 + 1) % 2 ^ 32 * 2 ^ 32 + link
  let cas (new : Nat) : Nat → Option Nat := fun old => if old = w.h then some new else none
  match o.stage with
  | 0 => s.cowLoad id o r.entry 4 true fun s e =>
      if r.nblk ≤ e then (s.failUnit id 8 0).cowEnd id { w with e := e } else s.cowNext id 1 { w with e := e }
  | 1 => s.cowLoad id o (r.refs + 4 * w.e) 4 true fun s c =>
      if 1 < c then s.cowNext id 2 { w with c := c } else s.cowEnd id { w with c := c }
  | 2 => s.cowLoad id o r.free 8 true fun s h =>
      if h % 2 ^ 32 = 0xFFFFFFFF then (s.failUnit id 9 0).cowEnd id w else s.cowNext id 3 { w with h := h }
  | 3 => s.cowLoad id o (r.next + 4 * lo) 4 false fun s nx => s.cowNext id 4 { w with nx := nx }
  | 4 => s.cowAtomic id o r.free 8 true false (cas (bumped w.nx)) fun s old =>
      if old = w.h then s.cowNext id 5 { w with n := lo, line := 0 } else s.cowNext id 2 w
  | 5 =>
    if r.blkBytes ≤ 128 * w.line then s.cowNext id 6 w
    else
      match s.opRead o (r.pool + w.e * r.blkBytes + 128 * w.line) 128 with
      | (s', .held, _) => s'.push [.tcowStep id]
      | (s', .fail c _ tier, _) => s'.cowFail id c tier
      | (s', .bytes bs, _) =>
        s'.cowStore id o (r.pool + w.n * r.blkBytes + 128 * w.line) bs false fun s =>
          s.cowNext id 5 { w with line := w.line + 1 }
  | 6 => s.cowStore id o (r.refs + 4 * w.n) (leBytes 4 1) false fun s => s.cowNext id 7 w
  | 7 => s.cowStore id o r.entry (leBytes 4 w.n) true fun s => s.cowNext id 8 { w with copied := 1 }
  | 8 => s.cowAtomic id o (r.refs + 4 * w.e) 4 false true (fun old => some ((old + 2 ^ 32 - 1) % 2 ^ 32)) fun s old =>
      if old = 1 then s.cowNext id 9 w else s.cowEnd id { w with e := w.n }
  | 9 => s.cowLoad id o r.free 8 false fun s h => s.cowNext id 10 { w with h := h }
  | 10 => s.cowStore id o (r.next + 4 * w.e) (leBytes 4 lo) false fun s => s.cowNext id 11 w
  | _ => s.cowAtomic id o r.free 8 false false (cas (bumped w.e)) fun s old =>
      if old = w.h then s.cowEnd id { w with e := w.n, freed := 1 } else s.cowNext id 9 w

end State

/-- TCOW_STEP (R213). -/
def execTcowStep (op : Nat) (s : State) : Result :=
  .next (match s.ops.get? op with
    | none => s.done
    | some o =>
      if o.stage = 0 && s.opHeld op o then (s.push [.tcowStep op]).done
      else ((s.modOp op ({ · with started := true })).cowStep op o).done)

end Sys2Proof.Machine
end

