-- ==== Sys2Proof/Machine/Factor.lean ====
section
/-!
DEFINITION. The factor tiles (14_factor_tile.md R286 to R297): the eight instructions, the rotation
sweep and the solves, and the events of a tile's queue.
-/

namespace Sys2Proof.Machine

/-- Positive and finite (R286, R290). -/
def posFinite (x : Nat) : Bool :=
  match unpack .fp32 x with
  | .num n m _ => !n && m != 0
  | _ => false

/-- L_ij of a bank, +0 above the diagonal and beyond the order (R286). -/
def FTile.at' (t : FTile) (i j : Nat) : Nat := if j ≤ i && i < t.order then (t.bank.get (96 * i + j) 0).toNat else 0

/-! FP32 arithmetic, RNE (R289). -/

/-- fma(±a, b, c). -/
def rAdd (a b c : Nat) (neg : Bool) : Nat :=
  (fFma .fp32 .rne (if neg then (unpack .fp32 a).neg else unpack .fp32 a) (unpack .fp32 b) (unpack .fp32 c)).1
def rMul (a b : Nat) : Nat := (fMul .fp32 .rne (unpack .fp32 a) (unpack .fp32 b)).1
def rDiv (a b : Nat) : Nat := fDiv .fp32 .rne (unpack .fp32 a) (unpack .fp32 b)
/-- fma(a, b, -c). -/
def rSubFrom (a b c : Nat) : Nat :=
  (fFma .fp32 .rne (unpack .fp32 a) (unpack .fp32 b) (unpack .fp32 c).neg).1
def finite (x : Nat) : Bool :=
  match unpack .fp32 x with
  | .num .. => true
  | _ => false

/-- a² + σ b² exactly, as an integer times a power of two; none when a or b is not finite. -/
def rotSum (a b : Nat) (down : Bool) : Option (Int × Int) :=
  match unpack .fp32 a, unpack .fp32 b with
  | .num _ m e, .num _ m' e' =>
    let k := min (2 * e) (2 * e')
    let p : Int := (m * m * 2 ^ (2 * e - k).toNat : Nat)
    let q : Int := (m' * m' * 2 ^ (2 * e' - k).toNat : Nat)
    some (if down then p - q else p + q, k)
  | _, _ => none

/-- A sweep in progress: the alternate bank and the vector. -/
structure Sweep where
  bank : Tab Word
  x : List Nat

/-- One column of the sweep (R291): none is a loss at the column. -/
def sweepColumn (down : Bool) (n k : Nat) (w : Sweep) : Option Sweep :=
  let a := (w.bank.get (97 * k) 0).toNat
  let b := w.x.getD k 0
  match rotSum a b down with
  | none => none
  | some (m, e) =>
    if down && m ≤ 0 then none
    else
      let h := (fSqrtMag .fp32 m.toNat e).1
      let c := rDiv h a
      let s := rDiv b a
      let rows := ((List.range n).drop (k + 1)).map fun i =>
        let x := w.x.getD i 0
        let t := rAdd s x (w.bank.get (96 * i + k) 0).toNat down
        let l := rDiv t c
        let q := rMul s l
        (i, t, l, q, rSubFrom c x q)
      let bad := h = 0 || c = 0 || !finite h || !finite c || !finite s
        || rows.any fun r => !finite r.2.1 || !finite r.2.2.1 || !finite r.2.2.2.1 || !finite r.2.2.2.2
      if bad then none
      else
        let bank := rows.foldl (fun (t : Tab Word) r => t.put (96 * r.1 + k) (BitVec.ofNat 32 r.2.2.1))
          (w.bank.put (97 * k) (BitVec.ofNat 32 h))
        some { bank := bank, x := w.x.take (k + 1) ++ rows.map (·.2.2.2.2) }

/-- The sweep over the columns from `k`, `fuel` of them left: the new bank, or the column of the loss. -/
def sweep (down : Bool) (n : Nat) : Nat → Nat → Sweep → Except Nat (Tab Word)
  | 0, _, w => .ok w.bank
  | fuel + 1, k, w =>
    match sweepColumn down n k w with
    | some w => sweep down n fuel (k + 1) w
    | none => .error k

/-- One column of a substitution (R292): y_k, and what is left of b. -/
def solveColumn (t : FTile) (back : Bool) (k : Nat) (b : List Nat) : List Nat :=
  let y := rDiv (b.getD k 0) (t.at' k k)
  (List.range t.order).map fun i =>
    if i = k then y
    else if (if back then i < k else k < i) then
      rAdd (if back then t.at' k i else t.at' i k) y (b.getD i 0) true
    else b.getD i 0

/-- FTSLVF and FTSLVB (R292). -/
def solve (t : FTile) (back : Bool) (b : List Nat) : List Nat :=
  (if back then (List.range t.order).reverse else List.range t.order).foldl (fun b k => solveColumn t back k b) b

/-! Packed images (R294). -/

def ftBytes (n : Nat) : Nat := 16 + 2 * n * (n + 1)
def ftPlace (i j : Nat) : Nat := 16 + 4 * (i * (i + 1) / 2 + j)
/-- The pairs of the lower triangle in row order. -/
def triangle (n : Nat) : List (Nat × Nat) := (List.range n).flatMap fun i => (List.range (i + 1)).map fun j => (i, j)
def FTile.image (t : FTile) : List Byte :=
  leBytes 4 t.order ++ List.replicate 12 0 ++ (triangle t.order).flatMap fun e => leBytes 4 (t.at' e.1 e.2)
/-- The factor an image of order `n` holds. -/
def FTile.ofImage (n : Nat) (bs : List Byte) : FTile where
  order := n
  bank := (triangle n).map fun e => (96 * e.1 + e.2, BitVec.ofNat 32 (fieldAt bs (ftPlace e.1 e.2) 4))

namespace State

/-- Operations queued on a tile, oldest first (R295). -/
def ftQueue (s : State) (blk t : Nat) : List (Nat × EngOp) :=
  s.ops.filter fun e => e.2.blk == blk && e.2.tile == t && (match e.2.kind with
    | .ftinit | .ftupd _ | .ftslv _ | .ftld | .ftst | .ftrow => true
    | _ => false)

/-- Clocks still due of a tile's operations: each keeps its own as its first operand (R295). -/
def ftDue (s : State) (blk t : Nat) : Nat := ((s.ftQueue blk t).map fun e => e.2.args.getD 0 0).sum

/-- A warp's sweep is in flight: it issues nothing until the sweep has ended (R291).
DEDUCED, log entry 36. -/
def sweeping (s : State) (k : Nat) : Bool :=
  s.ops.any fun e => warpKey e.2.core e.2.slot == k && (match e.2.kind with
    | .ftupd _ => true
    | _ => false)

/-- A factor-tile instruction's first check: the tile is declared (R286, R289). -/
def onFactor (s : State) (t : Nat) (k : State) : State :=
  if s.acqHolds then s.wait
  else if s.isTrap then s.fail .bounds
  else if s.myBlock.nft ≤ t then s.fail .bounds
  else k

/-- An instruction that needs a factor waits for what may change the order, then checks it (R289). -/
def withOrder (s : State) (t : Nat) (k : Nat → State) : State :=
  if s.ftChanging t then s.wait
  else if s.ftOrder t = 0 then s.fail .bounds
  else k (s.ftOrder t)

/-- A tile's queue holds four operations (R295). -/
def ftFull (s : State) (blk t : Nat) : Bool := 4 ≤ (s.ftQueue blk t).length

/-- An operation enters a tile's queue (R295). -/
def ftAccept (s : State) (o : EngOp) (srcs dsts : List Range) : State :=
  if s.ftFull o.blk o.tile then s.wait
  else
    let (_, s) := if srcs = [] && dsts = [] then
        let (id, s) := s.fresh
        (id, { s with ops := s.ops.put id o })
      else s.accept o srcs dsts none
    (s.pushNew (.factorOpStart o.blk o.tile)).done

/-- The lanes of a vector source as an operation keeps them. -/
def vecOf (s : State) (v : Src) : List Word := (List.range 96).map fun l => s.readLane v l

/-- A loss at a column: FTSTAT of the warp (R293). -/
def noteLoss (s : State) (k tile col : Nat) : State :=
  s.modWarp k fun w => if w.ftLost then w else { w with ftLost := true, ftTile := tile, ftCol := col }

/-- The stop of a loss (R293, R331). -/
def lossStop (tile col : Nat) : Stop := { cause := .deflost, data := BitVec.ofNat 32 (128 * tile + col), after := true }

/-- FTUPD and FTDND at issue (R291). -/
def sweepIssue (s : State) (down : Bool) (t : Nat) (v : Src) : State :=
  s.onFactor t (s.withOrder t fun n =>
    s.ftAccept { s.mkOp (.ftupd down) with tile := t, vec := s.vecOf v, args := [6 * n, n] } [] [])

/-- FTSLVF and FTSLVB at issue (R292). -/
def solveIssue (s : State) (back : Bool) (t : Nat) (d b : Src) : State :=
  s.onFactor t (s.withOrder t fun n =>
    s.ftAccept { s.mkOp (.ftslv back) with
      tile := t, vec := s.vecOf b, n := Src.num d, exec := s.execMask, args := [2 * n, n] } [] [])

/-- FTLD and FTST after their alignment and barrier checks (R294). -/
def imageIssue (s : State) (load : Bool) (t off bar n : Nat) : State :=
  let len := ftBytes n
  let r := [s.padRange off len]
  if !s.padCovered s.myBlk off len then s.raise { cause := .bounds, addr := off }
  else if load && s.lateRange s.myCore off len (clocksNs ((len + 2047) / 2048 + n + s.ftDue s.myBlk t)) then
    s.raise { cause := .stale, addr := off }
  else
    let srcs := if load then r else []
    let dsts := if load then [] else r
    if s.locksWait s.myCore srcs dsts || s.unsettled s.cur s.chainId r then s.wait
    else s.ftAccept { s.mkOp (if load then .ftld else .ftst) with
      tile := t, off := off, bar := some bar, args := [(len + 2047) / 2048 + n, n] } srcs dsts

/-- What FTLD and FTST check of their operands (R294). -/
def imageCheck (s : State) (off bar : Nat) (k : State) : State :=
  if off % 16 ≠ 0 then s.raise { cause := .align, addr := off }
  else if bar % 16 ≠ 0 then s.raise { cause := .align, addr := bar }
  else if !s.padCovered s.myBlk bar 16 then s.raise { cause := .bounds, addr := bar }
  else k

end State

/-- FTUPD (R291). -/
def execFtupd (t : BitVec 1) (v : Src) (s : State) : Result :=
  .next (s.issue (.ftupd t v) (s.sweepIssue false t.toNat v))

/-- FTDND (R291). -/
def execFtdnd (t : BitVec 1) (v : Src) (s : State) : Result :=
  .next (s.issue (.ftdnd t v) (s.sweepIssue true t.toNat v))

/-- FTSLVF (R292). -/
def execFtslvf (t : BitVec 1) (v o : Src) (s : State) : Result :=
  .next (s.issue (.ftslvf t v o) (s.solveIssue false t.toNat v o))

/-- FTSLVB (R292). -/
def execFtslvb (t : BitVec 1) (v o : Src) (s : State) : Result :=
  .next (s.issue (.ftslvb t v o) (s.solveIssue true t.toNat v o))

/-- FTLD (R294). -/
def execFtld (t : BitVec 1) (v o : Src) (s : State) : Result :=
  .next (s.issue (.ftld t v o)
    (let off := (s.readScalar v).toNat
     let bar := (s.readScalar o).toNat
     s.onFactor t.toNat (s.imageCheck off bar
       (let r := [s.padRange off 16]
        if !s.padCovered s.myBlk off 16 then s.raise { cause := .bounds, addr := off }
        else if s.engineWaits s.myCore r [] || s.unsettled s.cur s.chainId r then s.wait
        else if s.staleRange s.myCore off 16 then s.raise { cause := .stale, addr := off }
        else
          let h := s.padRead s.myCore off 16
          let n := fieldAt h 0 4
          if n = 0 || 96 < n || !zeroFrom h 4 12 then s.raise { cause := .bounds, addr := off }
          else s.imageIssue true t.toNat off bar n))))

/-- FTST (R294). -/
def execFtst (t : BitVec 1) (v o : Src) (s : State) : Result :=
  .next (s.issue (.ftst t v o)
    (let off := (s.readScalar v).toNat
     let bar := (s.readScalar o).toNat
     s.onFactor t.toNat (s.imageCheck off bar
       (s.withOrder t.toNat fun n => s.imageIssue false t.toNat off bar n))))

/-- FTINIT (R290): a diagonal that is not positive and finite is lost at issue, once the queue has room (R295). -/
def execFtinit (t : BitVec 1) (v o : Src) (s : State) : Result :=
  .next (s.issue (.ftinit t v o)
    (let n := (s.readScalar o).toNat
     s.onFactor t.toNat
       (if n = 0 || 96 < n then s.fail .bounds
        else if s.ftFull s.myBlk t.toNat then s.wait
        else
          let d := s.vecOf v
          match (List.range n).find? fun i => !posFinite ((d.getD i 0).toNat) with
          | some k =>
            let s := s.noteLoss s.cur t.toNat k
            if s.before.ftTrap then s.raise (State.lossStop t.toNat k) else s.done
          | none => s.ftAccept { s.mkOp .ftinit with tile := t.toNat, vec := d, args := [n, n] } [] [])))

/-- FTROW (R290). -/
def execFtrow (t : BitVec 1) (v o : Src) (s : State) : Result :=
  .next (s.issue (.ftrow t v o)
    (let k := (s.readScalar o).toNat
     s.onFactor t.toNat
       (if s.ftChanging t.toNat then s.wait
        else if s.ftOrder t.toNat ≤ k then s.fail .bounds
        else s.ftAccept { s.mkOp .ftrow with
          tile := t.toNat, n := Src.num v, exec := s.execMask, args := [2, k] } [] [])))

namespace State

/-- Exchanges the banks of a tile (R286). -/
def setFactor (s : State) (blk t : Nat) (x : FTile) : State := s.modBlock blk fun b => { b with ftiles := b.ftiles.put t x }

/-- The warp of a sweep that is lost goes on after the sweep's chain: what waits of that chain waits no more (R293). -/
def pastChain (w : Warp) : Warp :=
  match w.solo with
  | some x => w.goto x.next
  | none => w

/-- A loss waits while a barrier of the same chain has its arrival still to make, which takes effect (R293). -/
def lossHeld (s : State) (key : Nat) : Bool :=
  match (s.warp key).inBar with
  | some (_, false, _) => true
  | _ => false

/-- A factor operation that runs has its effect (R290 to R294). -/
def factorRun (s : State) (id : Nat) (o : EngOp) : State :=
  let t := (s.block o.blk).ftiles.get o.tile {}
  let n := o.args.getD 1 0
  let key := warpKey o.core o.slot
  let mine := s.hasWarp key && (s.warp key).blk == o.blk
  let write (s : State) (m : LaneMask) (v : Lanes) : State := if mine then s.modWarp key (·.setV o.n m v) else s
  match o.kind with
  | .ftinit =>
    (s.endOp id).setFactor o.blk o.tile
      { order := n, bank := (List.range n).map fun i => (97 * i, o.vec.getD i 0) }
  | .ftupd down =>
    match sweep down t.order t.order 0 { bank := t.bank, x := o.vec.map (·.toNat) } with
    | .ok bank => (s.endOp id).setFactor o.blk o.tile { t with bank := bank }
    | .error k =>
      let s := s.endOp id
      if !mine then s
      else
        let s := s.noteLoss key o.tile k
        if (s.warp key).ftTrap && (s.warp key).run != .exited then
          (s.modWarp key pastChain).deliver key { State.lossStop o.tile k with fpos := some (o.pc, o.pslot, o.pexp) }
        else s
  | .ftslv back =>
    let y := solve t back ((o.vec.take t.order).map (·.toNat))
    write (s.endOp id) (maskIf fun l => o.exec.getLsbD l && l < t.order) (lanesOf fun l => BitVec.ofNat 32 (y.getD l 0))
  | .ftrow => write (s.endOp id) o.exec (lanesOf fun l => BitVec.ofNat 32 (t.at' l n))
  | .ftld =>
    let x := FTile.ofImage n (s.padRead o.core o.off (ftBytes n))
    let s := if (List.range n).all fun k => posFinite (x.at' k k) then s.setFactor o.blk o.tile x
      else s.mbStatus o.core (o.bar.getD 0) 10
    (s.countBytes id (ftBytes n)).endOp id
  | .ftst => (s.opWrite id o.off t.image).lastCount id o.off (ftBytes n) (ftBytes n)
  | _ => s

end State

/-- FACTOR_OP_START (R295): a tile takes the oldest of its operations. -/
def execFactorOpStart (blk tile : Nat) (s : State) : Result :=
  .next (match (s.ftQueue blk tile).head? with
    | none => s.done
    | some (id, o) =>
      if o.started then s.done
      else ((s.modOp id ({ · with started := true })).push [.factorOpComplete blk tile]).done)

/-- FACTOR_OP_COMPLETE (R290 to R295): the running operation of a tile ends; a sweep not before the arrival its chain
makes at a barrier. -/
def execFactorOpComplete (blk tile : Nat) (s : State) : Result :=
  .next (match (s.ftQueue blk tile).head? with
    | none => s.done
    | some (id, o) =>
      if !o.started then s.done
      else if (match o.kind with
          | .ftupd _ => s.lossHeld (warpKey o.core o.slot)
          | _ => false) then (s.push [.factorOpComplete blk tile]).done
      else
        let s := s.factorRun id o
        (if s.ftQueue blk tile = [] then s else s.pushNew (.factorOpStart blk tile)).done)

end Sys2Proof.Machine
end

