-- ==== Sys2Proof/Decode.lean ====
section
/-!
DEFINITION. Decoding instruction words and encoding them again (01_instruction_words.md R32, R36,
R40 and the encoding table of each instruction's chapter).  Both are written over natural numbers,
bit 0 the least significant.  The chain bit C (R20) stands beside the instruction, and the literal
word (R25) is an argument of the decoder.
-/

namespace Sys2Proof

/-- Bits `lo + n - 1` down to `lo` of a word. -/
def fld (w lo n : Nat) : Nat := w / 2 ^ lo % 2 ^ n

/-- The operand a specifier names (R36); `lit` is the literal word that 0xFF takes. -/
def Src.ofCode (c : Nat) (lit : Word) : Src :=
  if c < 0x80 then .v (.ofNat _ c)
  else if c < 0xC0 then .s (.ofNat _ (c - 0x80))
  else if c < 0xC8 then .q (.ofNat _ (c - 0xC0))
  else if c < 0xD8 then .b (.ofNat _ (c - 0xC8))
  else if c < 0xE0 then .k (.ofNat _ (c - 0xD8))
  else if c < 0xE8 then .g (.ofNat _ (c - 0xE0))
  else if c < 0xF0 then .special (.ofNat _ (c - 0xE8))
  else if c < 0xFF then .const (.ofNat _ (c - 0xF0))
  else .lit lit

/-- The specifier of an operand (R36). -/
def Src.code : Src → Nat
  | .v n => n.toNat
  | .s n => 0x80 + n.toNat
  | .q n => 0xC0 + n.toNat
  | .b n => 0xC8 + n.toNat
  | .k n => 0xD8 + n.toNat
  | .g n => 0xE0 + n.toNat
  | .special n => 0xE8 + n.toNat
  | .const n => 0xF0 + n.toNat
  | .lit _ => 0xFF

/-- The fields of an instruction word, before the checks of each instruction's entry.  Bits that a
format marks 0 are compared here (R33); a reserved opcode (R41) gives none.
DEDUCED, log entry 9. -/
def parse (w : Nat) (lit : Word) : Option Instr :=
  match fld w 24 7 with
  | 0x00 =>
    if fld w 23 1 = 0 then some (.vadd (.ofNat _ (fld w 16 7)) (.ofCode (fld w 8 8) lit) (.ofCode (fld w 0 8) lit))
    else if fld w 23 1 = 1 then some (.vsub (.ofNat _ (fld w 16 7)) (.ofCode (fld w 8 8) lit) (.ofCode (fld w 0 8) lit))
    else none
  | 0x01 =>
    if fld w 23 1 = 0 then some (.vadds (.ofNat _ (fld w 16 7)) (.ofCode (fld w 8 8) lit) (.ofCode (fld w 0 8) lit))
    else if fld w 23 1 = 1 then some (.vsubs (.ofNat _ (fld w 16 7)) (.ofCode (fld w 8 8) lit) (.ofCode (fld w 0 8) lit))
    else none
  | 0x02 =>
    if fld w 23 1 = 0 then some (.vmul (.ofNat _ (fld w 16 7)) (.ofCode (fld w 8 8) lit) (.ofCode (fld w 0 8) lit))
    else if fld w 23 1 = 1 then some (.vmulh (.ofNat _ (fld w 16 7)) (.ofCode (fld w 8 8) lit) (.ofCode (fld w 0 8) lit))
    else none
  | 0x03 =>
    if fld w 23 1 = 0 then some (.vmulhu (.ofNat _ (fld w 16 7)) (.ofCode (fld w 8 8) lit) (.ofCode (fld w 0 8) lit))
    else if fld w 23 1 = 1 then some (.vmad (.ofNat _ (fld w 16 7)) (.ofCode (fld w 8 8) lit) (.ofCode (fld w 0 8) lit))
    else none
  | 0x04 =>
    if fld w 23 1 = 0 then some (.vand (.ofNat _ (fld w 16 7)) (.ofCode (fld w 8 8) lit) (.ofCode (fld w 0 8) lit))
    else if fld w 23 1 = 1 then some (.vandn (.ofNat _ (fld w 16 7)) (.ofCode (fld w 8 8) lit) (.ofCode (fld w 0 8) lit))
    else none
  | 0x05 =>
    if fld w 23 1 = 0 then some (.vor (.ofNat _ (fld w 16 7)) (.ofCode (fld w 8 8) lit) (.ofCode (fld w 0 8) lit))
    else if fld w 23 1 = 1 then some (.vxor (.ofNat _ (fld w 16 7)) (.ofCode (fld w 8 8) lit) (.ofCode (fld w 0 8) lit))
    else none
  | 0x06 =>
    if fld w 23 1 = 0 then some (.vshl (.ofNat _ (fld w 16 7)) (.ofCode (fld w 8 8) lit) (.ofCode (fld w 0 8) lit))
    else if fld w 23 1 = 1 then some (.vshr (.ofNat _ (fld w 16 7)) (.ofCode (fld w 8 8) lit) (.ofCode (fld w 0 8) lit))
    else none
  | 0x07 =>
    if fld w 23 1 = 0 then some (.vsar (.ofNat _ (fld w 16 7)) (.ofCode (fld w 8 8) lit) (.ofCode (fld w 0 8) lit))
    else if fld w 23 1 = 1 then some (.vrol (.ofNat _ (fld w 16 7)) (.ofCode (fld w 8 8) lit) (.ofCode (fld w 0 8) lit))
    else none
  | 0x08 =>
    if fld w 23 1 = 0 then some (.vmin (.ofNat _ (fld w 16 7)) (.ofCode (fld w 8 8) lit) (.ofCode (fld w 0 8) lit))
    else if fld w 23 1 = 1 then some (.vmax (.ofNat _ (fld w 16 7)) (.ofCode (fld w 8 8) lit) (.ofCode (fld w 0 8) lit))
    else none
  | 0x09 =>
    if fld w 23 1 = 0 then some (.vminu (.ofNat _ (fld w 16 7)) (.ofCode (fld w 8 8) lit) (.ofCode (fld w 0 8) lit))
    else if fld w 23 1 = 1 then some (.vmaxu (.ofNat _ (fld w 16 7)) (.ofCode (fld w 8 8) lit) (.ofCode (fld w 0 8) lit))
    else none
  | 0x0A =>
    some (.vicmp (.ofNat _ (fld w 19 5)) (.ofNat _ (fld w 16 3)) (.ofCode (fld w 8 8) lit) (.ofCode (fld w 0 8) lit))
  | 0x0B =>
    some (.vfcmp (.ofNat _ (fld w 19 5)) (.ofNat _ (fld w 16 3)) (.ofCode (fld w 8 8) lit) (.ofCode (fld w 0 8) lit))
  | 0x0C =>
    if fld w 23 1 = 0 ∧ fld w 0 8 = 0 then some (.vpopc (.ofNat _ (fld w 16 7)) (.ofCode (fld w 8 8) lit))
    else if fld w 23 1 = 1 ∧ fld w 0 8 = 0 then some (.vclz (.ofNat _ (fld w 16 7)) (.ofCode (fld w 8 8) lit))
    else none
  | 0x0D =>
    if fld w 23 1 = 0 ∧ fld w 0 8 = 0 then some (.vbrev (.ofNat _ (fld w 16 7)) (.ofCode (fld w 8 8) lit))
    else if fld w 23 1 = 1 ∧ fld w 0 8 = 0 then some (.vctz (.ofNat _ (fld w 16 7)) (.ofCode (fld w 8 8) lit))
    else none
  | 0x0E =>
    if fld w 23 1 = 0 ∧ fld w 0 8 = 0 then some (.vmov (.ofNat _ (fld w 16 7)) (.ofCode (fld w 8 8) lit))
    else if fld w 23 1 = 1 ∧ fld w 0 8 = 0 then some (.vnot (.ofNat _ (fld w 16 7)) (.ofCode (fld w 8 8) lit))
    else none
  | 0x0F =>
    if fld w 23 1 = 0 then some (.vcvt (.ofNat _ (fld w 16 7)) (.ofCode (fld w 8 8) lit) (.ofNat _ (fld w 0 8)))
    else none
  | 0x10 =>
    if fld w 23 1 = 0 then some (.vfadd (.ofNat _ (fld w 16 7)) (.ofCode (fld w 8 8) lit) (.ofCode (fld w 0 8) lit))
    else if fld w 23 1 = 1 then some (.vfsub (.ofNat _ (fld w 16 7)) (.ofCode (fld w 8 8) lit) (.ofCode (fld w 0 8) lit))
    else none
  | 0x11 =>
    if fld w 23 1 = 0 then some (.vfmul (.ofNat _ (fld w 16 7)) (.ofCode (fld w 8 8) lit) (.ofCode (fld w 0 8) lit))
    else if fld w 23 1 = 1 then some (.vfscl (.ofNat _ (fld w 16 7)) (.ofCode (fld w 8 8) lit) (.ofCode (fld w 0 8) lit))
    else none
  | 0x12 =>
    if fld w 23 1 = 0 then some (.vfma (.ofNat _ (fld w 16 7)) (.ofCode (fld w 8 8) lit) (.ofCode (fld w 0 8) lit))
    else if fld w 23 1 = 1 then some (.vfms (.ofNat _ (fld w 16 7)) (.ofCode (fld w 8 8) lit) (.ofCode (fld w 0 8) lit))
    else none
  | 0x13 =>
    if fld w 23 1 = 0 then some (.vfnma (.ofNat _ (fld w 16 7)) (.ofCode (fld w 8 8) lit) (.ofCode (fld w 0 8) lit))
    else if fld w 23 1 = 1 then some (.vfnms (.ofNat _ (fld w 16 7)) (.ofCode (fld w 8 8) lit) (.ofCode (fld w 0 8) lit))
    else none
  | 0x14 =>
    if fld w 23 1 = 0 then some (.vfmin (.ofNat _ (fld w 16 7)) (.ofCode (fld w 8 8) lit) (.ofCode (fld w 0 8) lit))
    else if fld w 23 1 = 1 then some (.vfmax (.ofNat _ (fld w 16 7)) (.ofCode (fld w 8 8) lit) (.ofCode (fld w 0 8) lit))
    else none
  | 0x15 =>
    if fld w 23 1 = 0 ∧ fld w 0 8 = 0 then some (.vfabs (.ofNat _ (fld w 16 7)) (.ofCode (fld w 8 8) lit))
    else if fld w 23 1 = 1 ∧ fld w 0 8 = 0 then some (.vfneg (.ofNat _ (fld w 16 7)) (.ofCode (fld w 8 8) lit))
    else none
  | 0x16 =>
    if fld w 23 1 = 0 ∧ fld w 0 8 = 0 then some (.vfrnd (.ofNat _ (fld w 16 7)) (.ofCode (fld w 8 8) lit))
    else if fld w 23 1 = 1 ∧ fld w 0 8 = 0 then some (.vffrc (.ofNat _ (fld w 16 7)) (.ofCode (fld w 8 8) lit))
    else none
  | 0x17 =>
    if fld w 23 1 = 0 then some (.vh2fma (.ofNat _ (fld w 16 7)) (.ofCode (fld w 8 8) lit) (.ofCode (fld w 0 8) lit))
    else if fld w 23 1 = 1 then some (.vb2fma (.ofNat _ (fld w 16 7)) (.ofCode (fld w 8 8) lit) (.ofCode (fld w 0 8) lit))
    else none
  | 0x18 =>
    if fld w 23 1 = 0 ∧ fld w 0 8 = 0 then some (.vrcp (.ofNat _ (fld w 16 7)) (.ofCode (fld w 8 8) lit))
    else if fld w 23 1 = 1 ∧ fld w 0 8 = 0 then some (.vrsq (.ofNat _ (fld w 16 7)) (.ofCode (fld w 8 8) lit))
    else none
  | 0x19 =>
    if fld w 23 1 = 0 ∧ fld w 0 8 = 0 then some (.vsqrt (.ofNat _ (fld w 16 7)) (.ofCode (fld w 8 8) lit))
    else if fld w 23 1 = 1 ∧ fld w 0 8 = 0 then some (.vlog2 (.ofNat _ (fld w 16 7)) (.ofCode (fld w 8 8) lit))
    else none
  | 0x1A =>
    if fld w 23 1 = 0 ∧ fld w 0 8 = 0 then some (.vex2 (.ofNat _ (fld w 16 7)) (.ofCode (fld w 8 8) lit))
    else if fld w 23 1 = 1 ∧ fld w 0 8 = 0 then some (.vtanh (.ofNat _ (fld w 16 7)) (.ofCode (fld w 8 8) lit))
    else none
  | 0x1B =>
    if fld w 23 1 = 0 then some (.vex2s (.ofNat _ (fld w 16 7)) (.ofCode (fld w 8 8) lit) (.ofCode (fld w 0 8) lit))
    else if fld w 23 1 = 1 then some (.vhyp (.ofNat _ (fld w 16 7)) (.ofCode (fld w 8 8) lit) (.ofCode (fld w 0 8) lit))
    else none
  | 0x1C =>
    if fld w 23 1 = 0 then some (.vshfl (.ofNat _ (fld w 16 7)) (.ofCode (fld w 8 8) lit) (.ofCode (fld w 0 8) lit))
    else if fld w 23 1 = 1 then some (.vshfx (.ofNat _ (fld w 16 7)) (.ofCode (fld w 8 8) lit) (.ofCode (fld w 0 8) lit))
    else none
  | 0x1D =>
    if fld w 23 1 = 0 ∧ fld w 0 8 = 0 then some (.vmtov (.ofNat _ (fld w 16 7)) (.ofNat _ (fld w 8 8)))
    else if fld w 23 1 = 1 ∧ fld w 0 8 = 0 then some (.vvtom (.ofNat _ (fld w 16 7)) (.ofCode (fld w 8 8) lit))
    else none
  | 0x20 =>
    if fld w 23 1 = 0 ∧ fld w 22 1 = 0 then some (.sadd (.ofNat _ (fld w 16 6)) (.ofCode (fld w 8 8) lit) (.ofCode (fld w 0 8) lit))
    else if fld w 23 1 = 1 ∧ fld w 22 1 = 0 then some (.ssub (.ofNat _ (fld w 16 6)) (.ofCode (fld w 8 8) lit) (.ofCode (fld w 0 8) lit))
    else none
  | 0x21 =>
    if fld w 23 1 = 0 ∧ fld w 22 1 = 0 then some (.smul (.ofNat _ (fld w 16 6)) (.ofCode (fld w 8 8) lit) (.ofCode (fld w 0 8) lit))
    else if fld w 23 1 = 1 ∧ fld w 22 1 = 0 then some (.smulhu (.ofNat _ (fld w 16 6)) (.ofCode (fld w 8 8) lit) (.ofCode (fld w 0 8) lit))
    else none
  | 0x22 =>
    if fld w 23 1 = 0 ∧ fld w 22 1 = 0 then some (.sand (.ofNat _ (fld w 16 6)) (.ofCode (fld w 8 8) lit) (.ofCode (fld w 0 8) lit))
    else if fld w 23 1 = 1 ∧ fld w 22 1 = 0 then some (.sandn (.ofNat _ (fld w 16 6)) (.ofCode (fld w 8 8) lit) (.ofCode (fld w 0 8) lit))
    else none
  | 0x23 =>
    if fld w 23 1 = 0 ∧ fld w 22 1 = 0 then some (.sor (.ofNat _ (fld w 16 6)) (.ofCode (fld w 8 8) lit) (.ofCode (fld w 0 8) lit))
    else if fld w 23 1 = 1 ∧ fld w 22 1 = 0 then some (.sxor (.ofNat _ (fld w 16 6)) (.ofCode (fld w 8 8) lit) (.ofCode (fld w 0 8) lit))
    else none
  | 0x24 =>
    if fld w 23 1 = 0 ∧ fld w 22 1 = 0 then some (.sshl (.ofNat _ (fld w 16 6)) (.ofCode (fld w 8 8) lit) (.ofCode (fld w 0 8) lit))
    else if fld w 23 1 = 1 ∧ fld w 22 1 = 0 then some (.sshr (.ofNat _ (fld w 16 6)) (.ofCode (fld w 8 8) lit) (.ofCode (fld w 0 8) lit))
    else none
  | 0x25 =>
    if fld w 23 1 = 0 ∧ fld w 22 1 = 0 then some (.ssar (.ofNat _ (fld w 16 6)) (.ofCode (fld w 8 8) lit) (.ofCode (fld w 0 8) lit))
    else if fld w 23 1 = 1 ∧ fld w 22 1 = 0 then some (.srol (.ofNat _ (fld w 16 6)) (.ofCode (fld w 8 8) lit) (.ofCode (fld w 0 8) lit))
    else none
  | 0x26 =>
    if fld w 23 1 = 0 ∧ fld w 22 1 = 0 then some (.smin (.ofNat _ (fld w 16 6)) (.ofCode (fld w 8 8) lit) (.ofCode (fld w 0 8) lit))
    else if fld w 23 1 = 1 ∧ fld w 22 1 = 0 then some (.smax (.ofNat _ (fld w 16 6)) (.ofCode (fld w 8 8) lit) (.ofCode (fld w 0 8) lit))
    else none
  | 0x27 =>
    if fld w 23 1 = 0 ∧ fld w 22 1 = 0 ∧ fld w 0 8 = 0 then some (.smov (.ofNat _ (fld w 16 6)) (.ofCode (fld w 8 8) lit))
    else if fld w 23 1 = 1 ∧ fld w 22 1 = 0 ∧ fld w 0 8 = 0 then some (.snot (.ofNat _ (fld w 16 6)) (.ofCode (fld w 8 8) lit))
    else none
  | 0x28 =>
    some (.scmp (.ofNat _ (fld w 19 5)) (.ofNat _ (fld w 16 3)) (.ofCode (fld w 8 8) lit) (.ofCode (fld w 0 8) lit))
  | 0x29 =>
    if fld w 23 1 = 0 ∧ fld w 22 1 = 0 ∧ fld w 0 8 = 0 then some (.spopc (.ofNat _ (fld w 16 6)) (.ofCode (fld w 8 8) lit))
    else if fld w 23 1 = 1 ∧ fld w 22 1 = 0 ∧ fld w 0 8 = 0 then some (.sclz (.ofNat _ (fld w 16 6)) (.ofCode (fld w 8 8) lit))
    else none
  | 0x2A =>
    if fld w 23 1 = 0 ∧ fld w 22 1 = 0 then some (.sadd64 (.ofNat _ (fld w 16 6)) (.ofCode (fld w 8 8) lit) (.ofCode (fld w 0 8) lit))
    else if fld w 23 1 = 1 ∧ fld w 22 1 = 0 then some (.ssub64 (.ofNat _ (fld w 16 6)) (.ofCode (fld w 8 8) lit) (.ofCode (fld w 0 8) lit))
    else none
  | 0x2B =>
    if fld w 23 1 = 0 ∧ fld w 22 1 = 0 ∧ fld w 0 8 = 0 then some (.smcnt (.ofNat _ (fld w 16 6)) (.ofNat _ (fld w 8 8)))
    else if fld w 23 1 = 1 ∧ fld w 22 1 = 0 ∧ fld w 0 8 = 0 then some (.smfst (.ofNat _ (fld w 16 6)) (.ofNat _ (fld w 8 8)))
    else none
  | 0x2C =>
    if fld w 23 1 = 0 ∧ fld w 22 1 = 0 then some (.sbfx (.ofNat _ (fld w 16 6)) (.ofCode (fld w 8 8) lit) (.ofCode (fld w 0 8) lit))
    else if fld w 23 1 = 1 ∧ fld w 22 1 = 0 then some (.sbfi (.ofNat _ (fld w 16 6)) (.ofCode (fld w 8 8) lit) (.ofCode (fld w 0 8) lit))
    else none
  | 0x2D =>
    if fld w 23 1 = 0 ∧ fld w 22 1 = 0 ∧ fld w 0 8 = 0 then some (.srd (.ofNat _ (fld w 16 6)) (.ofNat _ (fld w 8 8)))
    else if fld w 23 1 = 1 ∧ fld w 22 1 = 0 ∧ fld w 8 8 = 0 then some (.swr (.ofNat _ (fld w 16 6)) (.ofCode (fld w 0 8) lit))
    else none
  | 0x2E =>
    if fld w 23 1 = 0 ∧ fld w 22 1 = 0 then some (.sfadd (.ofNat _ (fld w 16 6)) (.ofCode (fld w 8 8) lit) (.ofCode (fld w 0 8) lit))
    else if fld w 23 1 = 1 ∧ fld w 22 1 = 0 then some (.sfmul (.ofNat _ (fld w 16 6)) (.ofCode (fld w 8 8) lit) (.ofCode (fld w 0 8) lit))
    else none
  | 0x30 =>
    if fld w 16 4 = 0 then some (.put (.ofNat _ (fld w 20 4)) (.ofCode (fld w 8 8) lit) (.ofCode (fld w 0 8) lit))
    else none
  | 0x31 =>
    if fld w 23 1 = 0 then some (.xchg (.ofNat _ (fld w 16 7)) (.ofCode (fld w 8 8) lit) (.ofCode (fld w 0 8) lit))
    else none
  | 0x38 =>
    some (.bra (.ofNat _ (fld w 20 4)) (.ofNat _ (fld w 14 6)) (.ofNat _ (fld w 0 14)))
  | 0x39 =>
    if fld w 23 1 = 0 ∧ fld w 20 3 = 4 then some (.bdiv (.ofNat _ (fld w 14 6)) (.ofNat _ (fld w 0 14)) lit)
    else none
  | 0x3A =>
    if fld w 23 1 = 0 ∧ fld w 0 23 = 0 then some (.join)
    else none
  | 0x3B =>
    if fld w 23 1 = 0 ∧ fld w 22 1 = 0 then some (.call (.ofNat _ (fld w 0 22)))
    else if fld w 23 1 = 1 ∧ fld w 8 15 = 0 then some (.calli (.ofCode (fld w 0 8) lit))
    else none
  | 0x3C =>
    if fld w 23 1 = 0 ∧ fld w 0 23 = 0 then some (.ret)
    else if fld w 23 1 = 1 ∧ fld w 8 15 = 0 then some (.bri (.ofCode (fld w 0 8) lit))
    else none
  | 0x3D =>
    if fld w 23 1 = 0 ∧ fld w 0 23 = 0 then some (.exit)
    else none
  | 0x3E =>
    if fld w 23 1 = 0 ∧ fld w 0 23 = 0 then some (.nop)
    else if fld w 23 1 = 1 ∧ fld w 0 23 = 0 then some (.yield)
    else none
  | 0x40 =>
    if fld w 23 1 = 0 ∧ fld w 0 23 = 0 then some (.barSync)
    else if fld w 23 1 = 1 ∧ fld w 0 23 = 0 then some (.barArrive)
    else none
  | 0x41 =>
    if fld w 23 1 = 0 ∧ fld w 0 23 = 0 then some (.cbar)
    else if fld w 23 1 = 1 ∧ fld w 0 23 = 0 then some (.gbar)
    else none
  | 0x42 =>
    if fld w 23 1 = 0 ∧ fld w 16 6 = 0 then some (.mbinit (.ofNat _ (fld w 22 1)) (.ofCode (fld w 8 8) lit) (.ofCode (fld w 0 8) lit))
    else none
  | 0x43 =>
    if fld w 23 1 = 0 ∧ fld w 16 6 = 0 then some (.mbarr (.ofNat _ (fld w 22 1)) (.ofCode (fld w 8 8) lit) (.ofCode (fld w 0 8) lit))
    else if fld w 23 1 = 1 ∧ fld w 16 6 = 0 then some (.mbarx (.ofNat _ (fld w 22 1)) (.ofCode (fld w 8 8) lit) (.ofCode (fld w 0 8) lit))
    else none
  | 0x44 =>
    if fld w 23 1 = 0 ∧ fld w 16 6 = 0 then some (.mbwait (.ofNat _ (fld w 22 1)) (.ofCode (fld w 8 8) lit) (.ofCode (fld w 0 8) lit))
    else if fld w 23 1 = 1 then some (.mbtest (.ofNat _ (fld w 22 1)) (.ofNat _ (fld w 16 6)) (.ofCode (fld w 8 8) lit) (.ofCode (fld w 0 8) lit))
    else none
  | 0x45 =>
    if fld w 23 1 = 0 ∧ fld w 20 3 = 0 ∧ fld w 8 8 = 0 then some (.waitc (.ofNat _ (fld w 19 1)) (.ofNat _ (fld w 18 1)) (.ofNat _ (fld w 17 1)) (.ofNat _ (fld w 16 1)) (.ofCode (fld w 0 8) lit))
    else none
  | 0x46 =>
    if fld w 23 1 = 0 ∧ fld w 0 18 = 0 then some (.fence (.ofNat _ (fld w 21 2)) (.ofNat _ (fld w 18 3)))
    else none
  | 0x47 =>
    if fld w 23 1 = 0 ∧ fld w 22 1 = 0 ∧ fld w 8 8 = 0 then some (.qwait (.ofNat _ (fld w 16 6)) (.ofCode (fld w 0 8) lit))
    else none
  | 0x48 =>
    some (.vld (.ofNat _ (fld w 22 2)) (.ofNat _ (fld w 19 3)) (.ofNat _ (fld w 16 3)) (.ofCode (fld w 8 8) lit) (.ofCode (fld w 0 8) lit))
  | 0x49 =>
    some (.vldo (.ofNat _ (fld w 22 2)) (.ofNat _ (fld w 19 3)) (.ofNat _ (fld w 16 3)) (.ofCode (fld w 8 8) lit) (.ofCode (fld w 0 8) lit) lit)
  | 0x4A =>
    some (.vst (.ofNat _ (fld w 22 2)) (.ofNat _ (fld w 19 3)) (.ofNat _ (fld w 16 3)) (.ofCode (fld w 8 8) lit) (.ofCode (fld w 0 8) lit))
  | 0x4B =>
    some (.vsto (.ofNat _ (fld w 22 2)) (.ofNat _ (fld w 19 3)) (.ofNat _ (fld w 16 3)) (.ofCode (fld w 8 8) lit) (.ofCode (fld w 0 8) lit) lit)
  | 0x4C =>
    some (.sld (.ofNat _ (fld w 22 2)) (.ofNat _ (fld w 19 3)) (.ofNat _ (fld w 16 3)) (.ofCode (fld w 8 8) lit) (.ofCode (fld w 0 8) lit) lit)
  | 0x4D =>
    some (.sst (.ofNat _ (fld w 22 2)) (.ofNat _ (fld w 19 3)) (.ofNat _ (fld w 16 3)) (.ofCode (fld w 8 8) lit) (.ofCode (fld w 0 8) lit) lit)
  | 0x4E =>
    some (.ldsp (.ofNat _ (fld w 22 2)) (.ofNat _ (fld w 19 3)) (.ofNat _ (fld w 16 3)) (.ofCode (fld w 8 8) lit) (.ofCode (fld w 0 8) lit))
  | 0x4F =>
    some (.stsp (.ofNat _ (fld w 22 2)) (.ofNat _ (fld w 19 3)) (.ofNat _ (fld w 16 3)) (.ofCode (fld w 8 8) lit) (.ofCode (fld w 0 8) lit))
  | 0x50 =>
    some (.vatom (.ofNat _ (fld w 22 2)) (.ofNat _ (fld w 19 3)) (.ofNat _ (fld w 18 1)) (.ofNat _ (fld w 14 4)) (.ofNat _ (fld w 7 7)) (.ofNat _ (fld w 1 6)) (.ofNat _ (fld w 0 1)))
  | 0x51 =>
    if fld w 14 4 = 0 ∧ fld w 0 1 = 0 then some (.vcas (.ofNat _ (fld w 22 2)) (.ofNat _ (fld w 19 3)) (.ofNat _ (fld w 18 1)) (.ofNat _ (fld w 7 7)) (.ofNat _ (fld w 1 6)))
    else none
  | 0x52 =>
    if fld w 13 1 = 0 then some (.satom (.ofNat _ (fld w 22 2)) (.ofNat _ (fld w 19 3)) (.ofNat _ (fld w 18 1)) (.ofNat _ (fld w 14 4)) (.ofNat _ (fld w 7 6)) (.ofNat _ (fld w 1 6)) (.ofNat _ (fld w 0 1)))
    else none
  | 0x53 =>
    if fld w 13 5 = 0 ∧ fld w 0 1 = 0 then some (.scas (.ofNat _ (fld w 22 2)) (.ofNat _ (fld w 19 3)) (.ofNat _ (fld w 18 1)) (.ofNat _ (fld w 7 6)) (.ofNat _ (fld w 1 6)))
    else none
  | 0x54 =>
    some (.ldcl (.ofNat _ (fld w 22 2)) (.ofNat _ (fld w 19 3)) (.ofNat _ (fld w 16 3)) (.ofCode (fld w 8 8) lit) (.ofCode (fld w 0 8) lit))
  | 0x55 =>
    some (.stcl (.ofNat _ (fld w 22 2)) (.ofNat _ (fld w 19 3)) (.ofNat _ (fld w 16 3)) (.ofCode (fld w 8 8) lit) (.ofCode (fld w 0 8) lit))
  | 0x56 =>
    if fld w 23 1 = 0 ∧ fld w 0 8 = 0 then some (.sptest (.ofNat _ (fld w 16 7)) (.ofCode (fld w 8 8) lit))
    else if fld w 23 1 = 1 then some (.spcast (.ofNat _ (fld w 16 7)) (.ofCode (fld w 8 8) lit) (.ofNat _ (fld w 0 8)))
    else none
  | 0x57 =>
    if fld w 23 1 = 0 ∧ fld w 16 7 = 0 then some (.cachePf (.ofCode (fld w 8 8) lit) (.ofCode (fld w 0 8) lit))
    else if fld w 23 1 = 0 ∧ fld w 16 7 = 16 then some (.cacheWb (.ofCode (fld w 8 8) lit) (.ofCode (fld w 0 8) lit))
    else if fld w 23 1 = 0 ∧ fld w 16 7 = 32 then some (.cacheInv (.ofCode (fld w 8 8) lit) (.ofCode (fld w 0 8) lit))
    else if fld w 23 1 = 0 ∧ fld w 16 7 = 48 then some (.cacheWbinv (.ofCode (fld w 8 8) lit) (.ofCode (fld w 0 8) lit))
    else none
  | 0x58 =>
    if fld w 23 1 = 0 then some (.ldlv (.ofNat _ (fld w 16 7)) (.ofCode (fld w 8 8) lit) (.ofCode (fld w 0 8) lit))
    else if fld w 23 1 = 1 ∧ fld w 16 2 = 0 then some (.cmst (.ofNat _ (fld w 21 2)) (.ofNat _ (fld w 18 3)) (.ofCode (fld w 8 8) lit) (.ofCode (fld w 0 8) lit))
    else none
  | 0x59 =>
    if fld w 23 1 = 0 ∧ fld w 8 15 = 0 then some (.bopen (.ofCode (fld w 0 8) lit))
    else if fld w 23 1 = 1 ∧ fld w 16 2 = 0 ∧ fld w 0 8 = 0 then some (.bclose (.ofNat _ (fld w 21 2)) (.ofNat _ (fld w 18 3)) (.ofCode (fld w 8 8) lit))
    else none
  | 0x5A =>
    if fld w 23 1 = 0 ∧ fld w 19 4 = 0 then some (.vstb (.ofNat _ (fld w 16 3)) (.ofCode (fld w 8 8) lit) (.ofCode (fld w 0 8) lit))
    else none
  | 0x5B =>
    if fld w 23 1 = 0 ∧ fld w 0 23 = 0 then some (.vopen)
    else if fld w 23 1 = 1 ∧ fld w 16 7 = 0 ∧ fld w 0 8 = 0 then some (.vclose (.ofCode (fld w 8 8) lit))
    else none
  | 0x5C =>
    some (.vldv (.ofNat _ (fld w 22 2)) (.ofNat _ (fld w 19 3)) (.ofNat _ (fld w 16 3)) (.ofCode (fld w 8 8) lit) (.ofCode (fld w 0 8) lit))
  | 0x60 =>
    if fld w 23 1 = 0 ∧ fld w 20 3 = 0 ∧ fld w 1 1 = 0 then some (.tcopy (.ofNat _ (fld w 14 6)) (.ofNat _ (fld w 8 6)) (.ofNat _ (fld w 2 6)) (.ofNat _ (fld w 0 1)))
    else none
  | 0x61 =>
    if fld w 23 1 = 0 ∧ fld w 20 3 = 0 ∧ fld w 1 1 = 0 then some (.tcopyo (.ofNat _ (fld w 14 6)) (.ofNat _ (fld w 8 6)) (.ofNat _ (fld w 2 6)) (.ofNat _ (fld w 0 1)))
    else none
  | 0x62 =>
    if fld w 23 1 = 0 ∧ fld w 20 3 = 0 ∧ fld w 1 1 = 0 then some (.tgather (.ofNat _ (fld w 14 6)) (.ofNat _ (fld w 8 6)) (.ofNat _ (fld w 2 6)) (.ofNat _ (fld w 0 1)))
    else none
  | 0x63 =>
    if fld w 23 1 = 0 ∧ fld w 20 3 = 0 ∧ fld w 1 1 = 0 then some (.tcow (.ofNat _ (fld w 14 6)) (.ofNat _ (fld w 8 6)) (.ofNat _ (fld w 2 6)) (.ofNat _ (fld w 0 1)))
    else none
  | 0x64 =>
    if fld w 23 1 = 0 ∧ fld w 1 1 = 0 then some (.cstep (.ofNat _ (fld w 22 1)) (.ofNat _ (fld w 20 2)) (.ofNat _ (fld w 14 6)) (.ofNat _ (fld w 8 6)) (.ofNat _ (fld w 2 6)) (.ofNat _ (fld w 0 1)))
    else none
  | 0x65 =>
    if fld w 23 1 = 0 ∧ fld w 20 3 = 0 ∧ fld w 1 1 = 0 then some (.spalloc (.ofNat _ (fld w 14 6)) (.ofNat _ (fld w 8 6)) (.ofNat _ (fld w 2 6)) (.ofNat _ (fld w 0 1)))
    else if fld w 23 1 = 1 ∧ fld w 20 3 = 0 ∧ fld w 0 14 = 0 then some (.spfree (.ofNat _ (fld w 14 6)))
    else none
  | 0x66 =>
    if fld w 23 1 = 0 ∧ fld w 20 3 = 0 ∧ fld w 0 8 = 0 then some (.sprenew (.ofNat _ (fld w 14 6)) (.ofNat _ (fld w 8 6)))
    else if fld w 23 1 = 1 ∧ fld w 20 3 = 0 ∧ fld w 0 8 = 0 then some (.spstat (.ofNat _ (fld w 14 6)) (.ofNat _ (fld w 8 6)))
    else none
  | 0x67 =>
    if fld w 23 1 = 0 ∧ fld w 20 3 = 0 ∧ fld w 0 2 = 0 then some (.crpush (.ofNat _ (fld w 14 6)) (.ofNat _ (fld w 8 6)) (.ofNat _ (fld w 2 6)))
    else if fld w 23 1 = 1 ∧ fld w 20 3 = 0 ∧ fld w 0 2 = 0 then some (.jdec (.ofNat _ (fld w 14 6)) (.ofNat _ (fld w 8 6)) (.ofNat _ (fld w 2 6)))
    else none
  | 0x70 =>
    if fld w 20 1 = 0 then some (.mma (.ofNat _ (fld w 21 3)) (.ofNat _ (fld w 19 1)) (.ofNat _ (fld w 18 1)) (.ofNat _ (fld w 12 6)) (.ofNat _ (fld w 6 6)) (.ofNat _ (fld w 0 6)))
    else none
  | 0x71 =>
    if fld w 20 1 = 0 then some (.mmasp (.ofNat _ (fld w 21 3)) (.ofNat _ (fld w 19 1)) (.ofNat _ (fld w 18 1)) (.ofNat _ (fld w 12 6)) (.ofNat _ (fld w 6 6)) (.ofNat _ (fld w 0 6)))
    else none
  | 0x72 =>
    if fld w 23 1 = 0 ∧ fld w 16 4 = 0 then some (.acld (.ofNat _ (fld w 20 3)) (.ofCode (fld w 8 8) lit) (.ofCode (fld w 0 8) lit))
    else if fld w 23 1 = 1 ∧ fld w 16 4 = 0 then some (.acst (.ofNat _ (fld w 20 3)) (.ofCode (fld w 8 8) lit) (.ofCode (fld w 0 8) lit))
    else none
  | 0x73 =>
    if fld w 23 1 = 0 ∧ fld w 16 4 = 0 then some (.acrd (.ofNat _ (fld w 20 3)) (.ofNat _ (fld w 8 8)) (.ofCode (fld w 0 8) lit))
    else if fld w 23 1 = 1 ∧ fld w 16 4 = 0 then some (.acwr (.ofNat _ (fld w 20 3)) (.ofNat _ (fld w 8 8)) (.ofCode (fld w 0 8) lit))
    else none
  | 0x74 =>
    if fld w 23 1 = 0 ∧ fld w 16 6 = 0 ∧ fld w 0 8 = 0 then some (.ftupd (.ofNat _ (fld w 22 1)) (.ofCode (fld w 8 8) lit))
    else if fld w 23 1 = 1 ∧ fld w 16 6 = 0 ∧ fld w 0 8 = 0 then some (.ftdnd (.ofNat _ (fld w 22 1)) (.ofCode (fld w 8 8) lit))
    else none
  | 0x75 =>
    if fld w 23 1 = 0 ∧ fld w 16 6 = 0 then some (.ftslvf (.ofNat _ (fld w 22 1)) (.ofCode (fld w 8 8) lit) (.ofCode (fld w 0 8) lit))
    else if fld w 23 1 = 1 ∧ fld w 16 6 = 0 then some (.ftslvb (.ofNat _ (fld w 22 1)) (.ofCode (fld w 8 8) lit) (.ofCode (fld w 0 8) lit))
    else none
  | 0x76 =>
    if fld w 23 1 = 0 ∧ fld w 16 6 = 0 then some (.ftld (.ofNat _ (fld w 22 1)) (.ofCode (fld w 8 8) lit) (.ofCode (fld w 0 8) lit))
    else if fld w 23 1 = 1 ∧ fld w 16 6 = 0 then some (.ftst (.ofNat _ (fld w 22 1)) (.ofCode (fld w 8 8) lit) (.ofCode (fld w 0 8) lit))
    else none
  | 0x77 =>
    if fld w 23 1 = 0 ∧ fld w 16 6 = 0 then some (.ftinit (.ofNat _ (fld w 22 1)) (.ofCode (fld w 8 8) lit) (.ofCode (fld w 0 8) lit))
    else if fld w 23 1 = 1 ∧ fld w 16 6 = 0 then some (.ftrow (.ofNat _ (fld w 22 1)) (.ofCode (fld w 8 8) lit) (.ofCode (fld w 0 8) lit))
    else none
  | 0x78 =>
    if fld w 23 1 = 0 ∧ fld w 8 15 = 0 then some (.trap (.ofCode (fld w 0 8) lit))
    else if fld w 23 1 = 1 ∧ fld w 0 23 = 0 then some (.brk)
    else none
  | 0x79 =>
    if fld w 23 1 = 0 ∧ fld w 16 7 = 0 then some (.sret (.ofCode (fld w 8 8) lit) (.ofCode (fld w 0 8) lit))
    else if fld w 23 1 = 1 ∧ fld w 0 23 = 0 then some (.skill)
    else none
  | 0x7A =>
    if fld w 23 1 = 0 ∧ fld w 22 1 = 0 then some (.xrd (.ofNat _ (fld w 16 6)) (.ofCode (fld w 8 8) lit) (.ofCode (fld w 0 8) lit))
    else if fld w 23 1 = 1 ∧ fld w 22 1 = 0 then some (.xwr (.ofNat _ (fld w 16 6)) (.ofCode (fld w 8 8) lit) (.ofCode (fld w 0 8) lit))
    else none
  | 0x7B =>
    if fld w 23 1 = 0 ∧ fld w 22 1 = 0 ∧ fld w 8 8 = 0 then some (.csrr (.ofNat _ (fld w 16 6)) (.ofNat _ (fld w 0 8)))
    else if fld w 23 1 = 1 ∧ fld w 22 1 = 0 ∧ fld w 8 8 = 0 then some (.csrw (.ofNat _ (fld w 16 6)) (.ofNat _ (fld w 0 8)))
    else none
  | 0x7C =>
    if fld w 23 1 = 0 ∧ fld w 0 23 = 0 then some (.tlbiAll)
    else if fld w 23 1 = 0 ∧ fld w 16 7 = 16 ∧ fld w 0 8 = 0 then some (.tlbiRegion (.ofCode (fld w 8 8) lit))
    else if fld w 23 1 = 0 ∧ fld w 20 3 = 2 ∧ fld w 16 2 = 0 then some (.tlbiPage (.ofNat _ (fld w 18 2)) (.ofCode (fld w 8 8) lit) (.ofCode (fld w 0 8) lit))
    else if fld w 23 1 = 0 ∧ fld w 20 3 = 3 ∧ fld w 8 10 = 0 then some (.tlbiPageall (.ofNat _ (fld w 18 2)) (.ofCode (fld w 0 8) lit))
    else none
  | 0x7E =>
    if fld w 0 6 = 0 then some (.vpfx (.ofNat _ (fld w 18 6)) (.ofNat _ (fld w 17 1)) (.ofNat _ (fld w 14 3)) (.ofCode (fld w 6 8) lit))
    else none
  | 0x7F =>
    if fld w 22 1 = 0 ∧ fld w 10 2 = 0 then some (.dpair (.ofNat _ (fld w 23 1)) (.ofNat _ (fld w 12 10)) (.ofNat _ (fld w 0 10)))
    else none
  | _ => none

/-- The instruction a word stands for: its fields, if they pass every check of R33, R35, R36, R38,
R39 and of the instruction's own entry. -/
def decodeWord (w : Nat) (lit : Word) : Option Instr :=
  match parse w lit with
  | some i => if i.wf then some i else none
  | none => none

/-- Bits 30 to 0 of an instruction's word; 0 for an event, which has no word. -/
def encodeBits : Instr → Nat
  | .vadd d a b => 0x00000000 + d.toNat * 0x10000 + a.code * 0x100 + b.code
  | .vsub d a b => 0x00800000 + d.toNat * 0x10000 + a.code * 0x100 + b.code
  | .vadds d a b => 0x01000000 + d.toNat * 0x10000 + a.code * 0x100 + b.code
  | .vsubs d a b => 0x01800000 + d.toNat * 0x10000 + a.code * 0x100 + b.code
  | .vmul d a b => 0x02000000 + d.toNat * 0x10000 + a.code * 0x100 + b.code
  | .vmulh d a b => 0x02800000 + d.toNat * 0x10000 + a.code * 0x100 + b.code
  | .vmulhu d a b => 0x03000000 + d.toNat * 0x10000 + a.code * 0x100 + b.code
  | .vmad d a b => 0x03800000 + d.toNat * 0x10000 + a.code * 0x100 + b.code
  | .vand d a b => 0x04000000 + d.toNat * 0x10000 + a.code * 0x100 + b.code
  | .vandn d a b => 0x04800000 + d.toNat * 0x10000 + a.code * 0x100 + b.code
  | .vor d a b => 0x05000000 + d.toNat * 0x10000 + a.code * 0x100 + b.code
  | .vxor d a b => 0x05800000 + d.toNat * 0x10000 + a.code * 0x100 + b.code
  | .vshl d a b => 0x06000000 + d.toNat * 0x10000 + a.code * 0x100 + b.code
  | .vshr d a b => 0x06800000 + d.toNat * 0x10000 + a.code * 0x100 + b.code
  | .vsar d a b => 0x07000000 + d.toNat * 0x10000 + a.code * 0x100 + b.code
  | .vrol d a b => 0x07800000 + d.toNat * 0x10000 + a.code * 0x100 + b.code
  | .vmin d a b => 0x08000000 + d.toNat * 0x10000 + a.code * 0x100 + b.code
  | .vmax d a b => 0x08800000 + d.toNat * 0x10000 + a.code * 0x100 + b.code
  | .vminu d a b => 0x09000000 + d.toNat * 0x10000 + a.code * 0x100 + b.code
  | .vmaxu d a b => 0x09800000 + d.toNat * 0x10000 + a.code * 0x100 + b.code
  | .vicmp t k a b => 0x0A000000 + t.toNat * 0x80000 + k.toNat * 0x10000 + a.code * 0x100 + b.code
  | .vfcmp t k a b => 0x0B000000 + t.toNat * 0x80000 + k.toNat * 0x10000 + a.code * 0x100 + b.code
  | .vpopc d a => 0x0C000000 + d.toNat * 0x10000 + a.code * 0x100
  | .vclz d a => 0x0C800000 + d.toNat * 0x10000 + a.code * 0x100
  | .vbrev d a => 0x0D000000 + d.toNat * 0x10000 + a.code * 0x100
  | .vctz d a => 0x0D800000 + d.toNat * 0x10000 + a.code * 0x100
  | .vmov d a => 0x0E000000 + d.toNat * 0x10000 + a.code * 0x100
  | .vnot d a => 0x0E800000 + d.toNat * 0x10000 + a.code * 0x100
  | .vcvt d a e => 0x0F000000 + d.toNat * 0x10000 + a.code * 0x100 + e.toNat
  | .vfadd d a b => 0x10000000 + d.toNat * 0x10000 + a.code * 0x100 + b.code
  | .vfsub d a b => 0x10800000 + d.toNat * 0x10000 + a.code * 0x100 + b.code
  | .vfmul d a b => 0x11000000 + d.toNat * 0x10000 + a.code * 0x100 + b.code
  | .vfscl d a b => 0x11800000 + d.toNat * 0x10000 + a.code * 0x100 + b.code
  | .vfma d a b => 0x12000000 + d.toNat * 0x10000 + a.code * 0x100 + b.code
  | .vfms d a b => 0x12800000 + d.toNat * 0x10000 + a.code * 0x100 + b.code
  | .vfnma d a b => 0x13000000 + d.toNat * 0x10000 + a.code * 0x100 + b.code
  | .vfnms d a b => 0x13800000 + d.toNat * 0x10000 + a.code * 0x100 + b.code
  | .vfmin d a b => 0x14000000 + d.toNat * 0x10000 + a.code * 0x100 + b.code
  | .vfmax d a b => 0x14800000 + d.toNat * 0x10000 + a.code * 0x100 + b.code
  | .vfabs d a => 0x15000000 + d.toNat * 0x10000 + a.code * 0x100
  | .vfneg d a => 0x15800000 + d.toNat * 0x10000 + a.code * 0x100
  | .vfrnd d a => 0x16000000 + d.toNat * 0x10000 + a.code * 0x100
  | .vffrc d a => 0x16800000 + d.toNat * 0x10000 + a.code * 0x100
  | .vh2fma d a b => 0x17000000 + d.toNat * 0x10000 + a.code * 0x100 + b.code
  | .vb2fma d a b => 0x17800000 + d.toNat * 0x10000 + a.code * 0x100 + b.code
  | .vrcp d a => 0x18000000 + d.toNat * 0x10000 + a.code * 0x100
  | .vrsq d a => 0x18800000 + d.toNat * 0x10000 + a.code * 0x100
  | .vsqrt d a => 0x19000000 + d.toNat * 0x10000 + a.code * 0x100
  | .vlog2 d a => 0x19800000 + d.toNat * 0x10000 + a.code * 0x100
  | .vex2 d a => 0x1A000000 + d.toNat * 0x10000 + a.code * 0x100
  | .vtanh d a => 0x1A800000 + d.toNat * 0x10000 + a.code * 0x100
  | .vex2s d a b => 0x1B000000 + d.toNat * 0x10000 + a.code * 0x100 + b.code
  | .vhyp d a b => 0x1B800000 + d.toNat * 0x10000 + a.code * 0x100 + b.code
  | .vshfl d a b => 0x1C000000 + d.toNat * 0x10000 + a.code * 0x100 + b.code
  | .vshfx d a b => 0x1C800000 + d.toNat * 0x10000 + a.code * 0x100 + b.code
  | .vmtov d t => 0x1D000000 + d.toNat * 0x10000 + t.toNat * 0x100
  | .vvtom t a => 0x1D800000 + t.toNat * 0x10000 + a.code * 0x100
  | .sadd d a b => 0x20000000 + d.toNat * 0x10000 + a.code * 0x100 + b.code
  | .ssub d a b => 0x20800000 + d.toNat * 0x10000 + a.code * 0x100 + b.code
  | .smul d a b => 0x21000000 + d.toNat * 0x10000 + a.code * 0x100 + b.code
  | .smulhu d a b => 0x21800000 + d.toNat * 0x10000 + a.code * 0x100 + b.code
  | .sand d a b => 0x22000000 + d.toNat * 0x10000 + a.code * 0x100 + b.code
  | .sandn d a b => 0x22800000 + d.toNat * 0x10000 + a.code * 0x100 + b.code
  | .sor d a b => 0x23000000 + d.toNat * 0x10000 + a.code * 0x100 + b.code
  | .sxor d a b => 0x23800000 + d.toNat * 0x10000 + a.code * 0x100 + b.code
  | .sshl d a b => 0x24000000 + d.toNat * 0x10000 + a.code * 0x100 + b.code
  | .sshr d a b => 0x24800000 + d.toNat * 0x10000 + a.code * 0x100 + b.code
  | .ssar d a b => 0x25000000 + d.toNat * 0x10000 + a.code * 0x100 + b.code
  | .srol d a b => 0x25800000 + d.toNat * 0x10000 + a.code * 0x100 + b.code
  | .smin d a b => 0x26000000 + d.toNat * 0x10000 + a.code * 0x100 + b.code
  | .smax d a b => 0x26800000 + d.toNat * 0x10000 + a.code * 0x100 + b.code
  | .smov d a => 0x27000000 + d.toNat * 0x10000 + a.code * 0x100
  | .snot d a => 0x27800000 + d.toNat * 0x10000 + a.code * 0x100
  | .scmp t k a b => 0x28000000 + t.toNat * 0x80000 + k.toNat * 0x10000 + a.code * 0x100 + b.code
  | .spopc d a => 0x29000000 + d.toNat * 0x10000 + a.code * 0x100
  | .sclz d a => 0x29800000 + d.toNat * 0x10000 + a.code * 0x100
  | .sadd64 d a b => 0x2A000000 + d.toNat * 0x10000 + a.code * 0x100 + b.code
  | .ssub64 d a b => 0x2A800000 + d.toNat * 0x10000 + a.code * 0x100 + b.code
  | .smcnt d a => 0x2B000000 + d.toNat * 0x10000 + a.toNat * 0x100
  | .smfst d a => 0x2B800000 + d.toNat * 0x10000 + a.toNat * 0x100
  | .sbfx d a b => 0x2C000000 + d.toNat * 0x10000 + a.code * 0x100 + b.code
  | .sbfi d a b => 0x2C800000 + d.toNat * 0x10000 + a.code * 0x100 + b.code
  | .srd d n => 0x2D000000 + d.toNat * 0x10000 + n.toNat * 0x100
  | .swr n b => 0x2D800000 + n.toNat * 0x10000 + b.code
  | .sfadd d a b => 0x2E000000 + d.toNat * 0x10000 + a.code * 0x100 + b.code
  | .sfmul d a b => 0x2E800000 + d.toNat * 0x10000 + a.code * 0x100 + b.code
  | .put m d s => 0x30000000 + m.toNat * 0x100000 + d.code * 0x100 + s.code
  | .xchg d a b => 0x31000000 + d.toNat * 0x10000 + a.code * 0x100 + b.code
  | .bra k r o => 0x38000000 + k.toNat * 0x100000 + r.toNat * 0x4000 + o.toNat
  | .bdiv r o _ => 0x39400000 + r.toNat * 0x4000 + o.toNat
  | .join => 0x3A000000
  | .call o => 0x3B000000 + o.toNat
  | .calli a => 0x3B800000 + a.code
  | .ret => 0x3C000000
  | .bri a => 0x3C800000 + a.code
  | .exit => 0x3D000000
  | .nop => 0x3E000000
  | .yield => 0x3E800000
  | .barSync => 0x40000000
  | .barArrive => 0x40800000
  | .cbar => 0x41000000
  | .gbar => 0x41800000
  | .mbinit l n a => 0x42000000 + l.toNat * 0x400000 + n.code * 0x100 + a.code
  | .mbarr l n a => 0x43000000 + l.toNat * 0x400000 + n.code * 0x100 + a.code
  | .mbarx l n a => 0x43800000 + l.toNat * 0x400000 + n.code * 0x100 + a.code
  | .mbwait l p a => 0x44000000 + l.toNat * 0x400000 + p.code * 0x100 + a.code
  | .mbtest l d p a => 0x44800000 + l.toNat * 0x400000 + d.toNat * 0x10000 + p.code * 0x100 + a.code
  | .waitc v w s g t => 0x45000000 + v.toNat * 0x80000 + w.toNat * 0x40000 + s.toNat * 0x20000 + g.toNat * 0x10000 + t.code
  | .fence o s => 0x46000000 + o.toNat * 0x200000 + s.toNat * 0x40000
  | .qwait d q => 0x47000000 + d.toNat * 0x10000 + q.code
  | .vld o s w d a => 0x48000000 + o.toNat * 0x400000 + s.toNat * 0x80000 + w.toNat * 0x10000 + d.code * 0x100 + a.code
  | .vldo o s w d a _ => 0x49000000 + o.toNat * 0x400000 + s.toNat * 0x80000 + w.toNat * 0x10000 + d.code * 0x100 + a.code
  | .vst o s w d a => 0x4A000000 + o.toNat * 0x400000 + s.toNat * 0x80000 + w.toNat * 0x10000 + d.code * 0x100 + a.code
  | .vsto o s w d a _ => 0x4B000000 + o.toNat * 0x400000 + s.toNat * 0x80000 + w.toNat * 0x10000 + d.code * 0x100 + a.code
  | .sld o s w d a _ => 0x4C000000 + o.toNat * 0x400000 + s.toNat * 0x80000 + w.toNat * 0x10000 + d.code * 0x100 + a.code
  | .sst o s w d a _ => 0x4D000000 + o.toNat * 0x400000 + s.toNat * 0x80000 + w.toNat * 0x10000 + d.code * 0x100 + a.code
  | .ldsp o s w d a => 0x4E000000 + o.toNat * 0x400000 + s.toNat * 0x80000 + w.toNat * 0x10000 + d.code * 0x100 + a.code
  | .stsp o s w d a => 0x4F000000 + o.toNat * 0x400000 + s.toNat * 0x80000 + w.toNat * 0x10000 + d.code * 0x100 + a.code
  | .vatom o s w f d p n => 0x50000000 + o.toNat * 0x400000 + s.toNat * 0x80000 + w.toNat * 0x40000 + f.toNat * 0x4000 + d.toNat * 0x80 + p.toNat * 0x2 + n.toNat
  | .vcas o s w d p => 0x51000000 + o.toNat * 0x400000 + s.toNat * 0x80000 + w.toNat * 0x40000 + d.toNat * 0x80 + p.toNat * 0x2
  | .satom o s w f d p n => 0x52000000 + o.toNat * 0x400000 + s.toNat * 0x80000 + w.toNat * 0x40000 + f.toNat * 0x4000 + d.toNat * 0x80 + p.toNat * 0x2 + n.toNat
  | .scas o s w d p => 0x53000000 + o.toNat * 0x400000 + s.toNat * 0x80000 + w.toNat * 0x40000 + d.toNat * 0x80 + p.toNat * 0x2
  | .ldcl o s w d a => 0x54000000 + o.toNat * 0x400000 + s.toNat * 0x80000 + w.toNat * 0x10000 + d.code * 0x100 + a.code
  | .stcl o s w d a => 0x55000000 + o.toNat * 0x400000 + s.toNat * 0x80000 + w.toNat * 0x10000 + d.code * 0x100 + a.code
  | .sptest d a => 0x56000000 + d.toNat * 0x10000 + a.code * 0x100
  | .spcast d a m => 0x56800000 + d.toNat * 0x10000 + a.code * 0x100 + m.toNat
  | .cachePf l a => 0x57000000 + l.code * 0x100 + a.code
  | .cacheWb l a => 0x57100000 + l.code * 0x100 + a.code
  | .cacheInv l a => 0x57200000 + l.code * 0x100 + a.code
  | .cacheWbinv l a => 0x57300000 + l.code * 0x100 + a.code
  | .ldlv d t a => 0x58000000 + d.toNat * 0x10000 + t.code * 0x100 + a.code
  | .cmst o s t d => 0x58800000 + o.toNat * 0x200000 + s.toNat * 0x40000 + t.code * 0x100 + d.code
  | .bopen d => 0x59000000 + d.code
  | .bclose o s t => 0x59800000 + o.toNat * 0x200000 + s.toNat * 0x40000 + t.code * 0x100
  | .vstb w d a => 0x5A000000 + w.toNat * 0x10000 + d.code * 0x100 + a.code
  | .vopen => 0x5B000000
  | .vclose s => 0x5B800000 + s.code * 0x100
  | .vldv o s w d a => 0x5C000000 + o.toNat * 0x400000 + s.toNat * 0x80000 + w.toNat * 0x10000 + d.code * 0x100 + a.code
  | .tcopy a b d t => 0x60000000 + a.toNat * 0x4000 + b.toNat * 0x100 + d.toNat * 0x4 + t.toNat
  | .tcopyo a b d t => 0x61000000 + a.toNat * 0x4000 + b.toNat * 0x100 + d.toNat * 0x4 + t.toNat
  | .tgather a b d t => 0x62000000 + a.toNat * 0x4000 + b.toNat * 0x100 + d.toNat * 0x4 + t.toNat
  | .tcow a b d t => 0x63000000 + a.toNat * 0x4000 + b.toNat * 0x100 + d.toNat * 0x4 + t.toNat
  | .cstep p s a b d t => 0x64000000 + p.toNat * 0x400000 + s.toNat * 0x100000 + a.toNat * 0x4000 + b.toNat * 0x100 + d.toNat * 0x4 + t.toNat
  | .spalloc d s l x => 0x65000000 + d.toNat * 0x4000 + s.toNat * 0x100 + l.toNat * 0x4 + x.toNat
  | .spfree o => 0x65800000 + o.toNat * 0x4000
  | .sprenew o l => 0x66000000 + o.toNat * 0x4000 + l.toNat * 0x100
  | .spstat d o => 0x66800000 + d.toNat * 0x4000 + o.toNat * 0x100
  | .crpush o q s => 0x67000000 + o.toNat * 0x4000 + q.toNat * 0x100 + s.toNat * 0x4
  | .jdec p n d => 0x67800000 + p.toNat * 0x4000 + n.toNat * 0x100 + d.toNat * 0x4
  | .mma a n p x y k => 0x70000000 + a.toNat * 0x200000 + n.toNat * 0x80000 + p.toNat * 0x40000 + x.toNat * 0x1000 + y.toNat * 0x40 + k.toNat
  | .mmasp a n p x y k => 0x71000000 + a.toNat * 0x200000 + n.toNat * 0x80000 + p.toNat * 0x40000 + x.toNat * 0x1000 + y.toNat * 0x40 + k.toNat
  | .acld a o b => 0x72000000 + a.toNat * 0x100000 + o.code * 0x100 + b.code
  | .acst a o b => 0x72800000 + a.toNat * 0x100000 + o.code * 0x100 + b.code
  | .acrd a v k => 0x73000000 + a.toNat * 0x100000 + v.toNat * 0x100 + k.code
  | .acwr a v k => 0x73800000 + a.toNat * 0x100000 + v.toNat * 0x100 + k.code
  | .ftupd t v => 0x74000000 + t.toNat * 0x400000 + v.code * 0x100
  | .ftdnd t v => 0x74800000 + t.toNat * 0x400000 + v.code * 0x100
  | .ftslvf t v o => 0x75000000 + t.toNat * 0x400000 + v.code * 0x100 + o.code
  | .ftslvb t v o => 0x75800000 + t.toNat * 0x400000 + v.code * 0x100 + o.code
  | .ftld t v o => 0x76000000 + t.toNat * 0x400000 + v.code * 0x100 + o.code
  | .ftst t v o => 0x76800000 + t.toNat * 0x400000 + v.code * 0x100 + o.code
  | .ftinit t v o => 0x77000000 + t.toNat * 0x400000 + v.code * 0x100 + o.code
  | .ftrow t v o => 0x77800000 + t.toNat * 0x400000 + v.code * 0x100 + o.code
  | .trap k => 0x78000000 + k.code
  | .brk => 0x78800000
  | .sret f s => 0x79000000 + f.code * 0x100 + s.code
  | .skill => 0x79800000
  | .xrd s l i => 0x7A000000 + s.toNat * 0x10000 + l.code * 0x100 + i.code
  | .xwr s l i => 0x7A800000 + s.toNat * 0x10000 + l.code * 0x100 + i.code
  | .csrr s n => 0x7B000000 + s.toNat * 0x10000 + n.toNat
  | .csrw s n => 0x7B800000 + s.toNat * 0x10000 + n.toNat
  | .tlbiAll => 0x7C000000
  | .tlbiRegion r => 0x7C100000 + r.code * 0x100
  | .tlbiPage z r a => 0x7C200000 + z.toNat * 0x40000 + r.code * 0x100 + a.code
  | .tlbiPageall z a => 0x7C300000 + z.toNat * 0x40000 + a.code
  | .vpfx m z r o => 0x7E000000 + m.toNat * 0x40000 + z.toNat * 0x20000 + r.toNat * 0x4000 + o.code * 0x40
  | .dpair p a b => 0x7F000000 + p.toNat * 0x800000 + a.toNat * 0x1000 + b.toNat
  | _ => 0

/-- An instruction is one of the 177 with a word of its own (R40 and R27, R29). -/
def Instr.isWord : Instr → Bool
  | .vadd .. => true
  | .vsub .. => true
  | .vadds .. => true
  | .vsubs .. => true
  | .vmul .. => true
  | .vmulh .. => true
  | .vmulhu .. => true
  | .vmad .. => true
  | .vand .. => true
  | .vandn .. => true
  | .vor .. => true
  | .vxor .. => true
  | .vshl .. => true
  | .vshr .. => true
  | .vsar .. => true
  | .vrol .. => true
  | .vmin .. => true
  | .vmax .. => true
  | .vminu .. => true
  | .vmaxu .. => true
  | .vicmp .. => true
  | .vfcmp .. => true
  | .vpopc .. => true
  | .vclz .. => true
  | .vbrev .. => true
  | .vctz .. => true
  | .vmov .. => true
  | .vnot .. => true
  | .vcvt .. => true
  | .vfadd .. => true
  | .vfsub .. => true
  | .vfmul .. => true
  | .vfscl .. => true
  | .vfma .. => true
  | .vfms .. => true
  | .vfnma .. => true
  | .vfnms .. => true
  | .vfmin .. => true
  | .vfmax .. => true
  | .vfabs .. => true
  | .vfneg .. => true
  | .vfrnd .. => true
  | .vffrc .. => true
  | .vh2fma .. => true
  | .vb2fma .. => true
  | .vrcp .. => true
  | .vrsq .. => true
  | .vsqrt .. => true
  | .vlog2 .. => true
  | .vex2 .. => true
  | .vtanh .. => true
  | .vex2s .. => true
  | .vhyp .. => true
  | .vshfl .. => true
  | .vshfx .. => true
  | .vmtov .. => true
  | .vvtom .. => true
  | .sadd .. => true
  | .ssub .. => true
  | .smul .. => true
  | .smulhu .. => true
  | .sand .. => true
  | .sandn .. => true
  | .sor .. => true
  | .sxor .. => true
  | .sshl .. => true
  | .sshr .. => true
  | .ssar .. => true
  | .srol .. => true
  | .smin .. => true
  | .smax .. => true
  | .smov .. => true
  | .snot .. => true
  | .scmp .. => true
  | .spopc .. => true
  | .sclz .. => true
  | .sadd64 .. => true
  | .ssub64 .. => true
  | .smcnt .. => true
  | .smfst .. => true
  | .sbfx .. => true
  | .sbfi .. => true
  | .srd .. => true
  | .swr .. => true
  | .sfadd .. => true
  | .sfmul .. => true
  | .put .. => true
  | .xchg .. => true
  | .bra .. => true
  | .bdiv .. => true
  | .join => true
  | .call .. => true
  | .calli .. => true
  | .ret => true
  | .bri .. => true
  | .exit => true
  | .nop => true
  | .yield => true
  | .barSync => true
  | .barArrive => true
  | .cbar => true
  | .gbar => true
  | .mbinit .. => true
  | .mbarr .. => true
  | .mbarx .. => true
  | .mbwait .. => true
  | .mbtest .. => true
  | .waitc .. => true
  | .fence .. => true
  | .qwait .. => true
  | .vld .. => true
  | .vldo .. => true
  | .vst .. => true
  | .vsto .. => true
  | .sld .. => true
  | .sst .. => true
  | .ldsp .. => true
  | .stsp .. => true
  | .vatom .. => true
  | .vcas .. => true
  | .satom .. => true
  | .scas .. => true
  | .ldcl .. => true
  | .stcl .. => true
  | .sptest .. => true
  | .spcast .. => true
  | .cachePf .. => true
  | .cacheWb .. => true
  | .cacheInv .. => true
  | .cacheWbinv .. => true
  | .ldlv .. => true
  | .cmst .. => true
  | .bopen .. => true
  | .bclose .. => true
  | .vstb .. => true
  | .vopen => true
  | .vclose .. => true
  | .vldv .. => true
  | .tcopy .. => true
  | .tcopyo .. => true
  | .tgather .. => true
  | .tcow .. => true
  | .cstep .. => true
  | .spalloc .. => true
  | .spfree .. => true
  | .sprenew .. => true
  | .spstat .. => true
  | .crpush .. => true
  | .jdec .. => true
  | .mma .. => true
  | .mmasp .. => true
  | .acld .. => true
  | .acst .. => true
  | .acrd .. => true
  | .acwr .. => true
  | .ftupd .. => true
  | .ftdnd .. => true
  | .ftslvf .. => true
  | .ftslvb .. => true
  | .ftld .. => true
  | .ftst .. => true
  | .ftinit .. => true
  | .ftrow .. => true
  | .trap .. => true
  | .brk => true
  | .sret .. => true
  | .skill => true
  | .xrd .. => true
  | .xwr .. => true
  | .csrr .. => true
  | .csrw .. => true
  | .tlbiAll => true
  | .tlbiRegion .. => true
  | .tlbiPage .. => true
  | .tlbiPageall .. => true
  | .vpfx .. => true
  | .dpair .. => true
  | _ => false

/-- The words of an instruction with chain bit `c`: its own and, where it takes one, its literal.  A
VPFX carries C = 1 always (R27). -/
def encode (c : Bool) (i : Instr) : List Nat :=
  let head := encodeBits i + if c || i.isVpfx then 0x80000000 else 0
  match i.literal with
  | some l => [head, l.toNat]
  | none => [head]

/-- The chain bit and the instruction at the head of a list of words; a literal is the word after. -/
def decode (ws : List Nat) : Option (Bool × Instr) :=
  match ws with
  | [] => none
  | w :: rest =>
    match decodeWord w (.ofNat 32 (rest.headD 0)) with
    | some i =>
      if (i.isVpfx && fld w 31 1 == 0) || (i.literal.isSome && rest.isEmpty) then none
      else some (fld w 31 1 == 1, i)
    | none => none

/-- The instruction the decoder reads from a word numbered as the opcode table numbers it; operand
words above `nbits` are 0. -/
def decodeTableWord (nbits w : Nat) : Option Instr :=
  (decode [fld (w % 2 ^ nbits) 0 32, fld (w % 2 ^ nbits) 32 32]).map (·.2)

end Sys2Proof
end

