-- ==== Sys2Proof/Machine/Fetch.lean ====
section
/-!
DEFINITION. Fetching and decoding the packet a warp stands at (01_instruction_words.md R16, R17, R20
to R31, R44): code chunks, literals, prefixes, dictionary pairs and chains.
-/

namespace Sys2Proof.Machine

/-- How a packet's bytes, or its decoding, come out. -/
inductive Fetched (α : Type) where
  | got (a : α)
  | wait
  | stop (st : Stop)

namespace State

/-- Chunks an instruction cache of 128 KiB holds (00_scope.md R4).
DEDUCED, log entry 41. -/
def chunkRoom : Nat := 341

/-- The bytes a core's instruction cache holds of a physical line, as part of the chunk at `va` (R17,
R19). -/
def chunkHit (s : State) (core region va line : Nat) : Option (List Byte) :=
  match s.chunks.find? fun c => c.core == core && c.region == region && c.va == va / 384 * 384 with
  | some c =>
    let i := va % 384 / 128
    if c.lines[i]? = some line then some (slice c.bytes (128 * i) 128) else none
  | none => none

/-- The physical lines of a chunk. -/
def chunkLines (s : State) (a : Agent) (va : Nat) : List Nat :=
  (List.range 3).filterMap fun i => match (s.translate a (va + 128 * i) .x).2 with
    | .leaf l => some (l.phys (va + 128 * i) / 128)
    | _ => none

/-- Fetches the whole 384-byte chunk of an address into the instruction cache, if all of it can be read
from memory (R17). -/
def fetchChunk (s : State) (a : Agent) (core va : Nat) : State :=
  let base := va / 384 * 384
  let lines := s.chunkLines a base
  if lines.length < 3 || !lines.all isMemory then s
  else match s.readBytes a base 384 .x with
    | (s, .bytes bs) =>
      let c : Chunk := { core := core, region := a.region, va := base, bytes := bs, lines := lines }
      let rest := s.chunks.filter fun x => !(x.core == core && x.region == a.region && x.va == base)
      { s with chunks := c :: keepFirst (fun x => x.core == core) (chunkRoom - 1) rest }
    | _ => s

/-- One line's piece of a packet, translated with execute permission (R17); the configuration window answers PROT.
DESIGN CHOICE, log entry 59. -/
def fetchPiece (s : State) (a : Agent) (core va n : Nat) : State × Got :=
  match s.translate a va .x with
  | (s, .held) => (s, .held)
  | (s, .fail c l tier) => (s, .fail c l tier)
  | (s, .wait) => (s, .held)
  | (s, .leaf l) =>
    let pa := l.phys va
    match s.chunkHit core a.region va (pa / 128) with
    | some d => (s, .bytes (slice d (pa % 128) n))
    | none =>
      let s := s.fetchChunk a core va
      match s.chunkHit core a.region va (pa / 128) with
      | some d => (s, .bytes (slice d (pa % 128) n))
      | none => s.readVa a va n .x

/-- The pieces of a packet in turn; a failure names the first byte it has in the failing page (R17). -/
def fetchPieces (s : State) (a : Agent) (core va : Nat) : List Nat → State × Fetched (List Byte)
  | [] => (s, .got [])
  | n :: ns =>
    match s.fetchPiece a core va n with
    | (s, .held) => (s, .wait)
    | (s, .fail c l tier) => (s, .stop { cause := c, addr := va, level := l, tier := tier })
    | (s, .bytes bs) =>
      match s.fetchPieces a core (va + n) ns with
      | (s, .got more) => (s, .got (bs ++ more))
      | r => r

/-- The three words of the packet at an address, in the issuing warp's context (R16, R17). -/
def fetchPacket (s : State) (pc : Nat) : State × Fetched (List Word) :=
  match s.fetchPieces s.agent s.myCore pc (piecesFrom pc 2 12) with
  | (s, .got bs) => (s, .got ((List.range 3).map fun i => BitVec.ofNat 32 (fieldAt bs (4 * i) 4)))
  | (s, .wait) => (s, .wait)
  | (s, .stop st) => (s, .stop st)

end State

/-- INSTRUCTION_FETCH (R17): the chunk a warp stands in is fetched. -/
def execInstructionFetch (core slot : Nat) (s : State) : Result :=
  .next (if !s.hasWarp (warpKey core slot) then s.done
    else
      let t := { s with cur := warpKey core slot }
      { (t.fetchChunk t.agent core t.me.pc) with cur := s.cur }.done)

/-! Elements (R20). -/

/-- What a VPFX leaves for its base (R27, R28). -/
def pfxOf : Instr → Option (Nat × Bool × Nat × Src)
  | .vpfx m z r o => some (m.toNat, z == 1, r.toNat, o)
  | _ => none

/-- Opcodes 0x00 to 0x1D, the vector words (R40). -/
def vectorOp (w : Nat) : Bool := fld w 24 7 ≤ 0x1D

/-- A prefix with its base; `lit` is the word after the base (R25, R27). -/
def prefixed (p w : Nat) (lit : Word) : Option (Instr × Option (Nat × Bool × Nat × Src) × Bool) :=
  if fld p 31 1 = 0 || !vectorOp w then none
  else match decodeWord p lit, decodeWord w lit with
    | some (.vpfx m z r o), some i => some (i, pfxOf (.vpfx m z r o), i.literal.isSome || o.isLit)
    | _, _ => none

/-- The element at slot `j` of a packet, dictionary pairs unexpanded; none is ILLEGAL (R25, R27, R44). -/
def elemAt (ws : List Word) (j : Nat) : Option Elem :=
  let w := (ws.getD j 0).toNat
  let (r, k) : Option (Instr × Option (Nat × Bool × Nat × Src) × Bool) × Nat :=
    if fld w 24 7 = 0x7E then
      (if 2 ≤ j then none else prefixed w (ws.getD (j + 1) 0).toNat (ws.getD (j + 2) 0), j + 1)
    else ((decodeWord w (ws.getD (j + 1) 0)).map fun i => (i, none, i.literal.isSome), j)
  match r with
  | none => none
  | some (i, p, lit) =>
    if lit && 2 ≤ k then none
    else some
      { i := i, pfx := p, c := fld (ws.getD k 0).toNat 31 1 = 1, place := (j, false)
        next := (k + 1 + if lit then 1 else 0, false) }

/-- The elements from slot `j` on; none is ILLEGAL. -/
def elemsFrom (ws : List Word) : Nat → Nat → Option (List Elem)
  | 0, _ => some []
  | fuel + 1, j =>
    if 3 ≤ j then some []
    else match elemAt ws j with
      | none => none
      | some e => (elemsFrom ws fuel e.next.1).map (e :: ·)

/-! Dictionary pairs (R29 to R31). -/

/-- A word with its C bit replaced (R29). -/
def setC (w : Word) (c : Bool) : Word := (w &&& 0x7FFFFFFF) ||| if c then 0x80000000 else 0

namespace State

/-- The dictionary RAM of the issuing warp's block; the trap warp has none (R29, R31).
DEDUCED, log entry 42. -/
def dictionary (s : State) : Option DictRam :=
  if s.isTrap || s.myBlock.dict = 0 then none
  else (s.core s.myCore).dicts.toList.find? (·.tag == s.myBlock.dict)

/-- The words a DPAIR expands to, their C bits but for the last one's replaced, stand in the latch; a
failed load of the dictionary is raised here (R29, R31). -/
def expand (s : State) (p : Bool) (a b : Nat) : State :=
  if a = 1023 || (p && b == 1023) then s.fail .illegal
  else match s.dictionary with
    | none => s.fail .illegal
    | some d =>
      match d.fail with
      | some st => s.raise st
      | none =>
        if !d.loaded then s.wait
        else { s with expansion := setC (d.data.getD a 0) p :: if b = 1023 then [] else [d.data.getD b 0] }.done

end State

/-- DPAIR (R29): its entries are expanded. -/
def execDpair (p : BitVec 1) (a b : BitVec 10) (s : State) : Result :=
  .next (s.expand (p == 1) a.toNat b.toNat)

/-- VPFX (R27): its fields stand for the base word that follows. -/
def execVpfx (m : BitVec 6) (z : BitVec 1) (r : BitVec 3) (o : Src) (s : State) : Result :=
  .next (if (Instr.vpfx m z r o).wf then { s with pfx := pfxOf (.vpfx m z r o) }.done else s.fail .illegal)

/-- An entry decoded by itself: no DPAIR, no VPFX, no literal (R30). -/
def entryOf (w : Word) : Option Instr :=
  match decodeWord w.toNat 0 with
  | some (.dpair ..) => none
  | some (.vpfx ..) => none
  | some i => if i.literal.isSome then none else some i
  | none => none

/-- The elements the latched words of a DPAIR are; none is ILLEGAL (R29, R30). -/
def entries (ws : List Word) (p : Bool) (e : Elem) : Option (List Elem) :=
  match ws with
  | [a] => (entryOf a).map fun i => [{ e with i := i }]
  | [a, b] =>
    if fld a.toNat 24 7 = 0x7E then
      if p then
        match prefixed a.toNat b.toNat 0 with
        | some (i, q, lit) => if lit then none else some [{ e with i := i, pfx := q }]
        | none => none
      else none
    else match entryOf a, entryOf b with
      | some x, some y =>
        let j := e.place.1
        some (if p then [{ e with i := x, c := true }, { e with i := y }]
          else [{ e with i := x, c := false, next := (j, true) }, { e with i := y, place := (j, true) }])
      | _, _ => none
  | _ => none

/-- Expansion B alone, which a warp that enters with the expansion bit set decodes first (R16, R44). -/
def entryB (ws : List Word) (e : Elem) : Option (List Elem) :=
  match ws with
  | [_, b] => (entryOf b).map fun y => [{ e with i := y, place := (e.place.1, true) }]
  | _ => none

namespace State

/-- Expands the dictionary pairs among a packet's elements; `exp` asks for expansion B alone of the
first (R16, R44). -/
def expandAll (s : State) (exp : Bool) : List Elem → Fetched (List Elem)
  | [] => .got []
  | e :: es =>
    let rest := s.expandAll false es
    match e.i with
    | .dpair p a b =>
      let t := s.expand (p == 1) a.toNat b.toNat
      match t.out with
      | .raised st => .stop st
      | .done =>
        match if exp then entryB t.expansion e else entries t.expansion (p == 1) e, rest with
        | some xs, .got ys => .got (xs ++ ys)
        | none, _ => .stop { cause := .illegal }
        | _, r => r
      | _ => .wait
    | _ => match rest with
      | .got ys => .got (e :: ys)
      | r => r

/-- Whether a slot may be entered with the expansion bit set (R16, R339). -/
def expOk (es : List Elem) : Bool :=
  match es with
  | e :: _ => match e.i with
    | .dpair p _ b => p == 0 && b.toNat != 1023
    | _ => false
  | [] => false

end State

/-- The chain a list of elements begins with, and what follows it (R20). -/
def chainOf : List Elem → List Elem × List Elem
  | [] => ([], [])
  | e :: es =>
    if e.c then
      let (xs, ys) := chainOf es
      (e :: xs, ys)
    else ([e], es)

/-- No two members of a list share a key. -/
def apart {α β : Type} [DecidableEq β] (f : α → List β) : List α → Bool
  | [] => true
  | x :: xs => (xs.all fun y => !(f x).any fun k => (f y).contains k) && apart f xs

/-- The rules of one chain: it ends with C = 0, holds at most three elements of different classes, and
writes no register twice (R20, R22). -/
def chainOk (es : List Elem) : Bool :=
  (match es.getLast? with
    | some e => !e.c
    | none => true)
  && es.length ≤ 3 && apart (fun e => e.i.pipe.toList) es && apart (fun e => e.i.writes) es

/-- Every chain of a packet; the fuel is the number of elements. -/
def chainsOk : Nat → List Elem → Bool
  | 0, _ => true
  | _, [] => true
  | n + 1, es => chainOk (chainOf es).1 && chainsOk n (chainOf es).2

namespace State

/-- What decode finds against the elements: ILLEGAL, then PRIV, then ROLE (R44). -/
def refused (s : State) (es : List Elem) : Option Cause :=
  let cs := es.map fun e => ({ s with pfx := e.pfx } : State).permitted e.i
  if cs.contains (some .illegal) || !chainsOk es.length es then some .illegal
  else if cs.contains (some .priv) then some .priv
  else if cs.contains (some .role) then some .role
  else none

/-- The elements of a packet from a position on, in the issuing warp's context (R16, R44). -/
def decodePacket (s : State) (ws : List Word) (j : Nat) (exp : Bool) : Fetched (List Elem) :=
  match elemsFrom ws 3 j with
  | none => .stop { cause := .illegal }
  | some es =>
    if exp && !expOk es then .stop { cause := .illegal }
    else match s.expandAll exp es with
      | .got es =>
        match s.refused es with
        | some c => .stop { cause := c }
        | none => .got es
      | r => r

/-- The packet at a position, fetched and decoded. -/
def packetAt (s : State) (p : Nat × Nat × Bool) : State × Fetched (List Elem) :=
  match s.fetchPacket p.1 with
  | (s, .got ws) => (s, s.decodePacket ws p.2.1 p.2.2)
  | (s, .wait) => (s, .wait)
  | (s, .stop st) => (s, .stop st)

end State

end Sys2Proof.Machine
end

