-- ==== Sys2Proof/Machine/Matrix.lean ====
section
/-!
DEFINITION. The matrix array and accumulator tiles (13_matrix_engine.md R272 to R285, with the sums of
08_number_formats.md R195 and R196): MMA, MMASP, ACLD, ACST, ACRD, ACWR and the array's events.
-/

namespace Sys2Proof.Machine

/-! Sums (R195, R196). -/

/-- The exact sum of an accumulator and its products, rounded once to FP32 (R195, R188). -/
def fpSum (terms : List (FVal × Bool)) : Nat :=
  let vs := terms.map (·.1)
  let nan := terms.any fun t => t.2 || t.1.isNan
  let pos := vs.contains (.inf false)
  let neg := vs.contains (.inf true)
  if nan || (pos && neg) then Fmt.fp32.nan
  else if pos then Fmt.fp32.inf
  else if neg then Fmt.fp32.inf + Fmt.fp32.sgn
  else if vs.all FVal.isZero then (if vs.all FVal.isNeg then Fmt.fp32.sgn else 0)
  else
    let e := vs.foldl (fun (e : Int) v => if v.isZero then e else min e v.exp) 100000
    let n := vs.foldl (fun (n : Int) v => if v.isZero then n else n + v.scaled e) 0
    (roundInt .fp32 .rne n e).1

/-- An element's value with its scale byte; 0xFF is NaN (R186). -/
def scaledElem (t x sc : Nat) : FVal := if sc = 255 then .nan false else (floatElem t x).scale ((sc : Int) - 127)

/-- What a matrix operation's shape word and offsets say (R275, R278). -/
structure Shape where
  sparse : Bool
  k : Nat
  ta : Nat
  tb : Nat
  scaled : Bool
  zero : Bool
  a : Nat
  b : Nat
  mt : Nat

namespace Shape

/-- K positions A holds: the kept half of a sparse A (R278). -/
def ka (x : Shape) : Nat := if x.sparse then x.k / 2 else x.k
def ea (x : Shape) : Nat := padBytes x.ta
def eb (x : Shape) : Nat := padBytes x.tb
def float (x : Shape) : Bool := isFloatType x.ta
def groups (x : Shape) : Nat := x.ka / 16
/-- Clocks of a k-group (R272). -/
def clocks (x : Shape) : Nat := if x.ea = 1 && x.eb = 1 then 8 else 32
def scaleA (x : Shape) : Nat := up256 (x.a + 96 * x.ka * x.ea)
def scaleB (x : Shape) : Nat := up256 (x.b + 256 * x.k * x.eb)

/-- The limits of R275, R276 and R278. -/
def ok (x : Shape) (w : Nat) : Bool :=
  w < 2 ^ 26 && x.ta ≤ 5 && x.tb ≤ 5 && isFloatType x.ta == isFloatType x.tb
    && x.k % (if x.sparse then 32 else 16) = 0 && (if x.sparse then 32 else 16) ≤ x.k && x.k ≤ 4096
    && (!x.scaled || (x.ta ≤ 1 && x.tb ≤ 1 && x.k % 32 = 0))

/-- Ranges of A with its scales and metadata, and of B with its scales: offset and length. -/
def rangesA (x : Shape) : List (Nat × Nat) :=
  [(x.a, 96 * x.ka * x.ea)] ++ (if x.scaled then [(x.scaleA, x.k / 32 * 96)] else [])
    ++ (if x.sparse then [(x.mt, 12 * x.k)] else [])
def rangesB (x : Shape) : List (Nat × Nat) :=
  [(x.b, 256 * x.k * x.eb)] ++ (if x.scaled then [(x.scaleB, x.k / 32 * 256)] else [])

/-- The scale row a k-group takes. -/
def scaleRow (x : Shape) (g : Nat) : Nat := if x.sparse then g else g / 2

/-- Bytes a k-group reads of A and of B. -/
def groupA (x : Shape) (g : Nat) : List (Nat × Nat) :=
  [(x.a + g * 1536 * x.ea, 1536 * x.ea)] ++ (if x.scaled then [(x.scaleA + x.scaleRow g * 96, 96)] else [])
    ++ (if x.sparse then [(x.mt + 384 * g, 384)] else [])
def groupB (x : Shape) (g : Nat) : List (Nat × Nat) :=
  (if x.sparse then [(x.b + 2 * g * 4096 * x.eb, 2 * 4096 * x.eb)] else [(x.b + g * 4096 * x.eb, 4096 * x.eb)])
    ++ (if x.scaled then [(x.scaleB + x.scaleRow g * 256, 256)] else [])

/-- The operands as an operation keeps them. -/
def list (x : Shape) : List Nat :=
  [x.k, x.ta, x.tb, if x.scaled then 1 else 0, if x.zero then 1 else 0, x.a, x.b, x.mt]
def of (sparse : Bool) (l : List Nat) : Shape where
  sparse := sparse
  k := l.getD 0 0
  ta := l.getD 1 0
  tb := l.getD 2 0
  scaled := l.getD 3 0 == 1
  zero := l.getD 4 0 == 1
  a := l.getD 5 0
  b := l.getD 6 0
  mt := l.getD 7 0

/-- The shape a word and the offsets give (R275). -/
def ofWord (sparse : Bool) (w a b mt : Nat) : Shape where
  sparse := sparse
  k := bits w 0 16
  ta := bits w 16 4
  tb := bits w 20 4
  scaled := w.testBit 24
  zero := w.testBit 25
  a := a
  b := b
  mt := mt

end Shape

/-- Clocks of an operation (R272). -/
def EngOp.shape (o : EngOp) : Shape :=
  match o.kind with
  | .mma sp _ _ => Shape.of sp o.args
  | _ => Shape.of false []

/-- Clocks an operation has still to run (R272, R280). -/
def EngOp.due (o : EngOp) : Nat :=
  match o.kind with
  | .mma .. => (o.shape.groups - o.stage) * o.shape.clocks
  | _ => 48

namespace State

/-- The class queue of a core, oldest first. -/
def classQueue (s : State) (core cls : Nat) : List (Nat × EngOp) :=
  (s.core core).mq.filterMap fun id => match s.ops.get? id with
    | some o => if o.cls = cls then some (id, o) else none
    | none => none

/-- Clocks still due of the operations ahead in a class queue, on each of some cores (R280). -/
def queueDue (s : State) (cores : List Nat) (cls : Nat) : Nat :=
  ((cores.flatMap fun c => (s.core c).mq).dedup.filterMap fun id => match s.ops.get? id with
    | some o => if o.cls = cls then some o.due else none
    | none => none).sum

/-- The matrix queues of one of some cores are full: 16 operations (R280). -/
def matrixFull (s : State) (cores : List Nat) : Bool := cores.any fun c => 16 ≤ (s.core c).mq.length

/-- Some byte range of a block's scratchpad fails to be covered, or has a row that will be late. -/
def anyOut (s : State) (blk : Nat) (rs : List (Nat × Nat)) : Option (Nat × Nat) := rs.find? fun r => !s.padCovered blk r.1 r.2
def anyLate (s : State) (core bound : Nat) (rs : List (Nat × Nat)) : Option (Nat × Nat) :=
  rs.find? fun r => s.lateRange core r.1 r.2 bound

/-- The partner of a pair operation: the other core of the pair and its block of the cluster with the
lowest %block (R279). -/
def partner (s : State) : Option (Nat × Nat) :=
  let c := s.myCore ^^^ 1
  let bs := (s.clusterBlks s.myBlk).filter fun b =>
    (s.block b).core == c && ((s.block b).state == .running || (s.block b).state == .halted)
  (bs.foldl (fun (a : Option Nat) b => match a with
    | some x => if (s.block b).idx < (s.block x).idx then some b else some x
    | none => some b) none).map fun b => (c, b)

/-- The cores an operation runs on, with the block whose tile each writes (R279). -/
def opCores (o : EngOp) : List (Nat × Nat) :=
  (o.core, o.blk) :: match o.pair with
    | some p => [p]
    | none => []

/-- Accepts a matrix operation: the class queue of each core it uses, and the array is told (R279, R280). -/
def matrixAccept (s : State) (o : EngOp) (srcs dsts : List Range) : Nat × State :=
  let (id, s) := s.accept o srcs dsts none
  let s := (opCores o).foldl (fun (s : State) e => s.modCore e.1 fun c => { c with mq := c.mq ++ [id] }) s
  (id, s.pushNew (.matrixOpStart o.core))

def toRanges (ident : Nat) (rs : List (Nat × Nat)) : List Range := rs.map fun r => ⟨true, ident, r.1, r.2⟩

/-- A pair operation writes a tile as the partner's (R282). -/
def pairBusy (s : State) (blk t : Nat) : Bool :=
  s.ops.any fun e => e.2.tile == t && (match e.2.pair with
    | some (_, b) => b == blk
    | none => false)

/-- MMA and MMASP at issue (R274 to R279). -/
def mmaIssue (s : State) (a : BitVec 3) (neg pair sparse : Bool) (x y k : BitVec 6) : State :=
  let t := a.toNat
  let w := (s.before.sreg k.toNat).toNat
  let mt := if sparse then (s.before.sreg (k.toNat + 1)).toNat else 0
  let x := Shape.ofWord sparse w (s.before.sreg x.toNat).toNat (s.before.sreg y.toNat).toNat mt
  let go : State :=
    if !x.ok w then s.fail .bounds
    else if x.a % 256 ≠ 0 then s.raise { cause := .align, addr := x.a }
    else if x.b % 256 ≠ 0 then s.raise { cause := .align, addr := x.b }
    else if sparse && x.mt % 256 ≠ 0 then s.raise { cause := .align, addr := x.mt }
    else if s.myBlock.nacc ≤ t then s.fail .bounds
    else match s.anyOut s.myBlk (x.rangesA ++ x.rangesB) with
      | some r => s.raise { cause := .bounds, addr := r.1 }
      | none =>
        if s.tileLocked s.myBlk t then s.fail .rangelock
        else
          let p := if pair then s.partner else none
          let pc := (p.map (·.1)).getD s.myCore
          let pb := (p.map (·.2)).getD s.myBlk
          if pair && (p.isNone || (s.block pb).nacc ≤ t) then s.fail .bounds
          else match (if pair then s.anyOut pb x.rangesB else none) with
            | some r => s.raise { cause := .bounds, addr := r.1 }
            | none =>
              if pair && s.tileLocked pb t then s.fail .rangelock
              else
                let cores := if pair then [s.myCore, pc] else [s.myCore]
                let bound := clocksNs (x.groups * x.clocks + s.queueDue cores s.ctxCls)
                match s.anyLate s.myCore bound (x.rangesA ++ x.rangesB) with
                | some r => s.raise { cause := .stale, addr := r.1 }
                | none =>
                  match (if pair then s.anyLate pc bound x.rangesB else none) with
                  | some r => s.raise { cause := .stale, addr := r.1 }
                  | none =>
                    let srcs := toRanges (s.identOf s.myBlk) (x.rangesA ++ x.rangesB)
                    let psrcs := toRanges (s.identOf pb) x.rangesB
                    if s.locksWait s.myCore srcs [] || (pair && s.locksWait pc psrcs []) then s.wait
                    else if s.unsettled s.cur s.chainId srcs || s.matrixFull cores then s.wait
                    else
                      let o := { s.mkOp (.mma sparse neg pair) with tile := t, args := x.list, pair := p }
                      let (id, s) := s.matrixAccept o srcs []
                      (if pair then
                        { s with locks := s.locks ++ [{ core := pc, op := id, srcs := psrcs, dsts := [], bar := none }] }
                      else s).done
  if s.acqHolds then s.wait
  else if s.isTrap then s.fail .bounds
  else s.onTile t (if s.pairBusy s.myBlk t then s.wait else go)

end State

/-- MMA (R274 to R277, R279). -/
def execMma (a : BitVec 3) (n p : BitVec 1) (x y k : BitVec 6) (s : State) : Result :=
  .next (s.issue (.mma a n p x y k) (s.mmaIssue a (n == 1) (p == 1) false x y k))

/-- MMASP (R274 to R276, R278, R279). -/
def execMmasp (a : BitVec 3) (n p : BitVec 1) (x y k : BitVec 6) (s : State) : Result :=
  .next (s.issue (.mmasp a n p x y k) (s.mmaIssue a (n == 1) (p == 1) true x y k))

/-- Bytes of a tile's image (R283). -/
def imageBytes : Nat := 98304

namespace State

/-- ACLD and ACST at issue (R283). -/
def tileMove (s : State) (load : Bool) (a : BitVec 3) (o b : Src) : State :=
  let t := a.toNat
  let off := (s.readScalar o).toNat
  let bar := (s.readScalar b).toNat
  let go : State :=
    if off % 256 ≠ 0 then s.raise { cause := .align, addr := off }
    else if bar % 16 ≠ 0 then s.raise { cause := .align, addr := bar }
    else if s.myBlock.nacc ≤ t then s.fail .bounds
    else if !s.padCovered s.myBlk off imageBytes then s.raise { cause := .bounds, addr := off }
    else if !s.padCovered s.myBlk bar 16 then s.raise { cause := .bounds, addr := bar }
    else if load && s.tileLocked s.myBlk t then s.fail .rangelock
    else if load && s.lateRange s.myCore off imageBytes (clocksNs (48 + s.queueDue [s.myCore] s.ctxCls)) then
      s.raise { cause := .stale, addr := off }
    else
      let r := [s.padRange off imageBytes]
      let srcs := if load then r else []
      let dsts := if load then [] else r
      if s.locksWait s.myCore srcs dsts || s.unsettled s.cur s.chainId r || s.matrixFull [s.myCore] then s.wait
      else
        let op := { s.mkOp (if load then .acld else .acst) with tile := t, off := off, bar := some bar }
        (s.matrixAccept op srcs dsts).2.done
  if s.acqHolds then s.wait
  else if s.isTrap then s.fail .bounds
  else s.onTile t (if s.pairBusy s.myBlk t then s.wait else go)

/-- ACRD and ACWR: the column they start at once their checks and waits are over; with no lane in exec they do nothing
at all (R284). -/
def columns (s : State) (a : BitVec 3) (k : Src) (write : Bool) (f : Nat → State) : State :=
  let t := a.toNat
  let c := (s.readScalar k).toNat
  if s.acqHolds then s.wait
  else if s.isTrap then s.fail .bounds
  else s.onTile t
    (if c % 4 ≠ 0 then s.fail .align
    else if 252 < c then s.fail .bounds
    else if s.myBlock.nacc ≤ t then s.fail .bounds
    else if write && s.tileLocked s.myBlk t then s.fail .rangelock
    else if s.tileBusy s.myBlk t then s.wait
    else f c)

end State

/-- ACLD (R283). -/
def execAcld (a : BitVec 3) (o b : Src) (s : State) : Result :=
  .next (s.issue (.acld a o b) (s.tileMove true a o b))

/-- ACST (R283). -/
def execAcst (a : BitVec 3) (o b : Src) (s : State) : Result :=
  .next (s.issue (.acst a o b) (s.tileMove false a o b))

/-- ACRD (R284). -/
def execAcrd (a : BitVec 3) (v : BitVec 8) (k : Src) (s : State) : Result :=
  .next (s.issueVec (.acrd a v k)
    (s.columns a k false fun c =>
      let t := s.myBlock.accs.get a.toNat []
      ((List.range 4).foldl (fun (s : State) i =>
        s.setV (v.toNat + i) s.execMask (lanesOf fun l => t.get (256 * l + c + i) 0)) s).done))

/-- ACWR (R284). -/
def execAcwr (a : BitVec 3) (v : BitVec 8) (k : Src) (s : State) : Result :=
  .next (s.issueVec (.acwr a v k)
    (s.columns a k true fun c =>
      let t := s.myBlock.accs.get a.toNat []
      let put (t : Tab Word) (l : Nat) : Tab Word := (List.range 4).foldl (fun (t : Tab Word) i =>
        t.put (256 * l + c + i) (lane (s.before.vreg (v.toNat + i)) l)) t
      (s.modMyBlock fun b => { b with accs := b.accs.put a.toNat ((laneList s.execMask).foldl put t) }).done))

namespace State

/-! The array (R277, R281). -/

/-- Column `c` of B a kept or dense position of row `r` meets: its k (R278). -/
def kOf (s : State) (core : Nat) (x : Shape) (r p : Nat) : Nat :=
  if x.sparse then
    let byte := (s.padRead core (x.mt + p / 16 * 384 + r * 4 + p % 16 / 4) 1).headD 0
    4 * (p / 2) + bits byte.toNat (2 * (p % 4)) 2
  else p

/-- One element of a tile after a k-group: A on core `ca`, B on core `cb` (R277, R195, R196). -/
def groupElem (s : State) (x : Shape) (neg : Bool) (ca cb g r c : Nat) (acc : Word) : Word :=
  let ps := (List.range 16).map (16 * g + ·)
  let at' (core off n : Nat) : Nat := leNat (s.padRead core off n)
  let a (p : Nat) : Nat := at' ca (x.a + tilePlace 0 x.ea r p) x.ea
  let b (k : Nat) : Nat := at' cb (x.b + tilePlace 1 x.eb c k) x.eb
  let sa := if x.scaled then at' ca (x.scaleA + x.scaleRow g * 96 + r) 1 else 127
  let sb := if x.scaled then at' cb (x.scaleB + x.scaleRow g * 256 + c) 1 else 127
  if x.float then
    let terms := ps.map fun p =>
      let q := fProd (scaledElem x.ta (a p) sa) (scaledElem x.tb (b (s.kOf ca x r p)) sb)
      (if neg then q.1.neg else q.1, q.2)
    BitVec.ofNat 32 (fpSum ((unpack .fp32 acc.toNat, false) :: terms))
  else
    let n := (ps.map fun p => intElem x.ta (a p) * intElem x.tb (b (s.kOf ca x r p))).sum
    toWord (acc.toInt + if neg then -n else n)

/-- A k-group over one tile. -/
def groupTile (s : State) (x : Shape) (neg : Bool) (ca cb g : Nat) (t : Tab Word) : Tab Word :=
  (List.range 24576).map fun i => (i, s.groupElem x neg ca cb g (i / 256) (i % 256) (t.get i 0))

/-- Writes a tile of a block. -/
def setTile (s : State) (blk t : Nat) (x : Tab Word) : State := s.modBlock blk fun b => { b with accs := b.accs.put t x }

/-- The k-group at the operation's stage, on each of its cores. -/
def runGroup (s : State) (o : EngOp) (neg : Bool) : State :=
  let x := o.shape
  (opCores o).foldl (fun (s : State) e =>
    let t := if x.zero && o.stage = 0 then [] else (s.block e.2).accs.get o.tile []
    s.setTile e.2 o.tile (s.groupTile x neg o.core e.1 o.stage t)) s

/-- The first row of a k-group that has not long enough to live (R281). -/
def groupLate (s : State) (o : EngOp) : Option (Nat × Nat) :=
  let x := o.shape
  let bound := clocksNs x.clocks
  match s.anyLate o.core bound (x.groupA o.stage ++ x.groupB o.stage) with
  | some r => some r
  | none => match o.pair with
    | some (c, _) => s.anyLate c bound (x.groupB o.stage)
    | none => none

/-- The array of each core of an operation is given up, and asked to start another. -/
def freeArray (s : State) (o : EngOp) : State :=
  (opCores o).foldl (fun (s : State) e => (s.modCore e.1 ({ · with running := none })).pushNew (.matrixOpStart e.1)) s

/-- A STALE of a delayed or entered operation is recorded for its tile (R281): of a pair, for the leader's block alone, whose
instruction it is.
DEDUCED, log entry 35. -/
def noteStale (s : State) (o : EngOp) (addr : Nat) : State :=
  let st : Stop := { cause := .stale, addr := addr, precise := false, fpos := some (o.pc, o.pslot, o.pexp) }
  s.modBlock o.blk fun b => { b with mstale := b.mstale ++ [(o.tile, o.slot, st)] }

/-- An operation retires: queue, lock and array are given up (R277, R283). -/
def matrixRetire (s : State) (id : Nat) (o : EngOp) : State :=
  let s := (opCores o).foldl (fun (s : State) e => s.modCore e.1 fun c => { c with mq := c.mq.filter (· != id) }) s
  (s.endOp id).freeArray o

/-- Pair operations on a core pair are taken in the order they reached the rod (R279).
DEDUCED, log entry 35. -/
def pairTurn (s : State) (id : Nat) (o : EngOp) : Bool :=
  o.pair.isNone || s.ops.all fun e =>
    !(e.2.pair.isSome && e.2.core / 2 == o.core / 2 && e.1 < id)

/-- The array of a core serves a pair operation of its neighbour that has started and not retired: its own operations
wait in their queues (R279). -/
def slaved (s : State) (core id : Nat) : Bool :=
  s.ops.any fun e => e.1 != id && e.2.started && e.2.pair.map (·.1) == some core

/-- An operation is the oldest of its class on each core it uses, and none of these is another's (R279, R280). -/
def nextUp (s : State) (e : Nat × EngOp) : Bool :=
  s.pairTurn e.1 e.2 && (opCores e.2).all fun c =>
    ((s.classQueue c.1 e.2.cls).head?.map (·.1)) == some e.1 && !s.slaved c.1 e.1

/-- An operation can start: its arrays are free. -/
def canStart (s : State) (e : Nat × EngOp) : Bool :=
  s.nextUp e && (opCores e.2).all fun c => (s.core c.1).running.isNone

/-- An operation waits for nothing but operations of higher class numbers (R281). -/
def mayEnter (s : State) (e : Nat × EngOp) : Bool :=
  s.nextUp e && (opCores e.2).all fun c => match (s.core c.1).running.bind s.ops.get? with
    | some o => e.2.cls < o.cls
    | none => true

/-- Whether an operation of a lower class number waits for a core of one: it goes first, and a pair once both its arrays
have come to a k-group boundary (R281). -/
def lowerWaits (s : State) (o : EngOp) : Bool :=
  (opCores o).any fun c => (List.range o.cls).any fun cls =>
    match (s.classQueue c.1 cls).head? with
    | some e => s.mayEnter e
    | none => false

/-- The operation a core's array takes next: the lowest class with one that can start, on every core it uses (R280,
R281). -/
def nextMatrix (s : State) (core : Nat) : Option (Nat × EngOp) :=
  ((List.range 4).filterMap fun cls => (s.classQueue core cls).head?).find? fun e =>
    s.canStart e && !s.lowerWaits e.2

/-- A k-group begins: an operation that has been entered checks its rows again (R281). -/
def beginGroup (s : State) (id : Nat) (o : EngOp) : State :=
  match (if o.entered then s.groupLate o else none) with
  | some r => (s.noteStale o r.1).matrixRetire id o
  | none => s.push [.kgroupBoundary o.core]

end State

/-- MATRIX_OP_START (R280, R281): the array of a core takes the next operation. -/
def execMatrixOpStart (core : Nat) (s : State) : Result :=
  .next (match s.nextMatrix core with
    | none => s.done
    | some (id, o) =>
      let s := (State.opCores o).foldl (fun (s : State) c => s.modCore c.1 ({ · with running := some id })) s
      let s := s.modOp id ({ · with started := true })
      (match o.kind with
        | .mma .. => s.beginGroup id o
        | .acld =>
          if s.lateRange o.core o.off imageBytes 80 then
            let s := (s.noteStale o o.off).mbStatus o.core (o.bar.getD 0) 6
            (s.countBytes id imageBytes).matrixRetire id o
          else s.push [.matrixOpRetire core]
        | _ => s.push [.matrixOpRetire core]).done)

/-- KGROUP_BOUNDARY (R277, R281): the running k-group of a core's array is accumulated; then the next
begins, or a lower class enters, or the operation retires. -/
def execKgroupBoundary (core : Nat) (s : State) : Result :=
  .next (match (s.core core).running.bind fun id => (s.ops.get? id).map fun o => (id, o) with
    | none => s.done
    | some (id, o) =>
      match o.kind with
      | .mma _ neg _ =>
        if o.core ≠ core then s.done
        else
        let s := s.runGroup o neg
        let o := { o with stage := o.stage + 1 }
        let s := s.modOp id fun _ => o
        (if o.shape.groups ≤ o.stage then s.push [.matrixOpRetire core]
        else if s.lowerWaits o then (s.modOp id ({ · with entered := true })).freeArray o
        else s.beginGroup id o).done
      | _ => s.done)

/-- MATRIX_OP_RETIRE (R277, R283): the operation on a core's array ends; a tile move takes place. -/
def execMatrixOpRetire (core : Nat) (s : State) : Result :=
  .next (match (s.core core).running.bind fun id => (s.ops.get? id).map fun o => (id, o) with
    | none => s.done
    | some (id, o) =>
      match o.kind with
      | .acld =>
        let bs := s.padRead o.core o.off imageBytes
        let t : Tab Word := (List.range 24576).map fun i => (i, BitVec.ofNat 32 (fieldAt bs (4 * i) 4))
        (((s.setTile o.blk o.tile t).countBytes id imageBytes).matrixRetire id o).done
      | .acst =>
        let t := (s.block o.blk).accs.get o.tile []
        let bs := (List.range 24576).flatMap fun i => leBytes 4 (t.get i 0).toNat
        ((((s.opWrite id o.off bs).opStamps id o.off imageBytes).countBytes id imageBytes).matrixRetire id o).done
      | _ => (s.matrixRetire id o).done)

end Sys2Proof.Machine
end

