-- ==== Sys2Proof/Machine/Sync.lean ====
section
/-!
DEFINITION. The register tree (11_register_tree.md): PUT and its pending slots, the block, cluster and
grid barriers, and XCHG.
-/

namespace Sys2Proof.Machine

/-! Contributions (R232 to R236). -/

/-- One contribution under a mode; FADD keeps the exact value in units of 2^-149 (R233). -/
def slotOf (mode : Nat) (x : Word) : Slot :=
  if mode = 9 then
    match unpack .fp32 x.toNat with
    | .nan _ => { mode := 9, val := x, special := 1 }
    | .inf n => { mode := 9, val := x, special := if n then 4 else 2 }
    | v => { mode := 9, val := x, num := v.scaled (-149), negZero := v.isZero && v.isNeg }
  else { mode := mode, val := x }

/-- Two words combined by a reduction (R232). -/
def putCombine (mode : Nat) (x y : Word) : Word :=
  match mode with
  | 1 => x + y
  | 2 => sminWord x y
  | 3 => smaxWord x y
  | 4 => x &&& y
  | 5 => x ||| y
  | 6 => x ^^^ y
  | 7 => uminWord x y
  | 8 => umaxWord x y
  | 10 => (fpMinMax false x y).1
  | 11 => (fpMinMax true x y).1
  | _ => x

def Slot.join (a b : Slot) : Slot :=
  if a.mode = 9 then
    { a with num := a.num + b.num, special := a.special ||| b.special, negZero := a.negZero && b.negZero }
  else { a with val := putCombine a.mode a.val b.val }

/-- The value a slot publishes; FADD rounds once (R233, R236). -/
def Slot.publish (a : Slot) : Word :=
  if a.mode = 9 then
    if a.special.testBit 0 || (a.special.testBit 1 && a.special.testBit 2) then 0x7FC00000
    else if a.special.testBit 1 then 0x7F800000
    else if a.special.testBit 2 then 0xFF800000
    else if a.num = 0 then (if a.negZero then 0x80000000 else 0)
    else BitVec.ofNat 32 (roundInt .fp32 .rne a.num (-149)).1
  else a.val

/-- The contributions of one PUT combined; none where lanes disagree under AGREE (R234). -/
def putAll (mode : Nat) : List Word → Option Slot
  | [] => none
  | x :: xs =>
    if mode = 0 then (if xs.all (· == x) then some (slotOf 0 x) else none)
    else some (xs.foldl (fun a y => a.join (slotOf mode y)) (slotOf mode x))

/-- What a slot does with a contribution, and its answer (R236). -/
def slotFold (old : Option Slot) (c : Slot) : Slot × Reply :=
  match old with
  | none => (c, .ok)
  | some o =>
    if o.mode ≠ c.mode then (o, .cause .scopemix)
    else if o.mode = 0 then (o, if o.val = c.val then .ok else .cause .agree)
    else (o.join c, .ok)

/-- The register number in its own file of a destination code. -/
def putIdx (d : Nat) : Nat := if d < 16 then d else d % 8

/-- Commits the slots of a scope: committed values and empty slots (R236). -/
def ScopeFile.commit (f : ScopeFile) : ScopeFile :=
  { f with regs := f.slots.foldl (fun r e => r.put (putIdx e.1) e.2.publish) f.regs, slots := [] }

namespace State

/-- Writes a wider scope's file by destination code: b 0-15, k 16-23, g 24-31. -/
def putFile (s : State) (b d : Nat) : ScopeFile :=
  if d < 16 then (s.block b).bfile
  else if d < 24 then (s.cluster (s.block b).cluster).file
  else (s.grid (s.block b).grid).file

def modFile (s : State) (b d : Nat) (f : ScopeFile → ScopeFile) : State :=
  if d < 16 then s.modBlock b fun x => { x with bfile := f x.bfile }
  else if d < 24 then s.modCluster (s.block b).cluster fun x => { x with file := f x.file }
  else s.modGrid (s.block b).grid fun x => { x with file := f x.file }

/-- The destination code of a wider register. -/
def putCode : Src → Option Nat
  | .b n => some n.toNat
  | .k n => some (16 + n.toNat)
  | .g n => some (24 + n.toNat)
  | _ => none

/-- Sends a contribution and waits for the slot's answer (R235, R238). -/
def putWide (s : State) (d : Nat) (c : Slot) : State :=
  match s.me.asks.get? 0, s.me.replies.get? 0 with
  | some _, _ => s.wait
  | none, some (.cause k) => s.fail k
  | none, some _ => (s.modMe fun w => { w with replies := w.replies.del 0 }).done
  | none, none =>
    ((s.modMe fun w => { w with asks := w.asks.put 0 (.put d c.mode c.val c.num c.special c.negZero) }).push
      [.putSlotContribution s.myCore s.mySlot]).wait

/-- The contributions of the active lanes, all or those of one subgroup; an s register's value is one contribution (R234). -/
def putLanes (s : State) (x : Src) (m : LaneMask) : List Word :=
  let ls := match x with | .s _ => (laneList m).take 1 | _ => laneList m
  ls.map fun l => s.readLane x l

/-- PUT to q: each subgroup with an active lane (R234, R238). -/
def putQ (s : State) (mode r : Nat) (x : Src) : State :=
  let parts := (List.range 3).filter fun j => s.execMask &&& subMask j != 0
  let vals := parts.map fun j => (j, putAll mode (s.putLanes x (s.execMask &&& subMask j)))
  if vals.any fun e => e.2 == none then s.fail .agree
  else
    (vals.foldl (fun (s : State) e => s.modMe (·.setQ r e.1 ((e.2.map Slot.publish).getD 0))) s).done

end State

/-- PUT (R238): with no lane in exec it does nothing at all (R234). -/
def execPut (m : BitVec 4) (d : Src) (s : Src) (st : State) : Result :=
  .next (st.issueVec (.put m d s)
    (-- the trap warp has no wider register (R400)
    if st.isTrap && (State.putCode d).isSome then st.fail .bounds
    else match d, putAll m.toNat (st.putLanes s st.execMask) with
      | .q r, _ => st.putQ m.toNat r.toNat s
      | _, none => st.fail .agree
      | .s r, some c => (st.setS r.toNat c.publish).done
      | d, some c =>
        (match State.putCode d with
        | some k => st.putWide k c
        | none => st.fail .illegal)))

/-- PUT_SLOT_CONTRIBUTION (R236). -/
def execPutSlotContribution (core slot : Nat) (s : State) : Result :=
  .next (let k := warpKey core slot
    match (s.warp k).asks.get? 0 with
    | some (.put d mode val num special nz) =>
      let b := (s.warp k).blk
      let (c, r) := slotFold ((s.putFile b d).slots.get? d) ⟨mode, val, num, special, nz⟩
      let s := s.modFile b d fun f => { f with slots := f.slots.put d c }
      let s := s.modWarp k fun w => { w with replies := w.replies.put 0 r }
      (s.push [.putSlotAnswer core slot]).done
    | _ => s.done)

/-- PUT_SLOT_ANSWER (R238): the warp may go on, or raise the cause answered. -/
def execPutSlotAnswer (core slot : Nat) (s : State) : Result :=
  .next (s.modWarp (warpKey core slot) fun w =>
    if (w.replies.get? 0).isSome then { w with asks := w.asks.del 0 } else w).done

/-! Barriers (R239 to R241): 1 BAR, 2 CBAR, 3 GBAR; `barDest` names the scope's file. -/

def barDest (kind : Nat) : Nat := if kind = 1 then 0 else if kind = 2 then 16 else 24

namespace State

/-- The blocks that take part in a barrier with a block. -/
def barBlocks (s : State) (kind b : Nat) : List Nat :=
  if kind = 1 then [b]
  else if kind = 2 then (s.cluster (s.block b).cluster).blks
  else (s.blocks.filter fun e => e.2.grid == (s.block b).grid).map (·.1)

/-- A warp's name in an arrival set. -/
def arriver (b widx : Nat) : Nat := 32 * b + widx

/-- Whether every participant has arrived; exited warps and retired blocks count (R239). -/
def allArrived (s : State) (kind b : Nat) : Bool :=
  (s.barBlocks kind b).all fun x =>
    let k := s.block x
    k.state == .retired || (List.range k.slots.length).all fun w =>
      k.gone.contains w || (s.putFile b (barDest kind)).arrived.contains (arriver x w)

/-- The tag a block's warps write with: its core's, or the one saved when it left the core (R164, R174). -/
def clockOf (s : State) (b : Nat) : Tag :=
  let x := s.block b
  if x.state == .evicted || x.state == .retired then ⟨x.lclk, x.leasemax⟩ else ⟨(s.core x.core).lclk, (s.core x.core).leasemax⟩

/-- A block takes a tag (R164). -/
def raiseClock (s : State) (b : Nat) (t : Tag) : State :=
  let x := s.block b
  if x.state == .evicted then s.modBlock b fun x => { x with lclk := max x.lclk t.stamp, leasemax := max x.leasemax t.hold }
  else s.modCore x.core fun c => { c with lclk := max c.lclk t.stamp, leasemax := max c.leasemax t.hold }

/-- Tags of the participating blocks merge, those of retired ones included (R164, R239). -/
def mergeClocks (s : State) (bs : List Nat) : State :=
  let t := bs.foldl (fun (t : Tag) b => t.max (s.clockOf b)) {}
  (bs.filter fun x => (s.block x).state != .retired).foldl (fun (s : State) b => s.raiseClock b t) s

/-- A phase ends: the next one starts with no arrival (R239). -/
def endPhase (s : State) (kind b : Nat) : State :=
  let s := if kind = 1 then s else s.mergeClocks (s.barBlocks kind b)
  s.modFile b (barDest kind) fun f => { f with phase := f.phase + 1, arrived := [] }

/-- Completes a phase whose participants have all arrived: slots commit, g values go to every replica
first (R239). -/
def tryPhase (s : State) (kind b : Nat) : State :=
  let f := s.putFile b (barDest kind)
  if f.arrived = [] || !s.allArrived kind b then s
  else if kind = 3 then
    let g := (s.block b).grid
    if (s.grid g).taking ≠ [] then s
    else
      let s := s.modGrid g fun x => { x with file := x.file.commit, taking := x.replicas.map (·.1) }
      if (s.grid g).taking = [] then s.endPhase 3 b
      else s.push ((s.grid g).taking.map (.gReplicaUpdate g))
  else (s.modFile b (barDest kind) ScopeFile.commit).endPhase kind b

/-- A warp that has arrived waits for the phase; a blocking point (R241, R348). -/
def barWait (s : State) (kind p : Nat) : State :=
  (s.modMe fun w => { w with wake := .bar kind p }).park

/-- The phase of the barrier's scope. -/
def barPhase (s : State) (kind : Nat) : Nat := (s.putFile s.myBlk (barDest kind)).phase

/-- The barriers' shared effect (R241); `sync` waits for the phase. -/
def barrier (s : State) (kind : Nat) (sync : Bool) : State :=
  match s.me.inBar with
  | some (_, false, _) => s.park
  | some (_, true, _) =>
    let p := (s.me.arrived[kind - 1]?.getD 0) - 1
    if !sync || p < s.barPhase kind then
      (s.modMe fun w => { w with inBar := none, wake := .none }).done
    else s.barWait kind p
  | none =>
    if s.isTrap then s.fail .bounds
    else if s.me.stack ≠ [] then s.fail .syncdiv
    else if kind = 3 && !(s.grid s.myBlock.grid).coop then s.fail .illegal
    else match s.arithNow with
      | some st => s.raise st
      | none =>
        if s.me.arrived[kind - 1]?.getD 0 = s.barPhase kind + 1 then s.barWait kind (s.barPhase kind)
        else
          ((s.modMe fun w => { w with inBar := some (kind, false, sync), wake := .none }).push
            [.barrierArrival s.myCore s.mySlot]).park

/-- What the release part of a barrier's fence waits for first has come (R165 step 1). -/
def barAcked (w : Warp) : Bool := loadsBack w && inFlight w.cntW = 0

/-- LEASEMAX is taken as it stands then (R98). -/
def latchBar (s : State) (k : Nat) : State :=
  s.modWarp k fun w =>
    if barAcked w then { w with leaseAt := w.leaseAt <|> some (s.core (keyCore k)).leasemax } else w

/-- The release part of a barrier's fence is done (R165, R241). -/
def barReleased (s : State) (k kind : Nat) : Bool :=
  let w := s.warp k
  barAcked w && (kind != 3 || w.leaseAt.getD (s.core (keyCore k)).leasemax < s.nowCore (keyCore k))

end State

/-- BAR.SYNC (R241). -/
def execBarSync (s : State) : Result := .next (s.issue .barSync (s.barrier 1 true))
/-- BAR.ARRIVE (R241). -/
def execBarArrive (s : State) : Result := .next (s.issue .barArrive (s.barrier 1 false))
/-- CBAR (R241). -/
def execCbar (s : State) : Result := .next (s.issue .cbar (s.barrier 2 true))
/-- GBAR (R241). -/
def execGbar (s : State) : Result := .next (s.issue .gbar (s.barrier 3 true))

/-- BARRIER_ARRIVAL (R241, R239): the arrival counts once its release waits are over; an exited warp
only lets the phases it was awaited in complete. -/
def execBarrierArrival (core slot : Nat) (s : State) : Result :=
  .next (let k := warpKey core slot
    let w := s.warp k
    match w.inBar with
    | some (kind, false, sync) =>
      let s := s.latchBar k
      if s.barReleased k kind then
        let p := (s.putFile w.blk (barDest kind)).phase
        let s := s.modWarp k fun w =>
          { w with inBar := some (kind, true, sync), leaseAt := none, arrived := w.arrived.setIfInBounds (kind - 1) (p + 1) }
        let s := s.modFile w.blk (barDest kind) fun f =>
          { f with arrived := State.arriver w.blk w.widx :: f.arrived }
        (s.tryPhase kind w.blk).done
      else (s.push [.barrierArrival core slot]).done
    | _ =>
      if w.run == .exited then
        (((s.tryPhase 1 w.blk).tryPhase 2 w.blk).tryPhase 3 w.blk).done
      else s.done)

/-- G_REPLICA_UPDATE (R239): a replica takes the committed values; the phase ends with the last. -/
def execGReplicaUpdate (grid die : Nat) (s : State) : Result :=
  .next (let g := s.grid grid
    if !g.taking.contains die then s.done
    else
      let s := s.modGrid grid fun g =>
        { g with replicas := g.replicas.put die g.file.regs, taking := g.taking.filter (· != die) }
      if (s.grid grid).taking = [] then
        match s.blocks.find? fun e => e.2.grid == grid with
        | some e => (s.endPhase 3 e.1).done
        | none => s.done
      else s.done)

/-- Whether a block holds its core's resources. -/
def Block.resident (x : Block) : Bool := x.state != .evicted && x.state != .retired

/-- A block has left its die: the die of a grid's last block gives up its replica (R230). -/
def State.leaveDie (s : State) (b : Nat) : State :=
  let x := s.block b
  let die := dieOf x.core
  if s.blocks.any fun e => e.2.grid == x.grid && e.2.resident && dieOf e.2.core == die then s
  else
    let last := (s.grid x.grid).taking == [die]
    let s := s.modGrid x.grid fun g => { g with replicas := g.replicas.del die, taking := g.taking.filter (· != die) }
    if last then s.endPhase 3 b else s

/-- A die takes a replica of a grid's committed values (R230). -/
def State.copyReplica (s : State) (grid die : Nat) : State :=
  s.modGrid grid fun g =>
    if (g.replicas.get? die).isSome then g else { g with replicas := g.replicas.put die g.file.regs }

/-- G_REPLICA_COPY (R230). -/
def execGReplicaCopy (grid die : Nat) (s : State) : Result := .next (s.copyReplica grid die).done

/-! XCHG (R244 to R246). -/

/-- Whether two requests match (R245). -/
def Xreq.matches (a b : Xreq) : Bool :=
  a.grid == b.grid && a.tag == b.tag && a.peerCore == b.core && a.peerWarp == b.widx
    && b.peerCore == a.core && b.peerWarp == a.widx

/-- 65,536 arithmetic cycles of 600 MHz, in ns (R7, R245).
DEDUCED, log entry 31. -/
def xchgLimit : Nat := 65536 * 5 / 3 + 1

namespace State

/-- A match of the request is being made (R245). -/
def claimed (s : State) (id : Nat) : Bool :=
  s.agenda.any fun i => match i with
    | .xchgMatch a b => a == id || b == id
    | _ => false

/-- A request that waits is paired with the first to arrive of those that match it (R245). -/
def findMate (s : State) (id : Nat) : State :=
  match s.xreqs.get? id with
  | none => s
  | some x =>
    match s.xreqs.find? fun e => e.1 != id && Xreq.matches e.2 x && !s.claimed e.1 with
    | some e => s.push [.xchgMatch e.1 id]
    | none => s

end State

/-- XCHG (R246). -/
def execXchg (d : BitVec 7) (a : Src) (b : Src) (s : State) : Result :=
  .next (s.issue (.xchg d a b)
    (match s.me.replies.get? 4, s.me.asks.get? 4 with
    | some (.swap m v), _ =>
      ((s.setV d.toNat m v).modMe fun w =>
        { w with asks := w.asks.del 4, replies := w.replies.del 4, wake := .none }).done
    | some (.cause c), _ => s.fail c
    | _, some _ => s.wait
    | _, none =>
      let p := (s.readScalar b).toNat
      let x : Xreq :=
        { core := s.myCore, slot := s.mySlot, widx := s.me.widx, grid := s.myBlock.grid
          peerCore := bits p 0 10, peerWarp := bits p 10 6, tag := bits p 16 8
          mask := s.execMask, vals := lanesOf fun l => s.readLane a l, since := s.nowCore s.myCore }
      if s.isTrap || bits p 24 8 ≠ 0 || 767 < x.peerCore || 31 < x.peerWarp
          || (x.peerCore = s.myCore && x.peerWarp = s.me.widx) then s.fail .bounds
      else
        let (id, s) := s.fresh
        let s := { s with xreqs := s.xreqs.put id x }
        ((s.modMe fun w => { w with asks := w.asks.put 4 .xchg, wake := .xchg }).findMate id).wait))

/-- XCHG_TIMEOUT (R245): a request already matched completes. -/
def execXchgTimeout (x : Nat) (s : State) : Result :=
  .next (match s.xreqs.get? x with
    | some a =>
      if s.nowCore a.core < a.since + xchgLimit || s.claimed x then s.done
      else
        let s := { s with xreqs := s.xreqs.del x }
        (s.modWarp (warpKey a.core a.slot) fun w => { w with replies := w.replies.put 4 (.cause .timeout) }).done
    | none => s.done)

end Sys2Proof.Machine
end

