-- ==== Sys2Proof/Machine/Launch.lean ====
section
/-!
DEFINITION. Regions, queues, records, placement and retirement of blocks, join objects, and QWAIT,
CRPUSH and JDEC (16_scheduling.md R313 to R323, R326, R327, R401, R402), with the dictionary load of
01_instruction_words.md R31.
-/

namespace Sys2Proof.Machine

/-! Queue descriptors (R315). -/

def QDesc.of (b : List Byte) : QDesc :=
  let w := fieldAt b 0x10 4
  { ring := fieldAt b 0 8, pidxa := fieldAt b 8 8, log2 := bits w 0 5, en := w.testBit 5, prod := w.testBit 6
    cons := w.testBit 7, qdie := bits w 8 5, cidx := fieldAt b 0x14 4, lidx := fieldAt b 0x18 4 }

/-- Address of record `i` (R315). -/
def QDesc.slot (d : QDesc) (i : Nat) : Nat := d.ring + i % 2 ^ d.log2 * 64

/-- A region's queue. -/
def Region.queue (r : Region) (q : Nat) : QDesc := r.queues.get q {}

/-- Where a queue's descriptor stands (R313). -/
def Region.descPa (r : Region) (q : Nat) : Nat := r.rcb + 0x100 + 32 * q

namespace State

/-- A queue's values change, in the region and in one of the same control block that an activation under way is about to
put in its place (R314, R315). -/
def modQueue (s : State) (r : Region) (q : Nat) (f : QDesc → QDesc) : State :=
  let put (x : Region) : Region := { x with queues := x.queues.put q (f (x.queue q)) }
  let s := s.modRegion r.die r.id put
  { s with going := s.going.map fun x => if x.die = r.die ∧ x.id = r.id ∧ x.rcb = r.rcb then put x else x }

/-- The indices the engine keeps, which it writes to the descriptor too (R315, R401). -/
def setCidx (s : State) (r : Region) (q n : Nat) : State :=
  (s.modQueue r q ({ · with cidx := n })).rcbWrite (r.descPa q + 0x14) (leBytes 4 n) r.ns
def setLidx (s : State) (r : Region) (q n : Nat) : State :=
  (s.modQueue r q ({ · with lidx := n })).rcbWrite (r.descPa q + 0x18) (leBytes 4 n) r.ns

/-- LIDX, which software writes in memory for a SOFTWARE queue (R315). -/
def lidxOf (s : State) (r : Region) (q : Nat) : State × Nat :=
  if (r.queue q).cons then
    match s.rcbRead (r.descPa q + 0x18) 4 r.ns with
    | (s, .bytes bs) => (s, leNat bs)
    | (s, _) => (s, (r.queue q).lidx)
  else (s, (r.queue q).lidx)

/-- ERR is written if it is 0 and EN cleared in a descriptor, and the event is logged (R318, R401). -/
def writeErr (s : State) (r : Region) (q code idx : Nat) : State :=
  let s := match s.rcbRead (r.descPa q + 0x10) 4 r.ns with
    | (s, .bytes bs) =>
      let w := leNat bs
      let err := bits w 16 8
      s.rcbWrite (r.descPa q + 0x10) (leBytes 4 (w - (if w.testBit 5 then 32 else 0) + if err = 0 then 2 ^ 16 * code else 0)) r.ns
    | (s, _) => s
  s.log "QUEUE" [r.id, q, code, idx]

/-- A queue stops (R318). -/
def stopQueue (s : State) (r : Region) (q code idx : Nat) : State :=
  (s.modQueue r q ({ · with en := false })).writeErr r q code idx

/-- A region's values on some die, an active one if there is one. -/
def anyRegion (s : State) (id : Nat) : Option Region :=
  match s.regions.find? fun r => r.id == id && r.active with
  | some r => some r
  | none => s.regions.find? fun r => r.id == id

/-- The region's values on the die whose queue engine serves a queue (R315). -/
def queueAt (s : State) (id q : Nat) : Option Region :=
  let here (r : Region) : Bool := r.id == id && (r.queue q).qdie == r.die
  match s.regions.find? fun r => here r && r.active with
  | some r => some r
  | none => s.regions.find? here

/-- A queue's descriptor as its engine has it, or as another die has it while its engine does not. -/
def queueInfo (s : State) (id q : Nat) : Option QDesc := ((s.queueAt id q) <|> s.anyRegion id).map (·.queue q)

/-- The engine reads a queue's producer index, at the physical line of its watch, and keeps it (R316, R401). -/
def pidxRead (s : State) (r : Region) (q : Nat) : State × Got :=
  match r.watch.get? q with
  | none => (s, .fail .xlate 0 0)
  | some (line, l) =>
    match s.readLine line r.part l.ns l.policy with
    | (s, .bytes d) =>
      let bs := slice d ((r.queue q).pidxa % 128) 4
      (s.modRegion r.die r.id fun x => { x with pidx := x.pidx.put q (leNat bs) }, .bytes bs)
    | x => x

/-- The status code of a failed read (R318). -/
def launchCode (c : Cause) : Nat :=
  match c with
  | .xlate => 4
  | .prot => 5
  | _ => 6

/-! Activation (R313, R314). -/

end State

/-- The fields of a control block as it stands (R313). -/
structure Rcb where
  id : Nat
  parent : Nat
  root : Bool
  ovr : Nat
  f : Region

def Rcb.of (die rcb : Nat) (b : List Byte) : Rcb :=
  let w0 := fieldAt b 0 4
  let sh := fieldAt b 0x1C 4
  let w := fieldAt b 0x20 4
  { id := bits w0 0 12, parent := bits w0 12 12, root := w0.testBit 24, ovr := fieldAt b 4 4
    f := { die := die, id := bits w0 0 12, rcb := rcb, diemask := fieldAt b 8 4, rodmask := fieldAt b 0xC 4
           coremask := fieldAt b 0x10 4, maxcores := fieldAt b 0x14 4, spceil := fieldAt b 0x18 4
           l2share := bits sh 0 3, hbmw := max 1 (bits sh 8 8), cls := bits w 0 2, part := bits w 8 6
           ns := w.testBit 16, policy := bits w 24 2, lease := State.leaseOf (fieldAt b 0x24 4)
           handler := fieldAt b 0x28 8, xroot := fieldAt b 0x30 8, ppool := fieldAt b 0x40 8
           psize := fieldAt b 0x48 4, npslot := fieldAt b 0x4C 4
           queues := (List.range 8).map fun q => (q, QDesc.of (slice b (0x100 + 32 * q) 32)) } }

/-- Whether a field of a control block counts: no parent, or its override bit is set. -/
def Rcb.own (r : Rcb) (i : Nat) : Bool := r.root || r.ovr.testBit i

/-- A reserved bit of queue descriptor q, or a value a queue in use may not have (R315).
DEDUCED, log entry 38. -/
def Rcb.badQueue (b : List Byte) (q : Nat) : Bool :=
  let o := 0x100 + 32 * q
  let w := fieldAt b (o + 0x10) 4
  bits w 13 3 != 0 || bits w 24 8 != 0 || fieldAt b (o + 0x1C) 4 != 0
    || w.testBit 5 && (fieldAt b o 8 % 64 != 0 || fieldAt b (o + 8) 8 % 4 != 0 || bits w 0 5 == 0 || 16 < bits w 0 5
      || 23 < bits w 8 5)

/-- BADRCB (R314): a reserved bit or value, or another identifier. -/
def Rcb.bad (r : Rcb) (b : List Byte) (region : Nat) : Bool :=
  let z (off hi : Nat) : Bool := 2 ^ hi ≤ fieldAt b off 4
  let sh := fieldAt b 0x1C 4
  let w := fieldAt b 0x20 4
  r.id != region || z 0 25 || z 4 15 || z 8 24 || z 0xC 4 || z 0x14 10 || z 0x18 12
    || bits sh 3 5 != 0 || bits sh 16 16 != 0 || bits w 2 6 != 0 || bits w 14 2 != 0 || bits w 17 7 != 0 || bits w 26 6 != 0
    || !zeroFrom b 0x38 8 || !zeroFrom b 0x50 0xB0
    || (r.own 3 && (r.f.maxcores == 0 || 768 < r.f.maxcores)) || (r.own 4 && 2048 < r.f.spceil)
    || (r.own 5 && 4 < r.f.l2share) || (r.own 12 && r.f.handler % 384 != 0)
    || r.f.xroot % 2 ^ 13 != 0 || 2 ^ 52 ≤ r.f.xroot
    || r.f.ppool % 384 != 0 || r.f.psize % 4 != 0 || (List.range 8).any (Rcb.badQueue b)

/-- The effective fields under a parent (R313). -/
def Rcb.effective (r : Rcb) (p : Option Region) : Region :=
  match p with
  | none => { r.f with depth := 1, parent := none }
  | some p =>
    let x := r.f
    { x with
      depth := p.depth + 1
      parent := some p.id
      diemask := (if r.own 0 then x.diemask else p.diemask) &&& p.diemask
      rodmask := (if r.own 1 then x.rodmask else p.rodmask) &&& p.rodmask
      coremask := (if r.own 2 then x.coremask else p.coremask) &&& p.coremask
      maxcores := if r.own 3 then min x.maxcores p.maxcores else p.maxcores
      spceil := if r.own 4 then min x.spceil p.spceil else p.spceil
      l2share := if r.own 5 then x.l2share else p.l2share
      hbmw := if r.own 6 then x.hbmw else p.hbmw
      cls := if r.own 7 then x.cls else p.cls
      part := if r.own 8 then x.part else p.part
      ns := if r.own 9 then x.ns else p.ns
      policy := if r.own 10 then x.policy else p.policy
      lease := if r.own 11 then x.lease else p.lease
      handler := if r.own 12 then x.handler else p.handler
      xroot := if r.own 13 then x.xroot else p.xroot }

namespace State

/-- A region's values on a die are replaced. -/
def putRegion (s : State) (r : Region) : State :=
  { s with regions := r :: s.regions.filter fun x => !(x.die == r.die && x.id == r.id) }

/-- GO ends: ERR, and ACTIVE left at 0 (R314). -/
def activationFails (s : State) (die region code : Nat) : State :=
  (s.modDie die fun d => { d with regErr := d.regErr.put region code }).regionEnd die region

/-- The watches a region's activation sets on a die: a queue whose PIDXA does not translate stops
(R316, R401). Whether none is still held at its leaf. -/
def setWatches (s : State) (r : Region) : List Nat → State × Region × Bool
  | [] => (s, r, true)
  | q :: qs =>
    let d := r.queue q
    let stop (s : State) (code : Nat) : State × Region × Bool :=
      (s.writeErr r q code 0).setWatches { r with queues := r.queues.put q { d with en := false } } qs
    if !d.en || d.qdie ≠ r.die || (r.watch.get? q).isSome then s.setWatches r qs
    else match s.translate (regionAgent r) d.pidxa .r with
      | (s, .fail c _ _) => stop s (launchCode c)
      | (s, .leaf l) =>
        (match placeOf (l.phys d.pidxa) with
        | .memory _ => s.setWatches { r with watch := r.watch.put q (l.phys d.pidxa / 128, l) } qs
        | _ => stop s 5)
      | (s, _) =>
        let (s, r, _) := s.setWatches r qs
        (s, r, false)

/-- Queues a die watches, but for one region's. -/
def watches (s : State) (die region : Nat) : Nat :=
  ((s.regions.filter fun r => r.die == die && r.active && r.id != region).map (·.watch.length)).sum

/-- What an activation comes to, by the control block's bytes: an ERR code, or the region's effective fields (R313,
R314). -/
def activation (s : State) (die region : Nat) (b : List Byte) : Except Nat Region :=
  let r := Rcb.of die (bits ((s.die die).regPtr.get region 0) 9 43 * 512) b
  let p := s.regionOf die r.parent
  let active (p : Option Region) : Bool := (p.map (·.active)).getD false
  let x := r.effective (if r.root then none else p)
  if r.bad b region then .error 1
  else if !r.root && !active p then .error 2
  else if 4 < x.depth then .error 3
  else if !r.root && !x.ns && (p.map (·.ns)).getD false then .error 4
  else if s.regions.any fun y => y.die == die && y.active && y.id != region && y.part == x.part && y.l2share != x.l2share then
    .error 5
  else if 4096 < s.watches die region + ((List.range 8).filter fun q => (x.queue q).en && (x.queue q).qdie == die).length then
    .error 7
  else .ok x

/-- The control block's bytes as they stand at the home: the world that reads them is in them. -/
def rcbPeek (s : State) (pa : Nat) : List Byte := (List.range 4).flatMap fun i => s.homeData (pa / 128 + i)

/-- The control block is read once, in the world it gives the region (R314, R401). -/
def readRcb (s : State) (die region : Nat) : State × Except Nat Region :=
  let pa := bits ((s.die die).regPtr.get region 0) 9 43 * 512
  let r := Rcb.of die pa (s.rcbPeek pa)
  match s.rcbRead pa 512 (r.effective (if r.root then none else s.regionOf die r.parent)).ns with
  | (s, .bytes b) => (s, s.activation die region b)
  | (s, _) => (s, .error 6)

/-- An activation is over: the region is active, and its producer indices are read. -/
def activate (s : State) (r : Region) : State :=
  let s := { s with going := s.going.filter fun x => !(x.die == r.die && x.id == r.id) }
  let s := (s.putRegion r).modDie r.die fun d =>
    { d with regErr := d.regErr.put r.id 0, regBusy := d.regBusy.filter (· != r.id) }
  (s.partShare r.die r.part r.l2share).push (r.watch.map fun e => .pidxNotice r.die r.id e.1)

/-- An activation goes on with the translation of its producer indices. -/
def goOn (s : State) (r : Region) : State :=
  match s.setWatches r (List.range 8) with
  | (s, r, true) => s.activate r
  | (s, r, false) =>
    ({ s with going := r :: s.going.filter fun x => !(x.die == r.die && x.id == r.id) } : State).push
      [.regionActivationDone r.die r.id]

end State

/-- REGION_ACTIVATION_DONE (R313, R314, R401). -/
def execRegionActivationDone (die region : Nat) (s : State) : Result :=
  .next (if !(s.die die).regBusy.contains region then s.done
    else match s.going.find? fun r => r.die == die && r.id == region with
      | some r => (s.goOn r).done
      | none =>
        match s.readRcb die region with
        | (s, .error code) =>
          ((s.activationFails die region code).modDie die fun d => { d with regBusy := d.regBusy.filter (· != region) }).done
        | (s, .ok r) => (s.goOn r).done)

/-! Producer indices (R316). -/

namespace State

/-- What the engine does once it has read a producer index: warps that wait are served, or a record is taken. -/
def served (s : State) (r : Region) (q p : Nat) : State :=
  let d := r.queue q
  let waiting := (s.warps.filter fun e => match e.2.asks.get? 1 with
    | some (.qwait x y _) => x == r.id && y == q
    | _ => false).map (·.1)
  if p = d.cidx then s
  else if d.cons then s.push (waiting.map fun k => .qwaitServe (keyCore k) (keySlot k))
  else s.pushNew (.recordTake r.die r.id q)

end State

/-- PIDX_NOTICE (R316): the engine reads a watched PIDX, and serves what it finds; a read its home refuses is
logged (R401). -/
def execPidxNotice (die region q : Nat) (s : State) : Result :=
  .next (match s.regionOf die region with
    | none => s.done
    | some r =>
      if !r.active || (r.watch.get? q).isNone then s.done
      else match s.pidxRead r q with
        | (s, .held) => (s.pushNew (.pidxNotice die region q)).done
        | (s, .fail c _ _) => (s.log "PIDX" [region, q, c.bit]).done
        | (s, .bytes bs) => (s.served r q (leNat bs)).done)

/-- PIDX_POLL (R316): at least once every 50 us the engine reads every watched PIDX. -/
def execPidxPoll (die : Nat) (s : State) : Result :=
  .next (let s := s.modDie die ({ · with polled := s.now die })
    (s.push ((s.regions.filter fun r => r.die == die && r.active).flatMap fun r =>
      r.watch.map fun e => .pidxNotice die r.id e.1)).done)

/-! Records (R317 to R319). -/

structure Record64 where
  kind : Nat
  coop : Bool
  var : Bool
  clust : Nat
  vcnt : Nat
  nblk : Nat
  code : Nat
  dict : Nat
  frame : Nat
  joinc : Nat
  vtab : Nat
  voff : Nat

def Record64.of (b : List Byte) : Record64 :=
  let w := fieldAt b 0 4
  { kind := bits w 0 2, coop := w.testBit 2, var := w.testBit 3, clust := bits w 4 3, vcnt := bits w 7 3
    nblk := fieldAt b 4 4, code := fieldAt b 8 8, dict := fieldAt b 0x10 8, frame := fieldAt b 0x18 8
    joinc := fieldAt b 0x20 8, vtab := fieldAt b 0x28 8, voff := fieldAt b 0x30 4 }

/-- BADREC (R318). -/
def Record64.bad (r : Record64) (b : List Byte) : Bool :=
  2 ^ 10 ≤ fieldAt b 0 4 || r.kind == 3 || r.code % 384 != 0 || r.dict % 4096 != 0 || r.joinc % 32 != 0
    || r.vtab % 64 != 0 || (!r.var && r.vtab != 0) || !zeroFrom b 0x34 12
    || (if r.kind = 1 then 2 ^ 24 < r.nblk else r.nblk != 0)
    || (if r.kind = 2 then r.code != 0 else r.code == 0)

structure KDesc where
  rolemap : Nat
  vregs : Nat
  warps : Nat
  nacc : Nat
  nft : Nat
  cls : Nat
  srows : Nat

def KDesc.of (b : List Byte) : KDesc :=
  let w := fieldAt b 0xC 4
  { rolemap := fieldAt b 0 8, vregs := fieldAt b 8 4, warps := bits w 0 5 + 1, nacc := bits w 5 4
    nft := bits w 9 2, cls := bits w 11 2, srows := bits w 16 12 }

/-- Role and budget of a warp (R317). -/
def roleOf (rolemap w : Nat) : Nat := bits rolemap (2 * w) 2
def budgetOf (vregs role : Nat) : Nat := bits vregs (8 * role) 8
/-- Registers a block's warps take: each budget rounded up to a multiple of 8. -/
def vtotal (rolemap vregs warps : Nat) : Nat :=
  ((List.range warps).map fun w => (budgetOf vregs (roleOf rolemap w) + 7) / 8 * 8).sum

/-- BADDESC (R318). -/
def KDesc.bad (k : KDesc) (b : List Byte) : Bool :=
  let w := fieldAt b 0xC 4
  bits w 13 3 != 0 || bits w 28 4 != 0 || !zeroFrom b 0x10 48
    || (List.range k.warps).any fun i =>
      let n := budgetOf k.vregs (roleOf k.rolemap i)
      n = 0 || 128 < n

/-! Placement (R322, R323, R402). -/

/-- The cores a region may use. -/
def Region.cores (r : Region) : List Nat :=
  (List.range 768).filter fun c => r.diemask.testBit (dieOf c) && r.rodmask.testBit (c % 32 / 8) && r.coremask.testBit (c % 32)

namespace State

/-- Registers of a core's vector file, and tiles it has. -/
def fileRegs : Nat := 8192
def coreAccs : Nat := 8
def coreFts : Nat := 2

/-- The record of a block's launch as placement needs it: the class is max(region CLASS, CLS) (R317). -/
def recCls (r : Region) (x : LRec) : Nat := max r.cls x.cls

def usedSlots (s : State) (core : Nat) : List Nat := (s.blocksOn core).flatMap fun b => (s.block b).slots
def freeSlots (s : State) (core : Nat) : List Nat :=
  let used := s.usedSlots core
  (List.range 64).filter fun w => !used.contains w

/-- Cores on which a region holds blocks. -/
def regionCores (s : State) (id : Nat) : List Nat :=
  ((s.blocks.filter fun e => e.2.region == id && e.2.state != .evicted && e.2.state != .retired).map (·.2.core)).dedup

/-- The lowest free private slot of a region (R322). -/
def freePslot (s : State) (r : Region) : Option Nat :=
  let used := (s.blocks.filter fun e => e.2.region == r.id && e.2.state != .retired).map (·.2.pslot)
  (List.range (used.length + 1)).find? fun p => p < r.npslot && !used.contains p

/-- Dictionary addresses resident blocks name. -/
def dictsUsed (s : State) (core : Nat) : List Nat := (s.blocksOn core).map fun b => (s.block b).dict

/-- The RAM a dictionary goes to: one tagged with it, else one no resident block uses (R31). -/
def dictRam (s : State) (core dict : Nat) : Option Nat :=
  let c := s.core core
  let used := s.dictsUsed core
  match (List.range 2).find? fun i => ((c.dicts.toList[i]?).map (·.tag)) == some dict with
  | some i => some i
  | none => (List.range 2).find? fun i => match c.dicts.toList[i]? with
      | some d => !used.contains d.tag || d.tag == 0
      | none => false

/-- Whether a core's die, rod and core bits are in the masks, and it may take new blocks (R313, R322). -/
def eligible (s : State) (r : Region) (core : Nat) : Bool :=
  r.diemask.testBit (dieOf core) && r.rodmask.testBit (core % 32 / 8) && r.coremask.testBit (core % 32)
    && s.regionActive (dieOf core) r.id

/-- What a block needs on a core, beside its masks: shared by placement and resumption (R322). -/
structure Wants where
  warps : Nat
  cls : Nat
  vregs : Nat
  nacc : Nat
  nft : Nat
  dict : Nat
  srows : Nat

/-- Free resources of a core (R322). -/
def roomFor (s : State) (r : Region) (core : Nat) (x : Wants) : Bool :=
  let bs := s.blocksOn core
  let low := ((bs.filter fun b => (s.block b).cls != 0).map fun b => (s.block b).slots.length).sum
  let rows := ((s.allocs.filter (·.core == core)).map (·.rows)).sum
  let mine := ((s.allocs.filter fun a => a.core == core && (s.block a.blk).region == r.id).map (·.rows)).sum
  let cores := s.regionCores r.id
  (s.core core).powered && x.warps ≤ (s.freeSlots core).length && (x.cls == 0 || low + x.warps ≤ 62)
    && (bs.map fun b => (s.block b).vregs).sum + x.vregs ≤ fileRegs
    && (bs.map fun b => (s.block b).nacc).sum + x.nacc ≤ coreAccs
    && (bs.map fun b => (s.block b).nft).sum + x.nft ≤ coreFts
    && (x.dict == 0 || (s.dictRam core x.dict).isSome)
    && rows + x.srows ≤ 2048 && mine + x.srows ≤ r.spceil
    && (cores.contains core || cores.length < r.maxcores) && bs.length < 64

def LRec.wants (r : Region) (x : LRec) : Wants where
  warps := x.warps
  cls := recCls r x
  vregs := vtotal x.rolemap x.vregs x.warps
  nacc := x.nacc
  nft := x.nft
  dict := x.dict
  srows := x.srows

/-- Whether a new block of a record may be placed on a core (R322, R343). -/
def fits (s : State) (r : Region) (x : LRec) (core : Nat) : Bool :=
  s.eligible r core && (s.core core).place && (s.freePslot r).isSome && s.roomFor r core (LRec.wants r x)

/-- Inserts a core before those it is preferred to. -/
def insertBy (lt : Nat → Nat → Bool) (c : Nat) : List Nat → List Nat
  | [] => [c]
  | x :: xs => if lt c x then c :: x :: xs else x :: insertBy lt c xs

def sortBy (lt : Nat → Nat → Bool) (l : List Nat) : List Nat := l.foldr (insertBy lt) []

/-- Cores by the most free slots, then the lower number (R322). -/
def byRoom (s : State) (cores : List Nat) : List Nat :=
  sortBy (fun a b =>
    let fa := (s.freeSlots a).length
    let fb := (s.freeSlots b).length
    fb < fa || (fa == fb && a < b)) cores

/-- Cores in the engine's order of preference: own die, then by route length; within a die the most free
slots, then the lower number (R322). -/
def prefCores (s : State) (die : Nat) : List Nat :=
  let dies := sortBy (fun a b => hops die a < hops die b || (hops die a == hops die b && a < b)) allDies
  dies.flatMap fun d => s.byRoom (coresOfDie d)

/-- A core's RAM is tagged with a dictionary, and its load begun unless it holds the image; a block that shares a RAM
whose load is still to come asks for it too (R31, R87). -/
def takeDict (s : State) (core blk dict : Nat) (shared : Bool) : State :=
  if dict = 0 then s
  else match s.dictRam core dict with
    | none => s
    | some i =>
      match (s.core core).dicts.toList[i]? with
      | none => s
      | some d =>
        if d.tag = dict && (shared || (!d.stale && d.loaded && d.fail.isNone)) then
          if d.loaded then s else s.push [.dictionaryLoad blk]
        else (s.modCore core fun c => { c with dicts := c.dicts.setIfInBounds i { tag := dict } }).push [.dictionaryLoad blk]

/-- The registers a warp starts with (R323, R332). -/
def startRegs (frame : Nat) : Vector Word 64 :=
  ((((Vector.replicate 64 (0 : Word)).setIfInBounds 0 0xFFFFFFFF).setIfInBounds 1 0xFFFFFFFF).setIfInBounds 2 0xFFFFFFFF
    |>.setIfInBounds 62 (lowWord frame)).setIfInBounds 63 (highWord frame)

/-- Free values the v registers of one warp take (R230).
DESIGN CHOICE, log entry 3. -/
def freeFile : Nat := 128 * 96

/-- A warp as placement starts it (R323). -/
def startWarp (s : State) (key blk widx role budget code frame : Nat) : Warp :=
  { blk := blk, widx := widx, role := role, budget := budget, pc := code + 384, s := startRegs frame, age := s.turnOf key
    vseed := some s.drawn }

/-- The warps of a block take their slots. -/
def startWarps (s : State) (core blk : Nat) (x : LRec) (slots : List Nat) : State :=
  (List.range slots.length).foldl (fun (s : State) w =>
    let role := roleOf x.rolemap w
    let key := warpKey core (slots.getD w 0)
    let y := s.startWarp key blk w role (budgetOf x.vregs role) x.code x.frame
    { s.seat key y with drawn := s.drawn + freeFile }) s

/-- The lowest BSLOT no block of a core holds (R402). -/
def freeBslot (s : State) (core : Nat) : Nat :=
  ((List.range 64).find? fun n => !(s.blocksOn core).any fun b => (s.block b).bslot == n).getD 0

/-- A block of a record is placed on a core (R323). -/
def placeBlock (s : State) (rid : Nat) (r : Region) (x : LRec) (idx cluster core : Nat) : State :=
  let (b, s) := s.fresh
  let slots := (s.freeSlots core).take x.warps
  let ps := (s.freePslot r).getD 0
  let shared := (s.dictsUsed core).contains x.dict
  let blk : Block :=
    { core := core, bslot := s.freeBslot core, ident := core, region := r.id, priv := r.id == 0, xregion := r.id
      cls := recCls r x, part := r.part, ns := r.ns, lease := r.lease, xroot := r.xroot
      pbase := r.ppool + ps * 32 * 96 * r.psize, psize := r.psize, pslot := ps, code := x.code, dict := x.dict
      frame := x.frame, joinc := x.joinc, idx := idx, nblk := x.nblk, cluster := cluster
      cidx := idx / (x.clust + 1), grid := x.grid, lrec := rid, rolemap := x.rolemap
      vregs := vtotal x.rolemap x.vregs x.warps, srows := x.srows, slots := slots, nacc := x.nacc, nft := x.nft }
  let s := { s with blocks := s.blocks.put b blk }
  let s := s.modCluster cluster fun c => { c with blks := c.blks ++ [b], rod := rodOf core }
  let s := s.startWarps core b x slots
  -- the die's first block of a grid brings a replica there (R230)
  let s := s.copyReplica x.grid (dieOf core)
  -- what its record's push released is acquired (R161, R164)
  let s := s.modCore core fun c => { c with lclk := max c.lclk x.tag.stamp, leasemax := max c.leasemax x.tag.hold }
  s.takeDict core b x.dict shared

/-- Blocks of one cluster, the first on `core`, the rest on its rod in an order of cores (R322). -/
def placeCluster (s : State) (rid : Nat) (r : Region) (x : LRec) (order : State → List Nat) (core : Nat) (idxs : List Nat) :
    Option State :=
  let (cl, s) := s.fresh
  (idxs.foldl (fun (a : Option (State × Bool)) i =>
    match a with
    | none => none
    | some (s, first) =>
      let cs := if first then [core] else (order s).filter fun c => rodOf c == rodOf core
      match cs.find? (s.fits r x) with
      | none => none
      | some c => some (s.placeBlock rid r x i cl c, false)) (some (s, true))).map (·.1)

/-- The indices of the cluster that `i` begins. -/
def clusterFrom (x : LRec) (i : Nat) : List Nat := (List.range (min (x.clust + 1) (x.nblk - i))).map (i + ·)

/-- Every cluster of a cooperative grid, or none (R320). -/
def placeGrid (s : State) (rid : Nat) (r : Region) (x : LRec) (order : State → List Nat) : Nat → Nat → List Nat → Option State
  | 0, _, _ => some s
  | fuel + 1, i, first =>
    if x.nblk ≤ i then some s
    else
      let cs := if first = [] then order s else first
      match cs.findSome? fun c => s.placeCluster rid r x order c (clusterFrom x i) with
      | none => none
      | some s => s.placeGrid rid r x order fuel (i + x.clust + 1) []

/-- The order that opens as few cores as it can: those that hold the region's blocks, then the rest of their rods, then
the rods with the most cores; for a cooperative grid that MAXCORES keeps from fitting in the engine's order.
DESIGN CHOICE, log entry 37. -/
def denseCores (r : Region) (s : State) : List Nat :=
  let used := s.regionCores r.id
  let rods := (used.map rodOf).dedup
  let size (c : Nat) : Nat := (r.cores.filter fun d => rodOf d == rodOf c).length
  let rank (c : Nat) : Nat := if used.contains c then 0 else if rods.contains (rodOf c) then 1 else 10 - size c
  sortBy (fun a b => rank a < rank b || (rank a == rank b && a < b)) r.cores

/-- The next blocks of a record, its first on a core: one cluster, or all of a cooperative grid. -/
def placeNext (s : State) (rid core : Nat) : Option State :=
  match s.recs.get? rid with
  | none => none
  | some x =>
    match s.regionOf x.die x.region with
    | none => none
    | some r =>
      if !r.active || x.nblk ≤ x.placed then none
      else
        let n := if x.coop then x.nblk else x.placed + (clusterFrom x x.placed).length
        let pref (s : State) : List Nat := s.prefCores r.die
        let t := if x.coop then
            (match s.placeGrid rid r x pref x.nblk 0 [core] with
            | some t => some t
            | none => if r.maxcores < r.cores.length then s.placeGrid rid r x (denseCores r) x.nblk 0 [core] else none)
          else s.placeCluster rid r x pref core (clusterFrom x x.placed)
        t.map fun t =>
          let t := { t with recs := t.recs.put rid { x with placed := n } }
          if n = x.nblk then t.pushNew (.recordTake x.die x.region x.queue) else t

/-- Where the next blocks of a record go: the first core, by preference, that has room.
DESIGN CHOICE, log entry 37. -/
def findPlace (s : State) (rid : Nat) : Option Nat :=
  match s.recs.get? rid with
  | none => none
  | some x => if x.nblk ≤ x.placed then none else (s.prefCores x.die).find? fun c => (s.placeNext rid c).isSome

/-! Whether a launch could ever be placed (R318). -/

/-- Blocks of a record an empty core holds: SROWS reserves nothing (R317). -/
def LRec.each (r : Region) (x : LRec) : Nat :=
  let w := LRec.wants r x
  let per (total need : Nat) : Nat := if need = 0 then 64 else total / need
  min (min (per (if w.cls = 0 then 64 else 62) w.warps) (per fileRegs w.vregs))
    (min (per coreAccs w.nacc) (per coreFts w.nft))

/-- One more rod of `c` cores that hold `each` blocks: by the number of cores used, 1 more than the most whole
clusters of `size` that fit beside `rest` blocks of a last one, 0 when those do not. -/
def packRod (each size rest c : Nat) (best : List Nat) : List Nat :=
  (List.range (c + 1)).foldl (fun (acc : List Nat) k =>
    if k * each < rest then acc
    else
      let from' := (List.replicate k 0 ++ best).map fun n => if n = 0 then 0 else n + (k * each - rest) / size
      List.zipWith max acc from') (best.map fun _ => 0)

/-- Whether `whole` clusters and `rest` blocks more fit on at most `most` cores of rods. -/
def packs (each size rest whole most : Nat) (rods : List Nat) : Bool :=
  let r := rods.foldl (fun (e : List Nat × List Nat) c =>
    (packRod each size 0 c e.1, List.zipWith max (packRod each size 0 c e.2) (packRod each size rest c e.1)))
    (List.replicate (most + 1) 1, List.replicate (most + 1) 0)
  (if rest = 0 then r.1 else r.2).any (whole < ·)

/-- TOOBIG (R318): even with every eligible core empty, a block, a cluster or a cooperative grid does not
fit. -/
def tooBig (r : Region) (x : LRec) : Bool :=
  let each := LRec.each r x
  let size := min (x.clust + 1) x.nblk
  let rods := ((List.range 96).map fun rod => (r.cores.filter fun c => rodOf c == rod).length).filter (· != 0)
  let most := min r.maxcores rods.sum
  x.nblk != 0 && (each = 0 || r.spceil < x.srows || r.npslot < size || rods.all (fun c => min most c * each < size)
    || (x.coop && (r.npslot < x.nblk || !packs each size (x.nblk % size) (x.nblk / size) most rods)))

end State

/-! Taking a record (R318 to R320). -/

/-- The queues of a region, from the one after that last served (R320). -/
def Region.rotation (r : Region) : List Nat := (List.range 8).map fun i => (r.lastq + 1 + i) % 8

namespace State


/-- A read the queue engine makes for a region; the error code of a failure, none when held. -/
def engineRead (s : State) (r : Region) (va n : Nat) (need : Need) : State × Option (Except Nat (List Byte)) :=
  match s.readBytes (regionAgent r) va n need with
  | (s, .bytes bs) => (s, some (.ok bs))
  | (s, .fail c _ _) => (s, some (.error (launchCode c)))
  | (s, .held) => (s, none)

/-- The release tag of a line the engine reads (R164). -/
def engineTag (s : State) (r : Region) (va : Nat) : Tag :=
  match (s.translate (regionAgent r) va .r).2 with
  | .leaf l => s.homeTag (l.phys va / 128) r.part
  | _ => {}

/-- Number of blocks and code address a record expands to, by its variant table (R319).
DEDUCED, log entry 39. A BLOCK record launches one block where its entry names the record's NBLK, and else as many as the
entry says.
DESIGN CHOICE, log entry 71. -/
def variant (x : Record64) (size : Nat) (tab : List Byte) : Nat × Nat :=
  match (List.range (x.vcnt + 1)).find? fun i => size ≤ fieldAt tab (16 * i) 4 with
  | none => (0, x.code)
  | some i =>
    let n := fieldAt tab (16 * i + 4) 4
    let c := fieldAt tab (16 * i + 8) 8
    (if n = 0xFFFFFFFF then (if x.kind = 1 then x.nblk else 1) else n, if c = 0 then x.code else c)

/-- The record at the head of a queue, checked: what launches, or an error code; none when held. -/
def checkRecord (s : State) (r : Region) (q : Nat) : State × Option (Except Nat LRec) :=
  let va := (r.queue q).slot (r.queue q).cidx
  match s.engineRead r va 64 .r with
  | (s, none) => (s, none)
  | (s, some (.error c)) => (s, some (.error c))
  | (s, some (.ok b)) =>
    let x := Record64.of b
    let tag := s.engineTag r va
    let base : LRec :=
      { die := r.die, region := r.id, queue := q, kind := x.kind, coop := x.coop, clust := x.clust, nblk := 0
        code := x.code, dict := x.dict, frame := x.frame, joinc := x.joinc, tag := tag }
    if x.bad b then (s, some (.error 1))
    else if x.kind = 2 then (s, some (.ok base))
    else if x.var && x.voff % 4 ≠ 0 then (s, some (.error 2))
    else
      let (s, size) := if x.var then s.engineRead r (x.frame + x.voff) 4 .r else (s, some (.ok []))
      let (s, tab) := if x.var then s.engineRead r x.vtab (16 * (x.vcnt + 1)) .r else (s, some (.ok []))
      match size, tab with
      | some (.error c), _ => (s, some (.error c))
      | some _, some (.error c) => (s, some (.error c))
      | some (.ok sz), some (.ok t) =>
        let (n, code) := if x.var then variant x (leNat sz) t else (if x.kind = 1 then x.nblk else 1, x.code)
        if 2 ^ 24 < n || code % 384 ≠ 0 then (s, some (.error 1))
        else
          match s.engineRead r code 64 .x with
          | (s, none) => (s, none)
          | (s, some (.error c)) => (s, some (.error c))
          | (s, some (.ok kb)) =>
            let k := KDesc.of kb
            let y := { base with nblk := n, code := code, rolemap := k.rolemap, vregs := k.vregs, warps := k.warps
                                 nacc := k.nacc, nft := k.nft, cls := k.cls, srows := k.srows, live := n }
            if k.bad kb then (s, some (.error 2))
            else if tooBig r y then (s, some (.error 3))
            else (s, some (.ok y))
      | _, _ => (s, none)

/-- A queue holds a record that has still blocks to place. -/
def queueHeld (s : State) (die region q : Nat) : Bool :=
  s.recs.any fun e => e.2.die == die && e.2.region == region && e.2.queue == q && e.2.placed < e.2.nblk

/-- A queue of the engine has a record to take, so far as its last read of PIDX tells. -/
def queueReady (s : State) (r : Region) (q : Nat) : Bool :=
  let d := r.queue q
  r.active && d.en && !d.cons && (r.watch.get? q).isSome && (match r.pidx.get? q with
    | some p => p != d.cidx
    | none => false) && !s.queueHeld r.die r.id q

/-- How many regions come, in rotation, before one since a class was last served (R320). -/
def regionTurn (s : State) (die cls id : Nat) : Nat := (id + 4096 * 2 - 1 - (s.die die).served.get cls 4095) % 4096

/-- The queue an engine serves next: class 0 first and then by class, regions in rotation, their queues in rotation
(R320).
DESIGN CHOICE, log entry 37. -/
def nextQueue (s : State) (die : Nat) : Option (Nat × Nat) :=
  let ready := (s.regions.filter (·.die == die)).filterMap fun r =>
    ((Region.rotation r).find? (s.queueReady r)).map fun q => (r, q)
  let best := ready.foldl (fun (a : Option (Region × Nat)) e => match a with
    | none => some e
    | some b =>
      if e.1.cls < b.1.cls || (e.1.cls == b.1.cls && s.regionTurn die e.1.cls e.1.id < s.regionTurn die b.1.cls b.1.id)
      then some e else a) none
  best.map fun e => (e.1.id, e.2)

/-- A queue has had its turn (R320). -/
def turned (s : State) (r : Region) (q : Nat) : State :=
  (s.modRegion r.die r.id ({ · with lastq := q })).modDie r.die fun d => { d with served := d.served.put r.cls r.id }

end State

/-- RECORD_TAKE (R318 to R320): in its queue's turn the head record is copied in, checked, and launched. -/
def execRecordTake (die region q : Nat) (s : State) : Result :=
  .next (match s.regionOf die region with
    | none => s.done
    | some r =>
      if !s.queueReady r q then s.done
      else if s.nextQueue die != some (region, q) then (s.push [.recordTake die region q]).done
      else match (s.turned r q).checkRecord r q with
        | (s, none) => (s.push [.recordTake die region q]).done
        | (s, some (.error code)) => (s.stopQueue r q code (r.queue q).cidx).done
        | (s, some (.ok x)) =>
          let n := ((r.queue q).cidx + 1) % 2 ^ 32
          let s := (s.setCidx r q n).setLidx r q n
          let (g, s) := s.fresh
          let (id, s) := s.fresh
          let s := { s with
            recs := s.recs.put id { x with grid := g }
            grids := if x.nblk = 0 then s.grids else s.grids.put g { home := die, coop := x.coop, nblk := x.nblk } }
          (s.push ((if x.nblk = 0 then [.joinContribution id] else []) ++ [.recordTake die region q])).done)

/-! Retirement (R161, R285, R297, R323). -/

namespace State

/-- Work a block has still in flight: stores and loads, engine, matrix and factor operations, and pair
operations on its tiles. -/
def blockBusy (s : State) (b : Nat) : Bool :=
  (s.flights.any fun e => e.2.blk == b && e.2.slot != 64)
    || s.ops.any fun e => e.2.blk == b || (match e.2.pair with
        | some (_, p) => p == b
        | none => false)

/-- A STALE left over when a block retires is raised then, in its exited warp's record (R281, R335). -/
def lateStale (s : State) (b slot : Nat) (st : Stop) : State :=
  let k := warpKey (s.block b).core slot
  let s := s.modBlock b fun x => { x with mstale := x.mstale.tail }
  let s := s.modWarp k fun w =>
    { w with cause := setCause w.cause st.cause
             frec := { st.record (st.fpos.getD (0, 0, false)) w.position with issExit := true, exSlot := slot } }
  s.haltBlock b slot

/-- A block's resources are freed, its die's replica with the last of its grid, and its record counts it; the
phases its warps were awaited in may complete (R230, R239, R320, R323).  What its slots and tiles hold stays there. -/
def freeBlock (s : State) (b : Nat) : State :=
  let x := s.block b
  let c := s.core x.core
  let s := (s.blockWarps b).foldl (fun (s : State) k => s.keepWarp k x.ftiles) s
  let s := { s with
    allocs := s.allocs.filter (·.blk != b)
    warps := s.warps.filter fun e => !(e.2.blk == b && keySlot e.1 != 64)
    sfu := s.sfu.filter fun r => !(r.core == x.core && x.slots.contains r.slot) }
  let s := s.modBlock b fun x =>
    { x with state := .retired, slots := [], accs := [], ftiles := [], bfile := {}, images := [], saved := []
             lclk := c.lclk, leasemax := c.leasemax }
  let s := ((s.leaveDie b).tryPhase 2 b).tryPhase 3 b
  match s.recs.get? x.lrec with
  | none => s
  | some r =>
    let r := { r with live := r.live - 1, ended := r.ended.max ⟨c.lclk, c.leasemax⟩ }
    let s := { s with recs := s.recs.put x.lrec r }
    if r.live = 0 && r.placed = r.nblk then s.push [.joinContribution x.lrec] else s

end State

/-- BLOCK_RETIRE (R323): once every warp has exited and nothing of the block is in flight. -/
def execBlockRetire (blk : Nat) (s : State) : Result :=
  .next (let x := s.block blk
    if (s.blocks.get? blk).isNone || x.state != .running then s.done
    else if (s.blockWarps blk).any fun k => (s.warp k).run != .exited then s.done
    else if s.blockBusy blk then (s.push [.blockRetire blk]).done
    else match x.mstale with
      | (_, slot, st) :: _ => (s.lateStale blk slot st).done
      | [] => (s.freeBlock blk).done)

/-! Join objects (R320, R321). -/

namespace State

/-- A decrement of a join object at its home: the value to answer, and the successor to push (R327).  Bits of the object
that must be 0 (R321) play no part in it.
DESIGN CHOICE, log entry 71. -/
def joinDec (s : State) (a : Agent) (va n : Nat) (t : Tag) : State × Got :=
  match s.translate a va .rw with
  | (s, .fail c l t) => (s, .fail c l t)
  | (s, .held) => (s, .held)
  | (s, .wait) => (s, .held)
  | (s, .leaf l) =>
    match placeOf (l.phys va) with
    | .memory _ =>
      match s.readVa a va 32 .r with
      | (s, .bytes b) =>
        let old := fieldAt b 0 4
        if old < n then (s, .bytes (leBytes 4 0xFFFFFFFF))
        else
          let line := l.phys va / 128
          let (s, g, _) := s.writeVa a va (leBytes 4 (old - n))
          let s := s.setHomeTag line a.part ((s.homeTag line a.part).max t)
          match g with
          | .bytes _ =>
            let sel := fieldAt b 4 4
            let succ := fieldAt b 8 8
            if old - n = 0 && 0 < n && succ ≠ 0 then
              let (id, s) := s.fresh
              let p : Push := { region := bits sel 0 12, queue := bits sel 12 3, succ := succ, from' := va
                                tag := s.homeTag line a.part }
              (({ s with pushes := s.pushes.put id p } : State).push [.successorPush id], .bytes (leBytes 4 0))
            else (s, .bytes (leBytes 4 (old - n)))
          | g => (s, g)
      | r => r
    | _ => (s, .fail .prot 0 l.tier)

/-- A record that has contributed leaves with its blocks, clusters and grid. -/
def dropRec (s : State) (id : Nat) (x : LRec) : State :=
  let bs := (s.blocks.filter fun e => e.2.lrec == id).map (·.1)
  let cls := (bs.map fun b => (s.block b).cluster).dedup
  { s with
    recs := s.recs.del id
    blocks := s.blocks.filter fun e => !bs.contains e.1
    clusters := s.clusters.filter fun e => !cls.contains e.1
    grids := s.grids.del x.grid }

end State

/-- JOIN_CONTRIBUTION (R161, R320): a JDEC with n = 1 by the queue engine, once the leases its blocks'
stores met are over. -/
def execJoinContribution (rec' : Nat) (s : State) : Result :=
  .next (match s.recs.get? rec' with
    | none => s.done
    | some x =>
      if x.joinc = 0 then (s.dropRec rec' x).done
      else if s.now x.die ≤ x.ended.hold then (s.push [.joinContribution rec']).done
      else match s.regionOf x.die x.region with
        | none => (s.dropRec rec' x).done
        | some r =>
          match s.joinDec (State.regionAgent r) x.joinc 1 x.ended with
          | (s, .held) => (s.push [.joinContribution rec']).done
          | (s, .fail c _ _) => ((s.log "JOIN" [x.joinc, c.bit]).dropRec rec' x).done
          | (s, .bytes _) => (s.dropRec rec' x).done)

namespace State

/-- A record's bytes go into a queue's next slot, and PIDX advances, at the physical line of the queue's watch and under the
leaf found with it (R401): false when a write fails, none when it has to wait for a held leaf (R321, R327). -/
def ringPush (s : State) (r : Region) (q p : Nat) (bs : List Byte) (t : Tag) : State × Option Bool :=
  let a := regionAgent r
  let d := r.queue q
  let va := d.slot p
  match s.writeVa a va bs with
  | (s, .held, _) => (s, none)
  | (s, .fail .., _) => (s, some false)
  | (s, .bytes _, _) =>
    let s := match (s.translate a va .w).2 with
      | .leaf l => s.setHomeTag (l.phys va / 128) a.part ((s.homeTag (l.phys va / 128) a.part).max t)
      | _ => s
    match r.watch.get? q with
    | none => (s, some false)
    | some (line, l) =>
      if !l.permits .w r.ns then (s, some false)
      else match s.writeLine line r.part l.ns l.policy none (d.pidxa % 128) (leBytes 4 ((p + 1) % 2 ^ 32)) r.cls with
        | (s, .held) => (s, none)
        | (s, .fail ..) => (s, some false)
        | (s, .bytes _) => (s.ackClears r.die line, some true)

/-- Whether a queue's ring has no free slot (R315). -/
def ringFull (d : QDesc) (p lidx : Nat) : Bool := 2 ^ d.log2 ≤ (p + 2 ^ 32 - lidx) % 2 ^ 32

/-- A push reaches the engine: it has its place in the order of arrival from then on (R327). -/
def arrives (s : State) (id : Nat) (x : Push) : State :=
  if x.at' ≠ 0 then s
  else
    let (n, s) := s.fresh
    { s with pushes := s.pushes.put id { x with at' := n } }

/-- Some push that reached the engine before one still waits to go into the same queue (R327). -/
def pushBehind (s : State) (region q at' : Nat) : Bool :=
  s.pushes.any fun e => e.2.region == region && e.2.queue == q && e.2.at' != 0 && e.2.at' < at'

/-- How a push into a queue comes out: its ring is full, it waits, it fails, or it is in. -/
inductive Pushed where
  | full | held | failed | done
  deriving DecidableEq, Repr

/-- A record's bytes go into a queue, whose indices are read (R321, R327). -/
def pushRecord (s : State) (r : Region) (q : Nat) (bs : List Byte) (t : Tag) : State × Pushed :=
  match s.pidxRead r q with
  | (s, .held) => (s, .held)
  | (s, .fail ..) => (s, .failed)
  | (s, .bytes pb) =>
    let (s, l) := s.lidxOf r q
    if ringFull (r.queue q) (leNat pb) l then (s, .full)
    else match s.ringPush r q (leNat pb) bs t with
      | (s, none) => (s, .held)
      | (s, some false) => (s, .failed)
      | (s, some true) => (s, .done)

/-- A successor is read and pushed. -/
def pushSuccessor (s : State) (r : Region) (x : Push) : State × Pushed :=
  match s.readBytes (regionAgent r) x.succ 64 .r with
  | (s, .held) => (s, .held)
  | (s, .fail ..) => (s, .failed)
  | (s, .bytes bs) => s.pushRecord r x.queue bs x.tag

end State

/-- SUCCESSOR_PUSH (R321): a full queue holds it, in its order of arrival; a disabled or external one drops it. -/
def execSuccessorPush (push : Nat) (s : State) : Result :=
  .next (match s.pushes.get? push with
    | none => s.done
    | some x =>
      let gone (s : State) : State := { s with pushes := s.pushes.del push }
      let drop (s : State) : State := (gone (s.log "PUSHDROP" [x.from'])).done
      let again (s : State) : State := (s.push [.successorPush push]).done
      match s.queueAt x.region x.queue with
      | none => drop s
      | some r =>
        if !r.active || !(r.queue x.queue).en || !(r.queue x.queue).prod then drop s
        else
          let s := s.arrives push x
          if s.pushBehind x.region x.queue ((s.pushes.get push x).at') then again s
          else match s.pushSuccessor r x with
            | (s, .full) => again s
            | (s, .held) => again s
            | (s, .failed) => drop s
            | (s, .done) => (gone s).done)

/-! QWAIT, CRPUSH, JDEC (R326, R327). -/

namespace State

/-- An answer a waiting instruction has received is used up. -/
def clearAsk (s : State) (k : Nat) : State :=
  s.modMe fun w => { w with asks := w.asks.del k, replies := w.replies.del k, wake := .none }

/-- Sends a waiting instruction's request.
DEDUCED, log entry 30. -/
def sendAsk (s : State) (k : Nat) (a : Ask) (ev : Instr) : State :=
  (s.modMe fun w => { w with asks := w.asks.put k a }).push [ev]

end State

/-- QWAIT (R327): a blocking point until the queue's engine answers. -/
def execQwait (d : BitVec 6) (q : Src) (s : State) : Result :=
  .next (s.issue (.qwait d q)
    (let n := (s.readScalar q).toNat
     match s.me.replies.get? 1, s.me.asks.get? 1 with
     | some (.value v), _ => ((s.setSpair d.toNat v).clearAsk 1).done
     | some (.cause c), _ => (s.clearAsk 1).fail c
     | _, some _ => s.park
     | _, none =>
       if s.acqHolds then s.wait
       else if 7 < n then s.fail .bounds
       else
         let reg := if s.isTrap then s.ctxRegion else s.myBlock.region
         let ok := match s.queueInfo reg n with
           | some d => d.en && d.cons
           | none => false
         if !ok then s.fail .bounds
         else
           let (id, s) := s.fresh
           ((s.sendAsk 1 (.qwait reg n id) (.qwaitServe s.myCore s.mySlot)).modMe fun w =>
             { w with wake := .qwait reg n }).park))

namespace State

/-- The warp that has waited longest on a queue.
DEDUCED, log entry 40. -/
def firstWaiter (s : State) (region q : Nat) : Option Nat :=
  (s.warps.foldl (fun (a : Option (Nat × Nat)) e =>
    match e.2.asks.get? 1, e.2.replies.get? 1 with
    | some (.qwait x y n), none =>
      if x == region && y == q then
        match a with
        | some (m, k) => if n < m then some (n, e.1) else some (m, k)
        | none => some (n, e.1)
      else a
    | _, _ => a) none).map (·.2)

end State

namespace State

/-- The next record of a queue goes to a warp, which acquires its push; the next to wait is looked at (R327). -/
def serveWaiter (s : State) (r : Region) (q k : Nat) : State :=
  let d := r.queue q
  let va := d.slot d.cidx
  let s := s.setCidx r q ((d.cidx + 1) % 2 ^ 32)
  let t := s.engineTag r va
  let s := s.modCore (keyCore k) fun c => { c with lclk := max c.lclk t.stamp, leasemax := max c.leasemax t.hold }
  let s := s.modWarp k fun w => { w with replies := w.replies.put 1 (.value va) }
  match s.firstWaiter r.id q with
  | some j => s.push [.qwaitServe (keyCore j) (keySlot j)]
  | none => s

end State

/-- QWAIT_SERVE (R327): the engine of QDIE gives the next record to the warp that has waited longest. -/
def execQwaitServe (core slot : Nat) (s : State) : Result :=
  .next (match (s.warp (warpKey core slot)).asks.get? 1 with
    | some (.qwait region q _) =>
      match s.queueAt region q, s.firstWaiter region q with
      | some r, some k =>
        if !(r.queue q).en || !(r.queue q).cons || !r.active then s.done
        else match s.pidxRead r q with
          | (s, .held) => (s.push [.qwaitServe core slot]).done
          | (s, .fail ..) => s.done
          | (s, .bytes bs) => if leNat bs = (r.queue q).cidx then s.done else (s.serveWaiter r q k).done
      | _, _ => s.done
    | _ => s.done)

/-- CRPUSH (R327): a release at DEV, then the record goes to the queue's engine. -/
def execCrpush (o q st : BitVec 6) (s : State) : Result :=
  .next (s.issue (.crpush o q st)
    (let off := (s.before.sreg o.toNat).toNat
     let sel := (s.before.sreg q.toNat).toNat
     match s.me.replies.get? 2, s.me.asks.get? 2 with
     | some (.value v), _ => ((s.setS st.toNat (BitVec.ofNat 32 v)).clearAsk 2).done
     | some _, _ => (s.clearAsk 2).done
     | none, some _ => s.wait
     | none, none =>
       if s.acqHolds then s.wait
       else if s.isTrap then s.fail .bounds
       else if off % 64 ≠ 0 then s.raise { cause := .align, addr := off }
       else match s.padReadCheck off 64 with
         | some c => s.raise { cause := c, addr := off }
         | none =>
           if 2 ^ 15 ≤ sel then s.fail .bounds
           else if !s.relReady 4 then s.relWait
           else
             (s.sendAsk 2 (.crpush off (bits sel 0 12) (bits sel 12 3) (s.padRead s.myCore off 64))
               (.crpushAtEngine s.myCore s.mySlot)).wait))

namespace State

/-- Whether a region is another's descendant, or itself, within four levels (R314, R327). -/
def descends (s : State) : Nat → Nat → Nat → Bool
  | 0, _, _ => false
  | fuel + 1, id, anc =>
    id == anc || match (s.anyRegion id).bind (·.parent) with
      | some p => s.descends fuel p anc
      | none => false

end State

namespace State

/-- A CRPUSH keeps its place in the order of arrival at an engine while it has to wait (R327). -/
def crpushWaits (s : State) (k region q : Nat) : State :=
  let s := match s.pushes.find? fun e => e.2.warp == some k with
    | some _ => s
    | none =>
      let (id, s) := s.fresh
      { s with pushes := s.pushes.put id { region := region, queue := q, succ := 0, from' := 0, warp := some k, at' := id } }
  s.push [.crpushAtEngine (keyCore k) (keySlot k)]

/-- The engine answers a CRPUSH. -/
def crpushAnswer (s : State) (k n : Nat) : State :=
  ({ s with pushes := s.pushes.filter fun e => e.2.warp != some k } : State).modWarp k fun w =>
    { w with replies := w.replies.put 2 (.value n) }

/-- Whether a ring has room as a CRPUSH that must wait finds it; one that has not is FULL at once (R327). -/
def crpushFull (s : State) (r : Region) (q : Nat) : State × Bool :=
  match s.pidxRead r q with
  | (s, .bytes pb) =>
    let (s, l) := s.lidxOf r q
    (s, ringFull (r.queue q) (leNat pb) l)
  | (s, _) => (s, false)

end State

/-- CRPUSH_AT_ENGINE (R327): the status the engine of the queue answers. -/
def execCrpushAtEngine (core slot : Nat) (s : State) : Result :=
  .next (let k := warpKey core slot
    match (s.warp k).asks.get? 2, (s.warp k).replies.get? 2 with
    | some (.crpush _ region q bs), none =>
      let mine := (s.block (s.warp k).blk).region
      let prod := ((s.queueInfo region q).map (·.prod)).getD false
      if !s.descends 4 region mine || !prod then (s.crpushAnswer k 3).done
      else match s.queueAt region q with
        | none => (s.crpushAnswer k 2).done
        | some r =>
          if !r.active || !(r.queue q).en then (s.crpushAnswer k 2).done
          else
            let at' := ((s.pushes.find? fun e => e.2.warp == some k).map (·.2.at')).getD s.nextId
            if s.pushBehind region q at' then
              match s.crpushFull r q with
              | (s, true) => (s.crpushAnswer k 1).done
              | (s, false) => (s.crpushWaits k region q).done
            else
              let c := s.core core
              match s.pushRecord r q bs ⟨c.lclk, c.leasemax⟩ with
              | (s, .full) => (s.crpushAnswer k 1).done
              | (s, .held) => (s.crpushWaits k region q).done
              | (s, .failed) => (s.crpushAnswer k 4).done
              | (s, .done) => (s.crpushAnswer k 0).done
    | _, _ => ({ s with pushes := s.pushes.filter fun e => e.2.warp != some k } : State).done)

/-- JDEC (R327): a release at DEV, then one atomic sequence at the object's home. -/
def execJdec (p n d : BitVec 6) (s : State) : Result :=
  .next (s.issue (.jdec p n d)
    (let a := s.before.spair p.toNat
     match s.me.replies.get? 3, s.me.asks.get? 3 with
     | some (.value v), _ => ((s.setS d.toNat (BitVec.ofNat 32 v)).clearAsk 3).done
     | some (.cause c), _ => (s.clearAsk 3).raise { cause := c, addr := a }
     | some _, _ => (s.clearAsk 3).done
     | none, some _ => s.wait
     | none, none =>
       if s.acqHolds then s.wait
       else if a % 32 ≠ 0 then s.raise { cause := .align, addr := a }
       else if vaTop ≤ a then s.raise { cause := .bounds, addr := a }
       else if !s.relReady 4 then s.relWait
       else (s.sendAsk 3 (.jdec a (s.before.sreg n.toNat).toNat) (.jdecAtHome s.myCore s.mySlot)).wait))

/-! What the elements of one chain do elsewhere: all of it acts at one moment, or none does (R23). -/

/-- How a request has come out: it has acted, it has to wait, or it has failed and its answer says how. -/
inductive Sent where
  | done | waits | failed
  deriving DecidableEq, Repr

namespace State

/-- The context a JDEC of a warp acts in (R327, R332). -/
def joinAgent (s : State) (k : Nat) : Agent :=
  let c := s.core (keyCore k)
  if keySlot k = 64 then
    { core := some (keyCore k), die := dieOf (keyCore k), region := c.region, root := c.xroot, part := c.part, ns := c.world }
  else s.blockAgent (s.warp k).blk

/-- A JDEC that a warp has asked for (R327). -/
def jdecNow (s : State) (k : Nat) : State × Sent :=
  match (s.warp k).asks.get? 3, (s.warp k).replies.get? 3 with
  | some (.jdec va n), none =>
    let answer (s : State) (r : Reply) : State := s.modWarp k fun w => { w with replies := w.replies.put 3 r }
    let c := s.core (keyCore k)
    match s.joinDec (s.joinAgent k) va n ⟨c.lclk, c.leasemax⟩ with
    | (s', .held) => (s', .waits)
    | (s', .fail c _ _) => (answer s' (.cause c), .failed)
    | (s', .bytes b) => (answer s' (.value (leNat b)), .done)
  | _, _ => (s, .done)

/-- A PUT that a warp has asked for comes to its slot, and is answered there (R235, R236). -/
def putNow (s : State) (k : Nat) : State × Sent :=
  match (s.warp k).asks.get? 0, (s.warp k).replies.get? 0 with
  | some (.put d mode val num special nz), none =>
    let b := (s.warp k).blk
    let (c, r) := slotFold ((s.putFile b d).slots.get? d) ⟨mode, val, num, special, nz⟩
    let s := s.modFile b d fun f => { f with slots := f.slots.put d c }
    (s.modWarp k fun w => { w with asks := w.asks.del 0, replies := w.replies.put 0 r }, if r == .ok then .done else .failed)
  | _, _ => (s, .done)

/-- A warp's requests but its XCHG: where one fails, its answer alone stands. -/
def sendAll (s : State) (k : Nat) : State × Sent :=
  let drop (s : State) (n : Nat) : State := s.modWarp k fun w => { w with asks := w.asks.del n }
  match s.jdecNow k with
  | (t, .done) =>
    (match t.putNow k with
    | (_, .failed) => (drop (s.putNow k).1 3, .failed)
    | r => r)
  | (t, .failed) => (drop t 0, .failed)
  | r => r

/-- A request of XCHG leaves: its chain has failed (R23). -/
def dropXchg (s : State) (id k : Nat) : State :=
  ({ s with xreqs := s.xreqs.del id } : State).modWarp k fun w => { w with asks := w.asks.del 4 }

end State

/-- JDEC_AT_HOME (R327): the JDEC acts, and with it a PUT of its chain (R23). -/
def execJdecAtHome (core slot : Nat) (s : State) : Result :=
  .next (let k := warpKey core slot
    match (s.warp k).asks.get? 3, (s.warp k).replies.get? 3 with
    | some (.jdec ..), none =>
      (match s.sendAll k with
      | (t, .waits) => (t.push [.jdecAtHome core slot]).done
      | (t, _) => t.done)
    | _, _ => s.done)

/-- XCHG_MATCH (R245, R246): both warps get the other's lanes that are active in both, as the other requests of their
chains act (R23); if one request has been withdrawn, or its chain fails, the other waits for a match again. -/
def execXchgMatch (x : Nat) (y : Nat) (s : State) : Result :=
  .next (match s.xreqs.get? x, s.xreqs.get? y with
    | some a, some b =>
      let ka := warpKey a.core a.slot
      let kb := warpKey b.core b.slot
      let again (s : State) : State := (s.push [.xchgMatch x y]).done
      if a.matches b then
        match s.sendAll ka with
        | (t, .waits) => again t
        | (t, .failed) => ((t.dropXchg x ka).findMate y).done
        | (t, .done) =>
          match t.sendAll kb, (s.sendAll kb).1 with
          | (_, .waits), t => again t
          | (_, .failed), t => ((t.dropXchg y kb).findMate x).done
          | (t, .done), _ =>
            let m := a.mask &&& b.mask
            let t := { t with xreqs := (t.xreqs.del x).del y }
            let t := t.modWarp ka fun w => { w with replies := w.replies.put 4 (.swap m b.vals) }
            (t.modWarp kb fun w => { w with replies := w.replies.put 4 (.swap m a.vals) }).done
      else s.done
    | some _, none => (s.findMate x).done
    | none, some _ => (s.findMate y).done
    | none, none => s.done)

/-! Dictionaries (R31). -/

namespace State

/-- The physical lines of a dictionary image. -/
def dictLines (s : State) (a : Agent) (dict : Nat) : List Nat :=
  (List.range 32).filterMap fun i => match (s.translate a (dict + 128 * i) .x).2 with
    | .leaf l => some (l.phys (dict + 128 * i) / 128)
    | _ => none

/-- The words of an image. -/
def wordsOf (n : Nat) (bs : List Byte) : List Word := (List.range n).map fun i => BitVec.ofNat 32 (fieldAt bs (4 * i) 4)

end State

/-- DICTIONARY_LOAD (R31): the image is read with execute permission into the core's tagged RAM, in the context of
the block whose load comes first; its failure is raised in every block that shares the RAM.
DESIGN CHOICE, log entry 62. -/
def execDictionaryLoad (blk : Nat) (s : State) : Result :=
  .next (let x := s.block blk
    let a := s.blockAgent blk
    let due := x.state != .evicted && x.state != .retired && (s.blocks.get? blk).isSome
      && (s.core x.core).dicts.toList.any fun (d : DictRam) => d.tag == x.dict && !d.loaded
    let put (s : State) (d : DictRam) : State := s.modCore x.core fun c =>
      { c with dicts := c.dicts.map fun (y : DictRam) => if y.tag = x.dict && !y.loaded then d else y }
    if x.dict = 0 || !due then s.done
    else match s.readBytes a x.dict 4096 .x with
      | (s, .held) => (s.push [.dictionaryLoad blk]).done
      | (s, .fail c level tier) =>
        (put s { tag := x.dict, loaded := true, fail := some { cause := c, level := level, tier := tier, addr := x.dict } }).done
      | (s, .bytes bs) =>
        (put s { tag := x.dict, loaded := true, data := State.wordsOf 1024 bs, lines := s.dictLines a x.dict }).done)

end Sys2Proof.Machine
end

