-- ==== Sys2Proof/Machine/Ports.lean ====
section
/-!
DEFINITION. What arrives on the ports, boot, device time and power (18_host_and_peers.md R350 to
R358).  Completions go to `outbox` with a status: 0 performed, 1 PROT, 2 POISON, and for a staging or a
reservation the home's answer.  An operation that cannot be performed yet waits: it stays in flight, before all that
has arrived later in its flow (R355, `State.keptBack`).
-/

namespace Sys2Proof.Machine

/-- The die a port sits on (R3). -/
def portDie (port : Nat) : Nat := if port < 6 then port else port + 12

/-- A grant by its registers (R352). -/
structure Grant where
  valid : Bool
  writes : Bool
  ns : Bool
  part : Nat
  lo : Nat
  len : Nat

namespace State

def grant (s : State) (die k : Nat) : Grant :=
  let c := (s.die die).ingCtl.get k 0
  { valid := c.testBit 63, writes := c.testBit 62, ns := c.testBit 61, part := bits c 49 6
    lo := (s.die die).ingBase.get k 0, len := bits c 0 36 * 2 ^ 16 }

/-- A completion leaves for the sender of an operation, by the port it came in (R351, R399). -/
def reply (s : State) (hd : Sender) (status : Nat) (bs : List Byte) : State :=
  { s with outbox := s.outbox ++
    [{ port := hd.port, status := status, target := hd.device, device := (s.die (portDie hd.port)).devId
       rod := hd.flow.isSome, bytes := bs }] }

/-- A physical address a frame gives, as a direct one (R47, R352). -/
def inboundLine (line : Nat) : Nat := resolveAlias (128 * line) / 128

/-- The grant an inbound request passes under, if it does (R352, R357).
DEDUCED, log entry 50. -/
def admitted (s : State) (port key pa n : Nat) (write : Bool) : Option Grant :=
  let g := s.grant (portDie port) key
  let inMemory := (piecesFrom pa (n / 128 + 2) n).foldl
    (fun (e : Bool × Nat) k => (e.1 && isMemory (inboundLine (e.2 / 128)), e.2 + k)) (true, pa)
  if !s.opened || 64 ≤ key || !g.valid || pa < g.lo || g.lo + g.len < pa + n || (write && !g.writes) || !inMemory.1 then none
  else some g

/-- Status of a cause a home answers. -/
def homeStatus (c : Cause) : Nat := if c = .poison then 2 else 1

/-- Reads at the homes of a span (R351). -/
def inboundRead (s : State) (g : Grant) (pa : Nat) : List Nat → State × Option Cause × List Byte
  | [] => (s, none, [])
  | n :: ns =>
    match s.readLine (inboundLine (pa / 128)) g.part g.ns .cached with
    | (s, .bytes d) =>
      let (s, c, bs) := s.inboundRead g (pa + n) ns
      (s, c, slice d (pa % 128) n ++ bs)
    | (s, .fail c _ _) => (s, some c, [])
    | (s, .held) => (s, some .xlate, [])

/-- Writes at the homes of a span: core copies are invalidated, leased ones stay (R351, R352). -/
def inboundWrite (s : State) (g : Grant) (pa : Nat) (bs : List Byte) : List Nat → State × Option Cause
  | [] => (s, none)
  | n :: ns =>
    match s.writeLine (inboundLine (pa / 128)) g.part g.ns .cached none (pa % 128) (bs.take n) with
    | (s, .bytes _) => s.inboundWrite g (pa + n) (bs.drop n) ns
    | (s, .fail c _ _) => (s, some c)
    | (s, .held) => (s, some .xlate)

/-- A request is not taken while one of its lines waits: its domain is quiesced, its slice or an agent that holds it
is dead, its partition's share changes, or a transaction is under way on it (R73, R75, R81, R102). -/
def notTaken (s : State) (line part : Nat) : Bool := isMemory line && (s.lineBusy line part || s.silent line)
def inboundHeld (s : State) (pa n part : Nat) : Bool :=
  ((piecesFrom pa (n / 128 + 2) n).foldl (fun (e : Bool × Nat) k => (e.1 || s.notTaken (inboundLine (e.2 / 128)) part, e.2 + k)) (false, pa)).1

end State

/-- INBOUND_MREAD (R351, R352). -/
def execInboundMread (hd : Sender) (key pa n : Nat) (s : State) : Result :=
  .next (match s.admitted hd.port key pa n false with
    | none => (s.reply hd 1 []).done
    | some g =>
      if s.inboundHeld pa n g.part then s.wait
      else match s.inboundRead g pa (State.piecesFrom pa (n / 128 + 2) n) with
        | (s, none, bs) => (s.reply hd 0 bs).done
        | (s, some c, _) => (s.reply hd (State.homeStatus c) []).done)

/-- INBOUND_MWRITE (R351, R352, R355): acknowledged once performed. -/
def execInboundMwrite (hd : Sender) (key pa : Nat) (bytes : List Byte) (s : State) : Result :=
  .next (match s.admitted hd.port key pa bytes.length true with
    | none => (s.reply hd 1 []).done
    | some g =>
      if s.inboundHeld pa bytes.length g.part then s.wait
      else match s.inboundWrite g pa bytes (State.piecesFrom pa (bytes.length / 128 + 2) bytes.length) with
        | (s, none) => (s.reply hd 0 []).done
        | (s, some c) => (s.reply hd (State.homeStatus c) []).done)

/-- INBOUND_MATOM (R153, R351): the old value is answered. -/
def execInboundMatom (hd : Sender) (key pa fn : Nat) (w64 : Bool) (operand : Nat) (s : State) : Result :=
  .next (let n := if w64 then 8 else 4
    match s.admitted hd.port key pa n true with
    | none => (s.reply hd 1 []).done
    | some g =>
      if pa % n ≠ 0 || 12 < fn || (w64 && 8 < fn) then (s.reply hd 1 []).done
      else if s.inboundHeld pa n g.part then s.wait
      else match s.readLine (State.inboundLine (pa / 128)) g.part g.ns .cached with
        | (s, .fail c _ _) => (s.reply hd (State.homeStatus c) []).done
        | (_, .held) => s.wait
        | (s, .bytes d) =>
          let old := fieldAt d (pa % 128) n
          match s.inboundWrite g pa (leBytes n (atomOp fn w64 old (operand % 2 ^ (8 * n)))) [n] with
          | (s, some c) => (s.reply hd (State.homeStatus c) []).done
          | (s, none) => (s.reply hd 0 (leBytes n old)).done)

/-- INBOUND_BSTAGE (R119, R351): a staging for a bundle whose record is on the sender; the answer carries the
stamp of the bundle the line's metadata names. -/
def execInboundBstage (hd : Sender) (_key die idx line mask : Nat) (bytes : List Byte) (part : Nat) (ns : Bool) (s : State) : Result :=
  .next (let b := sideName hd.device die idx
    let ln := State.inboundLine line
    if !s.opened || !isMemory ln then (s.reply hd 1 []).done
    else if s.notTaken ln part || s.stageHeld ln b 0 then
      s.wait
    else match s.homeCheck ln part ns false with
      | some c => (s.reply hd (State.homeStatus c) []).done
      | none =>
        let s := s.homeEnter ln part ns false
        let s := if s.stageRefused ln b 0 mask then s else s.collectForWrite ln part
        let (s, a, st) := s.stageAt ln b 0 mask bytes
        ((s.dirRoom ln).reply hd 0 (leBytes 1 a ++ leBytes 8 st)).done)

namespace State

/-- A staged version of a peer's bundle whose promotion notice has arrived is promoted, unless BNDL_DIAG
still delays it (R119, R121), and acknowledged to its sender. -/
def peerPromote (s : State) (b : Word) (line : Nat) : State :=
  match s.staged line with
  | some v =>
    if v.side ≠ b || s.delayed v || s.notTaken line (s.partOf line) then s
    else
      let s := s.collectForWrite line (s.partOf line)
      let t := s.promote line v {}
      match v.sender with
      | some hd => t.reply hd 0 (leBytes 8 (s.ackLend line))
      | none => t
  | none => s

end State

/-- INBOUND_BNOTE (R119, R351): 0 a promotion, 1 a discard, 2 a forget notice. -/
def execInboundBnote (hd : Sender) (kind _key die idx line : Nat) (s : State) : Result :=
  .next (let b := sideName hd.device die idx
    let ln := State.inboundLine line
    if !s.opened || !isMemory ln then (s.reply hd 1 []).done
    else match kind with
      | 0 =>
        match s.staged ln with
        | some v => if v.side = b && v.notice.isNone then ((s.setNotice v (some hd)).peerPromote b ln).done else s.done
        | none => s.done
      | 1 =>
        (({ s with vers := s.vers.filter fun (v : VerEnt) => !(v.line == ln && v.staged && v.side == b) } : State).reply hd 0
          []).done
      | _ => ((s.forget ln b).reply hd 0 []).done)

namespace State

/-- What holds a reservation of a peer: its device and incarnation, as no operation's number does. -/
def peerStep (hd : Sender) : Nat := 2 ^ 64 + 2 ^ 8 * hd.device + hd.inc % 2 ^ 8

end State

/-- INBOUND_CARRY (R110, R111, R351): a peer's reservation, one given back, or a line it delivers, acknowledged with
LEND. -/
def execInboundCarry (hd : Sender) (_key : Nat) (req : CarryReq) (line : Nat) (bytes : List Byte) (part : Nat) (ns : Bool)
    (s : State) : Result :=
  .next (let op : CarryOp := { code := req.code }
    let ln := State.inboundLine line
    if !s.opened || !isMemory ln || 12 < req.code then (s.reply hd 1 []).done
    else if s.notTaken ln part then s.wait
    else match req.ask with
      | .release =>
        (({ s with resv := (s.resv.map fun (r : Resv) =>
            if r.line = ln then { r with steps := r.steps.erase (State.peerStep hd) } else r).filter fun r =>
              r.steps != [] || r.data != r.op.identityLine } : State).reply hd 0 []).done
      | _ =>
        match s.homeCheck ln part ns false with
        | some c => (s.reply hd (State.homeStatus c) []).done
        | none =>
          let s := s.homeEnter ln part ns false
          match req.ask with
          | .reserve =>
            (match s.reserve ln part .cached op (State.peerStep hd) with
            | some s => (s.reply hd 0 (leBytes 1 0)).done
            | none => (s.reply hd 0 (leBytes 1 1)).done)
          | _ =>
            let s := (s.deliverLine ln part .cached none op (req.ask == .plain) (State.peerStep hd) bytes).dirRoom ln
            (s.reply hd 0 (leBytes 8 (s.ackLend ln))).done)

/-- INBOUND_TIME (R356): device time is to be slewed to the grandmaster's. -/
def execInboundTime (ns : Nat) (s : State) : Result :=
  .next ({ s with steer := (ns : Int) - s.time, grandmaster := true } : State).done

/-- GRANDMASTER_LOSS (R356). -/
def execGrandmasterLoss (s : State) : Result := .next (({ s with grandmaster := false } : State).log "GRANDMASTER" []).done

/-- INBOUND_MGMT (R351, R357): the frame reaches Osros whatever the partitions. -/
def execInboundMgmt (port : Nat) (bytes : List Byte) (s : State) : Result :=
  .next ({ s with osros := s.osros ++ [BitVec.ofNat 8 port :: bytes] } : State).done

/-- UNSUPPORTED_PACKET_DROP (R350): dropped and counted in the RAS log. -/
def execUnsupportedPacketDrop (port : Nat) (s : State) : Result := .next (s.log "PACKETDROP" [port]).done

/-- MODULE_BOOT (R357): a module that has been reset comes up, region 0 being activated on every die, and once it is
active there the ports are opened to the host; one that is up is reset.  The registers of step 3 are written as
configuration writes before it, and the grants and windows of step 5 as configuration writes too.
DEDUCED, log entry 52. -/
def execModuleBoot (s : State) : Result :=
  .next (if s.opened then { State.reset with sched := s.sched, drawn := s.drawn }.done
    else if !s.booted then
      (allDies.foldl (fun (s : State) d => s.regionStart d 0) { s with booted := true }).wait
    else if allDies.any fun d => (s.die d).regBusy.contains 0 then s.wait
    else { s with opened := allDies.all (s.regionActive · 0) }.done)

/-- DUTY_CHANGE (R358): 1 to 16 sixteenths. -/
def execDutyChange (die duty : Nat) (s : State) : Result :=
  .next (s.modDie die ({ · with duty := min 16 (max 1 duty) })).done

end Sys2Proof.Machine
end

