-- ==== Sys2Proof/Machine/Scratchpad.lean ====
section
/-!
DEFINITION. Scratchpad allocations, the sweeper and the barrier-object instructions
(10_scratchpad.md R215 to R229).
-/

namespace Sys2Proof.Machine

namespace State

/-- Rows of a core that no allocation holds, as a test. -/
def rowFree (s : State) (core row : Nat) : Bool := (s.allocOfRow core row).isNone

/-- The lowest run of `n` free rows (R218).
DEDUCED, log entry 27. -/
def freeRun (s : State) (core n : Nat) : Option Nat :=
  (List.range (2049 - n)).find? fun r => (List.range n).all fun i => s.rowFree core (r + i)

/-- Rows the sweeper maintains on a core: AUTO allocations and parked blocks' (R219). -/
def sweptRows (s : State) (core : Nat) : Nat :=
  ((s.allocs.filter fun a => a.core == core && (a.auto || (s.block a.blk).parked)).map (·.rows)).sum

/-- Rows a region's blocks hold on a core. -/
def regionRows (s : State) (core region : Nat) : Nat :=
  ((s.allocs.filter fun a => a.core == core && (s.block a.blk).region == region).map (·.rows)).sum

/-- The scratchpad ceiling of a region on a die (R313). -/
def ceilOf (s : State) (die region : Nat) : Nat := ((s.regionOf die region).map (·.spceil)).getD 2048

/-- The run of rows an allocation of `n` rows takes, or none on exhaustion (R218). -/
def allocRun (s : State) (core blk n : Nat) (auto : Bool) : Option Nat :=
  let reg := (s.block blk).region
  if 64 ≤ (s.allocs.filter (·.core == core)).length then none
  else if s.ceilOf (dieOf core) reg < s.regionRows core reg + n then none
  else if auto && 1792 < s.sweptRows core + n then none
  else s.freeRun core n

/-- Accesses issued before a free are still to be performed on some row of a run (R223). -/
def rowsAwaited (s : State) (core first n : Nat) : Bool :=
  s.flights.any fun e => e.2.reqs.any fun r => !r.done && (match r.win with
    | .pad => e.2.core == core
    | .cluster b => (s.block b).core == core
    | .global => false) && first ≤ r.vline / 32 && r.vline / 32 < first + n

/-- The lowest free entry of a core's 64. -/
def allocIndex (s : State) (core : Nat) : Nat :=
  ((List.range 64).find? fun i => !s.allocs.any fun a => a.core == core && a.index == i).getD 0

/-- A new allocation: zeroed rows with fresh stamps (R221). -/
def makeAlloc (s : State) (core blk first n life : Nat) : State :=
  let a : Alloc :=
    { core := core, index := s.allocIndex core, blk := blk, first := first, rows := n, auto := life == 0
      life := life, exp := s.nowCore core + life }
  let s := { s with allocs := s.allocs ++ [a] }
  (s.modCore core fun c =>
    { c with pad := c.pad.filter fun e => !(4096 * first ≤ e.1 && e.1 < 4096 * (first + n)) }).restoreRows core first n

/-- The issuing block's allocation whose first row begins at an offset (R221). -/
def ownAlloc (s : State) (off : Nat) : Option Alloc :=
  if 2 ^ 23 ≤ off then none
  else s.allocs.find? fun a => a.blk == s.myBlk && a.core == s.myCore && 4096 * a.first == off

/-- An allocation's rows lie in a range-lock entry, or hold a barrier object still to be counted down
(R172, R221). -/
def allocLocked (s : State) (a : Alloc) : Bool :=
  let r : Range := ⟨true, s.identOf a.blk, 4096 * a.first, 4096 * a.rows⟩
  s.locks.any fun l => l.core == a.core &&
    (l.srcs.any r.meets || l.dsts.any r.meets || (match l.bar with
      | some b => a.hasOff b
      | none => false))

/-- The checks of SPFREE (R221). -/
def freeCheck (s : State) (off : Nat) : Except Cause Alloc :=
  if s.isTrap then .error .bounds
  else match s.ownAlloc off with
    | none => .error .bounds
    | some a => if s.allocLocked a then .error .rangelock else .ok a

end State

/-- SPALLOC (R221). -/
def execSpalloc (d z l : BitVec 6) (x : BitVec 1) (s : State) : Result :=
  .next (s.issue (.spalloc d z l x)
    (let n := (s.before.sreg z.toNat).toNat
     let life := (s.before.sreg l.toNat).toNat
     let rows := (n + 4095) / 4096
     if s.acqHolds then s.wait
     else if s.isTrap || n = 0 || 2 ^ 23 < n then s.fail .bounds
     else match s.allocRun s.myCore s.myBlk rows (life == 0) with
       | none => if x = 1 then s.fail .spexhaust else (s.setS d.toNat 0xFFFFFFFF).done
       | some first =>
         -- what was issued before its rows were freed is performed on the old rows (R223)
         if s.rowsAwaited s.myCore first rows then s.wait
         else ((s.makeAlloc s.myCore s.myBlk first rows life).setS d.toNat (BitVec.ofNat 32 (4096 * first))).done))

namespace State

/-- A warp waits at an MBWAIT on an object in the rows of an allocation. -/
def waitsIn (s : State) (a : Alloc) (k : Nat) : Bool :=
  match (s.warp k).wake with
  | .mbwait off _ => (s.warp k).blk == a.blk && a.hasOff off
  | .mbwaitCl ptr _ =>
    (s.clusterBlks a.blk).contains (s.warp k).blk && bits ptr 42 10 == s.identOf a.blk && a.hasOff (ptr % 2 ^ 23)
  | _ => false

/-- An allocation ends: an MBWAIT on an object in it raises BOUNDS where it stands (R223). -/
def freeAlloc (s : State) (a : Alloc) : State :=
  let ks := (s.warps.filter fun e => e.2.run == .running && s.waitsIn a e.1).map (·.1)
  ks.foldl (fun (s : State) k =>
    let at' := ((s.warp k).solo.map (·.place)).getD (s.warp k).position
    (s.modWarp k (·.goto at')).deliver k { cause := .bounds }) { s with allocs := s.allocs.filter (· != a) }

end State

/-- SPFREE (R221, R223). -/
def execSpfree (o : BitVec 6) (s : State) : Result :=
  .next (s.issue (.spfree o)
    (if s.acqHolds then s.wait
     else match s.freeCheck (s.before.sreg o.toNat).toNat with
       | .error c => s.fail c
       | .ok a => (s.freeAlloc a).done))

/-- SPRENEW (R221). -/
def execSprenew (o l : BitVec 6) (s : State) : Result :=
  .next (s.issue (.sprenew o l)
    (let life := (s.before.sreg l.toNat).toNat
     if s.acqHolds then s.wait
     else match s.freeCheck (s.before.sreg o.toNat).toNat with
       | .error c => s.fail c
       | .ok a =>
         if a.rowList.any (s.rowStale a.core) then s.fail .stale
         else
           let e := s.nowCore a.core + if life = 0 then a.life else life
           let s := s.restoreRows a.core a.first a.rows
           { s with allocs := s.allocs.map fun (y : Alloc) => if y = a && !a.auto then { y with exp := e } else y }.done))

namespace State

/-- The two words SPSTAT writes (R222). -/
def spstat (s : State) (off : Nat) : Nat × Nat :=
  match s.allocAt s.myBlk (off % 2 ^ 23) with
  | none => (0, 0)
  | some a =>
    let stale := a.rowList.any (s.rowStale a.core)
    let expired := a.rowList.any fun r => (s.rowSt a.core r).expired
    let first := (a.rowList.map (s.rowDeadline a.core)).foldl min (s.rowDeadline a.core a.first)
    let left := if expired then 0 else if a.auto then 0xFFFFFFFF
      else min 0xFFFFFFFF (first - s.nowCore a.core)
    (2 ^ 31 + (if a.auto then 2 ^ 30 else 0) + (if stale then 2 ^ 29 else 0) + 2 ^ 23 * a.index
      + 2 ^ 12 * a.first + (a.rows - 1), left)

end State

/-- SPSTAT (R221, R222). -/
def execSpstat (d o : BitVec 6) (s : State) : Result :=
  .next (s.issue (.spstat d o)
    (if s.acqHolds then s.wait
     else if s.isTrap then s.fail .bounds
     else
       let r := s.spstat (s.before.sreg o.toNat).toNat
       ((s.setS d.toNat (BitVec.ofNat 32 r.1)).setS (d.toNat + 1) (BitVec.ofNat 32 r.2)).done))

/-! The sweeper and retention (R215, R216, R219). -/

/-- SWEEPER_RESTORE (R219): a maintained row is restored once its age reaches half of t_RET, but not one that has
aged past t_RET (R216). -/
def execSweeperRestore (core row : Nat) (s : State) : Result :=
  .next (match s.allocOfRow core row with
    | some a =>
      if (a.auto || (s.block a.blk).parked) && !(s.rowSt core row).expired
          && (s.core core).tret / 2 ≤ s.rowAge core row && s.rowAge core row ≤ (s.core core).tret then (s.restoreRow core row).done
      else s.done
    | none => s.done)

/-- SWEEPER_VISIT (R215): a row older than t_RET has EXPIRED set. -/
def execSweeperVisit (core row : Nat) (s : State) : Result :=
  .next (if (s.core core).tret < s.rowAge core row then (s.expireRow core row).done else s.done)

/-- SPRET_CHANGE (R216): 96,000 to 1,000,000 ns. -/
def execSpretChange (core ns : Nat) (s : State) : Result :=
  .next (s.modCore core ({ · with tret := min 1000000 (max 96000 ns) })).done

/-! Barrier objects (R227 to R229). -/

/-- BARRIER_OBJECT_COUNTDOWN (R227): an engine takes bytes off an object. -/
def execBarrierObjectCountdown (core off bytes : Nat) (s : State) : Result :=
  .next ((s.setMbar core off ((s.mbar core off).countdown bytes)).mbTag core core off).done

namespace State

/-- The warp is parked at the MBWAIT it issues again: its checks were made at issue (R217, R229). -/
def mbParked (s : State) : Bool :=
  match s.me.wake with
  | .mbwait .. | .mbwaitCl .. => true
  | _ => false

/-- The address an MB instruction names (R228). -/
def mbAddr (s : State) (cl : Bool) (a : Src) : Nat := if cl then s.readPair a 0 else s.offPtr (s.readScalar a).toNat

/-- The object of an MBWAIT that is parked, or BOUNDS when its rows are gone (R223). -/
def mbAwaited (s : State) (cl : Bool) (a : Src) : Except Stop (Nat × Nat) :=
  let addr := s.mbAddr cl a
  match s.decodeAddr addr with
  | .ok (.pad off) => if (s.allocAt s.myBlk off).isSome then .ok (s.myCore, off) else .error { cause := .bounds, addr := addr }
  | .ok (.cluster b off) =>
    if (s.allocAt b off).isSome then .ok ((s.block b).core, off) else .error { cause := .bounds, addr := addr }
  | _ => .error { cause := .bounds, addr := addr }

/-- The bank an MB instruction's object lies in, or the stop its checks raise (R139, R229). -/
def mbObject (s : State) (cl : Bool) (a : Src) (writes : Bool) : Except Stop (Nat × Nat) :=
  let addr := s.mbAddr cl a
  let form : Form := { size := 16, reads := true, writes := writes, shared := true }
  if s.isTrap || (cl && bits addr 52 12 ≠ 0xFF2) then .error { cause := .bounds, addr := addr }
  else match s.checkAll form [(0, addr)] with
    | .error st => .error { st with lanes := 0 }
    | .ok ts =>
      match (ts.map fun (e : Nat × Tgt) => e.2).head? with
      | some (.pad off) => .ok (s.myCore, off)
      | some (.cluster b off) =>
        let c := (s.block b).core
        if c ≠ s.myCore && s.locked c ⟨true, s.identOf b, off, 16⟩ writes then .error { cause := .rangelock, addr := addr }
        else if c ≠ s.myCore && s.staleRange c off 16 then .error { cause := .stale, addr := addr }
        else .ok (c, off)
      | _ => .error { cause := .bounds, addr := addr }

/-- The engine failure that awaits an object's next completed wait, raised once (R109, R201). -/
def takeCause (s : State) (core off : Nat) : State :=
  if core ≠ s.myCore then s.done
  else match s.me.tcause.find? fun e => e.1 == off with
    | some (_, c, mask, tier) =>
      (s.modMe fun w => { w with tcause := w.tcause.filter fun e => e.1 != off }).raise
        { cause := c, under := c.bit, precise := false, after := true, tier := tier
          data := if c = .peerlost then BitVec.ofNat 32 mask else 0 }
    | none => s.done

/-- The scope of an MB instruction's release and acquire (R171). -/
def mbScope (cl : Bool) : Nat := if cl then 2 else 1

/-- An update of an object: MBINIT, MBARR and MBARX, each a release but MBINIT (R171, R229). -/
def mbUpdate (s : State) (cl : Bool) (a : Src) (rel : Bool) (g : MBar → Option MBar) : State :=
  if s.acqHolds then s.wait
  else if rel && !s.relReady (mbScope cl) then s.relWait
  else match s.mbObject cl a true with
    | .error st => s.raise st
    | .ok (core, off) =>
      match g (s.mbar core off) with
      | none => s.fail .bounds
      | some m =>
        let s := s.setMbar core off m
        (if rel then s.mbTag s.myCore core off else s).done

end State

/-- MBINIT (R229). -/
def execMbinit (l : BitVec 1) (n a : Src) (s : State) : Result :=
  .next (s.issue (.mbinit l n a)
    (let c := (s.readScalar n).toNat
     s.mbUpdate (l == 1) a false fun _ =>
       if c = 0 || 65535 < c then none
       else some { phase := false, held := 0, expect := c, pend := c, bytes := 0, status := 0 }))

/-- MBARR (R229). -/
def execMbarr (l : BitVec 1) (n a : Src) (s : State) : Result :=
  .next (s.issue (.mbarr l n a)
    (let c := (s.readScalar n).toNat
     s.mbUpdate (l == 1) a true fun m =>
       if m.expect = 0 || c = 0 || m.pend < m.held + c then none
       else some { m with pend := m.less c }.settle))

/-- MBARX (R229). -/
def execMbarx (l : BitVec 1) (n a : Src) (s : State) : Result :=
  .next (s.issue (.mbarx l n a)
    (let c := (s.readScalar n).toNat
     s.mbUpdate (l == 1) a true fun m =>
       if m.expect = 0 || m.less m.held = 0 || m.held = 32767 || 0xFFFFFFFF < m.bytes + c then none
       else some { m with bytes := m.bytes + c, held := m.held + 1 }.settle))

/-- MBWAIT (R229): a blocking point until the phase differs from the parity. -/
def execMbwait (l : BitVec 1) (p a : Src) (s : State) : Result :=
  .next (s.issue (.mbwait l p a)
    (let par := (s.readScalar p).getLsbD 0
     if s.acqHolds then s.wait
     else match (if s.mbParked then s.mbAwaited (l == 1) a else s.mbObject (l == 1) a false) with
       | .error st => s.raise st
       | .ok (core, off) =>
         let m := s.mbar core off
         if m.expect = 0 && !s.mbParked then s.fail .bounds
         else if m.phase != par then
           ((s.mbAcquire core off s.myCore).modMe fun w => { w with wake := .none }).takeCause core off
         else
           (s.modMe fun w => { w with
             wake := if l = 1 then .mbwaitCl (s.readPair a 0) par else .mbwait (s.readScalar a).toNat par }).park))

/-- MBTEST (R229). -/
def execMbtest (l : BitVec 1) (d : BitVec 6) (p a : Src) (s : State) : Result :=
  .next (s.issue (.mbtest l d p a)
    (let par := (s.readScalar p).getLsbD 0
     if s.acqHolds then s.wait
     else match s.mbObject (l == 1) a false with
       | .error st => s.raise st
       | .ok (core, off) =>
         let m := s.mbar core off
         if m.expect = 0 then s.fail .bounds
         else if m.phase != par then
           ((s.mbAcquire core off s.myCore).setS d.toNat 1).takeCause core off
         else (s.setS d.toNat 0).done))

end Sys2Proof.Machine
end

