-- ==== Sys2Proof/Machine/Traps.lean ====
section
/-!
DEFINITION. The trap warp and its instructions (17_traps_preemption.md R330 to R343): entry, SRET,
SKILL, XRD, XWR, CSRR and CSRW, with halts, breakpoints and register errors.
-/

namespace Sys2Proof.Machine

/-! Halts (R330, R343). -/

/-- SIBLING_HALT_STOP (R330): a warp of a halted block stops after `skid` more packets. -/
def execSiblingHaltStop (core slot skid : Nat) (s : State) : Result :=
  .next (let k := warpKey core slot
    let w := s.warp k
    if w.run != .running || (s.block w.blk).state != .halted then s.done
    else if s.sweeping k then (s.push [.siblingHaltStop core slot skid]).done
    else (s.stopWarp k { cause := .halted, precise := false, lanes := w.exec } (min 16 skid)).done)

namespace State

/-- Every block of a core halts (R343). -/
def haltCore (s : State) (core : Nat) : State :=
  (s.blocksOn core).foldl (fun (s : State) b =>
    s.haltBlock b (keySlot (((s.blockWarps b).find? fun k => (s.warp k).run != .exited).getD 0))) s

/-- The breakpoint that stops a warp at its position, if one is armed, enabled and set there (R312,
R343). -/
def breakpointAt (s : State) (k : Nat) : Option Nat :=
  let w := s.warp k
  let c := s.core (keyCore k)
  if keySlot k = 64 || (s.block w.blk).priv || !c.bken || w.slot != 0 || w.exp || w.noBkpt then none
  else (List.range 4).find? fun n =>
    let x := ((c.bkpt.toList[n]?).getD 0).toNat
    x.testBit 0 && x - 1 = w.pc

end State

/-- DEBUG_HALT (R343). -/
def execDebugHalt (core : Nat) (s : State) : Result := .next (s.haltCore core).done

/-- BREAKPOINT_TRIGGER (R343): the warp stops before the packet's first chain. -/
def execBreakpointTrigger (core slot n : Nat) (s : State) : Result :=
  .next (let k := warpKey core slot
    if s.hasWarp k && (s.warp k).run == .running && s.breakpointAt k == some n then
      (s.deliver k { cause := .brk, data := BitVec.ofNat 32 n, lanes := (s.warp k).exec }).done
    else s.done)

/-- REGISTER_ECC_ERROR (R336): an element, or the halves given, is poisoned. -/
def execRegisterEccError (core slot : Nat) (scalar : Bool) (reg lane halves : Nat) (s : State) : Result :=
  .next (let k := warpKey core slot
    let key := if scalar then Warp.sKey (reg % 64) else Warp.vKey (reg % 128) (lane % 96)
    if !s.hasWarp k || halves % 4 = 0 then s.done
    else
      let s := s.modWarp k fun w => { w with bad := w.bad.put key (w.bad.get key 0 ||| halves % 4) }
      (s.log "REGECC" [k, key, halves % 4]).done)

/-! Entry to the handler (R332). -/

namespace State

/-- The handler a region's POLICY chooses: its address and the region it belongs to; none for the system
handler (R332).
DESIGN CHOICE, log entry 44. -/
def handlerOf (s : State) (die : Nat) : Nat → Nat → Option (Nat × Option Region)
  | 0, _ => none
  | fuel + 1, id =>
    match s.regionOf die id with
    | none => none
    | some r =>
      match r.policy with
      | 0 => some (r.handler, some r)
      | 1 => match r.parent with
        | some p => s.handlerOf die fuel p
        | none => some (0, none)
      | 2 => some (0, none)
      | _ => none

/-- The slots of a block whose record is valid, as s6:s7 (R332). -/
def validSlots (s : State) (b : Nat) : Nat :=
  (((s.blockWarps b).filter fun k => (s.warp k).frec.valid).map fun k => 2 ^ keySlot k).sum

/-- The registers the trap warp starts with (R332). -/
def trapRegs (s : State) (b : Nat) : Vector Word 64 :=
  let x := s.block b
  let m := s.validSlots b
  let r := startRegs x.frame
  ((((r.setIfInBounds 4 (BitVec.ofNat 32 x.bslot)).setIfInBounds 5 (BitVec.ofNat 32 x.first)).setIfInBounds 6 (lowWord m)).setIfInBounds
    7 (highWord m)).setIfInBounds 8 (BitVec.ofNat 32 x.region)

/-- The handler of a halted block starts on its core's trap warp (R332). -/
def enterTrap (s : State) (core b pc : Nat) (r : Option Region) : State :=
  -- the system values are those of region 0
  let r := match r with
    | some r => some r
    | none => s.regionOf (dieOf core) 0
  let s := s.modCore core fun c =>
    { c with
      serving := some b
      region := (r.map (·.id)).getD 0
      part := (r.map (·.part)).getD 0
      world := (r.map (·.ns)).getD false
      xroot := (r.map (·.xroot)).getD 0 }
  let s := (s.blockWarps b).foldl (fun (s : State) k => s.modWarp k ({ · with resumed := false })) s
  let s := s.modBlock b ({ · with again := [] })
  let w : Warp := { blk := b, pc := pc, s := s.trapRegs b, vseed := some s.drawn, age := s.turnOf (warpKey core 64) }
  { s.seat (warpKey core 64) w with drawn := s.drawn + freeFile }

/-- A block that has no handler ends as by SKILL, its records logged (R332). -/
def endUnhandled (s : State) (b : Nat) : State :=
  let s := (s.blockWarps b).foldl (fun (s : State) k =>
    if (s.warp k).frec.valid then s.log "RECORD" (k :: (List.range 16).map fun i => ((s.warp k).frec.word i).toNat) else s) s
  (s.modBlock b ({ · with state := .running })).killBlock b

/-- Something of a block is still moving that ends before its handler may start: a warp that has not
stopped, or an SFU result (R330, R334). -/
def unsettledHalt (s : State) (b : Nat) : Bool :=
  (s.blockWarps b).any fun k =>
    (s.warp k).run == .running || (s.warp k).run == .exiting || s.sfu.any fun r => warpKey r.core r.slot == k

end State

/-- TRAP_WARP_ENTRY (R332): the handler for the block that halted first. -/
def execTrapWarpEntry (core : Nat) (s : State) : Result :=
  .next (let c := s.core core
    match c.serving, c.haltq with
    | none, b :: rest =>
      if s.unsettledHalt b then (s.push [.trapWarpEntry core]).done
      else
        let s := s.modCore core ({ · with haltq := rest })
        match s.handlerOf (dieOf core) 5 (s.block b).region with
        | some (pc, some r) => (s.enterTrap core b pc (some r)).done
        | some (_, none) =>
          if c.trapBase = 0 then ((s.endUnhandled b).push [.trapWarpEntry core]).done
          else (s.enterTrap core b c.trapBase none).done
        | none => ((s.endUnhandled b).push [.trapWarpEntry core]).done
    | _, _ => s.done)

/-! SRET and SKILL (R338 to R340). -/

/-- Whether a load can be replayed (R143, R331). -/
def replayable : Instr → Bool
  | .vld .. | .vldo .. | .sld .. | .ldsp .. | .ldcl .. | .vldv .. | .ldlv .. | .vcas .. | .scas .. => true
  | .vatom _ _ _ _ _ _ n | .satom _ _ _ _ _ _ n => n == 0
  | _ => false

/-- The meaning of a load that is replayed.
DEDUCED, log entry 47. -/
def execReplay (i : Instr) (s : State) : Result :=
  match i with
  | .vld o sc w d a => execVld o sc w d a s
  | .vldo o sc w d a l => execVldo o sc w d a l s
  | .sld o sc w d a l => execSld o sc w d a l s
  | .ldsp o sc w d a => execLdsp o sc w d a s
  | .ldcl o sc w d a => execLdcl o sc w d a s
  | .vldv o sc w d a => execVldv o sc w d a s
  | .ldlv d t a => execLdlv d t a s
  | .vatom o sc w f d p n => execVatom o sc w f d p n s
  | .vcas o sc w d p => execVcas o sc w d p s
  | .satom o sc w f d p n => execSatom o sc w f d p n s
  | .scas o sc w d p => execScas o sc w d p s
  | _ => .next s.done

namespace State

/-- The warp slot value a handler names, as a warp of the block its core's trap warp serves (R332, R339,
R341). -/
def servedWarp (s : State) (slot : Nat) : Option Nat :=
  match (s.core s.myCore).serving with
  | none => none
  | some b =>
    let k := warpKey s.myCore slot
    if slot ≤ 63 && (s.blockWarps b).contains k then some k else none

/-- The load of a fault record issues again for the failed lanes, its registers as they stand (R339). -/
def replayLoad (s : State) (k : Nat) : State :=
  let r := (s.warp k).frec
  let t := { s with cur := k, src := none, pfx := none, pos := (r.fpc, r.fslot, r.fexp), npos := (r.rpc, r.rslot, r.rexp) }
  let back (t : State) : State := { t with cur := s.cur, src := s.src, pfx := s.pfx, only := s.only, pos := s.pos, npos := s.npos }
  match t.packetAt t.pos with
  | (_, .wait) => s.wait
  | (_, .stop _) => s.done
  | (t, .got es) =>
    match es.find? fun e => e.place = (r.fslot, r.fexp) && replayable e.i with
    | none => (back t).done
    | some e =>
      match execReplay e.i { t with only := some r.lanes } with
      | .next u =>
        match u.out with
        | .done => (back u).done
        | .raised st =>
          -- a cause found as it issues again is the warp's next stop (R143)
          let st := { st with fpos := some (r.fpc, r.fslot, r.fexp) }
          let u := t.modMe fun x => { x with
            cause := setCause x.cause st.cause, resumed := true
            frec := st.record (r.fpc, r.fslot, r.fexp) (r.rpc, r.rslot, r.rexp) }
          { (back u).haltBlock u.me.blk (keySlot k) with out := .parked }
        | _ => s.wait
      | _ => s.done

end State

/-- SRET (R339). -/
def execSret (f sl : Src) (s : State) : Result :=
  .next (s.issue (.sret f sl)
    (let n := (s.readScalar sl).toNat
     let fl := (s.readScalar f).toNat
     match (if 4 ≤ fl then none else s.servedWarp n) with
     | none => s.fail .bounds
     | some k =>
       let w := s.warp k
       if w.run == .exited then (s.modWarp k fun w => { w with frec := { w.frec with valid := false } }).done
       else if w.run != .stopped then s.fail .bounds
       else
         let t := if fl.testBit 0 && w.frec.replay then s.replayLoad k else s.done
         match t.out with
         | .done => (t.resumeWarp k (fl.testBit 1)).done
         | .parked => t.done
         | _ => s.wait))

/-- SKILL (R340). -/
def execSkill (s : State) : Result :=
  .next (s.issue .skill
    (match (s.core s.myCore).serving with
     | none => s.fail .bounds
     | some b => (s.killBlock b).done))

/-! XRD and XWR (R341). -/

/-- An item of the table of R341. -/
inductive Item where
  | s (n : Nat) | v (n lane : Nat) (poison : Bool) | q (n j : Nat) | special (n : Nat) | record (i : Nat)
  | stack (i j : Nat) | flags (lane : Nat) | b (n : Nat)
  deriving DecidableEq, Repr

/-- The item a value names, for a warp; none is BOUNDS. -/
def itemOf (w : Warp) (v : Nat) : Option Item :=
  let i := bits v 8 12
  let sub := bits v 0 8
  if bits v 20 8 ≠ 0 then none
  else match bits v 28 4 with
    | 0 => if i ≤ 63 && sub = 0 then some (.s i) else none
    | 1 => if i < w.budget && sub % 128 ≤ 95 then some (.v i (sub % 128) (128 ≤ sub)) else none
    | 2 => if i ≤ 7 && sub ≤ 2 then some (.q i sub) else none
    | 3 => if i ≤ 0x12 && sub = 0 then some (.special i) else none
    | 4 => if i ≤ 15 && sub = 0 then some (.record i) else none
    | 5 => if i < w.stack.length && sub ≤ 7 then some (.stack i sub) else none
    | 6 => if i = 0 && sub ≤ 95 then some (.flags sub) else none
    | 7 => if i ≤ 15 && sub = 0 then some (.b i) else none
    | _ => none

namespace State

/-- A register of a warp has a load, SFU or factor-tile result still to come (R334). -/
def resultDue (s : State) (k key : Nat) : Bool :=
  (s.flights.any fun e => warpKey e.2.core e.2.slot == k && !e.2.landing && !e.2.returned && e.2.keys.contains key)
    || (s.sfu.any fun r => warpKey r.core r.slot == k && r.dst == key)
    || s.ops.any fun e => warpKey e.2.core e.2.slot == k && (match e.2.kind with
        | .ftrow | .ftslv _ => e.2.n == key
        | _ => false)

/-- The register key an item stands for. -/
def itemKey : Item → Option Nat
  | .s n => some (128 + n)
  | .v n _ _ => some n
  | _ => none

/-- Whether an access to an item waits (R334). -/
def itemWaits (s : State) (k : Nat) (x : Item) : Bool := ((itemKey x).map (s.resultDue k)).getD false

/-- The spill slot of a stack entry counted from the top, when it is spilled (R300). -/
def spillSlot (w : Warp) (i : Nat) : Option Nat :=
  let held := w.stack.length - w.spilled
  if i < held then none else some (i - held)

/-- A stack entry, from its spill slot when it is spilled (R300, R341). -/
def stackEntry (s : State) (k i : Nat) : StackEnt :=
  let w := s.warp k
  let e := w.stack.getD i ⟨0, 0, 0, false⟩
  match spillSlot w i with
  | some j =>
    (match (s.readBytes (s.blockAgent w.blk) (s.spillArea k + 32 * j) 32 .r).2 with
    | .bytes bs => StackEnt.ofBytes bs
    | _ => e)
  | none => e

/-- Writes a stack entry, into its spill slot when it is spilled. -/
def putStackEntry (s : State) (k i : Nat) (e : StackEnt) : State :=
  let w := s.warp k
  let s := match spillSlot w i with
    | some j => (s.writeBytes (s.blockAgent w.blk) (s.spillArea k + 32 * j) e.bytes).1
    | none => s
  s.modWarp k fun w => { w with stack := w.stack.set i e }

/-- The five flags of a lane (R341). -/
def laneFlags (w : Warp) (l : Nat) : Nat :=
  ((List.range 5).map fun j => if ((w.vf.toList[j]?).getD 0).getLsbD l then 2 ^ j else 0).sum

/-- What XRD returns (R341). -/
def readItem (s : State) (k : Nat) (x : Item) : Word :=
  let w := s.warp k
  match x with
  | .s n => w.sreg n
  | .v n l p =>
    let bad := w.bad.get (Warp.vKey n l) 0 != 0
    if p then (if bad then 1 else 0) else if bad then 0 else lane (w.vreg n) l
  | .q n j => w.qreg n j
  | .special n => s.special' k n
  | .record i => w.frec.word i
  | .stack i j => BitVec.ofNat 32 (fieldAt (s.stackEntry k i).bytes (4 * j) 4)
  | .flags l => BitVec.ofNat 32 (laneFlags w l)
  | .b n => (s.block w.blk).bfile.regs.get n 0

/-- The resumption position a handler sets (R331); a warp moved elsewhere no longer waits where it
stopped.
DEDUCED, log entry 46. -/
def moveTo (w : Warp) (r : FaultRec) : Warp :=
  if (r.rpc, r.rslot, r.rexp) = (w.frec.rpc, w.frec.rslot, w.frec.rexp) then { w with frec := r }
  else { w with frec := r, asks := [], replies := [], solo := none, inBar := none }

/-- An XWR to word 4, 5 or 6 of a fault record (R331). -/
def writeRecord (w : Warp) (i : Nat) (x : Word) : Warp :=
  match i with
  | 4 => moveTo w { w.frec with rslot := bits x.toNat 2 2, rexp := x.getLsbD 5 }
  | 5 => { w with rpcHeld := some x }
  | _ =>
    let v := 2 ^ 32 * x.toNat + (w.rpcHeld.getD (lowWord w.frec.rpc)).toNat
    let w := { w with rpcHeld := none }
    if v % 12 = 0 then moveTo w { w.frec with rpc := v } else w

/-- What XWR writes; none is BOUNDS (R341). -/
def writeItem (s : State) (k : Nat) (x : Item) (v : Word) : Option State :=
  match x with
  | .s n => some (s.modWarp k fun w => w.setS n v)
  | .v n l _ => some (s.modWarp k fun w => w.setV n (maskIf (· == l)) (Vector.replicate 96 v))
  | .q n j => some (s.modWarp k fun w => w.setQ n j v)
  | .special n =>
    if n = 1 then some (s.modWarp k fun w => { w with cause := w.cause &&& ~~~v })
    else if n = 2 || n = 3 || n = 0x10 || n = 0x11 then some (s.setSpecial k n v)
    else none
  | .record i => if 4 ≤ i && i ≤ 6 then some (s.modWarp k fun w => writeRecord w i v) else none
  | .stack i j => some (s.putStackEntry k i (StackEnt.ofBytes (patch (s.stackEntry k i).bytes (4 * j) (leBytes 4 v.toNat))))
  | .flags l =>
    some (s.modWarp k fun w => { w with
      vf := Vector.ofFn fun j : Fin 5 => if v.getLsbD j.val then w.vf[j] &&& ~~~(maskIf (· == l)) else w.vf[j] })
  | .b _ => none

end State

/-- XRD (R341). -/
def execXrd (x : BitVec 6) (l i : Src) (s : State) : Result :=
  .next (s.issue (.xrd x l i)
    (match s.servedWarp (s.readScalar l).toNat with
     | none => s.fail .bounds
     | some k =>
       match itemOf (s.warp k) (s.readScalar i).toNat with
       | none => s.fail .bounds
       | some it => if s.itemWaits k it then s.wait else (s.setS x.toNat (s.readItem k it)).done))

/-- XWR (R341). -/
def execXwr (x : BitVec 6) (l i : Src) (s : State) : Result :=
  .next (s.issue (.xwr x l i)
    (match s.servedWarp (s.readScalar l).toNat with
     | none => s.fail .bounds
     | some k =>
       match itemOf (s.warp k) (s.readScalar i).toNat with
       | none => s.fail .bounds
       | some it =>
         if s.itemWaits k it then s.wait
         else match s.writeItem k it (s.before.sreg x.toNat) with
           | some t => t.done
           | none => s.fail .bounds))

/-! CSRR and CSRW (R342, R343). -/

namespace State

/-- A privileged register, with no latch (R342). -/
def csrValue (s : State) (n : Nat) : Word :=
  let c := s.core s.myCore
  let bk (i : Nat) : Nat := ((c.bkpt.toList[i]?).getD 0).toNat
  match n with
  | 0x00 => BitVec.ofNat 32 ((if c.bken then 2 else 0) + if c.place then 1 else 0)
  | 0x01 => lowWord c.trapBase
  | 0x02 => highWord c.trapBase
  | 0x03 => BitVec.ofNat 32 s.ctxRegion
  | 0x04 => BitVec.ofNat 32 s.ctxPart
  | 0x05 => if s.ctxNs then 1 else 0
  | 0x06 => lowWord s.ctxRoot
  | 0x07 => highWord s.ctxRoot
  | 0x08 => BitVec.ofNat 32 (s.preemptRead s.myCore)
  | n => if n % 2 = 0 then lowWord (bk ((n - 0x10) / 2)) else highWord (bk ((n - 0x10) / 2))

/-- The low register of a pair: TRAP_BASE, XLATE_ROOT, BKPTnL. -/
def csrLow (n : Nat) : Bool := n == 0x01 || n == 0x06 || (0x10 ≤ n && n % 2 == 0)
/-- The high register of a pair. -/
def csrHigh (n : Nat) : Bool := n == 0x02 || n == 0x07 || (0x10 ≤ n && n % 2 == 1)

/-- CSRR: a low register latches its high half, a high one uses the latch up (R271, R342). -/
def csrRead (s : State) (n : Nat) : Word := if csrHigh n then s.me.csrLat.get n (s.csrValue n) else s.csrValue n
def csrLatch (s : State) (n : Nat) : State :=
  if csrLow n then s.modMe fun w => { w with csrLat := w.csrLat.put (n + 1) (s.csrValue (n + 1)) }
  else if csrHigh n then s.modMe fun w => { w with csrLat := w.csrLat.del n }
  else s

/-- A field of the issuing context: the trap warp's, or the block's (R342). -/
def setCtx (s : State) (f : Core → Core) (g : Block → Block) : State :=
  if s.isTrap then s.modCore s.myCore f else s.modMyBlock g

/-- A pair takes its two halves (R342, R343). -/
def csrPair (s : State) (n v : Nat) : State :=
  match n with
  | 0x02 => if v % 384 = 0 then s.modCore s.myCore ({ · with trapBase := v }) else s
  | 0x07 => s.setCtx ({ · with xroot := bits v 13 39 * 2 ^ 13 }) ({ · with xroot := bits v 13 39 * 2 ^ 13 })
  | n => s.modCore s.myCore fun c => { c with bkpt := c.bkpt.setIfInBounds ((n - 0x11) / 2) (BitVec.ofNat 64 (v % 2 ^ 56)) }

/-- What CSRW writes (R342). -/
def csrWrite (s : State) (n : Nat) (x : Word) : State :=
  let v := x.toNat
  if csrLow n then s.modMe fun w => { w with csrHeld := w.csrHeld.put n x }
  else if csrHigh n then
    let low := s.me.csrHeld.get (n - 1) (s.csrValue (n - 1))
    (s.modMe fun w => { w with csrHeld := w.csrHeld.del (n - 1) }).csrPair n (2 ^ 32 * v + low.toNat)
  else match n with
    | 0x00 =>
      let s := s.modCore s.myCore ({ · with bken := v.testBit 1, place := v.testBit 0 })
      if v.testBit 2 then s.haltCore s.myCore else s
    | 0x03 => s.setCtx ({ · with region := v % 2 ^ 12 }) ({ · with xregion := v % 2 ^ 12 })
    | 0x04 => s.setCtx ({ · with part := v % 2 ^ 6 }) ({ · with part := v % 2 ^ 6 })
    | 0x05 => s.setCtx ({ · with world := v.testBit 0 }) ({ · with ns := v.testBit 0 })
    | _ => s.preemptWrite s.myCore v

end State

/-- CSRR (R342). -/
def execCsrr (x : BitVec 6) (n : BitVec 8) (s : State) : Result :=
  .next (s.issue (.csrr x n) (((s.csrLatch n.toNat).setS x.toNat (s.csrRead n.toNat)).done))

/-- CSRW (R342): it takes effect for the chains after it. -/
def execCsrw (x : BitVec 6) (n : BitVec 8) (s : State) : Result :=
  .next (s.issue (.csrw x n) ((s.csrWrite n.toNat (s.before.sreg x.toNat)).done))

end Sys2Proof.Machine
end

