-- ==== Sys2Proof/Machine/Preempt.lean ====
section
/-!
DEFINITION. Pre-emption (17_traps_preemption.md R344 to R348): eviction and parking of a cluster,
context records, landing slots and resumption (with 05_bundles.md R134, 07_consistency.md R174,
10_scratchpad.md R224, R225, 11_register_tree.md R243, 13_matrix_engine.md R285, 14_factor_tile.md
R297).
-/

namespace Sys2Proof.Machine

/-! Blocking points (R345, R348). -/

/-- Whether a warp waits at a blocking point. -/
def blockedAt (w : Warp) : Bool :=
  match w.wake with
  | .bar .. | .mbwait .. | .mbwaitCl .. => true
  -- a QWAIT that its queue has served waits no more (R327)
  | .qwait .. => (w.replies.get? 1).isNone
  | .waitc .. => w.wakeOk
  | _ => false

/-- The two words of a wake condition (R348). -/
def wakeWords (w : Warp) : Nat × Nat :=
  match w.wake with
  | .bar kind p => (kind, p)
  | .mbwait off par => (4 + (if par then 256 else 0), off)
  | .mbwaitCl ptr par => (5 + (if par then 256 else 0), ptr)
  | .qwait region q => (6, region + 2 ^ 12 * q)
  | .waitc paths thr => (7, paths + 2 ^ 32 * thr)
  | _ => (0, 0)

namespace State

/-- The blocks of a request that have not retired since. -/
def evicting (s : State) (core : Nat) : List Nat := (s.core core).preempt.blks.filter fun b => (s.block b).state != .retired

/-- Every unexited warp of a block waits at a blocking point, and none waits for a sweep (R291, R297, R345). -/
def allBlocked (s : State) (b : Nat) : Bool :=
  (s.blockWarps b).all fun k =>
    !s.sweeping k && ((s.warp k).run == .exited || ((s.warp k).run == .running && blockedAt (s.warp k)))

/-- The lowest free context slots of a die. -/
def freeCtxs (s : State) (die : Nat) : List Nat :=
  let d := s.die die
  (List.range d.ctxN).filter fun n => !d.ctxUsed.contains n

/-- A parking whose rows would pass the sweeper's limit evicts in full instead (R225). -/
def parkFits (s : State) (bs : List Nat) : Bool :=
  (bs.map fun b => (s.block b).core).dedup.all fun c =>
    let mine := s.allocs.filter fun a => a.core == c && bs.contains a.blk
    s.sweptRows c + ((mine.filter (!·.auto)).map (·.rows)).sum ≤ 1792

end State

/-- EVICTION_PROCEED (R345 steps 1 to 4): once every warp waits at a blocking point, a full eviction takes
its context slots and issue stops; a parking takes as many where they are free, and goes on without where they are not.
DESIGN CHOICE, log entry 48. -/
def execEvictionProceed (core : Nat) (s : State) : Result :=
  .next (let p := (s.core core).preempt
    let bs := s.evicting core
    if !p.busy || p.saving then s.done
    else if bs = [] then (s.endPreempt core 6).done
    else if bs.any fun b => (s.block b).state == .halted then (s.endPreempt core 5).done
    else if !bs.all s.allBlocked then (s.push [.evictionProceed core]).done
    else
      let park := p.parking && s.parkFits bs
      let die := dieOf core
      let slots := s.freeCtxs die
      if !park && slots.length < bs.length then (s.endPreempt core 4).done
      else
        let take := if slots.length < bs.length then [] else slots.take bs.length
        let s := s.modDie die fun d => { d with ctxUsed := d.ctxUsed ++ take }
        let s := (List.range bs.length).foldl (fun (s : State) i =>
          s.modBlock (bs.getD i 0) fun x => { x with state := .evicting, ctx := take[i]?, parked := park }) s
        let s := s.modCore core fun c => { c with preempt := { c.preempt with saving := true, blks := bs } }
        (s.push [.evictionSave core]).done)

/-! Context records (R347). -/

namespace State

/-- The header of a block's context record. -/
def ctxHeader (s : State) (b : Nat) : List Byte :=
  let x := s.block b
  let r := (s.recs.get? x.lrec)
  let g := s.grid x.grid
  (leBytes 4 (1 + (if x.landed then 256 else 0) + if x.parked then 512 else 0)
    ++ leBytes 4 (x.xregion + 2 ^ 12 * x.cls + 2 ^ 16 * x.part + if x.ns then 2 ^ 24 else 0)
    ++ leBytes 8 x.code ++ leBytes 8 x.dict ++ leBytes 8 x.frame ++ leBytes 8 x.joinc
    ++ leBytes 4 x.idx ++ leBytes 4 x.nblk ++ leBytes 4 x.cidx ++ leBytes 4 x.ident
    ++ leBytes 4 ((x.slots.length - 1) + 2 ^ 5 * x.nacc + 2 ^ 9 * x.nft + 2 ^ 16 * x.srows)
    ++ leBytes 4 x.pslot ++ leBytes 8 x.lclk ++ leBytes 8 x.leasemax
    ++ leBytes 4 (g.home + 2 ^ 8 * (x.grid % 2 ^ 20)) ++ leBytes 4 0 ++ leBytes 8 x.rolemap
    ++ leBytes 4 ((r.map (·.vregs)).getD 0) ++ leBytes 4 (x.ctx.getD 0)) ++ List.replicate 0x98 0

/-- The held entries of a warp's stack, top first. -/
def heldStack (w : Warp) : List StackEnt := w.stack.take (w.stack.length - w.spilled)

/-- The pieces of a warp's 4 KiB image, by offset.
DESIGN CHOICE, log entry 48. -/
def warpPieces (s : State) (k : Nat) : List (Nat × List Byte) :=
  let w := s.warp k
  let words (l : List Word) : List Byte := l.flatMap fun x => leBytes 4 x.toNat
  let wake := wakeWords w
  [(0x000, words w.s.toList), (0x100, words w.q.toList),
    (0x160, words [w.fpctl, w.sf.zeroExtend 32, s.ftstat k, if w.ftTrap then 1 else 0, w.cause]),
    (0x180, leBytes 8 w.pc ++ leBytes 4 (w.slot + if w.exp then 4 else 0) ++ leBytes 12 w.sls.toNat ++ leBytes 4 w.back),
    (0x1A0, leBytes 8 wake.1 ++ leBytes 8 wake.2),
    (0x300, (heldStack w).flatMap StackEnt.bytes),
    (0x500, words ((List.range 16).map w.frec.word)),
    (0xE50, (List.range 96).map fun l => BitVec.ofNat 8 (laneFlags w l))] ++ s.versionPieces w

/-- Vector registers a warp's image holds. -/
def imageRegs (w : Warp) : Nat := (w.budget + 7) / 8 * 8

/-- Poison marks of a warp's vector image, two bits an element, packed by fours. -/
def poisonBytes (w : Warp) : List Byte :=
  (List.range (imageRegs w * 24)).map fun i =>
    BitVec.ofNat 8 ((List.range 4).map fun j => w.bad.get (4 * i + j) 0 % 4 * 4 ^ j).sum

/-- Writes a block's warps into its record, their vector images in index order. -/
def saveWarps (s : State) (b a : Nat) : State :=
  let ks := s.blockWarps b
  let starts := ks.map fun k => (s.warp k).budget
  (List.range ks.length).foldl (fun (t : State) i =>
    let k := ks.getD i 0
    let w := s.warp k
    let first := imageStart starts i
    let t := (s.warpPieces k).foldl (fun (t : State) p => t.physWrite (a + 0x1000 + 0x1000 * i + p.1) p.2) t
    let t := (List.range (imageRegs w)).foldl (fun (t : State) n =>
      t.physWrite (a + 0x100000 + 384 * (first + n)) ((w.vreg n).toList.flatMap fun x => leBytes 4 x.toNat)) t
    t.physWrite (a + 0x400000 + 24 * first) (poisonBytes w)) s

/-- Writes a block's tiles into its record (R285, R297). -/
def saveTiles (s : State) (b a : Nat) : State :=
  let x := s.block b
  let s := (List.range x.nft).foldl (fun (s : State) t =>
    s.physWrite (a + 0x34000 + 0x5000 * t) (FTile.image (x.ftiles.get t {}))) s
  (List.range x.nacc).foldl (fun (s : State) t =>
    let acc := x.accs.get t []
    s.physWrite (a + 0x40000 + 0x18000 * t) ((List.range (96 * 256)).flatMap fun i => leBytes 4 (acc.get i 0).toNat)) s

/-- A block's allocations in the order they are saved, those that cannot be read last and LOST (R224). -/
def saveOrder (s : State) (b : Nat) : List (Alloc × Bool) :=
  let mine := s.allocs.filter (·.blk == b)
  let lost (x : Alloc) : Bool := x.rowList.any (s.rowStale x.core)
  let due (x : Alloc) : Nat := (x.rowList.map (s.rowDeadline x.core)).foldl min (s.rowDeadline x.core x.first)
  let keep := mine.filter (!lost ·)
  let n := sortBy (fun i j => (keep[i]?.map due).getD 0 < (keep[j]?.map due).getD 0) (List.range keep.length)
  n.filterMap (fun i => keep[i]?.map fun x => (x, false)) ++ (mine.filter lost).map fun x => (x, true)

/-- What is kept of a block's allocations (R224, R347). -/
def savedAllocs (s : State) (b : Nat) : List SavedAlloc :=
  ((s.saveOrder b).foldl (fun (e : List SavedAlloc × Nat) p =>
    let (x, lost) := p
    let y : SavedAlloc :=
      { index := x.index, first := x.first, rows := x.rows, auto := x.auto, lost := lost, life := x.life
        remaining := (x.exp : Int) - s.nowCore x.core, at' := e.2 }
    (e.1 ++ [y], if lost then e.2 else e.2 + 4096 * x.rows)) ([], 0)).1

/-- Writes a block's scratchpad rows and directory into its record (R224). -/
def savePad (s : State) (b a : Nat) (l : List SavedAlloc) : State :=
  let core := (s.block b).core
  let s := l.foldl (fun (s : State) y =>
    if y.lost then s else s.physWrite (a + 0x480000 + y.at') (s.padRead core (4096 * y.first) (4096 * y.rows))) s
  s.physWrite (a + 0x420000) (l.flatMap fun y =>
    leBytes 4 (4096 * y.first) ++ leBytes 4 (y.rows + (if y.auto then 2 ^ 16 else 0) + if y.lost then 2 ^ 17 else 0)
      ++ leBytes 8 (BitVec.ofInt 64 y.remaining).toNat)

end State

/-! Block and cluster files (R243). -/

/-- A slot's 64 bytes: mode, what FADD has seen, value and exact sum. -/
def slotBytes : Option Slot → List Byte
  | none => leBytes 64 0
  | some x =>
    leBytes 4 (2 ^ 31 + x.mode + 2 ^ 8 * x.special + if x.negZero then 2 ^ 12 else 0) ++ leBytes 4 x.val.toNat ++ leBytes 8 0
      ++ leBytes 48 (BitVec.ofInt 384 x.num).toNat

def slotOfBytes (bs : List Byte) : Option Slot :=
  let w := fieldAt bs 0 4
  if !w.testBit 31 then none
  else some { mode := bits w 0 4, val := BitVec.ofNat 32 (fieldAt bs 4 4), num := (BitVec.ofNat 384 (fieldAt bs 16 48)).toInt
              special := bits w 8 3, negZero := w.testBit 12 }

/-- A scope's file as a record holds it: committed values, phase, arrival set by block, and slots; `base` is the
destination code of its first register.
DESIGN CHOICE, log entry 48. -/
def fileBytes (f : ScopeFile) (base : Nat) (blks : List Nat) : List Byte :=
  let set (b : Nat) : Nat := ((List.range 32).map fun w => if f.arrived.contains (State.arriver b w) then 2 ^ w else 0).sum
  ((List.range 16).flatMap fun i => leBytes 4 (f.regs.get i 0).toNat) ++ leBytes 8 f.phase
    ++ ((List.range 8).flatMap fun i => leBytes 4 ((blks[i]?.map set).getD 0)) ++ List.replicate 152 0
    ++ (List.range 16).flatMap fun i => slotBytes (f.slots.get? (base + i))

def fileOfBytes (bs : List Byte) (base : Nat) (blks : List Nat) : ScopeFile where
  regs := (List.range 16).map fun i => (i, BitVec.ofNat 32 (fieldAt bs (4 * i) 4))
  slots := (List.range 16).filterMap fun i => (slotOfBytes (slice bs (256 + 64 * i) 64)).map fun x => (base + i, x)
  phase := fieldAt bs 64 8
  arrived := (List.range 8).flatMap fun i => match blks[i]? with
    | some b => ((List.range 32).filter (fieldAt bs (72 + 4 * i) 4).testBit).map (State.arriver b)
    | none => []

namespace State

/-- Whether a block is the lowest-numbered of those of its cluster that have not retired: its record has the cluster
file (R243). -/
def leads (s : State) (b : Nat) : Bool := ((s.clusterBlks b).filter fun x => (s.block x).state != .retired).head? == some b

/-- Saves a block's file, and the cluster's with its lowest-numbered block (R243, R347). -/
def saveFiles (s : State) (b a : Nat) : State :=
  let x := s.block b
  let s := s.physWrite (a + 0x21000) (fileBytes x.bfile 0 [b])
  if s.leads b then s.physWrite (a + 0x22000) (fileBytes (s.cluster x.cluster).file 16 (s.clusterBlks b)) else s

/-- Restores them. -/
def loadFiles (s : State) (b a : Nat) : State :=
  let x := s.block b
  let (s, bs) := s.physRead (a + 0x21000) 1280
  let s := s.modBlock b ({ · with bfile := fileOfBytes bs 0 [b] })
  if s.leads b then
    let (s, bs) := s.physRead (a + 0x22000) 1280
    s.modCluster x.cluster fun c => { c with file := fileOfBytes bs 16 (s.clusterBlks b) }
  else s

/-- Flights of a block's warps. -/
def blockFlights (s : State) (b : Nat) : List (Nat × Flight) := s.flights.filter fun e => e.2.blk == b && e.2.slot != 64

/-- What an eviction waits for before it saves a block: its engine, matrix and factor operations, results
still due, accesses to its cluster's scratchpads, and the arrivals of warps that have exited (R203, R239, R285, R297, R345). -/
def saveWaits (s : State) (b : Nat) : Bool :=
  (s.ops.any fun e => e.2.blk == b || (match e.2.pair with
    | some (_, p) => p == b
    | none => false))
  || (s.sfu.any fun r => (s.blockWarps b).contains (warpKey r.core r.slot))
  || ((s.blockFlights b).any fun e => e.2.reqs.any fun r => r.win != .global && !r.done)
  -- an exit still to be counted (R239)
  || s.agenda.any fun i => match i with
    | .barrierArrival c k => (s.blockWarps b).contains (warpKey c k)
    | _ => false

/-- Every flight of a block goes on without its warps: loads as landing slots, in order (R346). -/
def landFlights (s : State) (b : Nat) : State :=
  let loads := (s.blockFlights b).filter (·.2.returns)
  let s := (List.range loads.length).foldl (fun (s : State) i =>
    match loads[i]? with
    | some (id, f) =>
      let widx := ((s.block b).slots.findIdx? (· == f.slot)).getD 0
      (s.modFlight id ({ · with lslot := i })).landingSlot b i (landingBytes f widx 1)
    | none => s) s
  { s with flights := s.flights.map fun e => (e.1, if e.2.blk = b && e.2.slot ≠ 64 then { e.2 with landing := true } else e.2) }

/-- Steps 5 to 7 of R345 for one block. -/
def evictBlock (s : State) (b : Nat) : State :=
  let x := s.block b
  let c := s.core x.core
  let s := s.modBlock b fun x => { x with lclk := c.lclk, leasemax := c.leasemax, landed := false }
  let saved := s.savedAllocs b
  let s := match s.ctxAddr b with
    | some a =>
      let s := (s.saveWarps b a).saveTiles b a
      let s := if x.parked then s else s.savePad b a saved
      (s.saveFiles b a).physWrite a (s.ctxHeader b)
    | none => s
  let s := s.landFlights b
  let images := (List.range x.slots.length).map fun i =>
    let w := s.warp (warpKey x.core (x.slots.getD i 0))
    -- every latch is emptied (R271, R342); a record that a QWAIT has been given stays given (R327)
    (i, { w with asks := if (w.replies.get? 1).isSome then w.asks else w.asks.del 1, held := none
                 latTime := none, latLclk := none, latBnd := none, csrLat := [] })
  let s := s.modBlock b fun x =>
    { x with state := .evicted, images := images, saved := saved
             accs := if x.ctx.isSome then [] else x.accs
             ftiles := if x.ctx.isSome then [] else x.ftiles }
  let s := { s with
    warps := s.warps.filter fun e => !(e.2.blk == b && keySlot e.1 != 64)
    allocs := if x.parked then s.allocs else s.allocs.filter (·.blk != b) }
  (s.leaveDie b).push [.evictionReleaseDone b]

end State

/-- EVICTION_SAVE (R345 steps 4 to 7). -/
def execEvictionSave (core : Nat) (s : State) : Result :=
  .next (let p := (s.core core).preempt
    let bs := s.evicting core
    if !p.saving then s.done
    else if bs.any s.saveWaits then (s.push [.evictionSave core]).done
    else
      let park := bs.any fun b => (s.block b).parked
      let s := bs.foldl (fun (s : State) b => s.evictBlock b) s
      (s.endPreempt core (if park then 2 else 1)).done)

/-- EVICTION_RELEASE_DONE (R174, R345): every landing slot has filled, every store is acknowledged and the
leases they met are over. -/
def execEvictionReleaseDone (blk : Nat) (s : State) : Result :=
  .next (let x := s.block blk
    if x.state != .evicted || x.landed then s.done
    else if s.blockFlights blk != [] || s.nowCore x.core ≤ x.leasemax then (s.push [.evictionReleaseDone blk]).done
    else
      let s := s.modBlock blk ({ · with landed := true })
      (match s.ctxAddr blk with
        | some a => s.physWrite a (s.ctxHeader blk)
        | none => s).done)

/-! Resumption (R348). -/

namespace State

/-- A byte of an evicted or parked block's scratchpad as its record, or its core, holds it. -/
def savedWord (s : State) (b off : Nat) : Nat :=
  let x := s.block b
  if x.parked then s.padWord x.core off
  else match s.ctxAddr b, x.saved.find? fun y => y.first ≤ off / 4096 && off / 4096 < y.first + y.rows with
    | some a, some y => leNat (s.physRead (a + 0x480000 + y.at' + (off - 4096 * y.first)) 4).2
    | _, _ => 0

/-- Whether an offset of an evicted block lies in an allocation that is LOST (R224). -/
def savedLost (s : State) (b off : Nat) : Bool :=
  !(s.block b).parked && (s.block b).saved.any fun y => y.lost && y.first ≤ off / 4096 && off / 4096 < y.first + y.rows

/-- Whether a saved warp's wake condition is met (R348); a barrier object that is LOST keeps no warp waiting, for it
raises STALE (R225).
DESIGN CHOICE, log entry 48. -/
def wakeMet (s : State) (b : Nat) (w : Warp) : Bool :=
  match w.wake with
  | .bar kind p => p < (s.putFile b (barDest kind)).phase
  | .mbwait off par => s.savedLost b off || (s.savedWord b off).testBit 31 != par
  | .mbwaitCl ptr par =>
    match (s.clusterBlks b).find? fun x => s.identOf x == bits ptr 42 10 with
    | some x => s.savedLost x (ptr % 2 ^ 23) || (s.savedWord x (ptr % 2 ^ 23)).testBit 31 != par
    | none => false
  | .qwait region q =>
    (w.replies.get? 1).isSome || match s.queueAt region q with
    | some r => (r.pidx.get? q).any (· != (r.queue q).cidx)
    | none => false
  | .waitc paths thr => (List.range 4).all fun i => !paths.testBit i || pathCount w i ≤ thr
  | _ => false

/-- A cluster can be resumed: all of it is out and landed, and a warp's condition is met (R243, R348). -/
def wakes (s : State) (b : Nat) : Bool :=
  let bs := (s.clusterBlks b).filter fun x => (s.block x).state != .retired
  bs.all (fun x => (s.block x).state == .evicted && (s.block x).landed)
    && bs.any fun x => (s.block x).images.any fun e => e.2.run == .running && s.wakeMet x e.2

/-- Whether an evicted block fits a core, the rows of its allocations free there (R137, R322). -/
def resumeFits (s : State) (core b : Nat) : Bool :=
  let x := s.block b
  match s.regionOf (dieOf core) x.region with
  | none => false
  | some r =>
    let w : Wants :=
      { warps := x.slots.length, cls := x.cls, vregs := x.vregs, nacc := x.nacc, nft := x.nft, dict := x.dict
        srows := (x.saved.map (·.rows)).sum }
    s.eligible r core && (if x.parked then core = x.core && s.roomFor r core { w with srows := 0 }
      else s.roomFor r core w && x.saved.all (fun y => !s.rowsAwaited core y.first y.rows && (List.range y.rows).all fun i => s.rowFree core (y.first + i))
        && (s.allocs.filter (·.core == core)).length + x.saved.length ≤ 64)

/-- `n` words of a record. -/
def recWords (s : State) (a n : Nat) : State × List Word :=
  let (s, bs) := s.physRead a (4 * n)
  (s, wordsOf n bs)

/-- Reads several pieces of a record in turn: what each gives, by its number. -/
def readEach {α : Type} (n : Nat) (f : State → Nat → State × α) (s : State) : State × List (Nat × α) :=
  (List.range n).foldl (fun (e : State × List (Nat × α)) i =>
    let (s, x) := f e.1 i
    (s, e.2 ++ [(i, x)])) (s, [])

/-- A warp as its record in memory has it, the rest as it was saved (R347). -/
def loadWarp (s : State) (a i : Nat) (budgets : List Nat) (w : Warp) : State × Warp :=
  let p := a + 0x1000 + 0x1000 * i
  let (s, ss) := s.recWords p 64
  let (s, qs) := s.recWords (p + 0x100) 24
  let (s, at') := s.recWords (p + 0x180) 7
  let word (l : List Word) (j : Nat) : Word := l.getD j 0
  let first := imageStart budgets i
  let (s, vs) := readEach (imageRegs w) (fun s n =>
    let (s, x) := s.recWords (a + 0x100000 + 384 * (first + n)) 96
    (s, lanesOf fun l => x.getD l 0)) s
  (s, { w with
    s := Vector.ofFn fun j : Fin 64 => word ss j.val
    q := Vector.ofFn fun j : Fin 24 => word qs j.val
    v := vs
    pc := (word at' 0).toNat + 2 ^ 32 * (word at' 1).toNat
    slot := bits (word at' 2).toNat 0 2
    exp := (word at' 2).getLsbD 2
    sls := maskOf (word at' 3) (word at' 4) (word at' 5)
    back := (word at' 6).toNat })

/-- A block's warps as the record has them. -/
def loadWarps (s : State) (b a : Nat) : State :=
  let budgets := s.imageBudgets b
  (s.block b).images.foldl (fun (s : State) e =>
    let (s, w) := s.loadWarp a e.1 budgets e.2
    s.modBlock b fun x => { x with images := x.images.put e.1 w }) s

/-- Tiles as the record has them (R285, R297). -/
def loadTiles (s : State) (b a : Nat) : State :=
  let x := s.block b
  let (s, fts) := readEach x.nft (fun s t =>
    let (s, bs) := s.physRead (a + 0x34000 + 0x5000 * t) 0x5000
    (s, FTile.ofImage (min 96 (fieldAt bs 0 4)) bs)) s
  let (s, accs) := readEach x.nacc (fun s t =>
    let (s, ws) := s.recWords (a + 0x40000 + 0x18000 * t) (96 * 256)
    (s, (List.range (96 * 256)).map fun i => (i, ws.getD i 0))) s
  s.modBlock b fun x => { x with ftiles := fts, accs := accs }

/-- The entry a saved allocation takes: its own, or, where another block holds that, the lowest free one that is none of
those saved (R225).
DEDUCED, log entry 27. -/
def loadIndex (s : State) (core : Nat) (saved : List SavedAlloc) (y : SavedAlloc) : Nat :=
  let taken (i : Nat) : Bool := s.allocs.any fun z => z.core == core && z.index == i
  if taken y.index then
    ((List.range 64).find? fun i => !taken i && !saved.any (·.index == i)).getD (s.allocIndex core)
  else y.index

/-- Allocations return to their entries, while these are free, and to their offsets with every row restored; a LOST
one's rows are EXPIRED (R225).
DEDUCED, log entry 27. -/
def loadPad (s : State) (core b : Nat) : State :=
  let x := s.block b
  x.saved.foldl (fun (s : State) y =>
    let exp := ((s.nowCore core : Int) + y.remaining).toNat
    if x.parked then
      { s with allocs := s.allocs.map fun (z : Alloc) =>
          if z.blk = b && z.first = y.first then { z with exp := if z.auto then z.exp else exp } else z }
    else
      let z : Alloc := { core := core, index := s.loadIndex core x.saved y, blk := b, first := y.first, rows := y.rows
                         auto := y.auto, life := y.life, exp := exp, lost := y.lost }
      let s := ({ s with allocs := s.allocs ++ [z] } : State).restoreRows core y.first y.rows
      if y.lost then (List.range y.rows).foldl (fun (s : State) i => s.expireRow core (y.first + i)) s
      else match s.ctxAddr b with
        | some a =>
          let (s, bs) := s.physRead (a + 0x480000 + y.at') (4096 * y.rows)
          s.padWrite core (4096 * y.first) bs
        | none => s) s

/-- A block is placed again on a core (R174, R225, R348). -/
def resumeBlock (s : State) (core b : Nat) : State :=
  let x := s.block b
  let shared := (s.dictsUsed core).contains x.dict
  let slots := (s.freeSlots core).take x.slots.length
  let bslot := s.freeBslot core
  let s := match s.ctxAddr b with
    | some a => ((s.loadWarps b a).loadTiles b a).loadFiles b a
    | none => s
  let s := s.loadPad core b
  let s := s.modCore core fun c => { c with lclk := max c.lclk x.lclk, leasemax := max c.leasemax x.leasemax }
  let images : Tab Warp := (s.block b).images
  let s := s.modDie (dieOf x.core) fun d => { d with ctxUsed := d.ctxUsed.filter fun n => some n != x.ctx }
  let slotOf (n : Nat) : Nat := slots.getD ((x.slots.findIdx? (· == n)).getD 0) 0
  let s := s.modBlock b fun x =>
    { x with state := .running, core := core, bslot := bslot, slots := slots, images := [], saved := [], ctx := none
             parked := false, landed := false, kept := none
             mstale := x.mstale.map fun e => (e.1, slotOf e.2.1, e.2.2) }
  let s := images.foldl (fun (s : State) (e : Nat × Warp) =>
    -- a store fault kept while the block was out stops its warp (R346, R349)
    let stop := x.kept.isSome && e.2.frec.valid && e.2.run == .running
    let key := warpKey core (slots.getD e.1 0)
    let wake : Wake := match e.2.wake with
      -- an MBWAIT issues again with its checks (R229, R348)
      | .mbwait .. | .mbwaitCl .. => .none
      | x => x
    let w := { e.2 with
      age := s.turnOf key, run := if stop then .stopped else e.2.run, wake := wake
      -- an exited issuer is named by the slot it now has (R335)
      frec := if e.2.frec.issExit then { e.2.frec with exSlot := keySlot key } else e.2.frec }
    s.seat key w) s
  let s := s.modCluster x.cluster fun c => { c with rod := rodOf core }
  let s := (s.copyReplica x.grid (dieOf core)).takeDict core b x.dict shared
  match x.kept with
  | some i => s.haltBlock b (slots.getD i 0)
  | none => s

/-- The cores a cluster's blocks go to, the first on `core`, all on its rod (R243, R322). -/
def resumeCluster (s : State) (core b : Nat) : Option State :=
  if !s.wakes b then none
  else
    let bs := b :: ((s.clusterBlks b).filter fun x => x != b && (s.block x).state != .retired)
    (bs.foldl (fun (a : Option (State × Bool)) x =>
      match a with
      | none => none
      | some (s, first) =>
        let cs := if first then [core] else s.byRoom (coresOfRod (rodOf core))
        match cs.find? (s.resumeFits · x) with
        | none => none
        | some c => some (s.resumeBlock c x, false)) (some (s, true))).map (·.1)

/-- Where an evicted block, the first of its cluster, can resume: its die's order of cores (R322).
DESIGN CHOICE, log entry 48. -/
def findResume (s : State) (b : Nat) : Option Nat :=
  if (s.block b).state != .evicted || !s.leads b || !s.wakes b then none
  else (s.prefCores (dieOf (s.block b).core)).find? fun c => (s.resumeCluster c b).isSome

end State

/-- RESUMPTION (R348): where the engine's order of cores puts it. -/
def execResumption (blk core : Nat) (s : State) : Result :=
  .next (if s.findResume blk != some core then s.done
    else match s.resumeCluster core blk with
    | some s => s.done
    | none => s.done)

/-- An evicted block of a class can be placed again, which goes before new blocks of that class (R322). -/
def State.resumesFirst (s : State) (cls : Nat) : Bool := s.blocks.any fun e => e.2.cls == cls && (s.findResume e.1).isSome

/-- BLOCK_PLACEMENT (R322, R323, R402): on the core the engine prefers, once no evicted block of the class goes
first. -/
def execBlockPlacement (rec' core : Nat) (s : State) : Result :=
  .next (if s.findPlace rec' != some core then s.done
    else
      let cls := ((s.recs.get? rec').bind fun x => (s.regionOf x.die x.region).map fun r => State.recCls r x).getD 0
      if s.resumesFirst cls then s.done
      else match s.placeNext rec' core with
        | some s => s.done
        | none => s.done)

end Sys2Proof.Machine
end

