-- ==== Sys2Proof/Machine/Scalar.lean ====
section
/-!
DEFINITION. The scalar words (12_vector_scalar.md R261 to R266).
-/

namespace Sys2Proof.Machine

/-- SBFX's field (R265). -/
def bitField (a b : Word) : Word :=
  let pos := bits b.toNat 0 5
  let w := min 32 (bits b.toNat 8 6)
  let f := bits a.toNat pos w
  if w = 0 then 0
  else if b.getLsbD 15 && f.testBit (w - 1) then BitVec.ofNat 32 (2 ^ 32 - 2 ^ w + f)
  else BitVec.ofNat 32 f

/-- SBFI's replacement (R265). -/
def bitInsert (d a b : Word) : Word :=
  let pos := bits b.toNat 0 5
  let w := min (32 - pos) (min 32 (bits b.toNat 8 6))
  let m : Word := BitVec.ofNat 32 ((2 ^ w - 1) * 2 ^ pos)
  (d &&& ~~~m) ||| ((a <<< pos) &&& m)

/-- SMFST's lane, all ones for none (R264). -/
def firstLane (m : LaneMask) : Word :=
  match (laneList m).head? with
  | some l => BitVec.ofNat 32 l
  | none => 0xFFFFFFFF

/-- SADD (R261). -/
def execSadd (d : BitVec 6) (a : Src) (b : Src) (s : State) : Result :=
  .next (s.issue (.sadd d a b) ((s.setS d.toNat ((s.readScalar a) + (s.readScalar b))).done))

/-- SSUB (R261). -/
def execSsub (d : BitVec 6) (a : Src) (b : Src) (s : State) : Result :=
  .next (s.issue (.ssub d a b) ((s.setS d.toNat ((s.readScalar a) - (s.readScalar b))).done))

/-- SMUL (R261). -/
def execSmul (d : BitVec 6) (a : Src) (b : Src) (s : State) : Result :=
  .next (s.issue (.smul d a b) ((s.setS d.toNat ((s.readScalar a) * (s.readScalar b))).done))

/-- SMULHU (R261). -/
def execSmulhu (d : BitVec 6) (a : Src) (b : Src) (s : State) : Result :=
  .next (s.issue (.smulhu d a b) ((s.setS d.toNat (mulHighU (s.readScalar a) (s.readScalar b))).done))

/-- SAND (R261). -/
def execSand (d : BitVec 6) (a : Src) (b : Src) (s : State) : Result :=
  .next (s.issue (.sand d a b) ((s.setS d.toNat ((s.readScalar a) &&& (s.readScalar b))).done))

/-- SANDN (R261). -/
def execSandn (d : BitVec 6) (a : Src) (b : Src) (s : State) : Result :=
  .next (s.issue (.sandn d a b) ((s.setS d.toNat ((s.readScalar a) &&& ~~~(s.readScalar b))).done))

/-- SOR (R261). -/
def execSor (d : BitVec 6) (a : Src) (b : Src) (s : State) : Result :=
  .next (s.issue (.sor d a b) ((s.setS d.toNat ((s.readScalar a) ||| (s.readScalar b))).done))

/-- SXOR (R261). -/
def execSxor (d : BitVec 6) (a : Src) (b : Src) (s : State) : Result :=
  .next (s.issue (.sxor d a b) ((s.setS d.toNat ((s.readScalar a) ^^^ (s.readScalar b))).done))

/-- SSHL (R261). -/
def execSshl (d : BitVec 6) (a : Src) (b : Src) (s : State) : Result :=
  .next (s.issue (.sshl d a b) ((s.setS d.toNat (shl (s.readScalar a) (s.readScalar b))).done))

/-- SSHR (R261). -/
def execSshr (d : BitVec 6) (a : Src) (b : Src) (s : State) : Result :=
  .next (s.issue (.sshr d a b) ((s.setS d.toNat (shr (s.readScalar a) (s.readScalar b))).done))

/-- SSAR (R261). -/
def execSsar (d : BitVec 6) (a : Src) (b : Src) (s : State) : Result :=
  .next (s.issue (.ssar d a b) ((s.setS d.toNat (sar (s.readScalar a) (s.readScalar b))).done))

/-- SROL (R261). -/
def execSrol (d : BitVec 6) (a : Src) (b : Src) (s : State) : Result :=
  .next (s.issue (.srol d a b) ((s.setS d.toNat (rol (s.readScalar a) (s.readScalar b))).done))

/-- SMIN (R261). -/
def execSmin (d : BitVec 6) (a : Src) (b : Src) (s : State) : Result :=
  .next (s.issue (.smin d a b) ((s.setS d.toNat (sminWord (s.readScalar a) (s.readScalar b))).done))

/-- SMAX (R261). -/
def execSmax (d : BitVec 6) (a : Src) (b : Src) (s : State) : Result :=
  .next (s.issue (.smax d a b) ((s.setS d.toNat (smaxWord (s.readScalar a) (s.readScalar b))).done))

/-- SMOV (R261). -/
def execSmov (d : BitVec 6) (a : Src) (s : State) : Result :=
  .next (s.issue (.smov d a) ((s.setS d.toNat (s.readScalar a)).done))

/-- SNOT (R261). -/
def execSnot (d : BitVec 6) (a : Src) (s : State) : Result :=
  .next (s.issue (.snot d a) ((s.setS d.toNat (~~~(s.readScalar a))).done))

/-- SPOPC (R261). -/
def execSpopc (d : BitVec 6) (a : Src) (s : State) : Result :=
  .next (s.issue (.spopc d a) ((s.setS d.toNat (popWord (s.readScalar a))).done))

/-- SCLZ (R261). -/
def execSclz (d : BitVec 6) (a : Src) (s : State) : Result :=
  .next (s.issue (.sclz d a) ((s.setS d.toNat (clzWord (s.readScalar a))).done))

/-- SBFX (R265). -/
def execSbfx (d : BitVec 6) (a : Src) (b : Src) (s : State) : Result :=
  .next (s.issue (.sbfx d a b) ((s.setS d.toNat (bitField (s.readScalar a) (s.readScalar b))).done))

/-- SBFI (R265). -/
def execSbfi (d : BitVec 6) (a : Src) (b : Src) (s : State) : Result :=
  .next (s.issue (.sbfi d a b) ((s.setS d.toNat (bitInsert (s.before.sreg d.toNat) (s.readScalar a) (s.readScalar b))).done))

/-- SMCNT (R264). -/
def execSmcnt (d : BitVec 6) (a : BitVec 8) (s : State) : Result :=
  .next (s.issue (.smcnt d a) ((s.setS d.toNat (BitVec.ofNat 32 (laneList (s.before.triple a.toNat)).length)).done))

/-- SMFST (R264). -/
def execSmfst (d : BitVec 6) (a : BitVec 8) (s : State) : Result :=
  .next (s.issue (.smfst d a) ((s.setS d.toNat (firstLane (s.before.triple a.toNat))).done))

/-- SCMP (R262). -/
def execScmp (t : BitVec 5) (k : BitVec 3) (a : Src) (b : Src) (s : State) : Result :=
  .next (s.issue (.scmp t k a b) ((s.setS t.toNat (if intCond k.toNat (s.readScalar a) (s.readScalar b) then 1 else 0)).done))

/-- SADD64 (R263). -/
def execSadd64 (d : BitVec 6) (a : Src) (b : Src) (s : State) : Result :=
  .next (s.issue (.sadd64 d a b) ((s.setSpair d.toNat ((s.read64 a + s.read64 b) % 2 ^ 64)).done))

/-- SSUB64 (R263). -/
def execSsub64 (d : BitVec 6) (a : Src) (b : Src) (s : State) : Result :=
  .next (s.issue (.ssub64 d a b) ((s.setSpair d.toNat ((s.read64 a + 2 ^ 64 - s.read64 b) % 2 ^ 64)).done))

/-- SFADD (R266). -/
def execSfadd (d : BitVec 6) (a : Src) (b : Src) (s : State) : Result :=
  .next (s.issue (.sfadd d a b) (((s.setS d.toNat (fpAdd s.dynMode (s.readScalar a) (s.readScalar b)).1).modMe (·.addScalarFlags (fpAdd s.dynMode (s.readScalar a) (s.readScalar b)).2)).done))

/-- SFMUL (R266). -/
def execSfmul (d : BitVec 6) (a : Src) (b : Src) (s : State) : Result :=
  .next (s.issue (.sfmul d a b) (((s.setS d.toNat (fpMul s.dynMode (s.readScalar a) (s.readScalar b)).1).modMe (·.addScalarFlags (fpMul s.dynMode (s.readScalar a) (s.readScalar b)).2)).done))

end Sys2Proof.Machine
end

