-- ==== Sys2Proof/Machine/Dispatch.lean ====
section
/-!
DEFINITION. What each instruction and each event of the machine does: one arm a constructor.
-/

namespace Sys2Proof.Machine

/-- The meaning of an instruction, or of an event, in a state. -/
def exec (i : Instr) (s : State) : Host.Outcome State Fault Refusal :=
  match i with
  | .vadd x1 x2 x3 => Sys2Proof.Machine.execVadd x1 x2 x3 s
  | .vsub x1 x2 x3 => Sys2Proof.Machine.execVsub x1 x2 x3 s
  | .vadds x1 x2 x3 => Sys2Proof.Machine.execVadds x1 x2 x3 s
  | .vsubs x1 x2 x3 => Sys2Proof.Machine.execVsubs x1 x2 x3 s
  | .vmul x1 x2 x3 => Sys2Proof.Machine.execVmul x1 x2 x3 s
  | .vmulh x1 x2 x3 => Sys2Proof.Machine.execVmulh x1 x2 x3 s
  | .vmulhu x1 x2 x3 => Sys2Proof.Machine.execVmulhu x1 x2 x3 s
  | .vmad x1 x2 x3 => Sys2Proof.Machine.execVmad x1 x2 x3 s
  | .vand x1 x2 x3 => Sys2Proof.Machine.execVand x1 x2 x3 s
  | .vandn x1 x2 x3 => Sys2Proof.Machine.execVandn x1 x2 x3 s
  | .vor x1 x2 x3 => Sys2Proof.Machine.execVor x1 x2 x3 s
  | .vxor x1 x2 x3 => Sys2Proof.Machine.execVxor x1 x2 x3 s
  | .vshl x1 x2 x3 => Sys2Proof.Machine.execVshl x1 x2 x3 s
  | .vshr x1 x2 x3 => Sys2Proof.Machine.execVshr x1 x2 x3 s
  | .vsar x1 x2 x3 => Sys2Proof.Machine.execVsar x1 x2 x3 s
  | .vrol x1 x2 x3 => Sys2Proof.Machine.execVrol x1 x2 x3 s
  | .vmin x1 x2 x3 => Sys2Proof.Machine.execVmin x1 x2 x3 s
  | .vmax x1 x2 x3 => Sys2Proof.Machine.execVmax x1 x2 x3 s
  | .vminu x1 x2 x3 => Sys2Proof.Machine.execVminu x1 x2 x3 s
  | .vmaxu x1 x2 x3 => Sys2Proof.Machine.execVmaxu x1 x2 x3 s
  | .vicmp x1 x2 x3 x4 => Sys2Proof.Machine.execVicmp x1 x2 x3 x4 s
  | .vfcmp x1 x2 x3 x4 => Sys2Proof.Machine.execVfcmp x1 x2 x3 x4 s
  | .vpopc x1 x2 => Sys2Proof.Machine.execVpopc x1 x2 s
  | .vclz x1 x2 => Sys2Proof.Machine.execVclz x1 x2 s
  | .vbrev x1 x2 => Sys2Proof.Machine.execVbrev x1 x2 s
  | .vctz x1 x2 => Sys2Proof.Machine.execVctz x1 x2 s
  | .vmov x1 x2 => Sys2Proof.Machine.execVmov x1 x2 s
  | .vnot x1 x2 => Sys2Proof.Machine.execVnot x1 x2 s
  | .vcvt x1 x2 x3 => Sys2Proof.Machine.execVcvt x1 x2 x3 s
  | .vfadd x1 x2 x3 => Sys2Proof.Machine.execVfadd x1 x2 x3 s
  | .vfsub x1 x2 x3 => Sys2Proof.Machine.execVfsub x1 x2 x3 s
  | .vfmul x1 x2 x3 => Sys2Proof.Machine.execVfmul x1 x2 x3 s
  | .vfscl x1 x2 x3 => Sys2Proof.Machine.execVfscl x1 x2 x3 s
  | .vfma x1 x2 x3 => Sys2Proof.Machine.execVfma x1 x2 x3 s
  | .vfms x1 x2 x3 => Sys2Proof.Machine.execVfms x1 x2 x3 s
  | .vfnma x1 x2 x3 => Sys2Proof.Machine.execVfnma x1 x2 x3 s
  | .vfnms x1 x2 x3 => Sys2Proof.Machine.execVfnms x1 x2 x3 s
  | .vfmin x1 x2 x3 => Sys2Proof.Machine.execVfmin x1 x2 x3 s
  | .vfmax x1 x2 x3 => Sys2Proof.Machine.execVfmax x1 x2 x3 s
  | .vfabs x1 x2 => Sys2Proof.Machine.execVfabs x1 x2 s
  | .vfneg x1 x2 => Sys2Proof.Machine.execVfneg x1 x2 s
  | .vfrnd x1 x2 => Sys2Proof.Machine.execVfrnd x1 x2 s
  | .vffrc x1 x2 => Sys2Proof.Machine.execVffrc x1 x2 s
  | .vh2fma x1 x2 x3 => Sys2Proof.Machine.execVh2fma x1 x2 x3 s
  | .vb2fma x1 x2 x3 => Sys2Proof.Machine.execVb2fma x1 x2 x3 s
  | .vrcp x1 x2 => Sys2Proof.Machine.execVrcp x1 x2 s
  | .vrsq x1 x2 => Sys2Proof.Machine.execVrsq x1 x2 s
  | .vsqrt x1 x2 => Sys2Proof.Machine.execVsqrt x1 x2 s
  | .vlog2 x1 x2 => Sys2Proof.Machine.execVlog2 x1 x2 s
  | .vex2 x1 x2 => Sys2Proof.Machine.execVex2 x1 x2 s
  | .vtanh x1 x2 => Sys2Proof.Machine.execVtanh x1 x2 s
  | .vex2s x1 x2 x3 => Sys2Proof.Machine.execVex2s x1 x2 x3 s
  | .vhyp x1 x2 x3 => Sys2Proof.Machine.execVhyp x1 x2 x3 s
  | .vshfl x1 x2 x3 => Sys2Proof.Machine.execVshfl x1 x2 x3 s
  | .vshfx x1 x2 x3 => Sys2Proof.Machine.execVshfx x1 x2 x3 s
  | .vmtov x1 x2 => Sys2Proof.Machine.execVmtov x1 x2 s
  | .vvtom x1 x2 => Sys2Proof.Machine.execVvtom x1 x2 s
  | .sadd x1 x2 x3 => Sys2Proof.Machine.execSadd x1 x2 x3 s
  | .ssub x1 x2 x3 => Sys2Proof.Machine.execSsub x1 x2 x3 s
  | .smul x1 x2 x3 => Sys2Proof.Machine.execSmul x1 x2 x3 s
  | .smulhu x1 x2 x3 => Sys2Proof.Machine.execSmulhu x1 x2 x3 s
  | .sand x1 x2 x3 => Sys2Proof.Machine.execSand x1 x2 x3 s
  | .sandn x1 x2 x3 => Sys2Proof.Machine.execSandn x1 x2 x3 s
  | .sor x1 x2 x3 => Sys2Proof.Machine.execSor x1 x2 x3 s
  | .sxor x1 x2 x3 => Sys2Proof.Machine.execSxor x1 x2 x3 s
  | .sshl x1 x2 x3 => Sys2Proof.Machine.execSshl x1 x2 x3 s
  | .sshr x1 x2 x3 => Sys2Proof.Machine.execSshr x1 x2 x3 s
  | .ssar x1 x2 x3 => Sys2Proof.Machine.execSsar x1 x2 x3 s
  | .srol x1 x2 x3 => Sys2Proof.Machine.execSrol x1 x2 x3 s
  | .smin x1 x2 x3 => Sys2Proof.Machine.execSmin x1 x2 x3 s
  | .smax x1 x2 x3 => Sys2Proof.Machine.execSmax x1 x2 x3 s
  | .smov x1 x2 => Sys2Proof.Machine.execSmov x1 x2 s
  | .snot x1 x2 => Sys2Proof.Machine.execSnot x1 x2 s
  | .scmp x1 x2 x3 x4 => Sys2Proof.Machine.execScmp x1 x2 x3 x4 s
  | .spopc x1 x2 => Sys2Proof.Machine.execSpopc x1 x2 s
  | .sclz x1 x2 => Sys2Proof.Machine.execSclz x1 x2 s
  | .sadd64 x1 x2 x3 => Sys2Proof.Machine.execSadd64 x1 x2 x3 s
  | .ssub64 x1 x2 x3 => Sys2Proof.Machine.execSsub64 x1 x2 x3 s
  | .smcnt x1 x2 => Sys2Proof.Machine.execSmcnt x1 x2 s
  | .smfst x1 x2 => Sys2Proof.Machine.execSmfst x1 x2 s
  | .sbfx x1 x2 x3 => Sys2Proof.Machine.execSbfx x1 x2 x3 s
  | .sbfi x1 x2 x3 => Sys2Proof.Machine.execSbfi x1 x2 x3 s
  | .srd x1 x2 => Sys2Proof.Machine.execSrd x1 x2 s
  | .swr x1 x2 => Sys2Proof.Machine.execSwr x1 x2 s
  | .sfadd x1 x2 x3 => Sys2Proof.Machine.execSfadd x1 x2 x3 s
  | .sfmul x1 x2 x3 => Sys2Proof.Machine.execSfmul x1 x2 x3 s
  | .put x1 x2 x3 => Sys2Proof.Machine.execPut x1 x2 x3 s
  | .xchg x1 x2 x3 => Sys2Proof.Machine.execXchg x1 x2 x3 s
  | .bra x1 x2 x3 => Sys2Proof.Machine.execBra x1 x2 x3 s
  | .bdiv x1 x2 x3 => Sys2Proof.Machine.execBdiv x1 x2 x3 s
  | .join => Sys2Proof.Machine.execJoin s
  | .call x1 => Sys2Proof.Machine.execCall x1 s
  | .calli x1 => Sys2Proof.Machine.execCalli x1 s
  | .ret => Sys2Proof.Machine.execRet s
  | .bri x1 => Sys2Proof.Machine.execBri x1 s
  | .exit => Sys2Proof.Machine.execExit s
  | .nop => Sys2Proof.Machine.execNop s
  | .yield => Sys2Proof.Machine.execYield s
  | .barSync => Sys2Proof.Machine.execBarSync s
  | .barArrive => Sys2Proof.Machine.execBarArrive s
  | .cbar => Sys2Proof.Machine.execCbar s
  | .gbar => Sys2Proof.Machine.execGbar s
  | .mbinit x1 x2 x3 => Sys2Proof.Machine.execMbinit x1 x2 x3 s
  | .mbarr x1 x2 x3 => Sys2Proof.Machine.execMbarr x1 x2 x3 s
  | .mbarx x1 x2 x3 => Sys2Proof.Machine.execMbarx x1 x2 x3 s
  | .mbwait x1 x2 x3 => Sys2Proof.Machine.execMbwait x1 x2 x3 s
  | .mbtest x1 x2 x3 x4 => Sys2Proof.Machine.execMbtest x1 x2 x3 x4 s
  | .waitc x1 x2 x3 x4 x5 => Sys2Proof.Machine.execWaitc x1 x2 x3 x4 x5 s
  | .fence x1 x2 => Sys2Proof.Machine.execFence x1 x2 s
  | .qwait x1 x2 => Sys2Proof.Machine.execQwait x1 x2 s
  | .vld x1 x2 x3 x4 x5 => Sys2Proof.Machine.execVld x1 x2 x3 x4 x5 s
  | .vldo x1 x2 x3 x4 x5 x6 => Sys2Proof.Machine.execVldo x1 x2 x3 x4 x5 x6 s
  | .vst x1 x2 x3 x4 x5 => Sys2Proof.Machine.execVst x1 x2 x3 x4 x5 s
  | .vsto x1 x2 x3 x4 x5 x6 => Sys2Proof.Machine.execVsto x1 x2 x3 x4 x5 x6 s
  | .sld x1 x2 x3 x4 x5 x6 => Sys2Proof.Machine.execSld x1 x2 x3 x4 x5 x6 s
  | .sst x1 x2 x3 x4 x5 x6 => Sys2Proof.Machine.execSst x1 x2 x3 x4 x5 x6 s
  | .ldsp x1 x2 x3 x4 x5 => Sys2Proof.Machine.execLdsp x1 x2 x3 x4 x5 s
  | .stsp x1 x2 x3 x4 x5 => Sys2Proof.Machine.execStsp x1 x2 x3 x4 x5 s
  | .vatom x1 x2 x3 x4 x5 x6 x7 => Sys2Proof.Machine.execVatom x1 x2 x3 x4 x5 x6 x7 s
  | .vcas x1 x2 x3 x4 x5 => Sys2Proof.Machine.execVcas x1 x2 x3 x4 x5 s
  | .satom x1 x2 x3 x4 x5 x6 x7 => Sys2Proof.Machine.execSatom x1 x2 x3 x4 x5 x6 x7 s
  | .scas x1 x2 x3 x4 x5 => Sys2Proof.Machine.execScas x1 x2 x3 x4 x5 s
  | .ldcl x1 x2 x3 x4 x5 => Sys2Proof.Machine.execLdcl x1 x2 x3 x4 x5 s
  | .stcl x1 x2 x3 x4 x5 => Sys2Proof.Machine.execStcl x1 x2 x3 x4 x5 s
  | .sptest x1 x2 => Sys2Proof.Machine.execSptest x1 x2 s
  | .spcast x1 x2 x3 => Sys2Proof.Machine.execSpcast x1 x2 x3 s
  | .cachePf x1 x2 => Sys2Proof.Machine.execCachePf x1 x2 s
  | .cacheWb x1 x2 => Sys2Proof.Machine.execCacheWb x1 x2 s
  | .cacheInv x1 x2 => Sys2Proof.Machine.execCacheInv x1 x2 s
  | .cacheWbinv x1 x2 => Sys2Proof.Machine.execCacheWbinv x1 x2 s
  | .ldlv x1 x2 x3 => Sys2Proof.Machine.execLdlv x1 x2 x3 s
  | .cmst x1 x2 x3 x4 => Sys2Proof.Machine.execCmst x1 x2 x3 x4 s
  | .bopen x1 => Sys2Proof.Machine.execBopen x1 s
  | .bclose x1 x2 x3 => Sys2Proof.Machine.execBclose x1 x2 x3 s
  | .vstb x1 x2 x3 => Sys2Proof.Machine.execVstb x1 x2 x3 s
  | .vopen => Sys2Proof.Machine.execVopen s
  | .vclose x1 => Sys2Proof.Machine.execVclose x1 s
  | .vldv x1 x2 x3 x4 x5 => Sys2Proof.Machine.execVldv x1 x2 x3 x4 x5 s
  | .tcopy x1 x2 x3 x4 => Sys2Proof.Machine.execTcopy x1 x2 x3 x4 s
  | .tcopyo x1 x2 x3 x4 => Sys2Proof.Machine.execTcopyo x1 x2 x3 x4 s
  | .tgather x1 x2 x3 x4 => Sys2Proof.Machine.execTgather x1 x2 x3 x4 s
  | .tcow x1 x2 x3 x4 => Sys2Proof.Machine.execTcow x1 x2 x3 x4 s
  | .cstep x1 x2 x3 x4 x5 x6 => Sys2Proof.Machine.execCstep x1 x2 x3 x4 x5 x6 s
  | .spalloc x1 x2 x3 x4 => Sys2Proof.Machine.execSpalloc x1 x2 x3 x4 s
  | .spfree x1 => Sys2Proof.Machine.execSpfree x1 s
  | .sprenew x1 x2 => Sys2Proof.Machine.execSprenew x1 x2 s
  | .spstat x1 x2 => Sys2Proof.Machine.execSpstat x1 x2 s
  | .crpush x1 x2 x3 => Sys2Proof.Machine.execCrpush x1 x2 x3 s
  | .jdec x1 x2 x3 => Sys2Proof.Machine.execJdec x1 x2 x3 s
  | .mma x1 x2 x3 x4 x5 x6 => Sys2Proof.Machine.execMma x1 x2 x3 x4 x5 x6 s
  | .mmasp x1 x2 x3 x4 x5 x6 => Sys2Proof.Machine.execMmasp x1 x2 x3 x4 x5 x6 s
  | .acld x1 x2 x3 => Sys2Proof.Machine.execAcld x1 x2 x3 s
  | .acst x1 x2 x3 => Sys2Proof.Machine.execAcst x1 x2 x3 s
  | .acrd x1 x2 x3 => Sys2Proof.Machine.execAcrd x1 x2 x3 s
  | .acwr x1 x2 x3 => Sys2Proof.Machine.execAcwr x1 x2 x3 s
  | .ftupd x1 x2 => Sys2Proof.Machine.execFtupd x1 x2 s
  | .ftdnd x1 x2 => Sys2Proof.Machine.execFtdnd x1 x2 s
  | .ftslvf x1 x2 x3 => Sys2Proof.Machine.execFtslvf x1 x2 x3 s
  | .ftslvb x1 x2 x3 => Sys2Proof.Machine.execFtslvb x1 x2 x3 s
  | .ftld x1 x2 x3 => Sys2Proof.Machine.execFtld x1 x2 x3 s
  | .ftst x1 x2 x3 => Sys2Proof.Machine.execFtst x1 x2 x3 s
  | .ftinit x1 x2 x3 => Sys2Proof.Machine.execFtinit x1 x2 x3 s
  | .ftrow x1 x2 x3 => Sys2Proof.Machine.execFtrow x1 x2 x3 s
  | .trap x1 => Sys2Proof.Machine.execTrap x1 s
  | .brk => Sys2Proof.Machine.execBrk s
  | .sret x1 x2 => Sys2Proof.Machine.execSret x1 x2 s
  | .skill => Sys2Proof.Machine.execSkill s
  | .xrd x1 x2 x3 => Sys2Proof.Machine.execXrd x1 x2 x3 s
  | .xwr x1 x2 x3 => Sys2Proof.Machine.execXwr x1 x2 x3 s
  | .csrr x1 x2 => Sys2Proof.Machine.execCsrr x1 x2 s
  | .csrw x1 x2 => Sys2Proof.Machine.execCsrw x1 x2 s
  | .tlbiAll => Sys2Proof.Machine.execTlbiAll s
  | .tlbiRegion x1 => Sys2Proof.Machine.execTlbiRegion x1 s
  | .tlbiPage x1 x2 x3 => Sys2Proof.Machine.execTlbiPage x1 x2 x3 s
  | .tlbiPageall x1 x2 => Sys2Proof.Machine.execTlbiPageall x1 x2 s
  | .vpfx x1 x2 x3 x4 => Sys2Proof.Machine.execVpfx x1 x2 x3 x4 s
  | .dpair x1 x2 x3 => Sys2Proof.Machine.execDpair x1 x2 x3 s
  | .dictionaryLoad x1 => Sys2Proof.Machine.execDictionaryLoad x1 s
  | .loadDataReturn x1 => Sys2Proof.Machine.execLoadDataReturn x1 s
  | .storeAck x1 => Sys2Proof.Machine.execStoreAck x1 s
  | .releaseProceed x1 => Sys2Proof.Machine.execReleaseProceed x1 s
  | .sfuResultWrite x1 => Sys2Proof.Machine.execSfuResultWrite x1 s
  | .tlbMissWalk x1 x2 => Sys2Proof.Machine.execTlbMissWalk x1 x2 s
  | .walkComplete x1 => Sys2Proof.Machine.execWalkComplete x1 s
  | .tlbiAck x1 => Sys2Proof.Machine.execTlbiAck x1 s
  | .homeLoadMissCore x1 x2 => Sys2Proof.Machine.execHomeLoadMissCore x1 x2 s
  | .homeLoadMissRemote x1 x2 => Sys2Proof.Machine.execHomeLoadMissRemote x1 x2 s
  | .homeOwnershipMiss x1 x2 => Sys2Proof.Machine.execHomeOwnershipMiss x1 x2 s
  | .homeRemoteWrite x1 x2 => Sys2Proof.Machine.execHomeRemoteWrite x1 x2 s
  | .homeAtomic x1 x2 => Sys2Proof.Machine.execHomeAtomic x1 x2 s
  | .homeCarryRequest x1 x2 => Sys2Proof.Machine.execHomeCarryRequest x1 x2 s
  | .homeWriteback x1 x2 => Sys2Proof.Machine.execHomeWriteback x1 x2 s
  | .carryCollect x1 x2 x3 => Sys2Proof.Machine.execCarryCollect x1 x2 x3 s
  | .forward x1 x2 x3 => Sys2Proof.Machine.execForward x1 x2 x3 s
  | .invalidation x1 x2 => Sys2Proof.Machine.execInvalidation x1 x2 s
  | .leaseRevocation x1 x2 => Sys2Proof.Machine.execLeaseRevocation x1 x2 s
  | .redirect x1 x2 => Sys2Proof.Machine.execRedirect x1 x2 s
  | .drainRequest x1 x2 => Sys2Proof.Machine.execDrainRequest x1 x2 s
  | .ldlvAtHome x1 => Sys2Proof.Machine.execLdlvAtHome x1 s
  | .cmstAtHome x1 => Sys2Proof.Machine.execCmstAtHome x1 s
  | .bundleStaging x1 x2 => Sys2Proof.Machine.execBundleStaging x1 x2 s
  | .stagingAnswer x1 x2 => Sys2Proof.Machine.execStagingAnswer x1 x2 s
  | .commitRequest x1 x2 => Sys2Proof.Machine.execCommitRequest x1 x2 s
  | .commitAnswer x1 => Sys2Proof.Machine.execCommitAnswer x1 s
  | .promotionNotice x1 x2 x3 => Sys2Proof.Machine.execPromotionNotice x1 x2 x3 s
  | .discardNotice x1 x2 x3 => Sys2Proof.Machine.execDiscardNotice x1 x2 x3 s
  | .forgetNotice x1 x2 x3 => Sys2Proof.Machine.execForgetNotice x1 x2 x3 s
  | .noticeAck x1 x2 x3 => Sys2Proof.Machine.execNoticeAck x1 x2 x3 s
  | .bcloseComplete x1 => Sys2Proof.Machine.execBcloseComplete x1 s
  | .viewConsume x1 x2 => Sys2Proof.Machine.execViewConsume x1 x2 s
  | .cstepReserve x1 => Sys2Proof.Machine.execCstepReserve x1 s
  | .cstepDeliver x1 x2 x3 => Sys2Proof.Machine.execCstepDeliver x1 x2 x3 s
  | .cstepLineAck x1 x2 x3 => Sys2Proof.Machine.execCstepLineAck x1 x2 x3 s
  | .copyOpStart x1 => Sys2Proof.Machine.execCopyOpStart x1 s
  | .copyLineComplete x1 x2 => Sys2Proof.Machine.execCopyLineComplete x1 x2 s
  | .tcowStep x1 => Sys2Proof.Machine.execTcowStep x1 s
  | .matrixOpStart x1 => Sys2Proof.Machine.execMatrixOpStart x1 s
  | .kgroupBoundary x1 => Sys2Proof.Machine.execKgroupBoundary x1 s
  | .matrixOpRetire x1 => Sys2Proof.Machine.execMatrixOpRetire x1 s
  | .factorOpStart x1 x2 => Sys2Proof.Machine.execFactorOpStart x1 x2 s
  | .factorOpComplete x1 x2 => Sys2Proof.Machine.execFactorOpComplete x1 x2 s
  | .putSlotContribution x1 x2 => Sys2Proof.Machine.execPutSlotContribution x1 x2 s
  | .putSlotAnswer x1 x2 => Sys2Proof.Machine.execPutSlotAnswer x1 x2 s
  | .barrierArrival x1 x2 => Sys2Proof.Machine.execBarrierArrival x1 x2 s
  | .gReplicaUpdate x1 x2 => Sys2Proof.Machine.execGReplicaUpdate x1 x2 s
  | .xchgMatch x1 x2 => Sys2Proof.Machine.execXchgMatch x1 x2 s
  | .warpRetire x1 x2 => Sys2Proof.Machine.execWarpRetire x1 x2 s
  | .siblingHaltStop x1 x2 x3 => Sys2Proof.Machine.execSiblingHaltStop x1 x2 x3 s
  | .trapWarpEntry x1 => Sys2Proof.Machine.execTrapWarpEntry x1 s
  | .evictionProceed x1 => Sys2Proof.Machine.execEvictionProceed x1 s
  | .evictionSave x1 => Sys2Proof.Machine.execEvictionSave x1 s
  | .evictionReleaseDone x1 => Sys2Proof.Machine.execEvictionReleaseDone x1 s
  | .pidxNotice x1 x2 x3 => Sys2Proof.Machine.execPidxNotice x1 x2 x3 s
  | .recordTake x1 x2 x3 => Sys2Proof.Machine.execRecordTake x1 x2 x3 s
  | .blockRetire x1 => Sys2Proof.Machine.execBlockRetire x1 s
  | .joinContribution x1 => Sys2Proof.Machine.execJoinContribution x1 s
  | .successorPush x1 => Sys2Proof.Machine.execSuccessorPush x1 s
  | .qwaitServe x1 x2 => Sys2Proof.Machine.execQwaitServe x1 x2 s
  | .crpushAtEngine x1 x2 => Sys2Proof.Machine.execCrpushAtEngine x1 x2 s
  | .jdecAtHome x1 x2 => Sys2Proof.Machine.execJdecAtHome x1 x2 s
  | .regionActivationDone x1 x2 => Sys2Proof.Machine.execRegionActivationDone x1 x2 s
  | .domDrainComplete x1 x2 => Sys2Proof.Machine.execDomDrainComplete x1 x2 s
  | .partShareDone x1 x2 => Sys2Proof.Machine.execPartShareDone x1 x2 s
  | .scrubComplete x1 => Sys2Proof.Machine.execScrubComplete x1 s
  | .barrierObjectCountdown x1 x2 x3 => Sys2Proof.Machine.execBarrierObjectCountdown x1 x2 x3 s
  | .instructionFetch x1 x2 => Sys2Proof.Machine.execInstructionFetch x1 x2 s
  | .heldLeafRewalk x1 => Sys2Proof.Machine.execHeldLeafRewalk x1 s
  | .directoryMerge x1 x2 => Sys2Proof.Machine.execDirectoryMerge x1 x2 s
  | .leaseEndClear x1 x2 => Sys2Proof.Machine.execLeaseEndClear x1 x2 s
  | .staleMessageDiscard x1 x2 x3 x4 => Sys2Proof.Machine.execStaleMessageDiscard x1 x2 x3 x4 s
  | .promotionDelayExpiry x1 x2 x3 => Sys2Proof.Machine.execPromotionDelayExpiry x1 x2 x3 s
  | .forgetHorizonExpiry x1 x2 => Sys2Proof.Machine.execForgetHorizonExpiry x1 x2 s
  | .gReplicaCopy x1 x2 => Sys2Proof.Machine.execGReplicaCopy x1 x2 s
  | .xchgTimeout x1 => Sys2Proof.Machine.execXchgTimeout x1 s
  | .waitcBlockingTimer x1 x2 => Sys2Proof.Machine.execWaitcBlockingTimer x1 x2 s
  | .registerEccError x1 x2 x3 x4 x5 x6 => Sys2Proof.Machine.execRegisterEccError x1 x2 x3 x4 x5 x6 s
  | .breakpointTrigger x1 x2 x3 => Sys2Proof.Machine.execBreakpointTrigger x1 x2 x3 s
  | .debugHalt x1 => Sys2Proof.Machine.execDebugHalt x1 s
  | .preemptGo x1 x2 x3 => Sys2Proof.Machine.execPreemptGo x1 x2 x3 s
  | .preemptCancel x1 => Sys2Proof.Machine.execPreemptCancel x1 s
  | .landingSlotFill x1 => Sys2Proof.Machine.execLandingSlotFill x1 s
  | .resumption x1 x2 => Sys2Proof.Machine.execResumption x1 x2 s
  | .sweeperRestore x1 x2 => Sys2Proof.Machine.execSweeperRestore x1 x2 s
  | .sweeperVisit x1 x2 => Sys2Proof.Machine.execSweeperVisit x1 x2 s
  | .spretChange x1 x2 => Sys2Proof.Machine.execSpretChange x1 x2 s
  | .pidxPoll x1 => Sys2Proof.Machine.execPidxPoll x1 s
  | .blockPlacement x1 x2 => Sys2Proof.Machine.execBlockPlacement x1 x2 s
  | .regionGo x1 x2 => Sys2Proof.Machine.execRegionGo x1 x2 s
  | .regionStop x1 x2 => Sys2Proof.Machine.execRegionStop x1 x2 s
  | .domMaskWrite x1 x2 x3 => Sys2Proof.Machine.execDomMaskWrite x1 x2 x3 s
  | .domRangeWrite x1 x2 x3 x4 => Sys2Proof.Machine.execDomRangeWrite x1 x2 x3 x4 s
  | .domQuiesce x1 x2 => Sys2Proof.Machine.execDomQuiesce x1 x2 s
  | .domRelease x1 x2 => Sys2Proof.Machine.execDomRelease x1 x2 s
  | .domEnable x1 x2 x3 => Sys2Proof.Machine.execDomEnable x1 x2 x3 s
  | .partShareWrite x1 x2 x3 => Sys2Proof.Machine.execPartShareWrite x1 x2 x3 s
  | .slicePowerOff x1 x2 => Sys2Proof.Machine.execSlicePowerOff x1 x2 s
  | .slicePowerOn x1 x2 => Sys2Proof.Machine.execSlicePowerOn x1 x2 s
  | .sliceOffComplete x1 x2 => Sys2Proof.Machine.execSliceOffComplete x1 x2 s
  | .corePowerOff x1 => Sys2Proof.Machine.execCorePowerOff x1 s
  | .deadCore x1 x2 => Sys2Proof.Machine.execDeadCore x1 x2 s
  | .deadSlice x1 x2 => Sys2Proof.Machine.execDeadSlice x1 x2 s
  | .deadDie x1 x2 => Sys2Proof.Machine.execDeadDie x1 x2 s
  | .bndlBaseWrite x1 x2 x3 => Sys2Proof.Machine.execBndlBaseWrite x1 x2 x3 s
  | .devIdWrite x1 x2 => Sys2Proof.Machine.execDevIdWrite x1 x2 s
  | .configRegisterWrite x1 x2 x3 => Sys2Proof.Machine.execConfigRegisterWrite x1 x2 x3 s
  | .inboundMread x1 x2 x3 x4 => Sys2Proof.Machine.execInboundMread x1 x2 x3 x4 s
  | .inboundMwrite x1 x2 x3 x4 => Sys2Proof.Machine.execInboundMwrite x1 x2 x3 x4 s
  | .inboundMatom x1 x2 x3 x4 x5 x6 => Sys2Proof.Machine.execInboundMatom x1 x2 x3 x4 x5 x6 s
  | .inboundBstage x1 x2 x3 x4 x5 x6 x7 x8 x9 => Sys2Proof.Machine.execInboundBstage x1 x2 x3 x4 x5 x6 x7 x8 x9 s
  | .inboundBnote x1 x2 x3 x4 x5 x6 => Sys2Proof.Machine.execInboundBnote x1 x2 x3 x4 x5 x6 s
  | .inboundCarry x1 x2 x3 x4 x5 x6 x7 => Sys2Proof.Machine.execInboundCarry x1 x2 x3 x4 x5 x6 x7 s
  | .inboundTime x1 => Sys2Proof.Machine.execInboundTime x1 s
  | .inboundMgmt x1 x2 => Sys2Proof.Machine.execInboundMgmt x1 x2 s
  | .unsupportedPacketDrop x1 => Sys2Proof.Machine.execUnsupportedPacketDrop x1 s
  | .moduleBoot => Sys2Proof.Machine.execModuleBoot s
  | .dutyChange x1 x2 => Sys2Proof.Machine.execDutyChange x1 x2 s
  | .corePowerOn x1 => Sys2Proof.Machine.execCorePowerOn x1 s
  | .grandmasterLoss => Sys2Proof.Machine.execGrandmasterLoss s

end Sys2Proof.Machine
end

