-- ==== Sys2Proof/Machine/Chain.lean ====
section
/-!
DEFINITION. Issuing a chain (01_instruction_words.md R16, R20 to R24; 17_traps_preemption.md R329): its
elements take effect together, or none does.
-/

namespace Sys2Proof.Machine

/-- The state of an outcome, the given one when it is no next state. -/
def nextOr (s : State) : Result → State
  | .next t => t
  | _ => s

/-- Goes on from a next state. -/
def onNext (r : Result) (k : State → Result) : Result :=
  match r with
  | .next s => k s
  | .fault f => .fault f
  | .refused x => .refused x

/-- How the elements of a chain came out: all took effect; some wait; one raised a precise cause. -/
inductive Ran where
  | all (s : State)
  | waits (es : List Elem)
  | stop (st : Stop)
  | other (r : Result)

namespace State

/-- A key no warp has: what is issuing while an event runs. -/
def noWarp : Nat := 65 * 768

/-- The state an element of a chain issues in, standing at its own position (R329). -/
def enter' (s : State) (pc : Nat) (e : Elem) : State :=
  { s with pfx := e.pfx, expansion := [], pos := (pc, e.place) }

/-- The state between chains. -/
def idle (s : State) : State := { s with src := none, pfx := none, expansion := [], only := none }

/-- What a chain amounts to when a further element has come out `b`. -/
def both (a b : Issue) : Issue :=
  match a, b with
  | .raised st, _ => .raised st
  | _, .raised st => .raised st
  | .moved, _ => .moved
  | _, .moved => .moved
  | .parked, _ => .parked
  | _, .parked => .parked
  | _, _ => .done

/-- The elements in turn; `o` is what those before amount to, `solo` the element that may wait once all
have issued.  A precise cause of any of them, after one that waits too, stops the chain (R23); an imprecise
one leaves its own element alone without effect (R329).
DEDUCED, log entry 8. -/
def runElems (p : Nat × Nat × Bool) (solo : Option Solo) (s : State) (o : Issue) : List Elem → Ran
  | [] => .all { s with out := o }
  | e :: es =>
    match exec e.i (s.enter' p.1 e) with
    | .next t =>
      match t.out with
      | .waiting =>
        (match s.runElems p solo o es with
        | .stop st => .stop st
        | .waits ws => .waits (e :: ws)
        | _ => .waits [e])
      | .raised st => if st.after || !st.precise then t.runElems p solo (both o t.out) es else .stop st
      | .parked =>
        (t.modMe fun w => { w with solo := solo }).runElems p solo (both o t.out) es
      | .moved => ({ t with npos := t.me.position } : State).runElems p solo (both o t.out) es
      | .done => t.runElems p solo (both o t.out) es
    | r => .other r

/-- A word that may change who the warp is, or end it. -/
def Elem.last (s : State) (e : Elem) : Bool :=
  s.isTrap || match e.i with
    | .csrw .. => true
    | _ => false

/-- The order elements are taken in: a scalar word, which may read a special register, before what writes one
(R22), and a transfer before an engine word, which names where its warp resumes (R329). -/
def inOrder (s : State) (c : List Elem) : List Elem :=
  let plain := (c.filter fun e => e.i.pipe == some .scl)
    ++ c.filter fun e => e.i.pipe != some .scl && e.i.pipe != some .ctl && e.i.pipe != some .eng
  let ctl := c.filter fun e => e.i.pipe == some .ctl
  let eng := c.filter fun e => e.i.pipe == some .eng
  if ctl.any (Elem.last s) then plain ++ eng ++ ctl else plain ++ ctl ++ eng

/-- What follows an element: the next slot, or the next packet (R16). -/
def follows (pc : Nat) (e : Elem) : Nat × Nat × Bool := if 3 ≤ e.next.1 then (pc + 12, 0, false) else (pc, e.next)

/-- The element that waits once its chain has issued. -/
def soloOf (p n : Nat × Nat × Bool) (regs : Vector Word 64) (c : List Elem) : Option Solo :=
  (c.find? fun e => e.i.pipe == some .ctl).map fun e => ⟨e.i, (p.1, e.place), n, regs⟩

/-- A chain has issued: the warp's position moves on, its age is 0, and it stops when it is stepping (R16,
R20, R324, R343). -/
def issued (t : State) (p : Nat × Nat × Bool) (stepping : Bool) : State :=
  let t := t.modMe fun w => { w with age := t.turnOf t.cur, noBkpt := false, solo := none, leaseAt := none }
  if stepping && t.me.run == .running then
    { ({ t with pos := p, npos := t.me.position } : State).deliver t.cur { cause := .step, after := true } with out := t.out }
  else t

/-- The end of a chain whose elements all took effect. -/
def commit (t : State) (p n : Nat × Nat × Bool) (stepping : Bool) : State :=
  if !t.hasWarp t.cur then t
  else match t.out with
    | .moved => (t.modMe ({ · with held := none })).issued p stepping
    | .parked => t.modMe fun w => { (w.goto p) with age := t.turnOf t.cur, noBkpt := false, leaseAt := none }
    | .raised _ => t.modMe fun w => { w with age := t.turnOf t.cur }
    | _ => (t.modMe (·.goto n)).issued p stepping

/-- What is left of the packet stands decoded at `n` (R44). -/
def hold (s : State) (n : Nat × Nat × Bool) (es : List Elem) : State := s.modMe ({ · with held := some (n, es) })

/-- What an element that waits does by itself: the state it waits in, which keeps what it has asked for. -/
def waitIn (s : State) (pc : Nat) (e : Elem) : State :=
  match exec e.i (s.enter' pc e) with
  | .next t => match t.out with
    | .waiting => t
    | _ => s.wait
  | _ => s.wait

/-- Whether an element waits because it has just asked for something to be done elsewhere. -/
def asksNow (s : State) (pc : Nat) (e : Elem) : Bool := (s.waitIn pc e).me.asks != s.me.asks

/-- Of what a chain's elements have asked for together, one message sets out: an XCHG that finds its peer, or a JDEC at its
home, takes the rest with it (R23). -/
def together (s : State) : State :=
  let c := s.myCore
  let k := s.mySlot
  let rest : List Instr := if (s.me.asks.get? 4).isSome then [.putSlotContribution c k, .jdecAtHome c k] else
    if (s.me.asks.get? 3).isSome then [.putSlotContribution c k] else []
  { s with agenda := s.agenda.filter (!rest.contains ·) }

/-- The elements of a chain that wait do what they can: while one waits for anything else, none asks for an effect
elsewhere, for the chain may still be stopped (R23, R238, R246); those whose requests may fail ask together, and a
CRPUSH, which never fails, after them.
DEDUCED, log entry 8. -/
def waitAll (s : State) (pc : Nat) (ws : List Elem) : State :=
  match ws.find? fun e => !s.asksNow pc e with
  | some e => s.waitIn pc e
  | none =>
    let first := ws.filter fun e => match e.i with
      | .crpush .. => false
      | _ => true
    ((if first = [] then ws else first).foldl (fun s e => s.waitIn pc e) s).together.wait

/-- Issues a chain that stands at `p`, before `rest` (R21 to R24): a precise cause leaves no effect, and a chain
with an element that waits does nothing else. -/
def issueChain (s : State) (p : Nat × Nat × Bool) (c rest : List Elem) : Result :=
  let n := (c.getLast?.map (follows p.1)).getD p
  let s := { s with pos := p, npos := n, src := some s.me, srcId := s.nextId, out := .done }
  match s.runElems p (soloOf p n s.me.s c) .done (s.inOrder c) with
  | .all t =>
    .next ((if rest = [] || !t.hasWarp t.cur || t.me.run == .stopped then t else t.hold n rest).commit p n s.me.stepping).idle
  | .waits ws => .next (s.waitAll p.1 ws).idle
  | .stop st => .next (({ s with src := none } : State).raise st).idle
  | .other r => r

/-- The element that still waits issues again by itself, with the operands of its chain (R22). -/
def issueSolo (s : State) (p : Nat × Nat × Bool) (x : Solo) : Result :=
  let s := { s with pos := x.place, npos := x.next, src := some { s.me with s := x.s }, srcId := s.nextId, out := .done }
  onNext (exec x.i s) fun t =>
    .next (match t.out with
    | .waiting | .parked => t.idle
    | .raised st =>
      if st.after then (if t.hasWarp t.cur then t.modMe fun w => { w with age := t.turnOf t.cur, solo := none } else t).idle
      else (({ s with src := none } : State).raise st).idle
    | _ => (t.commit p x.next s.me.stepping).idle)

/-- The position a warp stands at: past the last slot it is the next packet's (R16).
DEDUCED, log entry 43. -/
def stands (w : Warp) : Nat × Nat × Bool := if 3 ≤ w.slot then (w.pc + 12, 0, false) else w.position

/-- The elements of the packet a warp stands in, from its position on: a packet is fetched and decoded once, when
it is entered, and what is left of it stays (R17, R44). -/
def elemsAt (s : State) (p : Nat × Nat × Bool) : State × Fetched (List Elem) :=
  match s.me.held with
  | some (q, es) => if q = p then (s, .got es) else s.packetAt p
  | none => s.packetAt p

/-- The next chain of a warp issues, if nothing holds it: the packet it enters is fetched and decoded
(R44), and a breakpoint set on it stops the warp (R343). -/
def issueWarp (s : State) (k : Nat) : Result :=
  let s := ({ s with cur := k } : State).idle
  let p := stands s.me
  match s.me.solo with
  | some x => s.issueSolo p x
  | none =>
    match ({ s with pos := p, npos := p } : State).elemsAt p with
    | (s, .wait) => .next s.wait
    | (s, .stop st) => .next (s.raise st).idle
    | (s, .got es) =>
      match s.breakpointAt k with
      | some n => execBreakpointTrigger (keyCore k) (keySlot k) n s
      | none => (s.hold p es).issueChain p (chainOf es).1 (chainOf es).2

end State

end Sys2Proof.Machine
end

