-- ==== Sys2Proof/Machine/Turn.lean ====
section
/-!
DEFINITION. Whose turn it is: what is due at a time, the order of messages (03_cache_deck.md R81, 04_crossing_dies.md
R91), the schedulers (16_scheduling.md R324), and the events and inputs in flight.
-/

namespace Sys2Proof.Machine

/-- Whether a constructor is an event: no word of a program. -/
def isEvent (i : Instr) : Bool :=
  i.pipe.isNone && match i with
    | .dpair .. | .vpfx .. => false
    | _ => true

namespace State

/-! Events. -/

/-- Runs an event, which no warp issues. -/
def runEvent (s : State) (i : Instr) : Result := exec i { s.idle with cur := noWarp }

/-- The reliable ordered flow an inbound operation is in: its port and the flow's number (R350). -/
def rodOfInput : Instr → Option (Nat × Nat)
  | .inboundMread hd .. | .inboundMwrite hd .. | .inboundMatom hd .. | .inboundBstage hd .. | .inboundBnote hd ..
  | .inboundCarry hd .. => hd.flow.map fun n => (hd.port, n)
  | _ => none

/-- Whether an event is an inbound operation of the same flow as another (R355). -/
def sameFlow (i j : Instr) : Bool := (rodOfInput i).isSome && rodOfInput i == rodOfInput j

/-- An inbound operation that its home holds waits, before those of its flow that came after it (R355). -/
def keptBack (s : State) (i : Instr) : State :=
  { s with agenda := s.agenda.filter (!sameFlow i ·) ++ i :: s.agenda.filter (sameFlow i) }

/-- Runs an event; one that has to wait stays in flight. -/
def runKept (s : State) (i : Instr) : Result :=
  onNext (s.runEvent i) fun t => .next (match t.out with
    | .waiting => (t.keptBack i).done
    | _ => t)

/-- Runs the event at a place in the agenda. -/
def runAgenda (s : State) (n : Nat) : Result :=
  match s.agenda[n]? with
  | some i => ({ s with agenda := s.agenda.eraseIdx n } : State).runKept i
  | none => .next s

/-- An input arrives; behind an operation of its flow that still waits it waits too (R355). -/
def arriveInput (s : State) (i : Instr) : Result :=
  if s.agenda.any (sameFlow i) then .next (s.push [i]).done else s.runKept i

/-! The order of messages: those of one source, one destination and one class stay in order (R91), and the requests
for a line wait at its slice, class 0 first and otherwise as they arrived (R81). -/

/-- Where a message stands on its way: source, destination and class. Cores have their numbers, and the slices of die `d`
stand at 768 + d. -/
abbrev Route := Nat × Nat × Nat

def coreEnd (core : Nat) : Nat := core
def dieEnd (die : Nat) : Nat := 768 + die

/-- The lines a request of a flight has still to be taken up for at their home, each with the name it waits under (R81). -/
def asks (s : State) (i : Instr) : Option (Flight × List ((Nat × Nat) × Nat)) :=
  let found (fl : Nat) (ks : Flight → List Nat) (ok : Flight → Nat → Bool) : Option (Flight × List ((Nat × Nat) × Nat)) :=
    match s.flights.get? fl with
    | none => none
    | some f =>
      let ls := (ks f).filterMap fun k =>
        let r := f.req k
        if r.done || r.sent || r.leaf.isNone || !isMemory (r.pa / 128) || !ok f k then none else some ((fl, k), r.pa / 128)
      if ls = [] then none else some (f, ls)
  match i with
  | .tlbMissWalk fl k =>
    found fl (fun _ => [k]) fun f k => match f.kind, (f.req k).leaf with
      | .cache fn, some l => fn != 0 && l.permits f.need f.ns && !s.blockedBy fl f k
      | _, _ => false
  | .cmstAtHome fl => found fl (fun f => List.range f.reqs.length) fun _ _ => true
  | _ => match homeReq i with
    | some (fl, k) => found fl (fun _ => [k]) fun _ _ => true
    | none => none

/-- A request waits at the slice of a line. -/
def inLineq (s : State) (w : (Nat × Nat) × Nat) : Bool := s.lineq.any fun x => x.line == w.2 && x.who == w.1

/-- The class of the work that a message about a line serves: that of the request whose transaction the line is in, or
class 1, which system messages travel in (R89). -/
def clsOn (s : State) (line : Nat) : Nat :=
  ((s.flights.find? fun e => e.2.reqs.any fun r => r.sent && !r.done && r.pa / 128 == line).map (·.2.cls)).getD 1

/-- The die whose slices answer a flight, when all of its lines are homed there. -/
def answers (f : Flight) : Option Nat :=
  if f.reqs.all fun r => r.win == .global && r.leaf.isSome && isMemory (r.pa / 128) then
    match (f.reqs.map fun r => homeDie (r.pa / 128)).dedup with
    | [d] => some d
    | _ => none
  else none

/-- The class of a bundle's notices (R89). -/
def brecCls (s : State) (die idx : Nat) : Nat := ((s.brec die idx).map (·.cls)).getD 1

/-- Whether a staged version already holds its promotion notice (R119). -/
def noticed (s : State) (die idx line : Nat) : Bool :=
  s.vers.any fun v => v.line == line && v.staged && v.side == s.sideOf die idx && v.notice.isSome

/-- The route a message is still on (R89, R91); none once it has arrived, and none for what travels inside a core. -/
def way (s : State) (i : Instr) : Option Route :=
  let ofFlight (fl : Nat) (g : Flight → Option Route) : Option Route := (s.flights.get? fl).bind g
  match s.asks i with
  | some (f, ws) =>
    if ws.all s.inLineq then none
    else (ws.head?).map fun w => (coreEnd f.core, dieEnd (homeDie w.2), f.cls)
  | none => match i with
    | .forward core line _ | .invalidation core line => some (dieEnd (homeDie line), coreEnd core, s.clsOn line)
    | .carryCollect false core line => some (dieEnd (homeDie line), coreEnd core, s.clsOn line)
    | .carryCollect true die line | .leaseRevocation die line =>
      if s.mute die line then none else some (dieEnd (homeDie line), dieEnd die, s.clsOn line)
    | .homeWriteback (die, agent) line =>
      (s.wbs.find? fun w => w.die == die && w.agent == agent && w.line == line).map fun w =>
        (if die then dieEnd agent else coreEnd agent, dieEnd (homeDie line), w.cls)
    | .redirect fl k => ofFlight fl fun f => some (dieEnd (homeDie ((f.req k).pa / 128)), coreEnd f.core, f.cls)
    | .loadDataReturn fl | .storeAck fl => ofFlight fl fun f => (answers f).map fun d => (dieEnd d, coreEnd f.core, f.cls)
    | .stagingAnswer fl k => ofFlight fl fun f => some (dieEnd (homeDie ((f.req k).pa / 128)), coreEnd f.core, f.cls)
    | .commitRequest die idx => (s.brec die idx).bind fun r => if r.st ≤ 1 then some (coreEnd r.core, dieEnd die, r.cls) else none
    | .commitAnswer fl =>
      ofFlight fl fun f => (s.brecs.find? fun r => r.closer == some fl).map fun r => (dieEnd r.die, coreEnd f.core, f.cls)
    | .promotionNotice die idx line =>
      if s.noticed die idx line || !isMemory line then none else some (dieEnd die, dieEnd (homeDie line), s.brecCls die idx)
    | .discardNotice die idx line | .forgetNotice die idx line =>
      if isMemory line then some (dieEnd die, dieEnd (homeDie line), s.brecCls die idx) else none
    | .cstepDeliver op target _ =>
      (s.ops.get? op).map fun o => (coreEnd o.core, dieEnd ((StepDesc.of o.record).targets.getD target (0, 0, 0)).2.2, o.cls)
    | .cstepLineAck op target _ =>
      (s.ops.get? op).map fun o => (dieEnd ((StepDesc.of o.record).targets.getD target (0, 0, 0)).2.2, coreEnd o.core, o.cls)
    | _ => none

/-- Whether the message at a place of the agenda can arrive, or be taken up where it waits.
DESIGN CHOICE, log entry 7. -/
def mayRun (s : State) (n : Nat) : Bool :=
  match s.agenda[n]? with
  | none => false
  | some i =>
    (match s.asks i with
      | some (f, ws) =>
        !ws.all s.inLineq || ws.all fun w => !s.lineBusy w.2 f.part && !s.behind w.1 f.cls w.2
      | none => true)
    && (match s.way i with
      | some c => !((s.agenda.take n).any fun j => s.way j == some c)
      | none => true)
    && !((s.agenda.take n).any (sameFlow i))

/-! What is due (the rules cited with each event of the table that depends on time alone). -/

def dueWalks (s : State) : State :=
  s.walks.foldl (fun (s : State) w =>
    if w.held && w.at' ≤ s.now w.die then nextOr s (execHeldLeafRewalk w.id s) else s) s

def dueForgets (s : State) : State :=
  s.brecs.foldl (fun (s : State) r =>
    if r.st = 3 && r.outstanding = 0 && !r.forgetting then nextOr s (execForgetHorizonExpiry r.die r.idx s) else s) s

def duePromotions (s : State) : State :=
  s.vers.foldl (fun (s : State) v =>
    let die := sideDie v.side
    let idx := sideIdx v.side
    if !v.staged || v.notice.isNone || s.delayed v then s
    else if v.sender.isSome then s.peerPromote v.side v.line
    else if (s.agenda.any fun i => i == .promotionNotice die idx v.line) then s
    else nextOr s (execPromotionDelayExpiry die idx v.line s)) s

def dueTimeouts (s : State) : State :=
  s.xreqs.foldl (fun (s : State) e =>
    if e.2.since + xchgLimit ≤ s.nowCore e.2.core then nextOr s (execXchgTimeout e.1 s) else s) s

def dueTimers (s : State) : State :=
  s.warps.foldl (fun (s : State) e =>
    match e.2.wake with
    | .waitc .. => if e.2.wakeOk then s else nextOr s (execWaitcBlockingTimer (keyCore e.1) (keySlot e.1) s)
    | _ => s) s

def dueLeases (s : State) : State :=
  s.dir.foldl (fun (s : State) e =>
    if e.dies != [] && e.lend + 2 < s.now (homeDie e.base) then nextOr s (execLeaseEndClear e.base e.log s) else s) s

def dueMerges (s : State) : State :=
  s.dir.foldl (fun (s : State) e =>
    if e.log < 9 && e.touched + 64000 ≤ s.now (homeDie e.base) then nextOr s (execDirectoryMerge e.base e.log s) else s) s

/-- Each row is visited, so that one past t_RET is EXPIRED before the sweeper could restore it (R215, R219). -/
def dueRows (s : State) : State :=
  s.allocs.foldl (fun (s : State) a =>
    (List.range a.rows).foldl (fun (s : State) i =>
      let s := nextOr s (execSweeperVisit a.core (a.first + i) s)
      nextOr s (execSweeperRestore a.core (a.first + i) s)) s) s

def duePolls (s : State) : State :=
  s.dies.foldl (fun (s : State) e =>
    if (s.regions.any fun r => r.die == e.1 && r.active && r.watch != []) && e.2.polled + 50000 ≤ s.now e.1 then
      nextOr s (execPidxPoll e.1 s)
    else s) s

def dueSlices (s : State) : State :=
  s.dies.foldl (fun (s : State) e =>
    e.2.slices.foldl (fun (s : State) x =>
      if x.2.on && !x.2.pwr then nextOr s (execSliceOffComplete e.1 x.1 s) else s) s) s

/-- The class of a record's blocks (R317). -/
def recCls' (s : State) (x : LRec) : Nat := ((s.regionOf x.die x.region).map fun r => recCls r x).getD x.cls

/-- Class by class, evicted blocks resume and then new blocks are placed (R320, R322). -/
def duePlacements (s : State) : State :=
  (List.range 4).foldl (fun (s : State) cls =>
    let s := s.blocks.foldl (fun (s : State) e =>
      if e.2.cls = cls then (match s.findResume e.1 with
        | some c => nextOr s (execResumption e.1 c s)
        | none => s) else s) s
    s.recs.foldl (fun (s : State) e =>
      if s.recCls' e.2 = cls then (match s.findPlace e.1 with
        | some c => (s.placeNext e.1 c).getD s
        | none => s) else s) s) s

/-- Everything whose time has come. -/
def background (s : State) : State :=
  let s := { s.idle with cur := noWarp }
  s.dueWalks.dueForgets.duePromotions.dueTimeouts.dueTimers.dueLeases.dueMerges.dueRows.duePolls.dueSlices.duePlacements

/-! The schedulers (R324). -/

/-- Whether a warp may issue: it runs, no sweep holds it (R291), and its block is not halted before it, nor
out (R330, R345). -/
def canIssue (s : State) (k : Nat) : Bool :=
  let w := s.warp k
  let b := s.block w.blk
  s.hasWarp k && w.run == .running
    && (keySlot k == 64 || (!s.sweeping k && (b.state == .running
      || (b.state == .halted && !s.agenda.any fun i => i == .siblingHaltStop (keyCore k) (keySlot k) 0))))

/-- Class a warp competes in. -/
def warpCls (s : State) (k : Nat) : Nat := if keySlot k = 64 then 0 else (s.block (s.warp k).blk).cls

/-- The scheduler that issues a warp: four on a core (R324). -/
def schedulerOf (k : Nat) : Nat := 4 * keyCore k + schedulerIn (keySlot k)

/-- Cycles since a warp last issued, or was placed or resumed: its scheduler's turns (R324).
DESIGN CHOICE, log entry 7. -/
def warpAge (s : State) (k : Nat) : Nat := s.turnOf k - (s.warp k).age

/-- Whether a warp is picked before another: those of age 32 or more, the oldest first, then by class and
age (R324). -/
def picksBefore (s : State) (a b : Nat) : Bool :=
  let x := s.warpAge a
  let y := s.warpAge b
  if 32 ≤ x || 32 ≤ y then y < x || (x == y && a < b)
  else s.warpCls a < s.warpCls b || (s.warpCls a == s.warpCls b && (y < x || (x == y && a < b)))

/-- The warps of a scheduler in the order it picks them. -/
def picks (s : State) (sched : Nat) : List Nat :=
  sortBy s.picksBefore ((s.warps.filter fun e => schedulerOf e.1 == sched && s.canIssue e.1).map (·.1))

/-- Whether the issue duty of a die lets a core's schedulers issue in a cycle of theirs (R358). -/
def onDuty (s : State) (core cycle : Nat) : Bool := cycle % 16 < (s.die (dieOf core)).duty

/-- The schedulers that have a warp to issue. -/
def ready (s : State) : List Nat :=
  ((s.warps.filter fun e => s.canIssue e.1).map fun e => schedulerOf e.1).dedup

/-! The pipes that a core's schedulers share (R324). -/

/-- The number of a shared pipe. -/
def sharedPipe : Pipe → Option Nat
  | .sfu => some 0
  | .mem => some 1
  | .eng => some 2
  | .ctl => some 3
  | _ => none

/-- The shared pipes a warp's next chain needs, none when what it does is to complete an element that has issued. -/
def pipesOf (s : State) (k : Nat) : List Nat :=
  let s := ({ s with cur := k } : State).idle
  let p := stands s.me
  if s.me.solo.isSome then []
  else match (({ s with pos := p, npos := p } : State).elemsAt p).2 with
    | .got es => (chainOf es).1.filterMap fun e => e.i.pipe.bind sharedPipe
    | _ => []

/-- The cycle of its core a scheduler stands in, and the latest that any of the four has had. -/
def turnAt (s : State) (sched : Nat) : Nat := ((s.core (sched / 4)).turns[sched % 4]?).getD 0
def lastTurn (s : State) (core : Nat) : Nat := (s.core core).turns.toList.foldl max 0

/-- Whether a warp's next chain waits for nothing but selection and pipes (R324). -/
def eligibleWarp (s : State) (k : Nat) : Bool :=
  match s.issueWarp k with
  | .next t => match t.out with
    | .waiting => false
    | .parked => !(s.warp k).solo.isSome
    | _ => true
  | _ => true

/-- The warp a scheduler would issue first, which it requests pipes for. -/
def firstPick (s : State) (sched : Nat) : Option Nat := (s.picks sched).find? s.eligibleWarp

/-- Whether a request for a pipe, of a warp of scheduler `j`, is granted before one of a warp of scheduler `i`: the older
of those of age 32 or more, then in rotation after the scheduler granted last (R324). -/
def grantsBefore (s : State) (last : Nat) (j i : Nat) (kj ki : Nat) : Bool :=
  let aged (k : Nat) : Nat := if 32 ≤ s.warpAge k then s.warpAge k else 0
  let turn (x : Nat) : Nat := (x + 7 - last % 4) % 4
  aged ki < aged kj || (aged ki == aged kj && turn j < turn i)

/-- Whether a warp is granted a shared pipe in a cycle of its scheduler: no other scheduler has had it in that cycle, and
none that has its own turn in that cycle to come has a request that goes first (R324).
DESIGN CHOICE, log entry 7. -/
def granted (s : State) (k : Nat) (n : Nat) (pipe : Nat) : Bool :=
  let core := keyCore k
  let i := schedulerOf k
  let g := ((s.core core).grants[pipe]?).getD (0, 0)
  !(g.1 == n && g.2 != i % 4)
    && (List.range 4).all fun j =>
      let r := 4 * core + j
      j == i % 4 || n ≤ s.turnAt r || (match s.firstPick r with
        | some x => !((s.pipesOf x).contains pipe && s.grantsBefore g.2 j (i % 4) x k)
        | none => true)

/-- The grants of a chain are used up (R324). -/
def useGrants (s : State) (k n : Nat) (pipes : List Nat) : State :=
  s.modCore (keyCore k) fun c =>
    { c with grants := pipes.foldl (fun g p => g.setIfInBounds p (n, schedulerIn (keySlot k))) c.grants }

/-- The first warp of a list whose chain does not wait, for a grant or for anything else, issues in cycle `n`. -/
def issueFirst (s : State) (n : Nat) : List Nat → Result
  | [] => .next s
  | k :: ks =>
    let pipes := s.pipesOf k
    if !pipes.all (s.granted k n) then s.issueFirst n ks
    else onNext (s.issueWarp k) fun t =>
      match t.out with
      | .waiting => t.issueFirst n ks
      | .parked => if (s.warp k).solo.isSome then t.issueFirst n ks else .next (t.useGrants k n pipes)
      | _ => .next (t.useGrants k n pipes)

/-- A scheduler takes its turn in the latest cycle of its core, or, where it has had that, in the next (R324). -/
def cycle (s : State) (sched : Nat) : State :=
  let m := s.lastTurn (sched / 4)
  s.modCore (sched / 4) fun c =>
    { c with turns := c.turns.setIfInBounds (sched % 4) (if s.turnAt sched < m then m else m + 1) }

/-- A scheduler's cycle: the warp it picks issues (R324). -/
def serve (s : State) (sched : Nat) : Result :=
  if 3072 ≤ sched then .next s
  else
    let s := s.cycle sched
    let n := s.turnAt sched
    if s.onDuty (sched / 4) n then s.issueFirst n (s.picks sched) else .next s

/-- The machine's own choice: messages and schedulers take turns, and each scheduler in rotation. -/
def choose (s : State) : Result :=
  let rs := s.ready
  match (if s.time % 2 == 0 || rs == [] then (List.range s.agenda.length).find? s.mayRun else none) with
  | some n => s.runAgenda n
  | none => match rs[s.time / 2 % rs.length]? with
    | some i => s.serve i
    | none => .next s

/-- What may come from outside, or by itself: management and configuration, errors, power, what the ports bring, and the
events of the table that the model performs within others too. Every other event follows from one before it.
DESIGN CHOICE, log entry 7. -/
def isInput : Instr → Bool
  | .registerEccError .. | .debugHalt .. | .preemptGo .. | .preemptCancel .. | .spretChange .. | .regionGo ..
  | .regionStop .. | .domMaskWrite .. | .domRangeWrite .. | .domQuiesce .. | .domRelease .. | .domEnable ..
  | .partShareWrite .. | .slicePowerOff .. | .slicePowerOn .. | .corePowerOff .. | .corePowerOn .. | .deadCore ..
  | .deadSlice .. | .deadDie .. | .bndlBaseWrite .. | .devIdWrite .. | .configRegisterWrite .. | .dutyChange ..
  | .grandmasterLoss | .moduleBoot | .unsupportedPacketDrop .. | .inboundMread .. | .inboundMwrite .. | .inboundMatom ..
  | .inboundBstage .. | .inboundBnote .. | .inboundCarry .. | .inboundTime .. | .inboundMgmt .. => true
  | .blockPlacement .. | .gReplicaCopy .. | .staleMessageDiscard .. | .landingSlotFill .. | .instructionFetch ..
  | .barrierObjectCountdown .. => true
  | _ => false

/-- What a given choice does. -/
def take (s : State) : Choice → Result
  | .issue sched => s.serve sched
  | .event n => if s.mayRun n then s.runAgenda n else .next s
  | .input i => if isInput i then s.arriveInput i else .next s
  | .pass => .next s

/-- What is due comes first; then who moves is as the schedule says, or as the machine chooses.
DESIGN CHOICE, log entry 7. -/
def turn (s : State) : Result :=
  match s.sched with
  | c :: rest => ({ s.background with sched := rest } : State).take c
  | [] => s.background.choose

/-- The clock is steered at this nanosecond: one in 10,000 (R356). -/
def slews (s : State) : Bool := s.steer != 0 && s.slewed + 10000 ≤ s.time

/-- The time after this nanosecond: while the clock is steered, every 10,000th counts double, or not at all: 100 ppm, and
never backwards (R356). -/
def nextTime (s : State) : Nat := if s.slews then (if 0 < s.steer then s.time + 2 else s.time) else s.time + 1

/-- A nanosecond passes. -/
def tick (s : State) : State :=
  { s with
    time := s.nextTime
    slewed := if s.slews then s.nextTime else s.slewed
    steer := if s.slews then (if 0 < s.steer then s.steer - 1 else s.steer + 1) else s.steer }

end State

end Sys2Proof.Machine
end

