-- ==== Sys2Proof/Machine/Load.lean ====
section
/-!
DEFINITION. A program placed from outside the machine: one packet in a core's instruction cache, and a warp
of a region 0 block that stands at it (log entry 6).
-/

namespace Sys2Proof.Machine

namespace State

/-- A code address, the second packet of an object at 0 (R17, R323). -/
def loadPc : Nat := 384

/-- The leaf that maps the object, read and execute. -/
def loadLeaf : Leaf := { pa := 0, log := 16, r := true, x := true }

/-- The chunk that holds three words (R16, R17). -/
def loadChunk (ws : List Word) : Chunk :=
  { core := 0, region := 0, va := loadPc, bytes := (ws.flatMap fun w => leBytes 4 w.toNat) ++ List.replicate (384 - 4 * ws.length) 0
    lines := [3, 4, 5] }

/-- A block with one general warp (R317, R323, R332). -/
def loadBlock : Block := { priv := true, dict := 4096, rolemap := 0, vregs := 128, slots := [0] }

/-- Its warp, standing at the packet: of class 0 and of the greatest age there is, so that its scheduler picks
it first (R324). -/
def placedWarp (b : Nat) : Warp := { blk := b, pc := loadPc, s := startRegs 0 }

/-- A dictionary of zeros, so that a DPAIR has entries (R29). -/
def loadDict : DictRam := { tag := 4096, loaded := true }

/-- The packet of three words stands where warp slot 0 of core 0 fetches, and that warp issues next. -/
def withPacket (s : State) (ws : List Word) : State :=
  let (b, s) := s.fresh
  let s := s.modCore 0 fun c => { c with dicts := c.dicts.setIfInBounds 0 loadDict }
  { s with
    blocks := s.blocks.put b loadBlock
    warps := s.warps.put 0 (placedWarp b)
    tlb := { core := 0, rod := none, region := 0, va := 0, leaf := loadLeaf } :: s.tlb
    chunks := loadChunk ws :: s.chunks
    sched := .issue 0 :: s.sched }

/-- The three words of an instruction as the opcode table numbers its bits; those above `nbits` are 0. -/
def tableWords (nbits w : Nat) : List Word := (List.range 3).map fun i => BitVec.ofNat 32 (fld (w % 2 ^ nbits) (32 * i) 32)

end State

end Sys2Proof.Machine
end

