-- ==== Sys2Proof/Machine/Step.lean ====
section
/-!
DEFINITION. One step of the machine, and a program placed where its next step fetches.
-/

namespace Sys2Proof.Machine

/-- One step: a warp issues its next chain, an event or an input takes effect, or time passes. -/
def step (s : State) : Host.Outcome State Fault Refusal := onNext s.turn fun t => .next t.tick

/-- The state with an instruction placed where the next step fetches and issues it. -/
def State.withFetchWord (s : State) (nbits w : Nat) : State := s.withPacket (tableWords nbits w)

end Sys2Proof.Machine
end

