-- ==== Sys2Proof/Safety.lean ====
section
/-!
DEFINITION. What holds of every state a run may reach, and what a step leaves unchanged, in the terms the
statements use.
-/

/-- A word that acts per active lane, and does nothing with none (R149, R150, R154, R158, R234, R247, R284). -/
def Sys2Proof.Instr.byLane (i : Sys2Proof.Instr) : Bool :=
  i.isVector || match i with
    | .vld .. | .vldo .. | .vst .. | .vsto .. | .ldsp .. | .stsp .. | .ldcl .. | .stcl .. | .vatom .. | .vcas ..
    | .sptest .. | .spcast .. | .ldlv .. | .vstb .. | .vldv .. | .put .. | .acrd .. | .acwr .. => true
    | _ => false

namespace Sys2Proof.Machine

/-- A flag of a lane. -/
def Warp.flag (w : Warp) (k l : Nat) : Bool := (w.vf.toList.getD k 0).getLsbD l

namespace State

/-- Memory and every core's scratchpad keep their canonical form. -/
def memoryWf (s : State) : Prop := Memory.wf s.mem ∧ ∀ e ∈ s.cores, Memory.wf e.2.pad

/-- Every byte of memory, and of every core's scratchpad, reads as before. -/
def sameBytes (s t : State) : Prop :=
  (∀ a, t.mem.read a = s.mem.read a) ∧ ∀ c a, (t.core c).pad.read a = (s.core c).pad.read a

/-- Nothing changes but the issuing warp, and how its instruction came out. -/
def onlyMe (s t : State) : Prop :=
  t = { s with warps := t.warps, out := t.out } ∧ (∀ k, k ≠ s.cur → t.warps.get? k = s.warps.get? k) ∧ s.sameBytes t

/-- The issuing warp changes in its v registers alone, and of those only in lanes of `d` (with their poison,
R336). -/
def onlyV (s t : State) (d : Nat) : Prop :=
  s.onlyMe t ∧ t.me = { s.me with v := t.me.v, bad := t.me.bad } ∧ (∀ r, r ≠ d → t.me.vreg r = s.me.vreg r)
    ∧ ∀ k, k / 96 ≠ d → t.me.bad.get k 0 = s.me.bad.get k 0

/-- As `onlyV`, and the sticky flags of the lanes given may be set. -/
def onlyVF (s t : State) (d : Nat) (m : LaneMask) : Prop :=
  s.onlyMe t ∧ t.me = { s.me with v := t.me.v, bad := t.me.bad, vf := t.me.vf }
    ∧ (∀ r, r ≠ d → t.me.vreg r = s.me.vreg r) ∧ (∀ k, k / 96 ≠ d → t.me.bad.get k 0 = s.me.bad.get k 0)
    ∧ ∀ k l, m.getLsbD l = false → t.me.flag k l = s.me.flag k l

/-- The issuing warp changes in its s registers alone, and of those only in the ones listed. -/
def onlyS (s t : State) (ds : List Nat) : Prop :=
  s.onlyMe t ∧ t.me = { s.me with s := t.me.s, bad := t.me.bad } ∧ (∀ r, r ∉ ds → t.me.sreg r = s.me.sreg r)
    ∧ ∀ k, (∀ r ∈ ds, k ≠ Warp.sKey r) → t.me.bad.get k 0 = s.me.bad.get k 0

/-- What a vector word leaves in lane `l` of its destination: the result in an active lane, 0 in one the
prefix's Z clears, else what was there (R247). -/
def laneAfter (s : State) (d : Nat) (r : Nat → Word) (l : Nat) : Word :=
  if s.actMask.getLsbD l then r l
  else if s.zeroing && s.execMask.getLsbD l then 0 else lane (s.me.vreg d) l

/-- What a compare or VVTOM leaves in lane `l` of mask triple `n`; a write of m0 keeps to SLS (R253, R299). -/
def bitAfter (s : State) (n : Nat) (p : Nat → Bool) (l : Nat) : Bool :=
  (n != 0 || s.me.sls.getLsbD l) &&
    if s.actMask.getLsbD l then p l
    else if s.zeroing && s.execMask.getLsbD l then false else (s.me.triple n).getLsbD l

/-- Room for a memory instruction: no acquire or SC operation of the warp holds it, and no counter or table is near
its limit (R141, R144, R166, R168). -/
def roomy (s : State) : Prop :=
  s.before.acq = [] ∧ s.before.scs = []
    ∧ inFlight s.before.cntG < 2047 ∧ inFlight s.before.cntS < 2047 ∧ inFlight s.before.cntW < 2047 ∧ inFlight s.before.cntV < 2047
    ∧ (s.flights.filter fun e => e.2.core == s.myCore && e.2.paths.testBit 2).length < 2048
    ∧ s.outstanding s.myCore ≤ 1600

/-- The issuing warp's registers are unchanged. -/
def sameRegs (s t : State) : Prop := t.me.s = s.me.s ∧ t.me.v = s.me.v ∧ t.me.q = s.me.q ∧ t.me.cause = s.me.cause

/-- The core and the offset a scratchpad target names. -/
def padPlace (s : State) : Tgt → Option (Nat × Nat)
  | .pad off => some (s.myCore, off)
  | .cluster b off => some ((s.block b).core, off)
  | _ => none

/-- Every byte of memory reads as before, and every byte of a scratchpad outside `n` bytes at the targets. -/
def onlyPads (s t : State) (ts : List (Nat × Tgt)) (n : Nat) : Prop :=
  (∀ a, t.mem.read a = s.mem.read a) ∧
    ∀ c a, (∀ x ∈ ts, ∀ o, s.padPlace x.2 = some (c, o) → a < o ∨ o + n ≤ a) → (t.core c).pad.read a = (s.core c).pad.read a

/-- One more instruction counted on the paths given, G S W V as bits 0 to 3 (R140, R141). -/
def countedOn (s t : State) (paths : Nat) : Prop :=
  let more (b : Nat) (l : List Flying) : List Flying := if paths.testBit b then l ++ [(s.nextId, false)] else l
  t.me.cntG = more 0 s.me.cntG ∧ t.me.cntS = more 1 s.me.cntS ∧ t.me.cntW = more 2 s.me.cntW ∧ t.me.cntV = more 3 s.me.cntV

/-- A flag of a lane after a word that set `f` in the active lanes (R260). -/
def flagAfter (s : State) (f : Nat → Flags) (k l : Nat) : Bool :=
  s.me.flag k l || (s.actMask.getLsbD l && (f l).getLsbD k)

/-- The directory set of a line has room for `n` more entries (R68). -/
def dirSpare (s : State) (line n : Nat) : Prop := (s.dir.filter fun e => s.dirSet e.base == s.dirSet line).length + n ≤ 16

/-- The request stands at its line's home with nothing in its way: it is not performed yet, its domain, slice and
share are in use as they are, no other transaction holds the line, none waits for it before this one, and nothing its
agents sent about the line is still on its way (R73, R75, R80, R81, R102), its core reached the right slice (R74), its partition and world pass (R84, R85),
and the home has the line and room for what it would add. -/
def atDoor (s : State) (id k : Nat) (f : Flight) (l : Leaf) (line : Nat) : Prop :=
  s.flights.get? id = some f ∧ k < f.reqs.length ∧ (f.req k).leaf = some l ∧ (f.req k).pa / 128 = line
    ∧ (f.req k).done = false ∧ f.isRmt = false ∧ isMemory line = true
    ∧ s.lineBusy line f.part = false ∧ s.behind (id, k) f.cls line = false ∧ s.redirected f.core line = false
    ∧ (∀ w ∈ s.wbs, w.line ≠ line)
    ∧ s.homeCheck line f.part l.ns l.shared = none ∧ s.isPoisoned line = false ∧ (∀ r ∈ s.resv, r.line ≠ line)
    ∧ (∃ x, s.sliceLine line = some x ∧ x.ns = l.ns) ∧ s.dirSpare line 1
    ∧ (s.l1.filter fun x => x.core == f.core).length < 2048
    ∧ (s.rdc.filter fun x => x.die == f.die && x.line % 65536 == line % 65536).length < 16

/-- A request's pieces performed on a line's bytes as a load. -/
def loaded (f : Flight) (k : Nat) (d : List Byte) : List Acc :=
  f.accs.map fun a => if a.req = k ∧ a.bad = none then { a with val := leNat (slice d (a.va % 128) a.size) } else a

/-- A counted instruction has completed: in-order entries that have are gone from the front (R141). -/
def gone (l : List Flying) (id : Nat) : List Flying :=
  (l.map fun e => if e.1 = id then (e.1, true) else e).dropWhile (·.2)

end State

end Sys2Proof.Machine
end

