-- ==== Sys2Proof/Certificates/Slice0/Obligations.lean ====
section
/-!
DEFINITION. The statements about the machine.
-/

open Sys2Proof Sys2Proof.Machine

/-! Vector words. -/

/-- R252: each integer and logic word leaves its result in the active lanes of its destination and changes nothing
else; `x` and `y` are what a lane reads. -/
def Obligations.VectorIntegerResults : Prop :=
  (∀ (s : State) (d : BitVec 7) (a b : Src),
    ∀ e ∈ ([(.vadd d a b, fun x y => x + y), (.vsub d a b, fun x y => x - y),
      (.vadds d a b, fun x y => BitVec.ofInt 32 (max (-2 ^ 31) (min (2 ^ 31 - 1) (x.toInt + y.toInt)))),
      (.vsubs d a b, fun x y => BitVec.ofInt 32 (max (-2 ^ 31) (min (2 ^ 31 - 1) (x.toInt - y.toInt)))),
      (.vmul d a b, fun x y => x * y),
      (.vmulh d a b, fun x y => (x.signExtend 64 * y.signExtend 64).extractLsb' 32 32),
      (.vmulhu d a b, fun x y => (x.zeroExtend 64 * y.zeroExtend 64).extractLsb' 32 32),
      (.vand d a b, fun x y => x &&& y), (.vandn d a b, fun x y => x &&& ~~~y),
      (.vor d a b, fun x y => x ||| y), (.vxor d a b, fun x y => x ^^^ y),
      (.vshl d a b, fun x y => x <<< (y.toNat % 32)), (.vshr d a b, fun x y => x >>> (y.toNat % 32)),
      (.vsar d a b, fun x y => BitVec.ofInt 32 (x.toInt / 2 ^ (y.toNat % 32))),
      (.vrol d a b, fun x y => x <<< (y.toNat % 32) ||| x >>> (32 - y.toNat % 32)),
      (.vmin d a b, fun x y => if x.toInt ≤ y.toInt then x else y),
      (.vmax d a b, fun x y => if x.toInt ≤ y.toInt then y else x),
      (.vminu d a b, fun x y => if x.toNat ≤ y.toNat then x else y),
      (.vmaxu d a b, fun x y => if x.toNat ≤ y.toNat then y else x),
      (.vmov d a, fun x _ => x), (.vnot d a, fun x _ => ~~~x),
      (.vpopc d a, fun x _ => BitVec.ofNat 32 ((List.range 32).filter x.getLsbD).length),
      (.vclz d a, fun x _ => BitVec.ofNat 32 (((List.range 32).find? fun i => x.getLsbD (31 - i)).getD 32)),
      (.vctz d a, fun x _ => BitVec.ofNat 32 (((List.range 32).find? x.getLsbD).getD 32)),
      (.vbrev d a, fun x _ => x.reverse),
      (.vfabs d a, fun x _ => x &&& 0x7FFFFFFF), (.vfneg d a, fun x _ => x ^^^ 0x80000000)] : List (Instr × (Word → Word → Word))),
    s.gate e.1 = .go → s.execMask ≠ 0 →
    ∃ t, exec e.1 s = .next t ∧ t.out = .done ∧ s.onlyV t d.toNat
      ∧ ∀ l < 96, lane (t.me.vreg d.toNat) l = s.laneAfter d.toNat (fun l => e.2 (s.readLane a l) (s.readLane b l)) l)
  ∧ ∀ (s : State) (d : BitVec 7) (a b : Src), s.gate (.vmad d a b) = .go → s.execMask ≠ 0 →
    ∃ t, exec (.vmad d a b) s = .next t ∧ t.out = .done ∧ s.onlyV t d.toNat
      ∧ ∀ l < 96, lane (t.me.vreg d.toNat) l = s.laneAfter d.toNat
        (fun l => s.readLane a l * s.readLane b l + s.readOp4 (fun l => lane (s.before.vreg d.toNat) l) l) l

/-- R106, R126, R131, R149, R150, R154, R158, R234, R247, R284: with no lane in exec, a vector word, a memory word that acts by lanes, PUT, ACRD
or ACWR does nothing once its decode checks pass. -/
def Obligations.EmptyMask : Prop :=
  ∀ (s : State) (i : Instr), i.byLane = true → s.permitted i = none → s.execMask = 0 →
    exec i s = .next { s with out := .done }

/-- R248, R252, R256, R258, R259: the words with a fourth operand that set no flag, the shuffles and VMTOV; VMAD's
addend is the prefix's operand or the old destination, and a shuffle's lane beyond 95 is its own. -/
def Obligations.VectorLaneMoves : Prop :=
  ∀ (s : State) (d : BitVec 7) (a b : Src) (n : BitVec 8),
    ∀ e ∈ ([(.vmad d a b, fun l => s.readLane a l * s.readLane b l + s.readOp4 (fun l => lane (s.before.vreg d.toNat) l) l),
      (.vshfl d a b, fun l =>
        let i := (s.readLane b l).toNat % 128
        s.readLane a (if i < 96 then i else l)),
      (.vshfx d a b, fun l =>
        let i := l ^^^ (s.readLane b l).toNat % 128
        s.readLane a (if i < 96 then i else l)),
      (.vmtov d n, fun l => if (s.before.triple n.toNat).getLsbD l then 1 else 0)] : List (Instr × (Nat → Word))),
    s.gate e.1 = .go → s.execMask ≠ 0 →
    ∃ t, exec e.1 s = .next t ∧ t.out = .done ∧ s.onlyV t d.toNat
      ∧ ∀ l < 96, lane (t.me.vreg d.toNat) l = s.laneAfter d.toNat e.2 l

/-- R254, R255, R260: each floating-point word leaves its rounded result in the active lanes and sets their sticky
flags, and no other lane's; `x`, `y`, `z` are the lane's operands, the fourth being the prefix's or the entry's
default. -/
def Obligations.VectorFloatResults : Prop :=
  ∀ (s : State) (d : BitVec 7) (a b : Src) (c : BitVec 8),
    let m := s.rmode
    let x (l : Nat) := s.readLane a l
    let y (l : Nat) := s.readLane b l
    let z (l : Nat) := s.readOp4 (fun l => lane (s.before.vreg d.toNat) l) l
    ∀ e ∈ ([(.vfadd d a b, fun l => fpAdd m (x l) (y l)), (.vfsub d a b, fun l => fpSub m (x l) (y l)),
      (.vfmul d a b, fun l => fpMul m (x l) (y l)), (.vfscl d a b, fun l => fpScale m (x l) (y l)),
      (.vfma d a b, fun l => fpFma .fp32 m false false (x l) (y l) (z l)),
      (.vfms d a b, fun l => fpFma .fp32 m false true (x l) (y l) (z l)),
      (.vfnma d a b, fun l => fpFma .fp32 m true false (x l) (y l) (z l)),
      (.vfnms d a b, fun l => fpFma .fp32 m true true (x l) (y l) (z l)),
      (.vfmin d a b, fun l => fpMinMax false (x l) (y l)), (.vfmax d a b, fun l => fpMinMax true (x l) (y l)),
      (.vfrnd d a, fun l => fpRound m (x l)), (.vffrc d a, fun l => fpFrac m (x l)),
      (.vh2fma d a b, fun l => fpHalves .fp16 m (x l) (y l) (z l)),
      (.vb2fma d a b, fun l => fpHalves .bf16 m (x l) (y l) (z l)),
      (.vcvt d a c, fun l => convert c.toNat m (s.readOp4 (fun _ => 0) l) (lane (s.before.vreg d.toNat) l) (x l))] :
      List (Instr × (Nat → Word × Flags))),
    s.gate e.1 = .go → s.execMask ≠ 0 →
    ∃ t, exec e.1 s = .next t ∧ t.out = .done ∧ s.onlyVF t d.toNat s.actMask
      ∧ (∀ l < 96, lane (t.me.vreg d.toNat) l = s.laneAfter d.toNat (fun l => (e.2 l).1) l)
      ∧ ∀ k < 5, ∀ l < 96, t.me.flag k l = s.flagAfter (fun l => (e.2 l).2) k l

/-- R253, R259: VICMP and VVTOM write one bit a lane into their mask triple, and change nothing else. R253, R260:
VFCMP writes one bit a lane and sets invalid in the lanes its condition says. -/
def Obligations.VectorCompares : Prop :=
  (∀ (s : State) (n : BitVec 5) (n' : BitVec 7) (a b : Src),
    ∀ e ∈ ([(.vicmp n 0 a b, n.toNat, fun x y => x == y), (.vicmp n 1 a b, n.toNat, fun x y => x != y),
      (.vicmp n 2 a b, n.toNat, fun x y => x.toInt < y.toInt), (.vicmp n 3 a b, n.toNat, fun x y => x.toInt ≤ y.toInt),
      (.vicmp n 4 a b, n.toNat, fun x y => y.toInt < x.toInt), (.vicmp n 5 a b, n.toNat, fun x y => y.toInt ≤ x.toInt),
      (.vicmp n 6 a b, n.toNat, fun x y => x.toNat < y.toNat), (.vicmp n 7 a b, n.toNat, fun x y => y.toNat ≤ x.toNat),
      (.vvtom n' a, n'.toNat, fun x _ => x != 0)] : List (Instr × Nat × (Word → Word → Bool))),
    s.gate e.1 = .go → s.execMask ≠ 0 →
    ∃ t, exec e.1 s = .next t ∧ t.out = .done ∧ s.onlyS t [3 * e.2.1, 3 * e.2.1 + 1, 3 * e.2.1 + 2]
      ∧ ∀ l < 96, (t.me.triple e.2.1).getLsbD l = s.bitAfter e.2.1 (fun l => e.2.2 (s.readLane a l) (s.readLane b l)) l)
  ∧ ∀ (s : State) (n : BitVec 5) (k : BitVec 3) (a b : Src),
    s.gate (.vfcmp n k a b) = .go → s.execMask ≠ 0 →
    ∃ t, exec (.vfcmp n k a b) s = .next t ∧ t.out = .done ∧ s.onlyMe t
      ∧ t.me = { s.me with s := t.me.s, bad := t.me.bad, vf := t.me.vf }
      ∧ (∀ r, r ≠ 3 * n.toNat → r ≠ 3 * n.toNat + 1 → r ≠ 3 * n.toNat + 2 → t.me.sreg r = s.me.sreg r)
      ∧ (∀ l < 96, (t.me.triple n.toNat).getLsbD l
          = s.bitAfter n.toNat (fun l => (fltCond k.toNat (s.readLane a l) (s.readLane b l)).1) l)
      ∧ ∀ j < 5, ∀ l < 96, t.me.flag j l = s.flagAfter (fun l => (fltCond k.toNat (s.readLane a l) (s.readLane b l)).2) j l

/-- R247, R257, R260: a special-function word queues, for every subgroup with a lane to write, one result with the
values and flags of its lanes, asks for it to be written, and changes nothing else. R257: the oldest result of a core's
SFU reaches its register, its flags the sticky flags; the other lanes, registers and warps stay. -/
def Obligations.SpecialFunctions : Prop :=
  (∀ (s : State) (d : BitVec 7) (a b : Src),
    let x (l : Nat) := (s.readLane a l).toNat
    let y (l : Nat) := (s.readLane b l).toNat
    ∀ e ∈ ([(.vrcp d a, fun l => sfRcp (x l)), (.vrsq d a, fun l => sfRsq (x l)), (.vsqrt d a, fun l => sfSqrt (x l)),
      (.vlog2 d a, fun l => sfLog2 (x l)), (.vex2 d a, fun l => sfEx2 (x l)), (.vtanh d a, fun l => sfTanh (x l)),
      (.vex2s d a b, fun l => sfEx2s (x l) (y l) (s.readOp4 (fun _ => 0x3F800000) l).toNat),
      (.vhyp d a b, fun l => sfHyp (x l) (y l))] : List (Instr × (Nat → Nat × Flags))),
    s.gate e.1 = .go → s.execMask ≠ 0 →
    ∃ t new, exec e.1 s = .next t ∧ t = { s with sfu := s.sfu ++ new, agenda := s.agenda ++ new.map (fun _ => .sfuResultWrite s.myCore)
                                                 nextId := t.nextId, out := .done }
      ∧ (∀ r ∈ new, r.core = s.myCore ∧ r.slot = s.mySlot ∧ r.dst = d.toNat ∧ s.nextId ≤ r.id ∧ r.id < t.nextId
        ∧ ∀ l < 96, r.lanes.getLsbD l = true → l / 32 = r.sub ∧ s.writeMask.getLsbD l = true)
      ∧ ∀ l < 96, s.writeMask.getLsbD l = true → ∃ r ∈ new, r.lanes.getLsbD l = true
        ∧ lane r.vals l = (if s.actMask.getLsbD l then BitVec.ofNat 32 (e.2 l).1 else 0)
        ∧ ∀ k : Fin 5, r.flags[k].getLsbD l = (s.actMask.getLsbD l && (e.2 l).2.getLsbD k))
  ∧ ∀ (s : State) (core : Nat) (r : SfuRes), s.sfu.find? (·.core == core) = some r →
    let key := warpKey r.core r.slot
    ∃ t, exec (.sfuResultWrite core) s = .next t ∧ t = { s with warps := t.warps, sfu := s.sfu.filter (·.id != r.id), out := .done }
      ∧ (∀ k, k ≠ key → t.warps.get? k = s.warps.get? k)
      ∧ t.warp key = { s.warp key with v := (t.warp key).v, bad := (t.warp key).bad, vf := (t.warp key).vf }
      ∧ (∀ l < 96, lane ((t.warp key).vreg r.dst) l = if r.lanes.getLsbD l then lane r.vals l else lane ((s.warp key).vreg r.dst) l)
      ∧ (∀ n, n ≠ r.dst → (t.warp key).vreg n = (s.warp key).vreg n)
      ∧ ∀ (k : Fin 5) (l : Nat), (t.warp key).flag k l = ((s.warp key).flag k l || r.flags[k].getLsbD l)

/-! Scalar words. -/

/-- R261, R262, R264, R265, R299: each scalar word writes its 32-bit destination, ANDed with SLS where that is s0, s1
or s2, and changes nothing else. -/
def Obligations.ScalarResults : Prop :=
  ∀ (s : State) (d : BitVec 6) (n : BitVec 5) (a b : Src) (m : BitVec 8),
    let x := s.readScalar a
    let y := s.readScalar b
    let tr := s.before.triple m.toNat
    ∀ e ∈ ([(.sadd d a b, d.toNat, x + y), (.ssub d a b, d.toNat, x - y), (.smul d a b, d.toNat, x * y),
      (.smulhu d a b, d.toNat, (x.zeroExtend 64 * y.zeroExtend 64).extractLsb' 32 32),
      (.sand d a b, d.toNat, x &&& y), (.sandn d a b, d.toNat, x &&& ~~~y), (.sor d a b, d.toNat, x ||| y),
      (.sxor d a b, d.toNat, x ^^^ y), (.sshl d a b, d.toNat, x <<< (y.toNat % 32)),
      (.sshr d a b, d.toNat, x >>> (y.toNat % 32)),
      (.ssar d a b, d.toNat, BitVec.ofInt 32 (x.toInt / 2 ^ (y.toNat % 32))),
      (.srol d a b, d.toNat, x <<< (y.toNat % 32) ||| x >>> (32 - y.toNat % 32)),
      (.smin d a b, d.toNat, if x.toInt ≤ y.toInt then x else y),
      (.smax d a b, d.toNat, if x.toInt ≤ y.toInt then y else x),
      (.smov d a, d.toNat, x), (.snot d a, d.toNat, ~~~x),
      (.spopc d a, d.toNat, BitVec.ofNat 32 ((List.range 32).filter x.getLsbD).length),
      (.sclz d a, d.toNat, BitVec.ofNat 32 (((List.range 32).find? fun i => x.getLsbD (31 - i)).getD 32)),
      (.scmp n 0 a b, n.toNat, if x = y then 1 else 0), (.scmp n 1 a b, n.toNat, if x = y then 0 else 1),
      (.scmp n 2 a b, n.toNat, if x.toInt < y.toInt then 1 else 0),
      (.scmp n 3 a b, n.toNat, if x.toInt ≤ y.toInt then 1 else 0),
      (.scmp n 4 a b, n.toNat, if y.toInt < x.toInt then 1 else 0),
      (.scmp n 5 a b, n.toNat, if y.toInt ≤ x.toInt then 1 else 0),
      (.scmp n 6 a b, n.toNat, if x.toNat < y.toNat then 1 else 0),
      (.scmp n 7 a b, n.toNat, if y.toNat ≤ x.toNat then 1 else 0),
      (.smcnt d m, d.toNat, BitVec.ofNat 32 ((List.range 96).filter tr.getLsbD).length),
      (.smfst d m, d.toNat,
        match (List.range 96).find? tr.getLsbD with
        | some l => BitVec.ofNat 32 l
        | none => 0xFFFFFFFF)] : List (Instr × Nat × Word)),
    s.gate e.1 = .go →
    ∃ t, exec e.1 s = .next t ∧ t.out = .done ∧ s.onlyS t [e.2.1]
      ∧ t.me.sreg e.2.1 = if e.2.1 < 3 then e.2.2 &&& s.before.sls.extractLsb' (32 * e.2.1) 32 else e.2.2

/-- R263: SADD64 and SSUB64 write a 64-bit sum or difference modulo 2^64 to an even pair. R265: a bit field is
extracted with or without its sign, and inserted over the bits it covers. R266: the scalar floating-point words round
by FPCTL.RND and set the scalar sticky flags. -/
def Obligations.ScalarWideResults : Prop :=
  (∀ (s : State) (d : BitVec 6) (a b : Src),
    ∀ e ∈ ([(.sadd64 d a b, fun x y => x + y), (.ssub64 d a b, fun x y => x - y)] : List (Instr × (DWord → DWord → DWord))),
    s.gate e.1 = .go →
    ∃ t, exec e.1 s = .next t ∧ t.out = .done ∧ s.onlyS t [d.toNat, d.toNat + 1]
      ∧ let r := e.2 (BitVec.ofNat 64 (s.read64 a)) (BitVec.ofNat 64 (s.read64 b))
        t.me.sreg d.toNat = Warp.slsAnd s.before.sls d.toNat (r.extractLsb' 0 32)
          ∧ t.me.sreg (d.toNat + 1) = Warp.slsAnd s.before.sls (d.toNat + 1) (r.extractLsb' 32 32))
  ∧ (∀ (s : State) (d : BitVec 6) (a b : Src),
    let x := s.readScalar a
    let y := s.readScalar b
    let p := (y.extractLsb' 0 5).toNat
    let w := min 32 (y.extractLsb' 8 6).toNat
    (s.gate (.sbfx d a b) = .go → ∃ t, exec (.sbfx d a b) s = .next t ∧ t.out = .done ∧ s.onlyS t [d.toNat]
      ∧ ∃ r : Word, t.me.sreg d.toNat = Warp.slsAnd s.before.sls d.toNat r ∧ ∀ i < 32, r.getLsbD i
          = if i < w then x.getLsbD (p + i) else y.getLsbD 15 && w != 0 && x.getLsbD (p + w - 1))
    ∧ (s.gate (.sbfi d a b) = .go → ∃ t, exec (.sbfi d a b) s = .next t ∧ t.out = .done ∧ s.onlyS t [d.toNat]
      ∧ ∃ r : Word, t.me.sreg d.toNat = Warp.slsAnd s.before.sls d.toNat r ∧ ∀ i < 32, r.getLsbD i
          = if p ≤ i && i < p + w then x.getLsbD (i - p) else (s.before.sreg d.toNat).getLsbD i))
  ∧ ∀ (s : State) (d : BitVec 6) (a b : Src),
    ∀ e ∈ ([(.sfadd d a b, fpAdd s.dynMode), (.sfmul d a b, fpMul s.dynMode)] : List (Instr × (Word → Word → Word × Flags))),
    s.gate e.1 = .go →
    ∃ t, exec e.1 s = .next t ∧ t.out = .done ∧ s.onlyMe t
      ∧ t.me = { s.me with s := t.me.s, bad := t.me.bad, sf := s.me.sf ||| (e.2 (s.readScalar a) (s.readScalar b)).2 }
      ∧ (∀ r, r ≠ d.toNat → t.me.sreg r = s.me.sreg r)
      ∧ t.me.sreg d.toNat = Warp.slsAnd s.before.sls d.toNat (e.2 (s.readScalar a) (s.readScalar b)).1

/-! Special registers. -/

/-- R267 to R271: SRD reads a special register; a low half of TIME, LCLK or BND fills the latch of its high half,
which the next read of that half gives. R267, R269, R287: SWR clears the sticky flags written with 1, sets the
rounding mode unless it is reserved, clears the factor-tile loss, or sets FTCTL, and writes no other register. -/
def Obligations.SpecialRegisters : Prop :=
  (∀ (s : State) (d : BitVec 6) (n : BitVec 8), s.gate (.srd d n) = .go →
    let w := s.me
    let now := s.nowCore s.myCore
    let lclk := (s.core s.myCore).lclk
    let high (x : Nat) : Word := BitVec.ofNat 32 (x / 2 ^ 32)
    ∃ t, exec (.srd d n) s = .next t ∧ t.out = .done ∧ s.onlyMe t
      ∧ t.me = { w with s := t.me.s, bad := t.me.bad, latTime := t.me.latTime, latLclk := t.me.latLclk, latBnd := t.me.latBnd }
      ∧ (∀ r, r ≠ d.toNat → t.me.sreg r = w.sreg r)
      ∧ (∀ e ∈ ([(0x00, s.wstatus s.cur), (0x01, w.cause),
          (0x02, (w.sf.zeroExtend 32 <<< 8) ||| BitVec.ofNat 32
            (((List.range 5).map fun k => if (List.range 96).any (w.flag k) then 2 ^ k else 0).sum)),
          (0x03, (w.ten.zeroExtend 32 <<< 8) ||| BitVec.ofNat 32 w.rnd),
          (0x04, BitVec.ofNat 32 now), (0x05, w.latTime.getD (high now)),
          (0x06, BitVec.ofNat 32 lclk), (0x07, w.latLclk.getD (high lclk)),
          (0x08, w.viewst), (0x09, w.bid.extractLsb' 0 32), (0x0A, w.latBnd.getD (w.bid.extractLsb' 32 32)),
          (0x0B, BitVec.ofNat 32 (inFlight w.cntG)), (0x0C, BitVec.ofNat 32 (inFlight w.cntS)),
          (0x0D, BitVec.ofNat 32 (inFlight w.cntW)), (0x0E, BitVec.ofNat 32 (inFlight w.cntV)),
          (0x0F, BitVec.ofNat 32 (s.core s.myCore).tret), (0x10, s.ftstat s.cur),
          (0x11, if w.ftTrap then 1 else 0), (0x12, w.split)] : List (BitVec 8 × Word)),
          n = e.1 → t.me.sreg d.toNat = Warp.slsAnd s.before.sls d.toNat e.2)
      ∧ t.me.latTime = (if n = 0x04 then some (high now) else if n = 0x05 then none else w.latTime)
      ∧ t.me.latLclk = (if n = 0x06 then some (high lclk) else if n = 0x07 then none else w.latLclk)
      ∧ t.me.latBnd = if n = 0x09 then some (w.bid.extractLsb' 32 32) else if n = 0x0A then none else w.latBnd)
  ∧ ∀ (s : State) (b : Src) (n : BitVec 6), s.gate (.swr n b) = .go →
    let x := s.readScalar b
    ∃ t, exec (.swr n b) s = .next t ∧ t.out = .done ∧ s.onlyMe t
      ∧ (n = 0x02 → t.me = { s.me with sf := t.me.sf, vf := t.me.vf } ∧ t.me.sf = s.me.sf &&& ~~~(x.extractLsb' 8 5)
          ∧ ∀ k < 5, ∀ l, t.me.flag k l = (s.me.flag k l && !x.getLsbD k))
      ∧ (n = 0x03 → t.me = { s.me with ten := x.extractLsb' 8 5, rnd := t.me.rnd }
          ∧ t.me.rnd = let r := (x.extractLsb' 0 3).toNat
            if r = 0 ∨ r = 6 ∨ r = 7 then s.me.rnd else r)
      ∧ (n = 0x10 → t.me = if x.getLsbD 31 then { s.me with ftLost := false, ftTile := 0, ftCol := 0 } else s.me)
      ∧ (n = 0x11 → t.me = { s.me with ftTrap := x.getLsbD 0 })

/-! Memory instructions, as they issue. -/

/-- R140, R141, R149: a load whose lanes pass R139 issues: it is counted on G for its global and private lanes and on
S for its scratchpad lanes, it is in flight to its destination, and no register, memory or scratchpad byte changes
yet. -/
def Obligations.LoadIssue : Prop :=
  ∀ (s : State) (o : BitVec 2) (sc w : BitVec 3) (d a : Src) (lit : Word),
    ∀ e ∈ ([(.vld o sc w d a, false, false, s.lanesAt (s.readPair a)),
      (.vldo o sc w d a lit, false, false, s.lanesAt fun l => (s.readPair a l + (lit.signExtend 64).toNat) % 2 ^ 64),
      (.sld o sc w d a lit, true, false, [(0, (s.readPair a 0 + (lit.signExtend 64).toNat) % 2 ^ 64)]),
      (.ldsp o sc w d a, false, false, s.lanesAt fun l => s.offPtr (s.readLane a l).toNat),
      (.ldcl o sc w d a, false, true, s.lanesAt (s.readPair a))] : List (Instr × Bool × Bool × List (Nat × Nat))),
    s.gate e.1 = .go → (e.2.1 = false → s.execMask ≠ 0) → s.roomy → ∀ ts,
    s.checkAll { size := wSize w.toNat, reads := true, shared := e.2.2.1, sc := o == 3 } e.2.2.2 = .ok ts →
    ∃ t, exec e.1 s = .next t ∧ t.out = .done ∧ s.sameRegs t ∧ s.sameBytes t
      ∧ s.countedOn t ((if ts.any fun x => !State.isPadTgt x.2 then 1 else 0) + if ts.any fun x => State.isPadTgt x.2 then 2 else 0)
      ∧ ∃ f, t.flights.get? s.nextId = some f ∧ f.kind = .load ∧ f.key = s.cur ∧ f.returned = false
        ∧ f.scalar = e.2.1 ∧ f.dst = Src.num d ∧ f.ndst = wRegs w.toNat ∧ f.width = wSize w.toNat ∧ f.signed = wSigned w.toNat
        ∧ f.ord = o.toNat ∧ ∀ l va, (l, .global va) ∈ ts → ∃ x ∈ f.accs, x.lane = l ∧ x.va = va ∧ x.size = wSize w.toNat

/-- R140, R144, R150: a store whose lanes pass R139 issues: it is counted on W; its global lanes' data sets out, and
of the scratchpads only bytes it stores to change. R138, R150: a relaxed store of one scratchpad lane, with nothing of
the warp in flight, has written its bytes, lowest first, when it has issued. -/
def Obligations.StoreIssue : Prop :=
  (∀ (s : State) (o : BitVec 2) (sc w : BitVec 3) (d a : Src) (lit : Word),
    ∀ e ∈ ([(.vst o sc w d a, false, false, s.lanesAt (s.readPair a)),
      (.vsto o sc w d a lit, false, false, s.lanesAt fun l => (s.readPair a l + (lit.signExtend 64).toNat) % 2 ^ 64),
      (.sst o sc w d a lit, false, true, [(0, (s.readPair a 0 + (lit.signExtend 64).toNat) % 2 ^ 64)]),
      (.stsp o sc w d a, false, false, s.lanesAt fun l => s.offPtr (s.readLane a l).toNat),
      (.stcl o sc w d a, true, false, s.lanesAt (s.readPair a))] : List (Instr × Bool × Bool × List (Nat × Nat))),
    s.gate e.1 = .go → (e.2.2.1 = false → s.execMask ≠ 0) → s.roomy → ∀ ts,
    s.checkAll { size := wSize w.toNat, writes := true, shared := e.2.1, sc := o == 3 } e.2.2.2 = .ok ts →
    ∃ t, exec e.1 s = .next t ∧ t.out = .done ∧ s.sameRegs t ∧ s.onlyPads t ts (wSize w.toNat) ∧ s.countedOn t 4
      ∧ ((ts.all fun x => !State.isPadTgt x.2) = true → s.sameBytes t ∧ ∃ f, t.flights.get? s.nextId = some f ∧ f.kind = .store
        ∧ f.key = s.cur ∧ f.ord = o.toNat ∧ ∀ l va, (l, .global va) ∈ ts → ∃ x ∈ f.accs, x.lane = l ∧ x.va = va
          ∧ x.size = wSize w.toNat ∧ x.val = s.storeValue d w.toNat l % 2 ^ (8 * wSize w.toNat)))
  ∧ ∀ (s : State) (sc w : BitVec 3) (d a : Src) (l off : Nat),
    s.gate (.stsp 0 sc w d a) = .go → s.roomy → s.execMask ≠ 0 → s.myFlights = [] →
    s.checkAll { size := wSize w.toNat, writes := true } (s.lanesAt fun l => s.offPtr (s.readLane a l).toNat)
      = .ok [(l, .pad off)] → off % 128 + wSize w.toNat ≤ 128 →
    ∃ t, exec (.stsp 0 sc w d a) s = .next t
      ∧ ∀ i < wSize w.toNat, (t.core s.myCore).pad.read (off + i) = BitVec.ofNat 8 (s.storeValue d w.toNat l / 256 ^ i)

/-- R140, R154, R155: an atomic whose lanes pass R139 issues: counted on G when it returns data and on W when it does
not, with the operand and, for a compare and swap, the value compared, that each lane read; no register changes yet,
and of memory and the scratchpads only bytes of its own scratchpad lanes. R153 to R156: a relaxed one of one
scratchpad lane, with nothing of the warp in flight, has combined its operand into its bytes, or swapped them where
they are what it compares with, and keeps the old value for its return. -/
def Obligations.AtomicIssue : Prop :=
  ∀ (s : State) (o : BitVec 2) (sc : BitVec 3) (w n : BitVec 1) (f : BitVec 4) (d : BitVec 7) (d' : BitVec 6) (p : BitVec 6),
    let m := if w == 1 then 8 else 4
    let second (x : Nat) := x + 1 + w.toNat
    ∀ e ∈ ([(.vatom o sc w f d p n, .atomic f.toNat, n == 1, d.toNat, false, s.lanesAt (s.vpair (2 * p.toNat)),
        s.atomVal false (w == 1) d.toNat, fun _ => 0),
      (.satom o sc w f d' p n, .atomic f.toNat, n == 1, d'.toNat, true, [(0, s.before.spair (2 * p.toNat))],
        s.atomVal true (w == 1) d'.toNat, fun _ => 0),
      (.vcas o sc w d p, .cas, false, d.toNat, false, s.lanesAt (s.vpair (2 * p.toNat)),
        s.atomVal false (w == 1) (second d.toNat), s.atomVal false (w == 1) d.toNat),
      (.scas o sc w d' p, .cas, false, d'.toNat, true, [(0, s.before.spair (2 * p.toNat))],
        s.atomVal true (w == 1) (second d'.toNat), s.atomVal true (w == 1) d'.toNat)] :
      List (Instr × FKind × Bool × Nat × Bool × List (Nat × Nat) × (Nat → Nat) × (Nat → Nat))),
    let (i, kind, nr, dst, scalar, lanes, val, cmp) := e
    s.gate i = .go → (scalar = false → s.execMask ≠ 0) → s.roomy → ∀ ts,
    s.checkAll { size := m, reads := true, writes := true, atomic := true, sc := o == 3 } lanes = .ok ts →
    (∃ t, exec i s = .next t ∧ t.out = .done ∧ s.sameRegs t ∧ s.onlyPads t ts m
      ∧ s.countedOn t (if nr then 4 else 1)
      ∧ ((ts.all fun x => !State.isPadTgt x.2) = true → s.sameBytes t)
      ∧ ∃ g, t.flights.get? s.nextId = some g ∧ g.kind = kind ∧ g.key = s.cur ∧ g.returned = false ∧ g.w64 = (w == 1)
        ∧ g.scalar = scalar ∧ g.dst = dst ∧ g.ndst = (if nr then 0 else if w == 1 then 2 else 1) ∧ g.ord = o.toNat
        ∧ ∀ l va, (l, .global va) ∈ ts → ∃ x ∈ g.accs, x.lane = l ∧ x.va = va ∧ x.size = m
          ∧ x.val = val l % 2 ^ (8 * m) ∧ x.cmp = cmp l % 2 ^ (8 * m))
    ∧ ∀ l off, ts = [(l, .pad off)] → s.myFlights = [] → o = 0 → off % 128 + m ≤ 128 →
      let old := leNat ((List.range m).map fun j => (s.core s.myCore).pad.read (off + j))
      let new := if kind = .cas then (if old = cmp l % 2 ^ (8 * m) then val l % 2 ^ (8 * m) else old)
        else atomOp f.toNat (w == 1) old (val l % 2 ^ (8 * m))
      ∃ t g, exec i s = .next t ∧ t.flights.get? s.nextId = some g ∧ (g.accs.map fun x => (x.lane, x.va, x.val)) = [(l, off, old)]
        ∧ ∀ j < m, (t.core s.myCore).pad.read (off + j) = BitVec.ofNat 8 (new / 256 ^ j)

/-- R87, R88: CACHE over at least one byte below 2^56 issues, counted on W but for PF, and starts at its first line (the
order of its lines: log entry 23); over no byte it does nothing. R64: TLBI issues as a release counted on W, and its acknowledgment is asked for; PAGE
and PAGEALL of an address whose bits [63:56] are not 0 raise BOUNDS. -/
def Obligations.CacheAndTlbi : Prop :=
  (∀ (s : State) (l a : Src),
    ∀ e ∈ ([(.cachePf l a, 0), (.cacheWb l a, 1), (.cacheInv l a, 2), (.cacheWbinv l a, 3)] : List (Instr × Nat)),
    s.gate e.1 = .go → s.roomy → s.readPair a 0 + (s.readScalar l).toNat ≤ 2 ^ 56 → s.readPair a 0 < 2 ^ 56 →
    ∃ t, exec e.1 s = .next t ∧ t.out = .done ∧ s.sameRegs t ∧ s.sameBytes t
      ∧ ((s.readScalar l).toNat = 0 → t = { s with out := .done })
      ∧ ((s.readScalar l).toNat ≠ 0 → s.countedOn t (if e.2 = 0 then 0 else 4) ∧ ∃ f, t.flights.get? s.nextId = some f
        ∧ f.kind = .cache e.2 ∧ f.x = s.readPair a 0 / 128 * 128 ∧ f.y = s.readPair a 0 + (s.readScalar l).toNat
        ∧ t.agenda = s.agenda ++ [.tlbMissWalk s.nextId 0]))
  ∧ ∀ (s : State) (r a : Src) (z : BitVec 2),
    ∀ e ∈ ([(.tlbiAll, 0, 0, 0, 0), (.tlbiRegion r, 1, 0, (s.readScalar r).toNat % 4096, 0),
      (.tlbiPage z r a, 2, z.toNat, (s.readScalar r).toNat % 4096, s.readPair a 0),
      (.tlbiPageall z a, 3, z.toNat, 0, s.readPair a 0)] : List (Instr × Nat × Nat × Nat × Nat)),
    s.gate e.1 = .go → s.roomy →
    (e.2.2.2.2 < 2 ^ 56 → ∃ t, exec e.1 s = .next t ∧ t.out = .done ∧ s.sameRegs t ∧ s.sameBytes t ∧ s.countedOn t 4
      ∧ t.agenda = s.agenda ++ [.tlbiAck s.nextId] ∧ ∃ f, t.flights.get? s.nextId = some f ∧ f.kind = .tlbi e.2.1 e.2.2.1
        ∧ f.x = e.2.2.2.1 ∧ f.y = e.2.2.2.2 ∧ f.released = false)
    ∧ (2 ≤ e.2.1 → 2 ^ 56 ≤ e.2.2.2.2 → e.2.2.2.2 < 2 ^ 64 →
      exec e.1 s = .next (s.raise { cause := .bounds, addr := e.2.2.2.2 }))

/-- R106, R107, R108, R140: LDLV of an aligned line below 2^56 issues on V; CMST of a good descriptor in the block's
scratchpad issues on G with the descriptor's lines, tokens and data, and of a bad one writes status 3. R172: either
raises RANGELOCK where an engine operation has locked a line it names. -/
def Obligations.VersionedIssue : Prop :=
  ∀ (s : State) (d : BitVec 7) (o : BitVec 2) (sc : BitVec 3) (x a : Src),
    (let va := s.readPair a 0
     s.gate (.ldlv d x a) = .go → s.execMask ≠ 0 → s.before.acq = [] → va % 128 = 0 → va < 2 ^ 56 →
      (s.lockedVa va 128 false = true →
        exec (.ldlv d x a) s = .next (s.raise { cause := .rangelock, addr := va, lanes := s.execMask }))
      ∧ (s.lockedVa va 128 false = false → s.roomy →
        ∃ t, exec (.ldlv d x a) s = .next t ∧ t.out = .done ∧ s.sameRegs t ∧ s.sameBytes t ∧ s.countedOn t 8
          ∧ ∃ f, t.flights.get? s.nextId = some f ∧ f.kind = .ldlv ∧ f.dst = d.toNat ∧ f.ndst = 1 ∧ f.dst2 = some (Src.num x)
            ∧ f.reqs.map (·.vline) = [va / 128]
            ∧ ∀ l < 96, s.execMask.getLsbD l = true → ∃ y ∈ f.accs, y.lane = l ∧ y.va = va + 4 * (l % 32)))
    ∧ (let off := (s.readScalar a).toNat
      let h := s.padRead s.myCore off 128
      let n := fieldAt h 0 4
      s.gate (.cmst o sc x a) = .go → s.roomy → off % 128 = 0 → s.padReadCheck off 128 = none →
      (n ≤ 4 → s.padReadCheck (off + 128) (128 * n) = none) →
      match State.cmstDesc h (s.padRead s.myCore (off + 128) (128 * min n 4)) with
      | none => ∃ t, exec (.cmst o sc x a) s = .next t ∧ t.out = .done ∧ s.onlyS t [Src.num x]
          ∧ t.me.sreg (Src.num x) = Warp.slsAnd s.before.sls (Src.num x) 3
      | some es => (∀ e, (es.find? fun e => s.lockedVa e.1 128 true) = some e →
            exec (.cmst o sc x a) s = .next (s.raise { cause := .rangelock, addr := e.1 }))
          ∧ ((es.all fun e => !s.lockedVa e.1 128 true) = true → ∃ t, exec (.cmst o sc x a) s = .next t ∧ t.out = .done
            ∧ s.sameRegs t ∧ s.sameBytes t ∧ s.countedOn t 1
            ∧ ∃ f, t.flights.get? s.nextId = some f ∧ f.kind = .cmst ∧ f.dst = Src.num x ∧ f.ndst = 1 ∧ f.scalar = true
              ∧ f.reqs.map (·.vline) = es.map (fun e => e.1 / 128) ∧ f.toks = es.map (·.2.1) ∧ f.datas = es.map (·.2.2)))

/-- R135, R158: SPTEST gives a pointer's class, 8 global, 0 private, 1 scratchpad, 2 cluster-shared and 15 otherwise,
with 16 added for one of the block's own scratchpad or of a block of its cluster, and SPCAST turns an offset into a
pointer or back, per active lane; inactive lanes and other registers stay. -/
def Obligations.PointerResults : Prop :=
  ∀ (s : State) (d : BitVec 7) (a : Src), s.isTrap = false → s.execMask ≠ 0 →
    let e := s.execMask
    let p (l : Nat) := s.readPair a l
    let me := s.identOf s.myBlk
    let own (l : Nat) : Bool := p l / 2 ^ 52 == 0xFF1 && p l / 2 ^ 42 % 2 ^ 10 == me && p l / 2 ^ 23 % 2 ^ 19 == 0
    let ownCl (l : Nat) : Bool := p l / 2 ^ 52 == 0xFF2 && p l / 2 ^ 42 % 2 ^ 10 == me && p l / 2 ^ 23 % 2 ^ 19 == 0
    let mates : List Nat := ((s.clusterBlks s.myBlk).filter fun b => (s.block b).state != .retired).map s.identOf
    let cls (q : Nat) : Word :=
      if q < 2 ^ 56 then 8
      else if q / 2 ^ 32 = 0xFF000000 then 0
      else if q / 2 ^ 52 = 0xFF1 ∧ q / 2 ^ 23 % 2 ^ 19 = 0 then (if q / 2 ^ 42 % 2 ^ 10 = me then 17 else 1)
      else if q / 2 ^ 52 = 0xFF2 ∧ q / 2 ^ 23 % 2 ^ 19 = 0 then (if q / 2 ^ 42 % 2 ^ 10 ∈ mates then 18 else 2)
      else 15
    (s.gate (.sptest d a) = .go → ∃ t, exec (.sptest d a) s = .next t ∧ t.out = .done ∧ s.onlyV t d.toNat
      ∧ ∀ l < 96, (e.getLsbD l = true → p l < 2 ^ 64 → lane (t.me.vreg d.toNat) l = cls (p l))
        ∧ (e.getLsbD l = false → lane (t.me.vreg d.toNat) l = lane (s.me.vreg d.toNat) l))
    ∧ (∀ x ∈ ([(0, fun l => if own l then p l % 2 ^ 23 else 0xFFFFFFFF),
        (1, fun l => if (s.readLane a l).toNat < 2 ^ 23 then 0xFF1 * 2 ^ 52 + me % 2 ^ 10 * 2 ^ 42 + (s.readLane a l).toNat else 0),
        (2, fun l => if own l then p l + 2 ^ 52 else 0), (3, fun l => if ownCl l then p l - 2 ^ 52 else 0)] :
        List (BitVec 8 × (Nat → Nat))),
      s.gate (.spcast d a x.1) = .go → me < 2 ^ 10 → ∃ t, exec (.spcast d a x.1) s = .next t ∧ t.out = .done ∧ s.onlyMe t
        ∧ t.me = { s.me with v := t.me.v, bad := t.me.bad }
        ∧ (∀ n, n ≠ d.toNat → (n ≠ d.toNat + 1 ∨ x.1 = 0) → t.me.vreg n = s.me.vreg n)
        ∧ ∀ l < 96, (e.getLsbD l = true → p l < 2 ^ 64 → lane (t.me.vreg d.toNat) l = BitVec.ofNat 32 (x.2 l)
            ∧ (x.1 ≠ 0 → lane (t.me.vreg (d.toNat + 1)) l = BitVec.ofNat 32 (x.2 l / 2 ^ 32)))
          ∧ (e.getLsbD l = false → lane (t.me.vreg d.toNat) l = lane (s.me.vreg d.toNat) l
            ∧ lane (t.me.vreg (d.toNat + 1)) l = lane (s.me.vreg (d.toNat + 1)) l))

/-- R143, R146: WAITC goes on once every counter it names is at its threshold and no faulted load was to leave it; it
raises the mark of one that was, and waits while a counter is above. R179: FENCE goes on once what it orders is over,
an acquire once the warp's loads have returned, a release also once its W instructions are acknowledged and at DEV or
SYS its leases over, raising the core's clocks for what it acquires and marking its later stores for what it releases;
at WRP it does nothing. -/
def Obligations.WaitcAndFence : Prop :=
  ∀ (s : State) (v w f g : BitVec 1) (x : Src) (o : BitVec 2) (sc : BitVec 3),
    let n := (s.readScalar x).toNat
    let paths := g.toNat + 2 * f.toNat + 4 * w.toNat + 8 * v.toNat
    let low := (g = 1 → inFlight s.before.cntG ≤ n) ∧ (f = 1 → inFlight s.before.cntS ≤ n) ∧ (w = 1 → inFlight s.before.cntW ≤ n)
      ∧ (v = 1 → inFlight s.before.cntV ≤ n)
    (s.gate (.waitc v w f g x) = .go → low → State.waitcMark s.before paths n = none →
      ∃ t, exec (.waitc v w f g x) s = .next t ∧ t.out = .done ∧ s.onlyMe t ∧ t.me = { s.me with wake := .none, wakeOk := false })
    ∧ (s.before.marks = [] → State.waitcMark s.before paths n = none)
    ∧ (s.gate (.waitc v w f g x) = .go → low → ∀ m, State.waitcMark s.before paths n = some m →
      exec (.waitc v w f g x) s = .next (s.raise m.stop))
    ∧ (s.gate (.waitc v w f g x) = .go → ¬ low →
      ∃ t, exec (.waitc v w f g x) s = .next t ∧ t.out = .waiting ∧ s.onlyMe t ∧ s.sameRegs t)
    ∧ (s.gate (.fence o sc) = .go → s.before.acq = [] → sc = 0 → exec (.fence o sc) s = .next { s with out := .done })
    ∧ (s.gate (.fence o sc) = .go → s.before.acq = [] → sc ≠ 0 → State.loadsBack s.before = true → (o = 3 → s.before.scs = []) →
      (o ≠ 1 → inFlight s.before.cntW = 0
        ∧ (4 ≤ sc.toNat → s.me.leaseAt.getD (s.core s.myCore).leasemax < s.nowCore s.myCore)) →
      ∃ t, exec (.fence o sc) s = .next t ∧ t.out = .done ∧ s.sameRegs t ∧ s.sameBytes t
        ∧ (o ≠ 2 → s.me.ldTag.1 ≤ 2 ^ 48 - 1 → s.me.ldTag.1 ≤ (t.core s.myCore).lclk ∧ s.me.ldTag.2 ≤ (t.core s.myCore).leasemax)
        ∧ (o ≠ 1 → t.me.relTag = true))
    ∧ (s.gate (.fence o sc) = .go → s.before.acq = [] → sc ≠ 0 →
      State.loadsBack s.before = false ∨ (o ≠ 1 ∧ inFlight s.before.cntW ≠ 0) →
      ∃ t, exec (.fence o sc) s = .next t ∧ t.out = .waiting ∧ s.sameRegs t ∧ s.sameBytes t)

/-! Synchronisation. -/

/-- R232, R233, R234, R238: PUT to an s register writes the active lanes' values combined under its mode, FADD exactly
and rounded once; PUT to a q register combines each subgroup by itself; an s source is one contribution (log entry 11);
AGREE, mode 0, wants them equal and else raises AGREE, writing nothing; with no lane in exec nothing happens. R235,
R236, R238: PUT to a b, k or g register sends its contribution and waits; the scope's pending slot takes it, or answers
AGREE or SCOPEMIX; the answer lets the warp go on, or is the cause it raises. -/
def Obligations.PutResults : Prop :=
  (∀ (s : State) (x : Src) (r : BitVec 6) (q : BitVec 3) (mode : BitVec 4) (d : Src),
    let val (m : LaneMask) : List Word :=
      match x with
      | .s _ => [s.readLane x 0]
      | _ => (laneList m).map (s.readLane x)
    let fold (f : Word → Word → Word) (vs : List Word) : Word :=
      match vs with
      | [] => 0
      | v :: vs => vs.foldl f v
    let fadd (vs : List Word) : Word :=
      let us := vs.map fun v => unpack .fp32 v.toNat
      let sum := (us.map (FVal.scaled (-149))).sum
      if .nan false ∈ us ∨ .nan true ∈ us ∨ (.inf false ∈ us ∧ .inf true ∈ us) then 0x7FC00000
      else if .inf false ∈ us then 0x7F800000
      else if .inf true ∈ us then 0xFF800000
      else if sum = 0 then (if us.all fun u => u.isZero && u.isNeg then 0x80000000 else 0)
      else BitVec.ofNat 32 (roundInt .fp32 .rne sum (-149)).1
    let same (m : LaneMask) : Prop := ∀ v ∈ val m, v = (val m).headD 0
    (s.permitted (.put mode d x) = none → s.execMask = 0 → exec (.put mode d x) s = .next { s with out := .done })
    ∧ (s.execMask ≠ 0 →
      (∀ e ∈ ([(0, fun vs => vs.headD 0), (1, fold fun a b => a + b), (2, fold fun a b => if a.toInt ≤ b.toInt then a else b),
          (3, fold fun a b => if a.toInt ≤ b.toInt then b else a), (4, fold fun a b => a &&& b), (5, fold fun a b => a ||| b),
          (6, fold fun a b => a ^^^ b), (7, fold fun a b => if a.toNat ≤ b.toNat then a else b),
          (8, fold fun a b => if a.toNat ≤ b.toNat then b else a), (9, fadd), (10, fold fun a b => (fpMinMax false a b).1),
          (11, fold fun a b => (fpMinMax true a b).1)] : List (BitVec 4 × (List Word → Word))),
        (s.gate (.put e.1 (.s r) x) = .go → (e.1 = 0 → same s.execMask) →
          ∃ t, exec (.put e.1 (.s r) x) s = .next t ∧ t.out = .done ∧ s.onlyS t [r.toNat]
            ∧ t.me.sreg r.toNat = Warp.slsAnd s.before.sls r.toNat (e.2 (val s.execMask)))
        ∧ (s.gate (.put e.1 (.q q) x) = .go → (e.1 = 0 → ∀ j < 3, same (s.execMask &&& State.subMask j)) →
          ∃ t, exec (.put e.1 (.q q) x) s = .next t ∧ t.out = .done ∧ s.onlyMe t ∧ t.me = { s.me with q := t.me.q }
            ∧ ∀ n j, n < 8 → j < 3 → t.me.qreg n j = if n = q.toNat ∧ s.execMask &&& State.subMask j ≠ 0
              then e.2 (val (s.execMask &&& State.subMask j)) else s.me.qreg n j))
      ∧ (s.gate (.put 0 (.s r) x) = .go → ¬ same s.execMask → exec (.put 0 (.s r) x) s = .next (s.raise { cause := .agree }))
      ∧ (s.gate (.put 0 (.q q) x) = .go → (∃ j < 3, ¬ same (s.execMask &&& State.subMask j)) →
        exec (.put 0 (.q q) x) s = .next (s.raise { cause := .agree }))))
  ∧ ∀ (s : State) (m n : BitVec 4) (n' : BitVec 3) (x : Src) (core slot : Nat),
    (∀ e ∈ ([(.b n, n.toNat), (.k n', 16 + n'.toNat), (.g n', 24 + n'.toNat)] : List (Src × Nat)),
      s.gate (.put m e.1 x) = .go → s.execMask ≠ 0 → s.isTrap = false →
      (putAll m.toNat (s.putLanes x s.execMask) = none → exec (.put m e.1 x) s = .next (s.raise { cause := .agree }))
      ∧ ∀ c, putAll m.toNat (s.putLanes x s.execMask) = some c → s.me.asks.get? 0 = none →
        (s.me.replies.get? 0 = none → ∃ t, exec (.put m e.1 x) s = .next t ∧ t.out = .waiting ∧ s.sameRegs t ∧ s.sameBytes t
          ∧ t.me.asks.get? 0 = some (.put e.2 c.mode c.val c.num c.special c.negZero)
          ∧ t.agenda = s.agenda ++ [.putSlotContribution s.myCore s.mySlot])
        ∧ (s.me.replies.get? 0 = some .ok → ∃ t, exec (.put m e.1 x) s = .next t ∧ t.out = .done ∧ s.onlyMe t
          ∧ t.me = { s.me with replies := s.me.replies.del 0 })
        ∧ ∀ k, s.me.replies.get? 0 = some (.cause k) → exec (.put m e.1 x) s = .next (s.raise { cause := k }))
    ∧ let key := warpKey core slot
      let w := s.warp key
      (∀ d mode v num sp nz, w.asks.get? 0 = some (.put d mode v num sp nz) →
        let old := (s.putFile w.blk d).slots.get? d
        let c : Slot := ⟨mode, v, num, sp, nz⟩
        ∃ t, exec (.putSlotContribution core slot) s = .next t ∧ t.out = .done ∧ s.sameBytes t
          ∧ t.agenda = s.agenda ++ [.putSlotAnswer core slot]
          ∧ (t.putFile w.blk d).regs = (s.putFile w.blk d).regs
          ∧ (t.putFile w.blk d).slots.get? d = some (match old with
            | none => c
            | some o => if o.mode = mode ∧ mode ≠ 0 then o.join c else o)
          ∧ (t.warp key).replies.get? 0 = some (match old with
            | none => .ok
            | some o => if o.mode ≠ mode then .cause .scopemix else if mode = 0 ∧ o.val ≠ v then .cause .agree else .ok))
      ∧ ((w.replies.get? 0).isSome = true → ∃ t, exec (.putSlotAnswer core slot) s = .next t
        ∧ t = { s with warps := t.warps, out := .done } ∧ t.warp key = { w with asks := w.asks.del 0 }
        ∧ (t.warp key).asks.get? 0 = none ∧ ∀ k, k ≠ key → t.warp k = s.warp k)

/-- R239, R241: a barrier instruction first asks for its arrival and parks; it is over once it has arrived and, unless
it is BAR.ARRIVE, its phase has ended; a diverged warp raises SYNCDIV. R239, R241: an arrival whose release is over
counts; with the last participant of a block or cluster barrier the scope's slots commit and the phase ends; a grid's
replicas take the committed values first, one by one, and the last of them ends the phase. -/
def Obligations.Barriers : Prop :=
  (∀ (s : State), ∀ e ∈ ([(.barSync, 1, true), (.barArrive, 1, false), (.cbar, 2, true), (.gbar, 3, true)] : List (Instr × Nat × Bool)),
    let seen := s.me.arrived[e.2.1 - 1]?.getD 0
    s.gate e.1 = .go → s.isTrap = false →
    (s.me.inBar = none → s.me.stack = [] → (e.2.1 = 3 → (s.grid s.myBlock.grid).coop = true) → s.arithNow = none →
      seen ≠ s.barPhase e.2.1 + 1 →
      exec e.1 s = .next { s.modMe fun w => { w with inBar := some (e.2.1, false, e.2.2), wake := .none } with
        agenda := s.agenda ++ [.barrierArrival s.myCore s.mySlot], out := .parked })
    ∧ (s.me.inBar = none → s.me.stack ≠ [] → exec e.1 s = .next (s.raise { cause := .syncdiv }))
    ∧ (∀ k b, s.me.inBar = some (k, true, b) → (e.2.2 = true → seen - 1 < s.barPhase e.2.1) →
      exec e.1 s = .next { s.modMe fun w => { w with inBar := none, wake := .none } with out := .done })
    ∧ ∀ k b, s.me.inBar = some (k, true, b) → e.2.2 = true → s.barPhase e.2.1 ≤ seen - 1 →
      exec e.1 s = .next { s.modMe fun w => { w with wake := .bar e.2.1 (seen - 1) } with out := .parked })
  ∧ ∀ (s : State) (core slot kind grid die : Nat) (sync : Bool),
    let key := warpKey core slot
    let w := s.warp key
    let b := w.blk
    let f := s.putFile b (barDest kind)
    let gid := (s.block b).grid
    let committed := f.slots.foldl (fun r e => r.put (putIdx e.1) e.2.publish) f.regs
    let all : Prop := ∀ x ∈ s.barBlocks kind b, (s.block x).state = .retired ∨ ∀ i < (s.block x).slots.length,
      i ∈ (s.block x).gone ∨ State.arriver x i ∈ f.arrived ∨ State.arriver x i = State.arriver b w.widx
    (kind ∈ [1, 2, 3] → w.inBar = some (kind, false, sync) → s.barReleased key kind = true →
      ∃ t, exec (.barrierArrival core slot) s = .next t ∧ t.out = .done ∧ s.sameBytes t
        ∧ t.warp key = { w with inBar := some (kind, true, sync), leaseAt := none, arrived := w.arrived.setIfInBounds (kind - 1) (f.phase + 1) }
        ∧ (¬ all → t.putFile b (barDest kind) = { f with arrived := State.arriver b w.widx :: f.arrived })
        ∧ (all → kind ≠ 3 → t.putFile b (barDest kind) = { f with regs := committed, slots := [], phase := f.phase + 1, arrived := [] })
        ∧ (all → kind = 3 → (s.grid gid).taking = [] → (s.grid gid).replicas ≠ [] →
          t.putFile b 24 = { f with regs := committed, slots := [], arrived := State.arriver b w.widx :: f.arrived }
          ∧ (t.grid gid).taking = (s.grid gid).replicas.map (·.1)
          ∧ t.agenda = s.agenda ++ (s.grid gid).replicas.map fun e => .gReplicaUpdate gid e.1))
    ∧ (let g := s.grid grid
      let left := g.taking.filter (· != die)
      die ∈ g.taking → ∃ t, exec (.gReplicaUpdate grid die) s = .next t ∧ t.out = .done ∧ t.warps = s.warps ∧ s.sameBytes t
        ∧ (t.grid grid).replicas.get? die = some g.file.regs ∧ (t.grid grid).taking = left
        ∧ (left ≠ [] → (t.grid grid).file = g.file)
        ∧ (left = [] → ∀ e, s.blocks.find? (fun e => e.2.grid == grid) = some e → (s.block e.1).grid = grid →
          (t.grid grid).file = { g.file with phase := g.file.phase + 1, arrived := [] }))
    ∧ (let g := s.grid grid
      ∃ t, exec (.gReplicaCopy grid die) s = .next t ∧ t = { s with grids := t.grids, out := .done }
        ∧ (t.grid grid).file = g.file ∧ (t.grid grid).replicas.get? die = some ((g.replicas.get? die).getD g.file.regs))

/-- R245, R246: XCHG offers the active lanes' words to a peer and waits; of the unclaimed requests that match it the
first to arrive is paired with it. Two requests that match swap the lanes active in both, and where one has been
withdrawn the other looks for a match again. R23: where a PUT of the same chain fails at its slot, nothing is swapped
and the partner waits on. One unmatched for 65,536 cycles raises TIMEOUT (the nanoseconds of that:
log entry 31). -/
def Obligations.Exchange : Prop :=
  ∀ (s : State) (d : BitVec 7) (a b : Src) (x y : Nat),
    let p := (s.readScalar b).toNat
    let quiet (k : Nat) : Prop := (s.warp k).asks.get? 0 = none ∧ (s.warp k).asks.get? 3 = none
    (s.gate (.xchg d a b) = .go → s.me.replies.get? 4 = none → s.me.asks.get? 4 = none → s.isTrap = false → p < 2 ^ 24 →
      bits p 0 10 ≤ 767 → bits p 10 6 ≤ 31 → (bits p 0 10 ≠ s.myCore ∨ bits p 10 6 ≠ s.me.widx) →
      ∃ t r, exec (.xchg d a b) s = .next t ∧ t.out = .waiting ∧ s.sameRegs t ∧ s.sameBytes t ∧ t.xreqs.get? s.nextId = some r
        ∧ r.core = s.myCore ∧ r.slot = s.mySlot ∧ r.widx = s.me.widx ∧ r.grid = s.myBlock.grid
        ∧ r.peerCore = bits p 0 10 ∧ r.peerWarp = bits p 10 6 ∧ r.tag = bits p 16 8
        ∧ r.mask = s.execMask ∧ r.since = s.nowCore s.myCore ∧ (∀ l < 96, lane r.vals l = s.readLane a l)
        ∧ ((∀ e ∈ s.xreqs, e.1 < s.nextId) →
          t.agenda = s.agenda ++ match s.xreqs.find? (fun e => e.2.matches r && !s.claimed e.1) with
            | some e => [.xchgMatch e.1 s.nextId]
            | none => []))
    ∧ (∀ m v, s.gate (.xchg d a b) = .go → s.me.replies.get? 4 = some (.swap m v) →
      ∃ t, exec (.xchg d a b) s = .next t ∧ t.out = .done ∧ s.onlyMe t ∧ t.me.s = s.me.s ∧ t.me.replies.get? 4 = none
        ∧ (∀ n, n ≠ d.toNat → t.me.vreg n = s.me.vreg n)
        ∧ ∀ l < 96, lane (t.me.vreg d.toNat) l = if m.getLsbD l then lane v l else lane (s.me.vreg d.toNat) l)
    ∧ (∀ c, s.gate (.xchg d a b) = .go → s.me.replies.get? 4 = some (.cause c) →
      exec (.xchg d a b) s = .next (s.raise { cause := c }))
    ∧ (∀ q r, s.xreqs.get? x = some q → s.xreqs.get? y = some r → q.matches r = true →
      let kq := warpKey q.core q.slot
      let kr := warpKey r.core r.slot
      kq ≠ kr → quiet kq → quiet kr → ∃ t, exec (.xchgMatch x y) s = .next t
        ∧ t = { s with warps := t.warps, xreqs := t.xreqs, out := .done } ∧ (t.warp kq).replies.get? 4 = some (.swap (q.mask &&& r.mask) r.vals)
        ∧ (t.warp kr).replies.get? 4 = some (.swap (q.mask &&& r.mask) q.vals)
        ∧ (∀ k, k ≠ kq → k ≠ kr → t.warps.get? k = s.warps.get? k) ∧ t.xreqs.get? x = none ∧ t.xreqs.get? y = none)
    ∧ (∀ q r n mode v num sp nz o, s.xreqs.get? x = some q → s.xreqs.get? y = some r → q.matches r = true →
      let kq := warpKey q.core q.slot
      let kr := warpKey r.core r.slot
      let b := (s.warp kq).blk
      kq ≠ kr → (s.warp kq).asks.get? 3 = none → (s.warp kq).asks.get? 0 = some (.put n mode v num sp nz) →
      (s.warp kq).replies.get? 0 = none → (s.putFile b n).slots.get? n = some o → o.mode ≠ mode →
      ∃ t, exec (.xchgMatch x y) s = .next t ∧ t.out = .done ∧ (t.warp kq).replies.get? 0 = some (.cause .scopemix)
        ∧ t.xreqs.get? x = none ∧ t.xreqs.get? y = some r ∧ t.warp kr = s.warp kr ∧ (t.putFile b n).slots.get? n = some o)
    ∧ (∀ q, s.xreqs.get? x = some q → s.xreqs.get? y = none →
      let mate := s.xreqs.find? fun e => e.1 != x && e.2.matches q && !s.claimed e.1
      exec (.xchgMatch x y) s = .next { s with out := .done, agenda := s.agenda ++ (match mate with
        | some e => [.xchgMatch e.1 x]
        | none => []) })
    ∧ ∀ q, s.xreqs.get? x = some q → q.since + xchgLimit ≤ s.nowCore q.core →
      (s.claimed x = false → ∃ t, exec (.xchgTimeout x) s = .next t ∧ t = { s with warps := t.warps, xreqs := t.xreqs, out := .done }
        ∧ (t.warp (warpKey q.core q.slot)).replies.get? 4 = some (.cause .timeout) ∧ t.xreqs.get? x = none)
      ∧ (s.claimed x = true → exec (.xchgTimeout x) s = .next { s with out := .done })

/-! Control flow. -/

/-- R302, R303, R305: where a branch goes: BRA on its condition, BDIV when every active lane takes it. A backward one
counts on BACK, and at 63 exchanges with a SPLIT on top of the stack. R18: a SPLIT whose PC is no packet raises ALIGN
there. R301: a taken BRA to an address past the end of memory raises BOUNDS, as one to an address below 0 does (log
entry 29), and leaves the warp at the branch. R298, R303: a BDIV taken by some active lanes pushes a RECONV of the
executing lanes at its reconvergence packet and, on it, a SPLIT of the lanes taken; the rest run on. R300: a push past
16 held entries first spills the deepest held one, which is written with those spilled before it behind it (log entry
28); with PSIZE below 80 it raises STACKOVF, and a piece that cannot be reached raises its cause or waits, with no
effect. -/
def Obligations.Branches : Prop :=
  (∀ (s : State) (r : BitVec 6) (o : BitVec 14) (lit : Word),
    let x := s.before.sreg r.toNat
    let e := s.execMask
    let m := s.before.triple r.toNat
    let tgt : Int := s.pos.1 + 12 * o.toInt
    ∀ c ∈ ([(.bra 0 r o, true), (.bra 1 r o, x == 0), (.bra 2 r o, x != 0), (.bra 3 r o, x.msb), (.bra 4 r o, e &&& m != 0),
        (.bra 5 r o, e != 0 && e &&& ~~~m == 0), (.bra 6 r o, e &&& m == 0),
        (.bdiv r o lit, e &&& m != 0 && e &&& ~~~m == 0)] : List (Instr × Bool)),
      s.gate c.1 = .go → s.pos.1 % 12 = 0 → 0 ≤ s.pos.1 + 12 * lit.toInt → s.pos.1 + 12 * lit.toInt < 2 ^ 56 →
      0 ≤ tgt → tgt < 2 ^ 56 →
      (c.2 = false → (∀ i < 96, c.1 = .bdiv r o lit → (e &&& m).getLsbD i = false) → exec c.1 s = .next { s with out := .done })
      ∧ (c.2 = true → (63 ≤ s.me.back → ∀ q ∈ s.me.stack.head?, q.pc % 12 = 0) → ∃ t, exec c.1 s = .next t ∧ t.out = .moved ∧ s.onlyMe t
        ∧ (s.pos.1 < tgt → t.me = { s.me with pc := tgt.toNat, slot := 0, exp := false })
        ∧ (tgt ≤ s.pos.1 → s.me.back < 63 → t.me = { s.me with pc := tgt.toNat, slot := 0, exp := false, back := s.me.back + 1 })
        ∧ (tgt ≤ s.pos.1 → 63 ≤ s.me.back → (∀ q ∈ s.me.stack.head?, q.reconv = true) →
          t.me = { s.me with pc := tgt.toNat, slot := 0, exp := false })
        ∧ (tgt ≤ s.pos.1 → 63 ≤ s.me.back → ∀ q l, s.me.stack = q :: l → q.reconv = false →
          t.me.stack = { q with pc := tgt.toNat, mask := s.me.sls } :: l ∧ t.me.sls = q.mask ∧ t.me.exec = q.mask
            ∧ t.me.back = 0 ∧ t.me.position = (q.pc, 0, false)))
      ∧ (c.2 = true → tgt ≤ s.pos.1 → 63 ≤ s.me.back → ∀ q l, s.me.stack = q :: l → q.reconv = false → q.pc % 12 ≠ 0 →
        exec c.1 s = .next (s.raise { cause := .align })))
  ∧ (∀ (s : State) (o : BitVec 14) (r : BitVec 6),
    let tgt : Int := s.pos.1 + 12 * o.toInt
    s.gate (.bra 0 r o) = .go → s.pos.1 % 12 = 0 → tgt < 0 ∨ 2 ^ 56 ≤ tgt →
    exec (.bra 0 r o) s = .next (s.raise { cause := .bounds }))
  ∧ ∀ (s : State) (r : BitVec 6) (o : BitVec 14) (lit : Word),
    let e := s.execMask
    let m := s.before.triple r.toNat
    let rpc : Int := s.pos.1 + 12 * lit.toInt
    let tgt : Int := s.pos.1 + 12 * o.toInt
    s.gate (.bdiv r o lit) = .go → s.pos.1 % 12 = 0 → 0 ≤ rpc → rpc < 2 ^ 56 → 0 ≤ tgt → tgt < 2 ^ 56 →
    e &&& m ≠ 0 → e &&& ~~~m ≠ 0 → s.me.stack.length < 255 → s.me.stack.length - s.me.spilled < 15 →
    (∃ t, exec (.bdiv r o lit) s = .next t ∧ t.out = .done ∧ s.onlyMe t
      ∧ t.me = { s.me with stack := t.me.stack, sls := e &&& ~~~m, back := 0, s := t.me.s, bad := t.me.bad }
      ∧ t.me.exec = e &&& ~~~m ∧ (∀ n, 3 ≤ n → t.me.sreg n = s.me.sreg n)
      ∧ t.me.stack = ⟨tgt.toNat, rpc.toNat, e &&& m, false⟩
        :: ⟨rpc.toNat, (s.me.stack.head?.map (·.rpc)).getD (2 ^ 64 - 1), e, true⟩ :: s.me.stack)
  ∧ ∀ (s : State) (r : BitVec 6) (o : BitVec 14) (lit : Word) (deep : StackEnt),
    let e := s.execMask
    let m := s.before.triple r.toNat
    let rpc : Int := s.pos.1 + 12 * lit.toInt
    let tgt : Int := s.pos.1 + 12 * o.toInt
    let n := s.me.spilled
    let first : StackEnt := ⟨rpc.toNat, (s.me.stack.head?.map (·.rpc)).getD (2 ^ 64 - 1), e, true⟩
    let u := s.modMe fun w => { w with stack := first :: s.me.stack }
    let va := s.spillArea s.cur
    s.gate (.bdiv r o lit) = .go → s.pos.1 % 12 = 0 → 0 ≤ rpc → rpc < 2 ^ 56 → 0 ≤ tgt → tgt < 2 ^ 56 →
    e &&& m ≠ 0 → e &&& ~~~m ≠ 0 → s.isTrap = false → s.me.stack.length = n + 15 → s.me.stack[14]? = some deep →
    s.me.stack.length < 255 →
    (s.myBlock.psize < 80 → exec (.bdiv r o lit) s = .next (s.raise { cause := .stackovf }))
    ∧ (80 ≤ s.myBlock.psize →
      (∀ st, u.reach .w va (State.piecesFrom va 3 32) = .stop st → n = 0 → exec (.bdiv r o lit) s = .next (s.raise st))
      ∧ (∀ x, u.reach .w va (State.piecesFrom va 3 32) = .wait x → n = 0 →
        ∃ t, exec (.bdiv r o lit) s = .next t ∧ t.out = .waiting ∧ t.warps = s.warps)
      ∧ ∀ x y z bs d lend, u.reach .r va (State.piecesFrom va (n + 2) (32 * n)) = .ok x →
        x.reach .w va (State.piecesFrom va (n + 3) (32 * (n + 1))) = .ok y →
        y.readBytes y.agent va (32 * n) .r = (z, .bytes bs) →
        (z.writeBytes y.agent va (deep.bytes ++ bs)).1.warps = u.warps → (z.writeBytes y.agent va (deep.bytes ++ bs)).1.cur = s.cur →
        (z.writeBytes y.agent va (deep.bytes ++ bs)).2 = (.bytes d, lend) →
        ∃ t, exec (.bdiv r o lit) s = .next t ∧ t.out = .done ∧ t.mem = (z.writeBytes y.agent va (deep.bytes ++ bs)).1.mem
          ∧ t.me.spilled = n + 1 ∧ t.me.stack = ⟨tgt.toNat, rpc.toNat, e &&& m, false⟩ :: first :: s.me.stack
          ∧ t.me.exec = e &&& ~~~m)

/-- R304: JOIN at a SPLIT's reconvergence address resumes the SPLIT; at a RECONV's own address it takes up the
RECONV's lanes and goes on; elsewhere it does nothing. R18: a SPLIT's PC that is no packet raises ALIGN. R300: a pop
that leaves no entry held fills the topmost 16 spilled ones back, and the rest move down (log entry 28); a piece that
cannot be reached raises its cause or waits, with no effect. R305, R309: CALL, CALLI, RET and BRI go to their target
with BACK at 0; the calls leave the next packet's address in s60:s61; a target that is no packet raises ALIGN and one
past 2^56, or below 0 (log entry 29), BOUNDS. -/
def Obligations.Joins : Prop :=
  (∀ (s : State) (q : StackEnt) (l : List StackEnt), s.gate .join = .go →
    (s.me.stack = [] → exec .join s = .next { s with out := .done })
    ∧ (s.me.stack = q :: l → (if q.reconv then q.pc else q.rpc) ≠ s.pos.1 → exec .join s = .next { s with out := .done })
    ∧ (s.me.stack = q :: l → s.me.spilled = 0 → q.reconv = false → q.rpc = s.pos.1 → q.pc % 12 ≠ 0 →
      exec .join s = .next (s.raise { cause := .align }))
    ∧ (s.me.stack = q :: l → s.me.spilled = 0 → q.reconv = false → q.rpc = s.pos.1 → q.pc % 12 = 0 →
      ∃ t, exec .join s = .next t ∧ t.out = .moved ∧ s.onlyMe t ∧ t.me.stack = l ∧ t.me.sls = q.mask ∧ t.me.exec = q.mask
        ∧ t.me.back = 0 ∧ t.me.position = (q.pc, 0, false) ∧ t.me.v = s.me.v)
    ∧ (s.me.stack = q :: l → s.me.spilled = 0 → q.reconv = true → q.pc = s.pos.1 →
      (∀ x ∈ l.head?, (if x.reconv then x.pc else x.rpc) ≠ s.pos.1) →
      ∃ t, exec .join s = .next t ∧ t.out = .done ∧ s.onlyMe t ∧ t.me.stack = l ∧ t.me.sls = q.mask ∧ t.me.exec = q.mask
        ∧ t.me.back = 0 ∧ t.me.position = s.me.position ∧ t.me.v = s.me.v)
    ∧ let n := s.me.spilled
      let k := min 16 n
      let u := s.modMe fun w => { w with stack := l }
      let va := s.spillArea s.cur
      s.me.stack = q :: l → n = l.length → n ≠ 0 → q.reconv = false → q.rpc = s.pos.1 → q.pc % 12 = 0 →
      (∀ st, u.reach .r va (State.piecesFrom va (n + 2) (32 * n)) = .stop st → exec .join s = .next (s.raise st))
      ∧ (∀ x, u.reach .r va (State.piecesFrom va (n + 2) (32 * n)) = .wait x →
        ∃ t, exec .join s = .next t ∧ t.out = .waiting ∧ t.warps = s.warps)
      ∧ ∀ x y z bs d lend, u.reach .r va (State.piecesFrom va (n + 2) (32 * n)) = .ok x →
        x.reach .w va (State.piecesFrom va (n - k + 2) (32 * (n - k))) = .ok y →
        y.readBytes y.agent va (32 * n) .r = (z, .bytes bs) →
        (z.writeBytes y.agent va (bs.drop (32 * k))).1.warps = u.warps → (z.writeBytes y.agent va (bs.drop (32 * k))).1.cur = s.cur →
        (z.writeBytes y.agent va (bs.drop (32 * k))).2 = (.bytes d, lend) →
        ∃ t, exec .join s = .next t ∧ t.out = .moved ∧ t.mem = (z.writeBytes y.agent va (bs.drop (32 * k))).1.mem
          ∧ t.me.spilled = n - k ∧ t.me.stack = (List.range k).map (fun i => StackEnt.ofBytes (slice bs (32 * i) 32)) ++ l.drop k
          ∧ t.me.exec = q.mask ∧ t.me.position = (q.pc, 0, false))
  ∧ ∀ (s : State) (o : BitVec 22) (a : Src),
    ∀ c ∈ ([(.call o, true, (s.pos.1 : Int) + 12 * o.toInt), (.calli a, true, s.readPair a 0), (.ret, false, s.before.spair 60),
      (.bri a, false, s.readPair a 0)] : List (Instr × Bool × Int)),
    s.gate c.1 = .go →
    (c.2.2 % 12 = 0 → 0 ≤ c.2.2 → c.2.2 < 2 ^ 56 → ∃ t, exec c.1 s = .next t ∧ t.out = .moved ∧ s.onlyMe t
      ∧ t.me = { s.me with pc := c.2.2.toNat, slot := 0, exp := false, back := 0, s := t.me.s, bad := t.me.bad }
      ∧ (∀ r, (r = 60 ∨ r = 61 → c.2.1 = false) → t.me.sreg r = s.me.sreg r)
      ∧ (c.2.1 = true → t.me.spair 60 = (s.pos.1 + 12) % 2 ^ 64))
    ∧ (c.2.2 % 12 ≠ 0 → exec c.1 s = .next (s.raise { cause := .align }))
    ∧ (c.2.2 % 12 = 0 → c.2.2 < 0 ∨ 2 ^ 56 ≤ c.2.2 → exec c.1 s = .next (s.raise { cause := .bounds }))

/-- R310: EXIT takes its lanes out of every entry, the spilled ones where they stand (R300), and out of SLS; with none
left, or on an empty stack, it retires the warp, waiting until its loads are back, else the topmost entry that keeps a
lane resumes. A retiring warp waits for what its own chain issued, reports the arithmetic flags that set under the
enables from before that chain (R269), and ends, counting as arrived everywhere. R18: an entry's PC that is no packet raises
ALIGN. R305, R307: NOP does nothing; YIELD makes the warp the youngest, as log entry 7 counts ages, and lets a SPLIT on
top of its stack run. -/
def Obligations.ExitsAndYields : Prop :=
  (∀ (s : State) (core slot : Nat),
    let x := s.execMask
    (s.gate .exit = .go → s.isTrap = false → s.me.spilled = 0 → (∀ e ∈ s.me.stack, e.mask &&& ~~~x = 0) →
      (State.loadsBack s.before = false → exec .exit s = .next { s with out := .waiting })
      ∧ (State.loadsBack s.before = true → s.before.marks = [] → s.arithNow = none →
        exec .exit s = .next { s.modMe fun w => { w.goto s.pos with
            run := .exiting, exTen := s.before.ten, sls := if w.stack = [] then w.sls else w.sls &&& ~~~x, stack := [] } with
          agenda := s.agenda ++ [.warpRetire s.myCore s.mySlot], out := .moved }))
    ∧ (∀ es q l, s.gate .exit = .go → s.me.stack = es ++ q :: l → s.me.spilled = 0 → (∀ e ∈ es, e.mask &&& ~~~x = 0) →
      q.mask &&& ~~~x ≠ 0 →
      (q.pc % 12 ≠ 0 → exec .exit s = .next (s.raise { cause := .align }))
      ∧ (q.pc % 12 = 0 → ∃ t, exec .exit s = .next t ∧ t.out = .moved ∧ s.onlyMe t
        ∧ t.me.stack = l.map (fun e => { e with mask := e.mask &&& ~~~x }) ∧ t.me.sls = q.mask &&& ~~~x
        ∧ t.me.exec = q.mask &&& ~~~x ∧ t.me.back = 0 ∧ t.me.position = (q.pc, 0, false)))
    ∧ (∀ q l a b z bs d lend,
      let n := s.me.spilled
      let va := s.spillArea s.cur
      let ps := State.piecesFrom va (n + 2) (32 * n)
      let out := (State.entriesIn bs n).flatMap fun e => ({ e with mask := e.mask &&& ~~~x } : StackEnt).bytes
      s.gate .exit = .go → s.me.stack = q :: l → n ≠ 0 → n < l.length → q.mask &&& ~~~x ≠ 0 → q.pc % 12 = 0 →
      s.reach .r va ps = .ok a → a.reach .w va ps = .ok b → b.readBytes b.agent va (32 * n) .r = (z, .bytes bs) →
      (z.writeBytes b.agent va out).1.warps = s.warps → (z.writeBytes b.agent va out).1.cur = s.cur →
      (z.writeBytes b.agent va out).2 = (.bytes d, lend) →
      ∃ t, exec .exit s = .next t ∧ t.out = .moved ∧ t.mem = (z.writeBytes b.agent va out).1.mem ∧ t.me.spilled = n
        ∧ t.me.stack = l.map (fun e => { e with mask := e.mask &&& ~~~x }) ∧ t.me.exec = q.mask &&& ~~~x
        ∧ t.me.position = (q.pc, 0, false))
    ∧ let key := warpKey core slot
      let w := s.warp key
      (slot < 65 → w.run = .exiting →
        (State.loadsBack w = false ∨ (∃ r ∈ s.sfu, r.core = core ∧ r.slot = slot) →
          exec (.warpRetire core slot) s = .next { s with agenda := s.agenda ++ [.warpRetire core slot], out := .done })
        ∧ (State.loadsBack w = true → (∀ r ∈ s.sfu, r.core ≠ core ∨ r.slot ≠ slot) → w.marks = [] →
          (∀ st, State.arithStop { w with ten := w.exTen } = some st →
            exec (.warpRetire core slot) s = .next { s.deliver key st with out := .done })
          ∧ (State.arithStop { w with ten := w.exTen } = none → w.bid = 0 →
            ∃ t, exec (.warpRetire core slot) s = .next t ∧ t.out = .done ∧ s.sameBytes t ∧ (t.warp key).run = .exited
              ∧ (t.warp key).vopen = false ∧ (t.block w.blk).gone = w.widx :: (s.block w.blk).gone
              ∧ t.agenda = s.agenda ++ [.barrierArrival core slot, .blockRetire w.blk]))))
  ∧ ∀ (s : State),
    (s.gate .nop = .go → exec .nop s = .next { s with out := .done })
    ∧ (s.gate .yield = .go → (∀ q ∈ s.me.stack.head?, q.reconv = true) →
      exec .yield s = .next { s.modMe fun w => { w with age := s.turnOf s.cur } with out := .done })
    ∧ ∀ q l, s.gate .yield = .go → s.me.stack = q :: l → q.reconv = false →
      (q.pc % 12 ≠ 0 → exec .yield s = .next (s.raise { cause := .align }))
      ∧ (q.pc % 12 = 0 → ∃ t, exec .yield s = .next t ∧ t.out = .moved ∧ s.onlyMe t ∧ t.me.age = s.turnOf s.cur
        ∧ t.me.stack = { q with pc := s.pos.1 + 12, mask := s.me.sls } :: l ∧ t.me.sls = q.mask ∧ t.me.exec = q.mask
        ∧ t.me.back = 0 ∧ t.me.position = (q.pc, 0, false))

/-- R328 to R331: what a cause raised by an instruction does to a warp of a running block: CAUSE gains its bit, the
fault record is written, the warp stops where it will resume, its block halts and queues for the trap warp. R337: TRAP
and BRK stop the warp with TRAPI or BRK, to resume at the next packet; R312: the record names the lanes running. -/
def Obligations.ExceptionEntry : Prop :=
  (∀ (s : State) (st : Stop), s.isTrap = false → s.myBlock.state = .running → st.cause ≠ .halted → st.fpos = none →
    let t := s.raise st
    let r := if st.after then s.npos else s.pos
    t.out = .raised st ∧ s.sameBytes t ∧ t.me.cause = s.me.cause ||| BitVec.ofNat 32 (2 ^ st.cause.bit)
      ∧ t.me.run ≠ .running ∧ t.me.position = r ∧ t.me.s = s.me.s ∧ t.me.v = s.me.v ∧ t.me.q = s.me.q ∧ t.me.stack = s.me.stack
      ∧ t.me.frec.valid = true ∧ t.me.frec.prime = st.cause.bit ∧ t.me.frec.precise = st.precise
      ∧ (t.me.frec.fpc, t.me.frec.fslot, t.me.frec.fexp) = s.pos ∧ (t.me.frec.rpc, t.me.frec.rslot, t.me.frec.rexp) = r
      ∧ t.me.frec.addr = st.addr ∧ t.me.frec.lanes = st.lanes ∧ t.me.frec.data = st.data ∧ t.me.frec.level = st.level
      ∧ t.myBlock.state = .halted ∧ (t.core s.myBlock.core).haltq = (s.core s.myBlock.core).haltq ++ [s.myBlk]
      ∧ ∀ k, k ≠ s.cur → t.warps.get? k = s.warps.get? k)
  ∧ ∀ (s : State) (k : Src),
    ∀ e ∈ ([(.trap k, .trapi, s.readScalar k), (.brk, .brk, 4)] : List (Instr × Cause × Word)),
    s.gate e.1 = .go → s.isTrap = false → s.myBlock.state = .running →
    ∃ t, exec e.1 s = .next t ∧ t.out = .raised { cause := e.2.1, data := e.2.2, after := true, lanes := s.before.exec }
      ∧ s.sameBytes t
      ∧ t.me.cause = s.me.cause ||| BitVec.ofNat 32 (2 ^ e.2.1.bit) ∧ t.me.run ≠ .running
      ∧ t.me.frec.prime = e.2.1.bit ∧ t.me.frec.data = e.2.2 ∧ t.me.frec.lanes = s.before.exec
      ∧ (t.me.frec.fpc, t.me.frec.fslot, t.me.frec.fexp) = s.pos
      ∧ t.me.position = (s.pos.1 + 12, 0, false) ∧ t.myBlock.state = .halted

/-! Memory requests, under way. -/

/-- R55, R61: a request of a page in no TLB joins the walk of that page on its die, or starts one, or waits in the miss
queue while all 64 walks, or the page's 256 waiters, are taken. A walk's leaf fills the waiting core's TLB and goes to
its request, a failure fails its load with the level and the TIER it names (R59), one that waits for a table entry's
home is looked at again, and a held leaf gives up its slot and is walked again 1 µs later; the slot goes to a request
of class 0 before one that came earlier. -/
def Obligations.Walks : Prop :=
  ∀ (s : State) (id k walk : Nat) (f : Flight) (w : Walk),
    let va := 128 * (f.req k).vline
    let page := va / 65536
    (s.flights.get? id = some f → k < f.reqs.length → (f.req k).done = false → f.released = true → f.kind = .load →
      (f.req k).win = .global → (f.req k).leaf = none → s.tlbLookup f.core f.region va = none →
      (s.pageWalk f.die f.region f.root page = none → s.walksOf f.die < 64 →
        exec (.tlbMissWalk id k) s = .next { s with nextId := s.nextId + 1, agenda := s.agenda ++ [.walkComplete s.nextId], out := .done
                                                    walks := s.walks ++ [{ id := s.nextId, die := f.die, region := f.region
                                                                           root := f.root, part := f.part, ns := f.ns
                                                                           page := page, waiters := [(id, k)] }] })
      ∧ (∀ x, s.pageWalk f.die f.region f.root page = some x → x.waiters.length < 256 →
        exec (.tlbMissWalk id k) s = .next { s with out := .done, walks := s.walks.map fun y =>
          if y.id = x.id then { y with waiters := y.waiters ++ [(id, k)] } else y })
      ∧ ((s.pageWalk f.die f.region f.root page = none ∧ 64 ≤ s.walksOf f.die)
          ∨ (∃ x, s.pageWalk f.die f.region f.root page = some x ∧ 256 ≤ x.waiters.length) →
        exec (.tlbMissWalk id k) s = .next { s with out := .done, missq := if (id, k) ∈ s.missq then s.missq else s.missq ++ [(id, k)] }))
    ∧ (s.walks.find? (fun x => x.id == walk && !x.held && !x.queued) = some w → w.waiters = [(id, k)] → id ≠ 0 → ∀ s',
      (∀ l, s.walk w.root (65536 * w.page) w.part w.ns = (s', .leaf l) → s'.flights.get? id = some f → k < f.reqs.length →
        walk < s'.nextId → ∃ t g more, exec (.walkComplete walk) s = .next t ∧ t.out = .done ∧ (∀ x ∈ t.walks, x.id ≠ walk)
          ∧ t.agenda = s'.agenda ++ .tlbMissWalk id k :: more ∧ t.flights.get? id = some g ∧ (g.req k).leaf = some l
          ∧ (g.req k).pa = l.phys va ∧ t.tlbLookup f.core f.region va = some l)
      ∧ (∀ c n tier, s.walk w.root (65536 * w.page) w.part w.ns = (s', .fail c n tier) → s'.flights.get? id = some f →
        k < f.reqs.length → f.kind = .load → walk < s'.nextId →
        ∃ t g, exec (.walkComplete walk) s = .next t ∧ t.out = .done ∧ (∀ x ∈ t.walks, x.id ≠ walk)
          ∧ t.flights.get? id = some g ∧ (g.req k).fail = some (c, n) ∧ (g.req k).tier = tier ∧ (g.req k).done = true)
      ∧ (s.walk w.root (65536 * w.page) w.part w.ns = (s', .wait) →
        exec (.walkComplete walk) s = .next { s' with agenda := s'.agenda ++ [.walkComplete walk], out := .done })
      ∧ let rest := s'.walks.map fun x => if x.id = walk then { x with held := true, at' := s'.now x.die + 1000 } else x
        s.walk w.root (65536 * w.page) w.part w.ns = (s', .held) →
        (s'.missq = [] → exec (.walkComplete walk) s = .next { s' with walks := rest, out := .done })
        ∧ ∀ i a g j b h, s'.missq = [(i, a), (j, b)] → i ≠ 0 → j ≠ 0 → s'.flights.get? i = some g → s'.flights.get? j = some h →
          g.die = w.die → h.die = w.die → g.cls ≠ 0 → h.cls = 0 → ({ s' with walks := rest } : State).walksOf w.die = 63 →
          let pg := 128 * (g.req a).vline / 65536
          let ph := 128 * (h.req b).vline / 65536
          pg ≠ ph → s'.pageWalk g.die g.region g.root pg = none → s'.pageWalk h.die h.region h.root ph = none →
          s'.tlbLookup g.core g.region (128 * (g.req a).vline) = none → s'.tlbLookup h.core h.region (128 * (h.req b).vline) = none →
          exec (.walkComplete walk) s = .next { s' with out := .done, missq := [(i, a)], nextId := s'.nextId + 1
                                                        agenda := s'.agenda ++ [.walkComplete s'.nextId]
                                                        walks := rest ++ [{ id := s'.nextId, die := h.die, region := h.region
                                                                            root := h.root, part := h.part, ns := h.ns
                                                                            page := ph, waiters := [(j, b)] }] })
    ∧ (s.walks.find? (fun x => x.id == walk && x.held && x.at' ≤ s.now x.die) = some w → s.walksOf w.die < 64 →
      exec (.heldLeafRewalk walk) s = .next { s with agenda := s.agenda ++ [.walkComplete walk], out := .done
                                                     walks := s.walks.map fun x => if x.id = walk then { x with held := false } else x })

/-- R80, R82, R93, R94, R96, R153, R155, R156: a request at its home with no copy in its way is performed. A load of the home's
die is granted E for a line no one has and S otherwise, or reads the copy its core owns; one of another die is granted
a lease; R164: either takes the tag the line has. A store of the home's die is granted M; a write from elsewhere and an
atomic are performed on the home's copy, by its function; a folding atomic is granted C, at the identity or at the
partial it holds. -/
def Obligations.HomeRequests : Prop :=
  ∀ (s : State) (id k : Nat) (f : Flight) (l : Leaf) (line : Nat), s.atDoor id k f l line →
    let st := s.dirState line
    let insert (c : Nat) (cs : List Nat) : List Nat := if cs.contains c then cs else c :: cs
    (f.kind = .load → l.shared = false → l.pol = 0 → f.isSc = false → st = .u ∨ (∃ cs, st = .sh cs) ∨ st = .ex f.core →
      ∃ t g x, exec (.homeLoadMissCore id k) s = .next t ∧ t.out = .done ∧ t.warps = s.warps ∧ s.sameBytes t
        ∧ t.flights.get? id = some g ∧ g.accs = State.loaded f k (s.lineNow line) ∧ (g.req k).done = true ∧ (g.req k).fail = (f.req k).fail
        ∧ (g.req k).tag = s.lineTag line f.part
        ∧ t.l1Line f.core line = some x ∧ x.data = s.lineNow line ∧ (st ≠ .ex f.core → x.lease = 0)
        ∧ (st = .ex f.core → ∀ y, s.l1Line f.core line = some y → x = y)
        ∧ t.dirState line = (match st with
          | .u => if s.dirDies line = [] then .ex f.core else .sh [f.core]
          | .sh cs => .sh (insert f.core cs)
          | z => z))
    ∧ (f.kind = .load → l.shared = false → l.pol = 0 → f.isSc = false → f.die ≠ homeDie line → st = .u ∨ (∃ cs, st = .sh cs) →
      ∃ t g x, exec (.homeLoadMissRemote id k) s = .next t ∧ t.out = .done ∧ t.warps = s.warps ∧ s.sameBytes t
        ∧ t.flights.get? id = some g ∧ g.accs = State.loaded f k (s.homeData line) ∧ (g.req k).done = true
        ∧ (g.req k).tag = s.homeTag line f.part
        ∧ t.rdcLine f.die line = some x ∧ x.data = s.homeData line ∧ x.op = none ∧ x.lease = s.now (homeDie line) + State.leaseOf f.lease
        ∧ f.die ∈ t.dirDies line ∧ t.dirState line = st)
    ∧ (f.kind = .store → f.die = homeDie line → s.invalidateMsgs line (some f.core) = [] →
      ∃ t g x, exec (.homeOwnershipMiss id k) s = .next t ∧ t.out = .done ∧ t.warps = s.warps ∧ s.sameBytes t
        ∧ t.flights.get? id = some g ∧ (g.req k).done = true
        ∧ t.l1Line f.core line = some x ∧ x.st = .m ∧ x.data = (f.apply k (s.lineNow line)).1 ∧ t.dirState line = .ex f.core)
    ∧ (∀ ev, (ev = .homeRemoteWrite id k ∧ f.kind = .store)
        ∨ (ev = .homeAtomic id k ∧ (f.kind = .cas ∨ ∃ fn, f.kind = .atomic fn)) →
      f.isSc = false → s.invalidateMsgs line none = [] →
      ∃ t g, exec ev s = .next t ∧ t.out = .done ∧ t.warps = s.warps ∧ s.sameBytes t
        ∧ t.flights.get? id = some g ∧ (g.req k).done = true ∧ g.accs = (f.apply k (s.homeData line)).2.accs
        ∧ t.homeData line = (f.apply k (s.homeData line)).1
        ∧ ∀ x, s.sliceLine line = some x → t.tokenOf line f.part = ((s.slc x.die x.slice).mclk + 1) % 2 ^ 32)
    ∧ (∀ (a : Acc), ∀ n ∈ [4, 8], f.accs = [a] → a.req = k → a.bad = none → a.size = n → f.w64 = (n == 8) → a.val < 2 ^ (8 * n) →
      a.va % 128 + n ≤ 128 →
      let d := s.homeData line
      let i := a.va % 128
      let m := BitVec.ofNat (8 * n) (leNat (slice d i n))
      let x := BitVec.ofNat (8 * n) a.val
      (∀ e ∈ ([(0, m + x), (1, if x.toInt < m.toInt then x else m), (2, if m.toInt < x.toInt then x else m),
          (3, if x.toNat < m.toNat then x else m), (4, if m.toNat < x.toNat then x else m), (5, m &&& x), (6, m ||| x),
          (7, m ^^^ x), (8, x)] : List (Nat × BitVec (8 * n))), f.kind = .atomic e.1 →
        (f.apply k d).1 = patch d i (leBytes n e.2.toNat) ∧ (f.apply k d).2.accs = [{ a with val := m.toNat }])
      ∧ (let half (j : Nat) : Nat := (fAdd .bf16 .rne (unpack .bf16 (m.toNat / 2 ^ j % 2 ^ 16)) (unpack .bf16 (x.toNat / 2 ^ j % 2 ^ 16))).1
        n = 4 → ∀ e ∈ ([(9, (fAdd .fp32 .rne (unpack .fp32 m.toNat) (unpack .fp32 x.toNat)).1), (10, (fMinMax .fp32 false m.toNat x.toNat).1),
          (11, (fMinMax .fp32 true m.toNat x.toNat).1), (12, half 0 + 2 ^ 16 * half 16)] : List (Nat × Nat)), f.kind = .atomic e.1 →
        (f.apply k d).1 = patch d i (leBytes n e.2) ∧ (f.apply k d).2.accs = [{ a with val := m.toNat }])
      ∧ (f.kind = .cas → (f.apply k d).1 = (if m.toNat = a.cmp then patch d i (leBytes n x.toNat) else d)
        ∧ (f.apply k d).2.accs = [{ a with val := m.toNat }]))
    ∧ ∀ op cs ds, State.foldOf f l = some op → (s.dirState line = .u ∧ cs = [] ∧ ds = []) ∨ s.dirState line = .ca op cs ds →
      let die := homeDie line != f.die
      let d := (f.apply k ((s.partialOf op die (if die then f.die else f.core) line).getD op.identityLine)).1
      ∃ t g, exec (.homeCarryRequest id k) s = .next t ∧ t.out = .done ∧ t.warps = s.warps ∧ s.sameBytes t
        ∧ t.flights.get? id = some g ∧ (g.req k).done = true
        ∧ (homeDie line = f.die → t.dirState line = .ca op (insert f.core cs) ds
          ∧ ∃ x, t.l1Line f.core line = some x ∧ x.st = .c op ∧ x.data = d)
        ∧ (homeDie line ≠ f.die → t.dirState line = .ca op cs (insert f.die ds)
          ∧ ∃ x, t.rdcLine f.die line = some x ∧ x.op = some op ∧ x.data = d)

/-- R80, R168: a request that needs a line another core owns first recalls it: a forward to the owner sets out, the
line is busy, and the request is looked at again. R80, R82, R95, R99: what leaves a core or a die: a modified
line's data goes to the home, a partial is combined into it, the copy goes and the directory no longer lists the
holder; an owner that shares keeps its copy in O or S. R81: a write-back brings its data or its partial home and its
agent leaves the directory; R100: one of an incarnation its agent no longer has changes nothing, and is logged in
words of the model's own (log entry 54). -/
def Obligations.HomeRecalls : Prop :=
  (∀ (s : State) (id k : Nat) (f : Flight) (l : Leaf) (line o : Nat), s.atDoor id k f l line → s.dirState line = .ex o →
    o ≠ f.core → l.shared = false →
    ∀ e ∈ ([(.homeLoadMissCore id k, State.loadAtSlice f l false), (.homeLoadMissRemote id k, true), (.homeOwnershipMiss id k, true),
      (.homeRemoteWrite id k, true), (.homeAtomic id k, true), (.homeCarryRequest id k, true)] : List (Instr × Bool)),
    ∃ t, exec e.1 s = .next t ∧ t.out = .done ∧ t.warps = s.warps ∧ s.sameBytes t ∧ .forward o line e.2 ∈ t.agenda ∧ e.1 ∈ t.agenda
      ∧ line ∈ t.txns ∧ t.homeData line = s.homeData line)
  ∧ ∀ (s : State) (core die line : Nat) (x : L1Line) (y : RdcLine) (e : DirEnt),
    s.dirEnt line = some e → (s.sliceLine line).isSome = true → s.dirSpare line e.log → (∀ r ∈ s.resv, r.line ≠ line) →
    ((∀ w ∈ s.wbs, w.line ≠ line) →
      (s.l1Line core line = some x → s.scrubbing false core line = false →
        ∀ ev ∈ ([.forward core line true, .invalidation core line, .carryCollect false core line] : List Instr),
        ∃ t, exec ev s = .next t ∧ t.out = .done ∧ t.warps = s.warps ∧ s.sameBytes t ∧ t.l1Line core line = none
          ∧ t.dirState line = DirEnt.without core e.st
          ∧ t.homeData line = (match x.st with
            | .m | .o => x.data
            | .c op => op.mergeLine (s.homeData line) x.data
            | _ => s.homeData line))
      ∧ (s.l1Line core line = some x → s.scrubbing false core line = false →
        ∃ t z, exec (.forward core line false) s = .next t ∧ t.out = .done ∧ t.warps = s.warps ∧ s.sameBytes t
          ∧ t.l1Line core line = some z ∧ z.data = x.data ∧ z.st = (if x.st = .m ∨ x.st = .o then .o else .s)
          ∧ (e.st = .ex core → t.dirState line = if x.st = .m ∨ x.st = .o then .ow core [] else .sh [core]))
      ∧ (s.rdcLine die line = some y → s.mute die line = false →
        ∀ ev ∈ ([.leaseRevocation die line, .carryCollect true die line] : List Instr),
        ∃ t, exec ev s = .next t ∧ t.out = .done ∧ t.warps = s.warps ∧ s.sameBytes t ∧ t.rdcLine die line = none
          ∧ (∀ z ∈ t.l1, z.line = line → dieOf z.core ≠ die) ∧ die ∉ t.dirDies line ∧ t.dirState line = DirEnt.withoutDie die e.st
          ∧ t.homeData line = (match y.op with
            | some op => op.mergeLine (s.homeData line) y.data
            | none => s.homeData line)))
    ∧ ∀ w, s.wbs.filter (fun w' => w'.die == w.die && w'.agent == w.agent && w'.line == line) = [w] → w.line = line →
      ∃ t, exec (.homeWriteback (w.die, w.agent) line) s = .next t ∧ t.out = .done ∧ t.warps = s.warps ∧ s.sameBytes t ∧ w ∉ t.wbs
        ∧ (w.inc = s.incOf w.die w.agent line →
          t.dirState line = (if w.die then DirEnt.withoutDie w.agent e.st else DirEnt.without w.agent e.st)
          ∧ t.homeData line = match w.op with
            | some op => op.mergeLine (s.homeData line) w.data
            | none => w.data)
        ∧ (w.inc ≠ s.incOf w.die w.agent line → t.dir = s.dir ∧ t.homeData line = s.homeData line
          ∧ t.ras = s.ras ++ [⟨"STALEMSG", [if w.die then 2 else 0, w.agent, w.inc, line]⟩])

/-- R74, R83, R93, R100, R167: a redirected core takes its die's domain registers, so that the slices it reaches are
right (all four of them: log entry 60), and tries again; a drain is answered once the core's earlier stores and its leases are over; sibling entries
that agree merge after 64 µs; an entry's leases end; a stale message is logged and dropped, in words of the model's own
(log entry 54). R101, R102, R133: the scrub of a dead core takes its copies of the die's lines and poisons those only
it held; of a dead slice, its lines, the dirty ones poisoned and its directory with them (log entry 66), or nothing where FAIL
says that its directory could not be read; another scrub leaves FAIL as it was; of a dead die, its leases and partials. -/
def Obligations.DirectoryAndScrub : Prop :=
  (∀ (s : State) (id k core base log kind agent inc line : Nat) (f : Flight) (a b : DirEnt),
    (s.flights.get? id = some f → ∃ t, exec (.redirect id k) s = .next t
      ∧ t = { s with cores := t.cores, agenda := s.agenda ++ [.tlbMissWalk id k], out := .done }
      ∧ (∀ n < 4, t.coreDomain f.core n = s.domain f.die n) ∧ t.redirected f.core line = false)
    ∧ (s.flights.get? id = some f →
      (∀ e ∈ s.flights, e.2.core = core → e.2.paths &&& 4 ≠ 0 → e.1 < f.result → e.1 = id) →
      (s.core core).leasemax < s.nowCore core →
      ∃ t g, exec (.drainRequest core id) s = .next t ∧ t = { s with flights := t.flights, out := .done }
        ∧ t.flights.get? id = some g ∧ g = { f with drains := f.drains - 1 })
    ∧ (s.dir.find? (fun e => e.base == base && e.log == log) = some a →
      s.dir.find? (fun e => e.base == base + 2 ^ log && e.log == log) = some b →
      base % 2 ^ (log + 1) = 0 → log < 9 → a.touched + 64000 ≤ s.now (homeDie base) → b.touched + 64000 ≤ s.now (homeDie base) →
      a.part = b.part → a.st = b.st →
      ∃ t e, exec (.directoryMerge base log) s = .next t ∧ t = { s with dir := t.dir, out := .done }
        ∧ t.dir.head? = some e ∧ e.base = base ∧ e.log = log + 1 ∧ e.part = a.part ∧ e.lend = max a.lend b.lend
        ∧ (∀ d, d ∈ e.dies ↔ d ∈ a.dies ∨ d ∈ b.dies) ∧ ∀ z ∈ t.dir.tail, z ≠ a ∧ z ≠ b)
    ∧ (∃ t, exec (.leaseEndClear base log) s = .next t ∧ t = { s with dir := t.dir, out := .done }
      ∧ ∀ e ∈ t.dir, e.base = base → e.log = log → e.lend + 2 < s.now (homeDie base) → e.dies = [])
    ∧ let now := if kind = 0 then (s.core agent).inc else if kind = 1 then (s.slc (homeDie line) agent).inc
        else (s.die (homeDie line)).incs.get agent 0
      (inc = now → exec (.staleMessageDiscard kind agent inc line) s = .next { s with out := .done })
      ∧ (inc ≠ now → ∃ t, exec (.staleMessageDiscard kind agent inc line) s = .next t
        ∧ t = { s with ras := s.ras ++ [⟨"STALEMSG", [kind, agent, inc, line]⟩], wbs := t.wbs, out := .done }
        ∧ ∀ w ∈ t.wbs, w ∈ s.wbs ∧ ¬ (w.agent = agent ∧ w.inc = inc ∧ w.line = line ∧ kind = if w.die then 2 else 0)))
  ∧ ∀ (s : State) (die : Nat), (s.die die).deadBusy = true →
    let n := (s.die die).scrubAgent
    let kind := (s.die die).scrubKind
    ∃ t, exec (.scrubComplete die) s = .next t ∧ t.out = .done ∧ t.warps = s.warps ∧ (t.die die).deadBusy = false
      ∧ (kind ≠ 1 → (t.die die).deadFail = (s.die die).deadFail)
      ∧ (kind = 0 → (∀ x ∈ t.l1, x.core = 32 * die + n → isMemory x.line = true → homeDie x.line ≠ die)
        ∧ ∀ x ∈ s.l1, x.core = 32 * die + n → isMemory x.line = true → homeDie x.line = die → x.st = .m →
          (∀ r ∈ s.brecs, r.core ≠ 32 * die + n) → x.line ∈ t.poison)
      ∧ (kind = 1 → s.sameBytes t ∧ ((t.die die).deadFail = true → t.slices = s.slices ∧ t.dir = s.dir ∧ t.l1 = s.l1 ∧ t.poison = s.poison)
        ∧ ((t.die die).deadFail = false → (∀ x ∈ t.slices, x.die = die → x.slice ≠ n)
          ∧ ∀ x ∈ s.slices, x.die = die → x.slice = n → x.dirty = true → x.line ∈ t.poison))
      ∧ (2 ≤ kind → (∀ x ∈ t.rdc, x.die = n → isMemory x.line = true → homeDie x.line ≠ die)
        ∧ ∀ x ∈ s.rdc, x.die = n → isMemory x.line = true → homeDie x.line = die → x.op ≠ none → (∀ v ∈ s.vers, v.line ≠ x.line) →
          x.line ∈ t.poison)

/-- R141 to R144, R149, R346: when all of an instruction's requests are performed its data reaches its registers and
its counters count it no longer; a failed load leaves a fault mark, and a failed store raises STOREFLT in its warp.
R141: a load counted on both G and S leaves each once its requests of that kind of memory are performed, with the data
of their lanes. R346: a load that was in flight at its block's eviction lands in the block's saved image. -/
def Obligations.ReturnsAndLanding : Prop :=
  (∀ (s : State) (id : Nat) (f : Flight), s.flights.get? id = some f → f.landing = false → f.landed = 0 → 0 < f.paths → f.paths < 16 →
    (f.paths &&& 3 = 3 → f.paths = 3) →
    let w := s.warp f.key
    (f.reqs.all (·.done) = true →
      (∃ t, exec (.loadDataReturn id) s = .next t ∧ t.out = .done ∧ s.sameBytes t ∧ t.flights.get? id = none
        ∧ (∀ key, key ≠ f.key → t.warps.get? key = s.warps.get? key)
        ∧ (f.paths.testBit 0 = true → (t.warp f.key).cntG = State.gone w.cntG id)
        ∧ (f.paths.testBit 1 = true → (t.warp f.key).cntS = State.gone w.cntS id)
        ∧ (f.paths.testBit 3 = true → (t.warp f.key).cntV = State.gone w.cntV id)
        ∧ (f.returned = false → f.scalar = false → ∀ j < f.ndst, ∀ n < 96, lane ((t.warp f.key).vreg (f.dst + j)) n
            = if f.goodLanes.getLsbD n then BitVec.ofNat 32 (f.laneValue n / 2 ^ (32 * j)) else lane (w.vreg (f.dst + j)) n)
        ∧ (f.returned = false → f.scalar = true → f.dst2 = none → f.goodLanes.getLsbD 0 = true → ∀ j < f.ndst, f.dst + j < 64 →
            (t.warp f.key).sreg (f.dst + j) = Warp.slsAnd f.sls (f.dst + j) (BitVec.ofNat 32 (f.laneValue 0 / 2 ^ (32 * j))))
        ∧ (f.failure = none → (t.warp f.key).marks = w.marks)
        ∧ ∀ st, f.failure = some st → ∃ m ∈ (t.warp f.key).marks, m.fl = id ∧ m.stop = st ∧ m.reg = f.dst ∧ m.n = f.ndst)
      ∧ (f.failure = none → ∃ t, exec (.storeAck id) s = .next t ∧ t.out = .done ∧ s.sameBytes t ∧ t.flights.get? id = none
        ∧ (∀ key, key ≠ f.key → t.warps.get? key = s.warps.get? key)
        ∧ (f.paths.testBit 2 = true → (t.warp f.key).cntW = State.gone w.cntW id)
        ∧ (t.warp f.key).s = w.s ∧ (t.warp f.key).v = w.v ∧ (t.warp f.key).cause = w.cause
        ∧ f.lendMax ≤ (t.core f.core).leasemax)
      ∧ ∀ st, f.failure = some st → f.slot < 64 → w.run = .running → (s.block w.blk).state = .running → (s.block w.blk).killed = false →
        ∃ t, exec (.storeAck id) s = .next t ∧ t.out = .done ∧ s.sameBytes t ∧ t.flights.get? id = none
          ∧ (t.warp f.key).cause = w.cause ||| BitVec.ofNat 32 (2 ^ Cause.storeflt.bit) ∧ (t.warp f.key).run = .stopped
          ∧ (t.block w.blk).state = .halted)
    ∧ ∀ p ∈ [1, 2], f.paths = 3 → f.scalar = false → f.returned = false → (∀ r ∈ f.reqs, f.pathOf r = p → r.done = true) →
      (∃ r ∈ f.reqs, r.done = false) →
      let g := f.onPaths p
      ∃ t, exec (.loadDataReturn id) s = .next t ∧ t.out = .done ∧ s.sameBytes t ∧ t.flights.get? id = some { f with landed := p }
        ∧ (∀ key, key ≠ f.key → t.warps.get? key = s.warps.get? key)
        ∧ (t.warp f.key).cntG = (if p = 1 then State.gone w.cntG id else w.cntG)
        ∧ (t.warp f.key).cntS = (if p = 2 then State.gone w.cntS id else w.cntS)
        ∧ ∀ j < f.ndst, ∀ n < 96, lane ((t.warp f.key).vreg (f.dst + j)) n
          = if g.goodLanes.getLsbD n then BitVec.ofNat 32 (g.laneValue n / 2 ^ (32 * j)) else lane (w.vreg (f.dst + j)) n)
  ∧ ∀ (s : State) (id widx : Nat) (f : Flight) (w : Warp), s.flights.get? id = some f → f.reqs.all (·.done) = true → f.landing = true →
    (s.block f.blk).images = [(widx, w)] → (s.block f.blk).slots[widx]? = some f.slot →
    ∃ t, exec (.landingSlotFill id) s = .next t ∧ t.out = .done ∧ t.warps = s.warps ∧ t.flights.get? id = none
      ∧ (t.block f.blk).images = [(widx, f.landTag (f.land id f.paths true w))]

/-- R98, R165: a release's own write sets out once the writes before it are acknowledged and, at DEV or SYS, the core's
LEASEMAX, as it stood when the last of them was, has passed. R64: TLBI, a release at DEV, then drops the entries it
selects and is acknowledged once no walk or access uses them. R146: a WAITC that has waited 2 µs on a load of a remote
line, or of a held leaf, may be pre-empted. -/
def Obligations.ReleasesAndTimers : Prop :=
  ∀ (s : State) (id core slot : Nat) (f : Flight), s.flights.get? id = some f →
    let acked : Prop := ∀ i ∈ f.before, s.flights.get? i = none
    let lmax := (s.core f.core).leasemax
    let ready : Prop := acked ∧ (f.scp < 4 ∨ f.leaseAt.getD lmax < s.nowCore f.core)
    let at' := if (∀ i ∈ f.before, s.flights.get? i = none) then some (f.leaseAt.getD lmax) else f.leaseAt
    (f.released = false → ready → ∃ t, exec (.releaseProceed id) s = .next t
      ∧ t = { s with flights := t.flights, out := .done
                     agenda := s.agenda ++ (List.range f.reqs.length).map fun k => .tlbMissWalk id k }
      ∧ t.flights.get? id = some { f with leaseAt := at', released := true, lclk := (s.core f.core).lclk }
      ∧ ∀ i, i ≠ id → t.flights.get? i = s.flights.get? i)
    ∧ (f.released = false → ¬ ready → ∃ t, exec (.releaseProceed id) s = .next t
      ∧ t = { s with flights := t.flights, agenda := s.agenda ++ [.releaseProceed id], out := .done }
      ∧ t.flights.get? id = some { f with leaseAt := at' } ∧ ∀ i, i ≠ id → t.flights.get? i = s.flights.get? i)
    ∧ (∀ kind sz, f.kind = .tlbi kind sz →
      (f.released = false → ready → ∃ t g, exec (.tlbiAck id) s = .next t ∧ t.out = .done ∧ t.warps = s.warps
        ∧ s.sameBytes t ∧ t.flights.get? id = some g ∧ g.released = true ∧ t.agenda = s.agenda ++ [.tlbiAck id]
        ∧ (∀ x, x ∈ t.tlb ↔ x ∈ s.tlb ∧ State.tlbiSelects kind sz f.x f.y x.region x.va x.leaf = false)
        ∧ (kind = 0 → t.tlb = []) ∧ ∀ x ∈ s.tlb, kind = 1 → x.region ≠ f.x → x ∈ t.tlb)
      ∧ (f.released = true → f.leaseAt ≠ none → (∃ u ∈ f.users, s.stillUses u = true) →
        exec (.tlbiAck id) s = .next { s with agenda := s.agenda ++ [.tlbiAck id], flights := s.flights.put id f, out := .done })
      ∧ (f.released = true → f.leaseAt ≠ none → (∀ u ∈ f.users, s.stillUses u = false) →
        (∀ i ∈ f.lines, ∀ w ∈ s.walks, w.id = i → w.held = true) → ∃ t, exec (.tlbiAck id) s = .next t ∧ t = { s with flights := t.flights, agenda := s.agenda ++ [.storeAck id], out := .done }
          ∧ t.flights.get? id = some f))
    ∧ let key := warpKey core slot
      let w := s.warp key
      ∀ (paths n k i : Nat) (r : Req) (l : Leaf) (d : Nat), w.wake = .waitc paths n → w.wakeAt + 2000 < s.nowCore core →
        f.key = key → i ∈ [0, 1, 3] → paths.testBit i = true → f.paths.testBit i = true → f.landed.testBit i = false →
        n + f.order[i]?.getD 0 < w.counted[i]?.getD 0 → f.reqs[k]? = some r → r.done = false →
        (r.leaf = some l ∧ placeOf r.pa = .memory d ∧ d ≠ dieOf core)
          ∨ (∃ x ∈ s.walks, x.held = true ∧ ∃ y ∈ x.waiters, y.1 = id) →
        exec (.waitcBlockingTimer core slot) s = .next { s.modWarp key fun w => { w with wakeOk := true } with out := .done }

/-- R105, R106, R108: LDLV at its line's home returns the line's data and its token together; CMST of one line writes
its data there if the token it names is the line's, and gives status 0, and otherwise writes nothing and gives status
1 with the line's bit. -/
def Obligations.VersionedAtHome : Prop :=
  ∀ (s : State) (id : Nat) (f : Flight) (l : Leaf) (line : Nat), s.atDoor id 0 f l line → l.shared = false → l.pol = 0 →
    (f.kind = .ldlv → l.permits .r f.ns = true → s.dirState line = .u →
      ∃ t g, exec (.ldlvAtHome id) s = .next t ∧ t.out = .done ∧ t.warps = s.warps ∧ s.sameBytes t ∧ t.flights.get? id = some g
        ∧ (g.req 0).done = true ∧ g.accs = State.loaded f 0 (s.homeData line) ∧ g.result = s.tokenOf line f.part
        ∧ t.dirState line = .u)
    ∧ (∀ tok d, f.kind = .cmst → f.reqs.length = 1 → f.toks = [tok] → f.datas = [d] →
      (f.req 0).ready = true → (f.req 0).fail = none → l.permits .rw f.ns = true → s.dirState line = .u →
      ∃ t g, exec (.cmstAtHome id) s = .next t ∧ t.out = .done ∧ t.warps = s.warps ∧ s.sameBytes t ∧ t.flights.get? id = some g
        ∧ (g.req 0).done = true ∧ .loadDataReturn id ∈ t.agenda
        ∧ g.accs = f.accs.map (fun a => { a with val := if tok = s.tokenOf line f.part then 0 else 17 })
        ∧ t.homeData line = if tok = s.tokenOf line f.part then d else s.homeData line)

/-! Store bundles and views. -/

/-- R114, R120, R123, R124, R126, R130, R131: BOPEN gives the warp a bundle with an OPEN record (both at issue: log
entry 25); VSTB adds a line and stages its bytes; BCLOSE takes the bundle from the warp and asks for its commit, one
that releases beyond WRP after the warp's earlier accesses; VOPEN, VLDV and VCLOSE open, read
through and close a view. R118, R119, R126: a staging at its line's home forms a staged version of the bundle's, the line with
its bytes laid over it, or is refused with CONFLICT where another bundle has one; the answer is kept in the bundle's record, the first failure first (log entry 25). -/
def Obligations.BundleWordsAndStaging : Prop :=
  (∀ (s : State) (d a x : Src) (w sc : BitVec 3) (o : BitVec 2), s.roomy →
    let w0 := s.me
    (s.gate (.bopen d) = .go → w0.bid = 0 → (s.die (dieOf s.myCore)).bbase.isSome = true → (s.die (dieOf s.myCore)).vbase.isSome = true →
      (∃ i < 16384, s.brec (dieOf s.myCore) i = none) →
      ∃ t r id f, exec (.bopen d) s = .next t ∧ t.out = .done ∧ s.sameRegs t ∧ t.me.bid ≠ 0 ∧ t.me.btab = []
        ∧ t.brecs = s.brecs ++ [r] ∧ r.die = dieOf s.myCore ∧ r.idx < 16384 ∧ r.st = 1 ∧ r.bid = t.me.bid ∧ r.lines = []
        ∧ t.me.brecDie = r.die ∧ t.me.brecIdx = r.idx ∧ t.me.cntG = w0.cntG ++ [(id, false)]
        ∧ t.flights.get? id = some f ∧ f.kind = .bopen ∧ f.dst = Src.num d ∧ f.ndst = 2 ∧ f.scalar = true)
    ∧ (s.gate (.vstb w d a) = .go → s.execMask ≠ 0 → w0.bid ≠ 0 → w0.btab.length < 30 → ∀ n,
      (∀ l < 96, s.execMask.getLsbD l = true → s.readPair a l / 128 = n ∧ s.readPair a l % wSize w.toNat = 0 ∧ s.readPair a l < 2 ^ 56
        ∧ s.lockedVa (s.readPair a l) (wSize w.toNat) true = false) →
      ∃ t f, exec (.vstb w d a) s = .next t ∧ t.out = .done ∧ s.sameRegs t ∧ s.sameBytes t ∧ s.countedOn t 4
        ∧ t.me.btab = (if n ∈ w0.btab then w0.btab else w0.btab ++ [n]) ∧ t.flights.get? s.nextId = some f ∧ f.kind = .vstb
        ∧ f.x = w0.brecDie ∧ f.y = w0.brecIdx ∧ f.reqs.map (·.vline) = [n])
    ∧ (s.gate (.bclose o sc x) = .go → w0.bid ≠ 0 →
      let rel : Bool := o == 2 && sc != 0
      ∃ t f, exec (.bclose o sc x) s = .next t ∧ t.out = .done ∧ s.sameRegs t ∧ s.sameBytes t ∧ s.countedOn t 4 ∧ t.me.bid = 0
        ∧ t.me.btab = [] ∧ t.agenda = s.agenda ++ (if rel then [.releaseProceed s.nextId] else []) ++ [.commitRequest w0.brecDie w0.brecIdx]
        ∧ f.released = !rel ∧ (∀ i, i ∈ f.before ↔ rel = true ∧ ∃ e ∈ s.myFlights, e.1 = i ∧ e.2.kind ≠ .bopen) ∧ t.flights.get? s.nextId = some f
        ∧ f.kind = .bclose ∧ f.dst = Src.num x ∧ ∀ r ∈ t.brecs, r.die = w0.brecDie → r.idx = w0.brecIdx → r.closer = some s.nextId)
    ∧ (s.gate .vopen = .go → exec .vopen s = .next { s.modMe fun w =>
        { w with vopen := true, vstatus := 0, vt0 := s.nowCore s.myCore, seen := [] } with out := .done })
    ∧ (s.gate (.vclose x) = .go → w0.vopen = true → s.myFlights = [] → ∃ t, exec (.vclose x) s = .next t ∧ t.out = .done ∧ s.onlyMe t
      ∧ t.me = { w0 with s := t.me.s, bad := t.me.bad, vopen := false, seen := [] }
      ∧ (Src.num x < 64 → t.me.sreg (Src.num x) = Warp.slsAnd s.before.sls (Src.num x) (BitVec.ofNat 32 w0.vstatus)))
    ∧ (s.gate (.vldv o sc w d a) = .go → s.execMask ≠ 0 → w0.vopen = true → (o = 0 ∨ o = 1) →
      (∀ l < 96, s.execMask.getLsbD l = true → s.readPair a l % wSize w.toNat = 0 ∧ s.readPair a l < 2 ^ 56
        ∧ s.lockedVa (s.readPair a l) (wSize w.toNat) false = false) →
      ∃ t f, exec (.vldv o sc w d a) s = .next t ∧ t.out = .done ∧ s.sameRegs t ∧ s.sameBytes t ∧ s.countedOn t 8
        ∧ t.flights.get? s.nextId = some f ∧ f.kind = .vldv ∧ f.x = w0.vt0 ∧ f.dst = Src.num d ∧ f.ndst = wRegs w.toNat)
    ∧ (∀ i ∈ ([.vstb w d a, .bclose o sc x] : List Instr), s.gate i = .go → s.execMask ≠ 0 → w0.bid = 0 →
      exec i s = .next (s.raise { cause := .bundle }))
    ∧ ∀ i ∈ ([.vclose x, .vldv o sc w d a] : List Instr), s.gate i = .go → s.execMask ≠ 0 → w0.vopen = false →
      exec i s = .next (s.raise { cause := .bundle }))
  ∧ ∀ (s : State) (id k : Nat) (f : Flight) (l : Leaf) (line : Nat),
    let b := s.sideOf f.x f.y
    (s.atDoor id k f l line → f.kind = .vstb → s.dirState line = .u → s.staged line = none → s.vers.length < 262144 →
      ∃ t g v, exec (.bundleStaging id k) s = .next t ∧ t.out = .done ∧ t.warps = s.warps ∧ s.sameBytes t
        ∧ t.vers = s.vers ++ [v] ∧ v.line = line ∧ v.staged = true ∧ v.side = b ∧ v.bid = f.bid ∧ v.mask = (State.stageBytes f k).1
        ∧ (∀ i < 128, v.data[i]? = some (if v.mask.testBit i then (State.stageBytes f k).2[i]?.getD 0 else (s.homeData line)[i]?.getD 0))
        ∧ t.agenda = s.agenda ++ [.stagingAnswer id k] ∧ t.flights.get? id = some g ∧ (g.req k).answer = 0
        ∧ (g.req k).bst = s.stampOf (s.side' line) ∧ t.homeData line = s.homeData line)
    ∧ (∀ v, s.atDoor id k f l line → f.kind = .vstb → s.staged line = some v → v.side ≠ b ∨ v.bid ≠ f.bid → v.notice = none →
      ∃ t g, exec (.bundleStaging id k) s = .next t ∧ t.out = .done ∧ t.warps = s.warps ∧ s.sameBytes t ∧ t.vers = s.vers
        ∧ t.agenda = s.agenda ++ [.stagingAnswer id k] ∧ t.flights.get? id = some g ∧ (g.req k).answer = 1)
    ∧ ∀ r, s.flights.get? id = some f → k < f.reqs.length → (f.req k).done = false → f.landing = false →
      s.brec f.x f.y = some r → r.bid = f.bid → ∃ t g q, exec (.stagingAnswer id k) s = .next t ∧ t.out = .done ∧ t.warps = s.warps ∧ s.sameBytes t
        ∧ t.flights.get? id = some g ∧ (g.req k).done = true ∧ t.brec f.x f.y = some q
        ∧ q.fail = (if r.fail = 0 then (f.req k).answer else r.fail) ∧ q.gotStamp = max r.gotStamp (f.req k).bst
        ∧ (f.req k).pa / 128 ∈ q.got

/-- R116, R120, R124: an OPEN bundle whose stagings are all answered becomes COMMITTING and then COMMITTED with a
stamp past every one it follows, or ABORTED if one failed; its lines are told; the closer's status register takes the
outcome. R119, R120, R121, R124: a promotion at the home makes the staged version the line and the line the previous
version; a discard drops it; forgetting clears the metadata; the home of a line of a peer is told by a BNOTE that names
the bundle (its bytes, and that the acknowledgment may come at any time: log entries 21 and 54); the acknowledgments
count the record down, and what it was waiting for follows: the closing die's copies of the bundle's lines go, and
LEASEMAX rises. -/
def Obligations.BundleCommit : Prop :=
  (∀ (s : State) (die idx id : Nat) (r : BRec) (f : Flight),
    (s.brec die idx = some r → s.stagingLeft die idx = false → r.closer = some id → s.flights.get? id = some f → f.released = true →
      (r.st = 1 → r.fail = 0 → ∃ t, exec (.commitRequest die idx) s = .next t ∧ t.out = .done ∧ t.warps = s.warps
        ∧ t.brec die idx = some { r with st := 2, lines := r.got } ∧ .commitRequest die idx ∈ t.agenda)
      ∧ (r.st = 2 → r.fail = 0 → r.got ≠ [] → ∃ t g q, exec (.commitRequest die idx) s = .next t ∧ t.out = .done ∧ t.warps = s.warps
        ∧ t.brec die idx = some q ∧ q.st = 3 ∧ q.stamp = max (s.now die) (r.gotStamp + 1) ∧ q.outstanding = r.lines.length
        ∧ (∀ l ∈ r.got, .promotionNotice die idx l ∈ t.agenda) ∧ .commitAnswer id ∈ t.agenda
        ∧ t.flights.get? id = some g ∧ g.result = 0)
      ∧ (r.st < 3 → r.fail ≠ 0 → r.got ≠ [] → ∃ t g q, exec (.commitRequest die idx) s = .next t ∧ t.out = .done ∧ t.warps = s.warps
        ∧ t.brec die idx = some q ∧ q.st = 4 ∧ q.lines = r.got ∧ q.outstanding = r.got.length
        ∧ (∀ l ∈ r.got, .discardNotice die idx l ∈ t.agenda) ∧ .commitAnswer id ∈ t.agenda
        ∧ t.flights.get? id = some g ∧ g.result = r.fail))
    ∧ (s.flights.get? id = some f → f.landing = false → f.scalar = true → f.dst < 64 → f.width = 4 → f.reqs = [] →
      f.accs = [{ lane := 0, off := 0, size := 4, va := 0 }] → f.result < 2 ^ 32 →
      ∃ t g, exec (.commitAnswer id) s = .next t ∧ t.out = .done ∧ s.sameBytes t ∧ t.flights.get? id = some g ∧ g.returned = true
        ∧ (∀ key, key ≠ f.key → t.warps.get? key = s.warps.get? key)
        ∧ (t.warp f.key).sreg f.dst = Warp.slsAnd f.sls f.dst (BitVec.ofNat 32 f.result)
        ∧ ∀ n, n ≠ f.dst → (t.warp f.key).sreg n = (s.warp f.key).sreg n))
  ∧ ∀ (s : State) (die idx line id lend : Nat) (v : VerEnt) (r : BRec) (f : Flight),
    (∀ ev ∈ ([.promotionNotice die idx line, .promotionDelayExpiry die idx line] : List Instr),
      s.brec die idx = some r → s.staged line = some v → v.side = s.sideOf die idx → v.bid = r.bid → isMemory line = true →
      (s.die (homeDie line)).dead = false → (s.die (homeDie line)).bdiagEn = false → s.lineBusy line (s.partOf line) = false →
      s.dirState line = .u → (∀ x ∈ s.resv, x.line ≠ line) → (s.sliceLine line).isSome = true →
      ∃ t p, exec ev s = .next t ∧ t.out = .done ∧ t.warps = s.warps ∧ s.sameBytes t ∧ t.homeData line = v.data
        ∧ t.side' line = v.side ∧ t.staged line = none ∧ t.previous line = some p ∧ p.data = s.homeData line ∧ p.side = s.side' line
        ∧ ∃ n, .noticeAck die idx n ∈ t.agenda)
    ∧ (∀ e ∈ ([(.promotionNotice die idx line, 0), (.discardNotice die idx line, 1), (.forgetNotice die idx line, 2)] : List (Instr × Nat)),
      isMemory line = false → ∃ ms, exec e.1 s = .next { s with outbox := s.outbox ++ ms
                                                                agenda := s.agenda ++ [.noticeAck die idx 0], out := .done }
        ∧ match s.fabricAt die (128 * line) with
          | some (ctl, a) => ∃ m, ms = [m] ∧ m.kind = .bnote ∧ m.key = bits ctl 38 6 ∧ m.target = bits ctl 48 12 ∧ m.addr = a
            ∧ m.device = (s.die die).devId ∧ m.bytes = leBytes 1 e.2 ++ leBytes 4 (s.sideOf die idx).toNat
          | none => ms = [])
    ∧ (isMemory line = true → ∃ t, exec (.discardNotice die idx line) s = .next t ∧ t = { s with vers := t.vers, agenda := s.agenda ++ [.noticeAck die idx 0], out := .done }
      ∧ ∀ x, x ∈ t.vers ↔ x ∈ s.vers ∧ ¬ (x.line = line ∧ x.staged = true ∧ x.side = s.sideOf die idx
        ∧ ∃ q ∈ (s.brec die idx).toList, q.bid = x.bid))
    ∧ (isMemory line = true → ∃ t, exec (.forgetNotice die idx line) s = .next t
      ∧ t = { s with vers := t.vers, side := t.side, agenda := s.agenda ++ [.noticeAck die idx 0], out := .done }
      ∧ t.side' line = (if s.side' line = s.sideOf die idx then s.side' line &&& ~~~1 else s.side' line)
      ∧ ∀ n, n ≠ line → t.side' n = s.side' n)
    ∧ (s.brec die idx = some r → ∃ t, exec (.noticeAck die idx lend) s = .next t ∧ t.out = .done ∧ t.warps = s.warps
      ∧ (r.outstanding - 1 ≠ 0 → t.agenda = s.agenda
        ∧ t.brec die idx = some { r with outstanding := r.outstanding - 1, ackt := s.now die, lend := max r.lend lend })
      ∧ (r.outstanding - 1 = 0 → (∀ n, r.closer = some n → .bcloseComplete n ∈ t.agenda)
        ∧ (r.st = 4 ∨ r.forgetting = true → t.brec die idx = none)
        ∧ (r.st = 3 → r.forgetting = false → ∃ q, t.brec die idx = some q ∧ q.outstanding = 0 ∧ q.st = 3)))
    ∧ (s.flights.get? id = some f → ∃ t, exec (.bcloseComplete id) s = .next t ∧ t.out = .done ∧ t.warps = s.warps ∧ s.sameBytes t
      ∧ t.agenda = s.agenda ++ [.storeAck id] ∧ (t.core f.core).leasemax = max (s.core f.core).leasemax f.y
      ∧ ∀ x ∈ t.l1, x.line ∈ f.lines → isMemory x.line = true → homeDie x.line ≠ f.die → dieOf x.core ≠ f.die)
    ∧ (s.brec die idx = some r → r.st = 3 → r.outstanding = 0 → r.forgetting = false → r.ackt + 1000 * (s.die die).hor < s.now die →
      ∃ t, exec (.forgetHorizonExpiry die idx) s = .next t
        ∧ t = { s with brecs := t.brecs, agenda := s.agenda ++ r.lines.map (.forgetNotice die idx ·), out := .done }
        ∧ t.brec die idx = some { r with forgetting := true, outstanding := r.lines.length })

/-- R127, R128, R131: a view load performed at its line's home gives the bytes of consume(L), a line seen before from
the seen table, and keeps the view's status and table. -/
def Obligations.ViewLoads : Prop :=
  ∀ (s : State) (id k : Nat) (f : Flight) (l : Leaf) (line : Nat), s.atDoor id k f l line → f.kind = .vldv → f.landing = false →
    let w := s.warp f.key
    w.vopen = true → w.vt0 = f.x → s.dirState line = .u →
    ∃ t g, exec (.viewConsume id k) s = .next t ∧ t.out = .done ∧ s.sameBytes t ∧ t.flights.get? id = some g ∧ (g.req k).done = true
      ∧ (let c := s.consume w.seen w.vstatus w.vt0 line
        g.accs = State.loaded f k c.1 ∧ (t.warp f.key).vstatus = c.2.1 ∧ (t.warp f.key).seen = c.2.2)
      ∧ ∀ e, w.seen.find? (fun x => x.line == line) = some e → g.accs = State.loaded f k e.data ∧ (t.warp f.key).seen = w.seen

/-! Scratchpad. -/

/-- R218, R221, R222: SPALLOC takes the lowest free run of rows and zeroes it, or with too little room gives all ones
or, as X says, SPEXHAUST; R223: it waits for what was issued before its rows were freed (the lowest run, and what it waits for: log entry 27); SPFREE gives an allocation
back; SPRENEW restores its rows and moves its expiry; SPSTAT describes it. R215, R216, R219: the sweeper restores a
maintained row whose age has reached half of the retention time and not passed it, and marks one older than it; the
retention time stays within 96,000 and 1,000,000 ns. -/
def Obligations.Allocations : Prop :=
  (∀ (s : State) (d z l o : BitVec 6) (x : BitVec 1), s.before.acq = [] → s.isTrap = false →
    let n := (s.before.sreg z.toNat).toNat
    let rows := (n + 4095) / 4096
    let life := (s.before.sreg l.toNat).toNat
    let off := (s.before.sreg o.toNat).toNat
    let c := s.myCore
    (s.gate (.spalloc d z l x) = .go → 0 < n → n ≤ 2 ^ 23 →
      (∀ first, s.allocRun c s.myBlk rows (life == 0) = some first → s.rowsAwaited c first rows = true →
        exec (.spalloc d z l x) s = .next { s with out := .waiting })
      ∧ (∀ first, s.allocRun c s.myBlk rows (life == 0) = some first → s.rowsAwaited c first rows = false →
        ∃ t a, exec (.spalloc d z l x) s = .next t ∧ t.out = .done ∧ t.me = { s.me with s := t.me.s, bad := t.me.bad }
          ∧ t.me.sreg d.toNat = Warp.slsAnd s.before.sls d.toNat (BitVec.ofNat 32 (4096 * first))
          ∧ t.allocs = s.allocs ++ [a] ∧ a.core = c ∧ a.blk = s.myBlk ∧ a.first = first ∧ a.rows = rows ∧ (a.auto = true ↔ life = 0)
          ∧ a.exp = s.nowCore c + life ∧ (∀ m, t.mem.read m = s.mem.read m)
          ∧ ∀ k m, (t.core k).pad.read m
            = if k = c ∧ 4096 * first ≤ m ∧ m < 4096 * (first + rows) then 0 else (s.core k).pad.read m)
      ∧ (s.allocRun c s.myBlk rows (life == 0) = none → x = 0 → ∃ t, exec (.spalloc d z l x) s = .next t ∧ t.out = .done
          ∧ s.onlyS t [d.toNat] ∧ t.me.sreg d.toNat = Warp.slsAnd s.before.sls d.toNat 0xFFFFFFFF)
      ∧ (s.allocRun c s.myBlk rows (life == 0) = none → x = 1 → exec (.spalloc d z l x) s = .next (s.raise { cause := .spexhaust })))
    ∧ (∀ a, s.ownAlloc off = some a → s.allocLocked a = false →
      (s.gate (.spfree o) = .go → ∃ t, exec (.spfree o) s = .next t ∧ t.out = .done ∧ s.sameBytes t ∧ t.allocs = s.allocs.filter (· != a)
        ∧ ((∀ e ∈ s.warps, e.2.run = .running → s.waitsIn a e.1 = false) → t = { s with allocs := t.allocs, out := .done }))
      ∧ (s.gate (.sprenew o l) = .go → (∀ r, a.first ≤ r → r < a.first + a.rows → s.rowStale a.core r = false) →
        ∃ t, exec (.sprenew o l) s = .next t ∧ t.out = .done ∧ t.warps = s.warps ∧ s.sameBytes t
          ∧ (∀ r, a.first ≤ r → r < a.first + a.rows → t.rowAge a.core r = 0 ∧ (t.rowSt a.core r).expired = false)
          ∧ (a.auto = false → { a with exp := s.nowCore a.core + if life = 0 then a.life else life } ∈ t.allocs)))
    ∧ (s.ownAlloc off = none → ∀ i ∈ ([.spfree o, .sprenew o l] : List Instr), s.gate i = .go →
      exec i s = .next (s.raise { cause := .bounds }))
    ∧ (s.gate (.spstat d o) = .go → d.toNat % 2 = 0 → ∃ t, exec (.spstat d o) s = .next t ∧ t.out = .done ∧ s.onlyS t [d.toNat, d.toNat + 1]
      ∧ t.me.sreg d.toNat = Warp.slsAnd s.before.sls d.toNat (BitVec.ofNat 32 (s.spstat off).1)
      ∧ t.me.sreg (d.toNat + 1) = Warp.slsAnd s.before.sls (d.toNat + 1) (BitVec.ofNat 32 (s.spstat off).2)
      ∧ (off < 2 ^ 23 → s.allocAt s.myBlk off = none → s.spstat off = (0, 0))))
  ∧ ∀ (s : State) (core row ns : Nat),
    (∀ a, s.allocOfRow core row = some a → a.auto = true ∨ (s.block a.blk).parked = true → (s.rowSt core row).expired = false →
      (s.core core).tret / 2 ≤ s.rowAge core row → s.rowAge core row ≤ (s.core core).tret →
      ∃ t, exec (.sweeperRestore core row) s = .next t ∧ t = { s with cores := t.cores, out := .done } ∧ s.sameBytes t
        ∧ t.rowAge core row = 0 ∧ ∀ r, r ≠ row → t.rowSt core r = s.rowSt core r)
    ∧ ((s.core core).tret < s.rowAge core row → exec (.sweeperRestore core row) s = .next { s with out := .done })
    ∧ ((s.core core).tret < s.rowAge core row →
      ∃ t, exec (.sweeperVisit core row) s = .next t ∧ t = { s with cores := t.cores, out := .done } ∧ s.sameBytes t
        ∧ t.rowSt core row = { s.rowSt core row with expired := true } ∧ ∀ r, r ≠ row → t.rowSt core r = s.rowSt core r)
    ∧ ∃ t, exec (.spretChange core ns) s = .next t ∧ t = { s with cores := t.cores, out := .done } ∧ s.sameBytes t
        ∧ (t.core core).tret = min 1000000 (max 96000 ns) ∧ ∀ c, c ≠ core → t.core c = s.core c

/-- R226, R227, R229: what the MB instructions do to the barrier object their checks find: MBINIT sets it up, MBARR
takes arrivals off, MBARX adds bytes to come and holds its arrival, each ending in the object's settling, in the 32-bit
arithmetic of R14; MBARR and MBARX wait until their release is over. MBWAIT and MBTEST complete or report on a phase
that differs from the parity given; an MBWAIT that is parked makes no check again but that its rows are there (R217,
R223). -/
def Obligations.BarrierObjects : Prop :=
  ∀ (s : State) (n a p : Src) (d : BitVec 6) (l : BitVec 1) (core off : Nat), s.before.acq = [] →
    let m := s.mbar core off
    let c := (s.readScalar n).toNat
    let par := (s.readScalar p).getLsbD 0
    let left := (m.pend + 2 ^ 32 - m.held) % 2 ^ 32
    let pads (t : State) : Prop := (∀ x, t.mem.read x = s.mem.read x) ∧
      ∀ k x, (k ≠ core ∨ x < off ∨ off + 16 ≤ x) → (t.core k).pad.read x = (s.core k).pad.read x
    (∀ e ∈ ([(.mbinit l n a, false, fun _ => { phase := false, held := 0, expect := c, pend := c, bytes := 0, status := 0 },
          decide (0 < c) && decide (c ≤ 65535)),
        (.mbarr l n a, true, fun m => ({ m with pend := (m.pend + 2 ^ 32 - c) % 2 ^ 32 } : MBar).settle,
          m.expect != 0 && decide (0 < c) && decide (m.held + c ≤ m.pend)),
        (.mbarx l n a, true, fun m => ({ m with bytes := m.bytes + c, held := m.held + 1 } : MBar).settle,
          m.expect != 0 && left != 0 && m.held != 32767 && decide (m.bytes + c ≤ 0xFFFFFFFF))] :
        List (Instr × Bool × (MBar → MBar) × Bool)),
      s.gate e.1 = .go →
      (e.2.1 = true → s.relReady (State.mbScope (l == 1)) = false →
        ∃ t, exec e.1 s = .next t ∧ t.out = .waiting ∧ s.sameRegs t ∧ s.sameBytes t)
      ∧ ((e.2.1 = true → s.relReady (State.mbScope (l == 1)) = true) →
        (∀ st, s.mbObject (l == 1) a true = .error st → exec e.1 s = .next (s.raise st))
        ∧ (s.mbObject (l == 1) a true = .ok (core, off) → e.2.2.2 = true →
          ∃ t, exec e.1 s = .next t ∧ t.out = .done ∧ t.warps = s.warps ∧ pads t ∧ t.mbar core off = e.2.2.1 m)
        ∧ (s.mbObject (l == 1) a true = .ok (core, off) → e.2.2.2 = false → exec e.1 s = .next (s.raise { cause := .bounds }))))
    ∧ (s.gate (.mbwait l p a) = .go →
      (s.mbParked = false ∧ s.mbObject (l == 1) a false = .ok (core, off) ∧ m.expect ≠ 0)
        ∨ (s.mbParked = true ∧ s.mbAwaited (l == 1) a = .ok (core, off)) →
      (m.phase = par → exec (.mbwait l p a) s
        = .next { s.modMe fun w => { w with wake := if l = 1 then .mbwaitCl (s.readPair a 0) par else .mbwait (s.readScalar a).toNat par } with out := .parked })
      ∧ (m.phase ≠ par → s.me.tcause = [] → ∃ t, exec (.mbwait l p a) s = .next t ∧ t.out = .done
        ∧ s.sameBytes t ∧ s.sameRegs t ∧ t.me.wake = .none
        ∧ ((s.core core).mbTags.get off (0, 0)).1 ≤ (t.core s.myCore).lclk))
    ∧ (∀ st, s.gate (.mbwait l p a) = .go → s.mbParked = true → s.mbAwaited (l == 1) a = .error st →
      exec (.mbwait l p a) s = .next (s.raise st))
    ∧ (s.mbObject (l == 1) a false = .ok (core, off) → m.expect ≠ 0 → s.gate (.mbtest l d p a) = .go → s.me.tcause = [] →
      ∃ t, exec (.mbtest l d p a) s = .next t ∧ t.out = .done ∧ s.sameBytes t
        ∧ t.me = { s.me with s := t.me.s, bad := t.me.bad }
        ∧ t.me.sreg d.toNat = Warp.slsAnd s.before.sls d.toNat (if m.phase ≠ par then 1 else 0))
    ∧ ∀ bytes, ∃ t, exec (.barrierObjectCountdown core off bytes) s = .next t ∧ t.out = .done ∧ t.warps = s.warps ∧ pads t
      ∧ t.mbar core off = m.countdown bytes

/-! Engines. -/

/-- R198, R199, R201: a copy-engine word checks its barrier object, record and offset in that order, reads the record,
and hands the operation over with its ranges locked. R200, R201, R203, R205, R207, R211: an accepted TCOPY, TCOPYO or
TGATHER starts, a VQ2 tile once its magnitude table is read and a TGATHER once its block table is, and sets its lines,
rows or tokens out; a line of a contiguous TCOPY writes its bytes, a row of a tile its elements at their canonical
places (R204) with its scale bytes, a token of a TGATHER likewise, from the block its table names, and zeros where that
is no block; each counts its bytes down. R209: a line or row of a TCOPYO leaves for memory. R213: TCOW reads its table
entry, as an acquire (R164), and the block's count; a block that is not shared is left, and of one that is a free block
is taken off the list, the lines are copied, the new count and entry written and the old count taken down, and a block
that nothing shares any longer goes back on the list; it ends with the result record written. -/
def Obligations.CopyEngine : Prop :=
  (∀ (s : State) (a b d : BitVec 6) (tt : BitVec 1),
    let off := (s.before.sreg a.toNat).toNat
    let bar := (s.before.sreg d.toNat).toNat
    let ra := s.before.spair b.toNat
    ∀ e ∈ ([(.tcopy a b d tt, .tcopy), (.tcopyo a b d tt, .tcopyo), (.tgather a b d tt, .tgather), (.tcow a b d tt, .tcow)] :
      List (Instr × OpKind)),
    s.gate e.1 = .go → s.before.acq = [] → s.isTrap = false →
    (bar % 16 ≠ 0 → exec e.1 s = .next (s.raise { cause := .align, addr := bar }))
    ∧ (bar % 16 = 0 → ra % 64 ≠ 0 → exec e.1 s = .next (s.raise { cause := .align, addr := ra }))
    ∧ (bar % 16 = 0 → ra % 64 = 0 → off % (if e.2 = .tgather then 256 else 16) ≠ 0 →
      exec e.1 s = .next (s.raise { cause := .align, addr := off }))
    ∧ (bar % 16 = 0 → ra % 64 = 0 → off % (if e.2 = .tgather then 256 else 16) = 0 → s.padCovered s.myBlk bar 16 = false →
      exec e.1 s = .next (s.raise { cause := .bounds, addr := bar }))
    ∧ (bar % 16 = 0 → ra % 64 = 0 → off % (if e.2 = .tgather then 256 else 16) = 0 → s.padCovered s.myBlk bar 16 = true →
      s.copyOps s.myCore < 16 → ∀ z r, s.readRecord ra 64 = .ok z r →
      let p := z.copyPlan e.2 off r
      (p.aligned = false → exec e.1 s = .next (z.raise { cause := .align, addr := off }))
      ∧ (p.aligned = true → p.ok = false → exec e.1 s = .next (z.raise { cause := .bounds, addr := ra }))
      ∧ (p.aligned = true → p.ok = true → z.padCovered z.myBlk off p.pad = false →
        exec e.1 s = .next (z.raise { cause := .bounds, addr := off }))
      ∧ (p.ok = true → p.aligned = true → z.padCovered z.myBlk off p.pad = true → z.locksWait z.myCore p.srcs p.dsts = false →
        ∃ t o, exec e.1 s = .next t ∧ t.out = .done ∧ t.warps = z.warps ∧ t.mem = z.mem ∧ t.cores = z.cores
          ∧ t.ops.get? z.nextId = some o ∧ o.kind = e.2 ∧ o.core = z.myCore ∧ o.blk = z.myBlk ∧ o.off = off ∧ o.bar = some bar
          ∧ o.record = r ∧ (o.t = true ↔ tt = 1) ∧ o.started = false
          ∧ (∃ l ∈ t.locks, l.op = z.nextId ∧ l.core = z.myCore ∧ l.srcs = p.srcs ∧ l.dsts = p.dsts)
          ∧ t.agenda = z.agenda ++ [if e.2 = .tcow then .tcowStep z.nextId else .copyOpStart z.nextId])))
  ∧ ∀ (s : State) (op unit bar : Nat) (o : EngOp), s.ops.get? op = some o →
    let r := CopyRec.of o.record
    let w := CowRec.of o.record
    let gr := GatherRec.of o.record
    let lines (n : Nat) : List Instr := (List.range n).map (.copyLineComplete op ·)
    let gi := o.idx.getD ((gr.tok0 + unit) / gr.bt - gr.first) 0
    let gslot := (gr.tok0 + unit) % gr.bt
    (o.started = false → s.opHeld op o = false →
      ((o.kind = .tcopy ∧ (r.linear = true ∨ r.sfmt ≠ 8)) ∨ o.kind = .tcopyo →
        ∃ t, exec (.copyOpStart op) s = .next t ∧ t = { s with ops := t.ops, agenda := t.agenda, out := .done }
          ∧ t.ops.get? op = some { o with started := true, units := List.range r.units, pend := [] }
          ∧ t.agenda = s.agenda ++ lines r.units)
      ∧ (o.kind = .tcopy → r.linear = false → r.sfmt = 8 → ∀ z x, s.readVq op o (some r.taddr) = (z, x) →
        (x = none → exec (.copyOpStart op) s = .next { z with agenda := z.agenda ++ [.copyOpStart op], out := .done })
        ∧ ∀ tab bad q, x = some (tab, bad) → z.ops.get? op = some q → ∃ t, exec (.copyOpStart op) s = .next t ∧ t.out = .done
          ∧ t.ops.get? op = some { q with record := q.record ++ tab, idx := bad, started := true, units := List.range r.units, pend := [] }
          ∧ t.agenda = z.agenda ++ lines r.units)
      ∧ (o.kind = .tgather → ∀ z x, s.readTable op o gr gr.entries gr.first = (z, x) →
        (x = none → exec (.copyOpStart op) s = .next { z with agenda := z.agenda ++ [.copyOpStart op], out := .done })
        ∧ ∀ idx q, x = some idx → gr.sfmt ≠ 8 → z.ops.get? op = some q → ∃ t, exec (.copyOpStart op) s = .next t ∧ t.out = .done
          ∧ t.ops.get? op = some { q with idx := idx, started := true, units := List.range gr.ntok, pend := [] }
          ∧ t.agenda = z.agenda ++ lines gr.ntok))
    ∧ (∀ e ∈ ([(.tcopy, r.maddr + unit * r.stride, r.rowBytes, r.rowElems, r.sfmt, r.lay, r.k, r.scales,
          r.saddr + unit * (r.k / 32), r.k / 32, o.idx = [] ∧ r.linear = false),
        (.tgather, gr.pool + gi * gr.blkBytes + gr.headOff + gslot * gr.tokStride,
          if gr.sfmt = 8 then gr.dim / 4 else gr.dim * storeBits gr.sfmt / 8, gr.dim, gr.sfmt, gr.lay, gr.k, gr.scales,
          gr.pool + gi * gr.blkBytes + gr.scaleOff + gslot * (gr.dim / 32), gr.dim / 32, gi < min gr.nblk (2 ^ 32))] :
        List (OpKind × Nat × Nat × Nat × Nat × Nat × Nat × Bool × Nat × Nat × Prop)),
      let (kind, va, n, elems, sfmt, lay, kk, scales, sva, sn, good) := e
      let b := padBytes sfmt
      let place (j : Nat) : Nat := o.off + if lay = 2 then tilePlace lay b j unit else tilePlace lay b unit j
      o.kind = kind → good → unit ∈ o.units → o.bar = some bar → o.units.filter (· != unit) ≠ [] →
      (scales = true → kk / 32 = sn) → ∀ z g y gs q,
      s.opGather op unit o va n = (z, g) → (if scales then z.opGather op unit o sva sn else (z, {})) = (y, gs) → g.held = false →
      gs.held = false → g.fail = none → gs.fail = none → y.ops.get? op = some q → q.units = o.units → q.bar = some bar → q.core = o.core →
      (∀ j < elems, bar + 16 ≤ place j ∨ place j + b ≤ bar) →
      ∃ t, exec (.copyLineComplete op unit) s = .next t ∧ t.out = .done ∧ t.mem = y.mem
        ∧ (t.ops.get? op).map (·.units) = some (o.units.filter (· != unit))
        ∧ (scales = false → t.mbar o.core bar = (y.mbar o.core bar).countdown (elems * b))
        ∧ (scales = false → ∀ j < elems, ∀ v, State.elemIn sfmt (o.record.drop 64) g.bytes j = some v → t.padRead o.core (place j) b = leBytes b v)
        ∧ (scales = true → ∀ i < sn, ∀ v, (gs.bytes[i]?).join = some v →
          (bar + 16 ≤ o.off + tileScale lay b kk unit (32 * i) ∨ o.off + tileScale lay b kk unit (32 * i) < bar) →
          (t.core o.core).pad.read (o.off + tileScale lay b kk unit (32 * i)) = v))
    ∧ (let b := padBytes gr.sfmt
      let place (j : Nat) : Nat := o.off + if gr.lay = 2 then tilePlace gr.lay b j unit else tilePlace gr.lay b unit j
      o.kind = .tgather → unit ∈ o.units → o.bar = some bar → o.units.filter (· != unit) ≠ [] → gr.nblk ≤ gi → gi < 2 ^ 32 →
      gr.scales = false → (∀ j < gr.dim, bar + 16 ≤ place j ∨ place j + b ≤ bar) → o.status = 0 →
      ∃ t, exec (.copyLineComplete op unit) s = .next t ∧ t.out = .done ∧ t.mem = s.mem ∧ (t.ops.get? op).map (·.status) = some 8
        ∧ ∀ j < gr.dim, ∀ x < b, (t.core o.core).pad.read (place j + x) = 0)
    ∧ (let va := if r.linear then (r.piece unit).1 else r.maddr + unit * r.stride
      let src := if r.linear then o.off + (va - r.maddr) else o.off + unit * r.k * padBytes r.ifmt
      let len := if r.linear then (r.piece unit).2 else r.k * padBytes r.ifmt
      let row := s.padRead o.core src len
      let data := if r.linear then row else packRow r.sfmt (narrowRow r row).1
      o.kind = .tcopyo → unit ∈ o.units → o.bar = some bar → r.scaled = false → s.staleRange o.core src len = false → ∀ z g q,
      s.opScatter op unit o va data = (z, g) → g.held = false → g.fail = none → z.ops.get? op = some q → q.units = o.units →
      q.bar = some bar → q.core = o.core →
      ∃ t, exec (.copyLineComplete op unit) s = .next t ∧ t.out = .done ∧ t.mem = z.mem
        ∧ t.mbar o.core bar = (z.mbar o.core bar).countdown (if r.linear then (r.piece unit).2 else r.rowBytes)
        ∧ (o.units.filter (· != unit) = [] → t.ops.get? op = none ∧ ∀ l ∈ t.locks, l.op ≠ op))
    ∧ (o.kind = .tcopy → r.linear = true → unit ∈ o.units → o.bar = some bar → ∀ z g q,
      s.opGather op unit o (r.piece unit).1 (r.piece unit).2 = (z, g) → g.held = false → g.fail = none → z.ops.get? op = some q →
      q.units = o.units → q.bar = some bar → q.core = o.core →
      let at' := o.off + ((r.piece unit).1 - r.maddr)
      bar + 16 ≤ at' ∨ at' + g.bytes.length ≤ bar →
      ∃ t, exec (.copyLineComplete op unit) s = .next t ∧ t.out = .done ∧ t.mem = z.mem
        ∧ (∀ i < g.bytes.length, (t.core o.core).pad.read (at' + i) = (g.bytes[i]?.join).getD 0)
        ∧ (∀ c i, (c ≠ o.core ∨ ((i < at' ∨ at' + g.bytes.length ≤ i) ∧ (i < bar ∨ bar + 16 ≤ i))) →
          (t.core c).pad.read i = (z.core c).pad.read i)
        ∧ t.mbar o.core bar = (z.mbar o.core bar).countdown (r.piece unit).2
        ∧ (o.units.filter (· != unit) = [] → t.ops.get? op = none ∧ ∀ l ∈ t.locks, l.op ≠ op)
        ∧ (o.units.filter (· != unit) ≠ [] → (t.ops.get? op).map (·.units) = some (o.units.filter (· != unit))))
    ∧ (o.kind = .tcow → o.stage = 0 → s.opHeld op o = false → ∀ z bs tag,
      (s.modOp op fun x => { x with started := true }).opRead o w.entry 4 = (z, .bytes bs, tag) →
      leNat bs < w.nblk → z.ops.get? op = some { o with started := true } →
      ∃ t q, exec (.tcowStep op) s = .next t ∧ t.out = .done ∧ t.ops.get? op = some q ∧ q.stage = 1 ∧ (Cow.of q.regs).e = leNat bs
        ∧ t.agenda = z.agenda ++ [.tcowStep op] ∧ tag.stamp ≤ (t.core o.core).lclk ∧ tag.hold ≤ (t.core o.core).leasemax)
    ∧ (o.kind = .tcow → o.stage = 1 → o.started = true → o.bar = some bar → ∀ z bs tag,
      (s.modOp op fun x => { x with started := true }).opRead o (w.refs + 4 * (Cow.of o.regs).e) 4 = (z, .bytes bs, tag) →
      z.ops.get? op = some o →
      (1 < leNat bs → ∃ t q, exec (.tcowStep op) s = .next t ∧ t.out = .done ∧ t.ops.get? op = some q ∧ q.stage = 2
        ∧ q.regs = { Cow.of o.regs with c := leNat bs }.list ∧ t.agenda = z.agenda ++ [.tcowStep op]
        ∧ tag.stamp ≤ (t.core o.core).lclk)
      ∧ (leNat bs ≤ 1 → bar + 16 ≤ o.off ∨ o.off + 16 ≤ bar →
      ∃ t, exec (.tcowStep op) s = .next t ∧ t.out = .done ∧ t.ops.get? op = none
        ∧ t.padRead o.core o.off 16 = leBytes 4 (Cow.of o.regs).e ++ leBytes 4 (leNat bs)
          ++ leBytes 4 ((Cow.of o.regs).copied + 2 * (Cow.of o.regs).freed) ++ leBytes 4 0
        ∧ t.mbar o.core bar = (z.mbar o.core bar).countdown 16))
    ∧ (o.kind = .tcow → o.started = true → 2 ≤ o.stage → o.bar = some bar →
      let c := Cow.of o.regs
      let u := s.modOp op fun x => { x with started := true }
      let goesOn (t : State) (stage : Nat) (c' : Cow) : Prop :=
        exec (.tcowStep op) s = .next t ∧ t.out = .done ∧ t.ops.get? op = some { o with stage := stage, regs := c'.list }
      let bump (h link : Nat) : Nat := (h / 2 ^ 32 + 1) % 2 ^ 32 * 2 ^ 32 + link
      (∀ e ∈ ([(2, w.free, 8, 3, fun v => { c with h := v }), (3, w.next + 4 * (c.h % 2 ^ 32), 4, 4, fun v => { c with nx := v }),
          (9, w.free, 8, 10, fun v => { c with h := v })] : List (Nat × Nat × Nat × Nat × (Nat → Cow))), o.stage = e.1 → ∀ z bs tag,
        u.opRead o e.2.1 e.2.2.1 = (z, .bytes bs, tag) → z.ops.get? op = some o → (e.1 = 2 → leNat bs % 2 ^ 32 ≠ 0xFFFFFFFF) →
        ∃ t, goesOn t e.2.2.2.1 (e.2.2.2.2 (leNat bs)) ∧ t.agenda = z.agenda ++ [.tcowStep op])
      ∧ (∀ z bs tag, o.stage = 2 → u.opRead o w.free 8 = (z, .bytes bs, tag) → z.ops.get? op = some o → leNat bs % 2 ^ 32 = 0xFFFFFFFF →
        ∃ t, exec (.tcowStep op) s = .next t ∧ t.out = .done ∧ t.ops.get? op = none)
      ∧ (∀ e ∈ ([(6, w.refs + 4 * c.n, leBytes 4 1, false, 7, c), (7, w.entry, leBytes 4 c.n, true, 8, { c with copied := 1 }),
          (10, w.next + 4 * c.e, leBytes 4 (c.h % 2 ^ 32), false, 11, c)] : List (Nat × Nat × List Byte × Bool × Nat × Cow)),
        o.stage = e.1 → (e.2.2.2.1 = true → (u.core o.core).leasemax < u.nowCore o.core) → ∀ z d lend,
        u.opStore o e.2.1 e.2.2.1 = (z, .bytes d, lend) → z.ops.get? op = some o →
        ∃ t, goesOn t e.2.2.2.2.1 e.2.2.2.2.2 ∧ t.mem = z.mem ∧ lend ≤ (t.core o.core).leasemax)
      ∧ (o.stage = 5 → (w.blkBytes ≤ 128 * c.line → ∃ t, goesOn t 6 c ∧ s.sameBytes t)
        ∧ (128 * c.line < w.blkBytes → ∀ z bs tag y d lend, u.opRead o (w.pool + c.e * w.blkBytes + 128 * c.line) 128 = (z, .bytes bs, tag) →
          z.opStore o (w.pool + c.n * w.blkBytes + 128 * c.line) bs = (y, .bytes d, lend) → y.ops.get? op = some o →
          ∃ t, goesOn t 5 { c with line := c.line + 1 } ∧ t.mem = y.mem))
      ∧ (∀ e ∈ ([(4, w.free, 8, true, false, c.h, bump c.h c.nx), (8, w.refs + 4 * c.e, 4, false, true, 1, 0),
          (11, w.free, 8, false, false, c.h, bump c.h c.e)] : List (Nat × Nat × Nat × Bool × Bool × Nat × Nat)),
        let (stage, va, n, acq, rel, want, new) := e
        o.stage = stage → ∀ z bs tag, u.opCurrent o va n = (z, .bytes bs, tag) →
        let x := if acq then z.opAcquire o tag else z
        (stage ≠ 8 → leNat bs ≠ want → x.ops.get? op = some o →
          ∃ t, (if stage = 4 then goesOn t 2 c else goesOn t 9 c) ∧ t.mem = z.mem)
        ∧ ∀ y d lend, (rel = true → (x.core o.core).leasemax < x.nowCore o.core) →
          x.opStore o va (leBytes n (if stage = 8 then (leNat bs + 2 ^ 32 - 1) % 2 ^ 32 else new)) = (y, .bytes d, lend) →
          y.ops.get? op = some o →
          (leNat bs = want → stage = 4 → ∃ t, goesOn t 5 { c with n := c.h % 2 ^ 32, line := 0 } ∧ t.mem = y.mem)
          ∧ (leNat bs = want → stage = 8 → ∃ t, goesOn t 9 c ∧ t.mem = y.mem)
          ∧ ((stage = 8 ∧ leNat bs ≠ want) ∨ (stage = 11 ∧ leNat bs = want) → bar + 16 ≤ o.off ∨ o.off + 16 ≤ bar →
            ∃ t, exec (.tcowStep op) s = .next t ∧ t.out = .done ∧ t.ops.get? op = none ∧ t.mem = y.mem
              ∧ t.padRead o.core o.off 16 = leBytes 4 c.n ++ leBytes 4 c.c
                ++ leBytes 4 (c.copied + 2 * if stage = 8 then c.freed else 1) ++ leBytes 4 0
              ∧ t.mbar o.core bar = (y.mbar o.core bar).countdown 16)))

/-- R109, R110, R111: CSTEP reads its descriptor from the block's scratchpad and, if it is a good one, hands the step
over with its source locked. R110 to R113: a step reserves one line of one target after another (log entry 33), letting pass the one
that goes first, and with no room anywhere ends NOSLOT, its reservations given back; then every line is delivered,
into its reservation or, PLAIN, combined into its home, and acknowledged, counting 128 bytes down; a line of a die that
has died since ends the step PEERLOST. -/
def Obligations.CopySteps : Prop :=
  (∀ (s : State) (p tt : BitVec 1) (sr : BitVec 2) (a b d : BitVec 6),
    let acc := sr == 1
    let src := (s.before.sreg a.toNat).toNat
    let dsc := (s.before.sreg b.toNat).toNat
    let bar := (s.before.sreg d.toNat).toNat
    let r := s.padRead s.myCore dsc 256
    let x := StepDesc.of r
    let srcs := if acc then [] else [s.padRange src x.bytes]
    s.gate (.cstep p sr a b d tt) = .go → s.before.acq = [] → s.isTrap = false → (acc = true → s.tileStale (src % 8) = none) →
    dsc % 256 = 0 → bar % 16 = 0 → (acc = false → src % 128 = 0) → s.padCovered s.myBlk dsc 256 = true →
    s.padCovered s.myBlk bar 16 = true → s.unsettled s.cur s.chainId [s.padRange dsc 256] = false →
    s.engineWaits s.myCore [s.padRange dsc 256] [] = false → s.staleRange s.myCore dsc 256 = false →
    (x.ok r acc = false → exec (.cstep p sr a b d tt) s = .next (s.raise { cause := .bounds, addr := dsc }))
    ∧ (x.ok r acc = true → (acc = true → src % 8 < s.myBlock.nacc ∧ s.tileBusy s.myBlk (src % 8) = false) →
      (acc = false → s.padCovered s.myBlk src x.bytes = true) → s.locksWait s.myCore srcs [] = false →
      ∃ t o, exec (.cstep p sr a b d tt) s = .next t ∧ t.out = .done ∧ t.warps = s.warps ∧ s.sameBytes t
        ∧ t.ops.get? s.nextId = some o ∧ o.kind = .cstep acc (p == 1) ∧ o.record = r ∧ o.bar = some bar
        ∧ o.off = (if acc then 0 else src) ∧ o.tile = src % 8 ∧ o.left = List.replicate x.npeer x.bytes
        ∧ (∃ l ∈ t.locks, l.op = s.nextId ∧ l.srcs = srcs ∧ l.tile = if acc then some (s.myBlk, src % 8) else none)
        ∧ t.agenda = s.agenda ++ [.cstepReserve s.nextId]))
  ∧ ∀ (s : State) (op target line lend bar : Nat) (o : EngOp) (acc plain : Bool), s.ops.get? op = some o → o.kind = .cstep acc plain →
    o.bar = some bar →
    let x := StepDesc.of o.record
    let z := s.modOp op fun o => { o with started := true }
    (s.opHeld op o = false → plain = true ∨ x.npeer * x.lines ≤ o.stage →
      ∃ t, exec (.cstepReserve op) s = .next t ∧ t = { z with out := .done, agenda := t.agenda }
        ∧ t.agenda = s.agenda ++ (State.stepLines x).map fun e => .cstepDeliver op e.1 e.2)
    ∧ (s.opHeld op o = false → plain = false → o.stage < x.npeer * x.lines → z.stepYields op = true →
      exec (.cstepReserve op) s = .next { z with agenda := s.agenda ++ [.cstepReserve op], out := .done })
    ∧ (s.opHeld op o = false → plain = false → o.stage < x.npeer * x.lines → z.stepYields op = false → ∀ z' ln l,
      z.stepPlace o x (o.stage / x.lines) (o.stage % x.lines) = (z', .home ln l) → z'.ops.get? op = some { o with started := true } →
      (∀ y, z'.reserve ln (z'.block o.blk).part l.policy x.carry op = some y → y.ops.get? op = some { o with started := true } →
        ∃ t, exec (.cstepReserve op) s = .next t ∧ t.out = .done ∧ t.agenda = y.agenda ++ [.cstepReserve op]
          ∧ (t.ops.get? op).map (·.stage) = some (o.stage + 1))
      ∧ (z'.reserve ln (z'.block o.blk).part l.policy x.carry op = none → ∀ v q, (z'.releaseResvs op).releasePeers o x = v →
        v.ops.get? op = some q → q.core = o.core → q.bar = some bar → q.status = 0 → (∀ n ∈ q.left, n ≠ 0) → (v.mbar o.core bar).status = 0 →
        ∃ t, exec (.cstepReserve op) s = .next t ∧ t.out = .done ∧ t.ops.get? op = none ∧ (∀ k ∈ t.locks, k.op ≠ op)
          ∧ (∀ y ∈ t.resv, op ∉ y.steps) ∧ (t.mbar o.core bar).status = 1))
    ∧ (o.entered = false → (acc = false → s.staleRange o.core (o.off + 128 * line) 128 = false) → ∀ z' ln l,
      s.stepPlace o x target line = (z', .home ln l) → z'.dirSpare ln 0 →
      let data := s.stepSource o acc line
      (plain = true → z'.dirState ln = .u → (∀ y ∈ z'.resv, y.line ≠ ln) → (∀ y ∈ z'.wbs, y.line ≠ ln) → (z'.sliceLine ln).isSome = true →
        ∃ t n, exec (.cstepDeliver op target line) s = .next t ∧ t.out = .done ∧ z'.sameBytes t ∧ .cstepLineAck op target n ∈ t.agenda
          ∧ t.homeData ln = x.carry.mergeLine (z'.homeData ln) data)
      ∧ (plain = false → z'.reserved ln x.carry = true →
        ∃ t n, exec (.cstepDeliver op target line) s = .next t ∧ t.out = .done ∧ z'.sameBytes t ∧ .cstepLineAck op target n ∈ t.agenda
          ∧ t.resv = z'.resv.map (fun y => if y.line = ln then { y with data := x.carry.mergeLine y.data data
                                                                        steps := y.steps.filter (· != op) } else y)
          ∧ t.homeData ln = z'.homeData ln))
    ∧ (let tgt := x.targets.getD target (0, 0, 0)
      let lost : Prop := tgt.2.1 = (s.die (dieOf o.core)).devId ∧ (s.die tgt.2.2).dead = true
      let left := o.regs.getD 0 0
      (¬ lost → left ≠ 1 → left ≠ 0 → ∃ t q, exec (.cstepLineAck op target lend) s = .next t ∧ t.out = .done
        ∧ t.ops.get? op = some q ∧ q.left = o.left.modify target (· - 128) ∧ q.regs = [left - 1]
        ∧ t.mbar o.core bar = (s.mbar o.core bar).countdown 128 ∧ lend ≤ (t.core o.core).leasemax)
      ∧ (¬ lost → left = 1 → ∃ t, exec (.cstepLineAck op target lend) s = .next t ∧ t.out = .done ∧ t.ops.get? op = none
        ∧ (∀ k ∈ t.locks, k.op ≠ op) ∧ (∀ y ∈ t.resv, op ∉ y.steps) ∧ lend ≤ (t.core o.core).leasemax)
      ∧ (lost → left ≠ 1 → left ≠ 0 → o.entered = false → ∃ t q, exec (.cstepLineAck op target lend) s = .next t ∧ t.out = .done
        ∧ t.ops.get? op = some q ∧ q.status = 2 ∧ q.entered = true ∧ q.left = o.left ∧ q.regs = [left - 1]))

/-- R274 to R280, R283, R284: MMA and MMASP, by themselves or with the partner core, and ACLD and ACST go to the
array's queue once their operands pass; ACRD and ACWR move four columns of a tile to and from vector registers in the
lanes of exec. R277, R280, R281, R283: the array takes the operation whose turn it is; a k-group adds its sixteen
products to every element of the tile, or of both tiles of a pair, rounding once; between two groups a lower class
that waits has the array; an operation whose groups are done leaves it, a tile load or store moving its image then, as
one step (log entry 35). -/
def Obligations.MatrixEngine : Prop :=
  (∀ (s : State) (a : BitVec 3) (n p : BitVec 1) (x y k : BitVec 6) (u v : Src) (q : BitVec 8),
    let tile := a.toNat
    let off := (s.readScalar u).toNat
    let bar := (s.readScalar v).toNat
    let col := (s.readScalar u).toNat
    let queued (i : Instr) (kind : OpKind) (pair : Option (Nat × Nat)) (srcs dsts : List Range) : Prop :=
      ∃ t o, exec i s = .next t ∧ t.out = .done ∧ t.warps = s.warps ∧ s.sameBytes t ∧ t.ops.get? s.nextId = some o ∧ o.kind = kind
        ∧ o.tile = tile ∧ o.core = s.myCore ∧ o.pair = pair
        ∧ (∀ c ∈ State.opCores o, (t.core c.1).mq = (s.core c.1).mq ++ [s.nextId])
        ∧ (∃ l ∈ t.locks, l.op = s.nextId ∧ l.core = s.myCore ∧ l.srcs = srcs ∧ l.dsts = dsts) ∧ .matrixOpStart s.myCore ∈ t.agenda
    s.before.acq = [] → s.isTrap = false → s.tileStale tile = none → tile < s.myBlock.nacc →
    (∀ e ∈ ([(.mma a n p x y k, false), (.mmasp a n p x y k, true)] : List (Instr × Bool)),
      let w := (s.before.sreg k.toNat).toNat
      let h := Shape.ofWord e.2 w (s.before.sreg x.toNat).toNat (s.before.sreg y.toNat).toNat
        (if e.2 then (s.before.sreg (k.toNat + 1)).toNat else 0)
      let pair := if p = 1 then s.partner else none
      let cores := s.myCore :: (pair.map (·.1)).toList
      let bound := clocksNs (h.groups * h.clocks + s.queueDue cores s.ctxCls)
      let srcs := State.toRanges (s.identOf s.myBlk) (h.rangesA ++ h.rangesB)
      s.gate e.1 = .go → s.pairBusy s.myBlk tile = false →
      (h.ok w = false → exec e.1 s = .next (s.raise { cause := .bounds }))
      ∧ (h.ok w = true → h.a % 256 = 0 → h.b % 256 = 0 → (e.2 = true → h.mt % 256 = 0) →
        s.anyOut s.myBlk (h.rangesA ++ h.rangesB) = none → s.tileLocked s.myBlk tile = false →
        s.anyLate s.myCore bound (h.rangesA ++ h.rangesB) = none → s.locksWait s.myCore srcs [] = false →
        s.unsettled s.cur s.chainId srcs = false → s.matrixFull cores = false →
        (p = 1 → ∃ c, pair = some c ∧ tile < (s.block c.2).nacc ∧ s.anyOut c.2 h.rangesB = none ∧ s.tileLocked c.2 tile = false
          ∧ s.anyLate c.1 bound h.rangesB = none ∧ s.locksWait c.1 (State.toRanges (s.identOf c.2) h.rangesB) [] = false) →
        queued e.1 (.mma e.2 (n == 1) (p == 1)) pair srcs []))
    ∧ (∀ e ∈ ([(.acld a u v, true), (.acst a u v, false)] : List (Instr × Bool)),
      let r := [s.padRange off 98304]
      s.gate e.1 = .go → s.pairBusy s.myBlk tile = false → off % 256 = 0 → bar % 16 = 0 → s.padCovered s.myBlk off 98304 = true →
      s.padCovered s.myBlk bar 16 = true → (e.2 = true → s.tileLocked s.myBlk tile = false
        ∧ s.lateRange s.myCore off 98304 (clocksNs (48 + s.queueDue [s.myCore] s.ctxCls)) = false) →
      s.locksWait s.myCore (if e.2 then r else []) (if e.2 then [] else r) = false → s.unsettled s.cur s.chainId r = false →
      s.matrixFull [s.myCore] = false →
      queued e.1 (if e.2 then .acld else .acst) none (if e.2 then r else []) (if e.2 then [] else r))
    ∧ (s.execMask ≠ 0 → col % 4 = 0 → col ≤ 252 → s.tileBusy s.myBlk tile = false →
      (s.gate (.acrd a q u) = .go → ∃ t, exec (.acrd a q u) s = .next t ∧ t.out = .done ∧ s.onlyMe t
        ∧ t.me = { s.me with v := t.me.v, bad := t.me.bad }
        ∧ (∀ r, r < q.toNat ∨ q.toNat + 4 ≤ r → t.me.vreg r = s.me.vreg r)
        ∧ ∀ i < 4, ∀ l < 96, lane (t.me.vreg (q.toNat + i)) l = if s.execMask.getLsbD l
          then (s.myBlock.accs.get tile []).get (256 * l + col + i) 0 else lane (s.me.vreg (q.toNat + i)) l)
      ∧ (s.gate (.acwr a q u) = .go → s.tileLocked s.myBlk tile = false → ∃ t, exec (.acwr a q u) s = .next t ∧ t.out = .done
        ∧ t.warps = s.warps ∧ s.sameBytes t
        ∧ ∀ l < 96, ∀ c < 256, (t.myBlock.accs.get tile []).get (256 * l + c) 0
          = if s.execMask.getLsbD l ∧ col ≤ c ∧ c < col + 4 then lane (s.before.vreg (q.toNat + (c - col))) l
            else (s.myBlock.accs.get tile []).get (256 * l + c) 0)))
  ∧ ∀ (s : State) (core id bar : Nat) (o : EngOp),
    (s.nextMatrix core = some (id, o) → (∀ sp n p, o.kind = .mma sp n p → o.entered = false) → o.kind ≠ .acld →
      (∃ sp n p, o.kind = .mma sp n p) ∨ o.kind = .acst →
      ∃ t, exec (.matrixOpStart core) s = .next t ∧ t.out = .done ∧ t.warps = s.warps ∧ s.sameBytes t
        ∧ (∀ c ∈ State.opCores o, (t.core c.1).running = some id) ∧ t.ops.get? id = some { o with started := true }
        ∧ t.agenda = s.agenda ++ [if o.kind = .acst then .matrixOpRetire core else .kgroupBoundary o.core])
    ∧ ((s.core core).running = some id → s.ops.get? id = some o → o.core = core →
      (∀ sp neg p, o.kind = .mma sp neg p → (∀ c, o.pair = some c → c.2 ≠ o.blk) →
        ∃ t, exec (.kgroupBoundary core) s = .next t ∧ t.out = .done ∧ t.warps = s.warps ∧ s.sameBytes t
          ∧ (∀ c ∈ State.opCores o, ∀ i < 24576, ((t.block c.2).accs.get o.tile []).get i 0
            = s.groupElem o.shape neg core c.1 o.stage (i / 256) (i % 256)
              (if o.shape.zero = true ∧ o.stage = 0 then 0 else ((s.block c.2).accs.get o.tile []).get i 0))
          ∧ (t.ops.get? id).map (·.stage) = some (o.stage + 1)
          ∧ (o.shape.groups ≤ o.stage + 1 → .matrixOpRetire core ∈ t.agenda)
          ∧ (o.stage + 1 < o.shape.groups → s.lowerWaits o = true → (∀ c ∈ State.opCores o, (t.core c.1).running = none)
            ∧ (t.ops.get? id).map (·.entered) = some true)
          ∧ (o.stage + 1 < o.shape.groups → s.lowerWaits o = false → o.entered = false → .kgroupBoundary core ∈ t.agenda))
      ∧ ((∃ sp neg p, o.kind = .mma sp neg p) → ∃ t, exec (.matrixOpRetire core) s = .next t ∧ t.out = .done ∧ t.warps = s.warps
        ∧ s.sameBytes t ∧ t.blocks = s.blocks ∧ t.ops.get? id = none ∧ (t.core core).running = none ∧ id ∉ (t.core core).mq
        ∧ ∀ k ∈ t.locks, k.op ≠ id)
      ∧ (o.kind = .acld → o.bar = some bar → ∃ t, exec (.matrixOpRetire core) s = .next t ∧ t.out = .done
        ∧ (∀ key, (t.warp key).s = (s.warp key).s ∧ (t.warp key).v = (s.warp key).v)
        ∧ t.ops.get? id = none ∧ (t.core core).running = none ∧ t.mbar core bar = (s.mbar core bar).countdown 98304
        ∧ ∀ i < 24576, ((t.block o.blk).accs.get o.tile []).get i 0 = BitVec.ofNat 32 (fieldAt (s.padRead core o.off 98304) (4 * i) 4))
      ∧ (o.kind = .acst → o.bar = some bar → bar + 16 ≤ o.off ∨ o.off + 98304 ≤ bar →
        ∃ t, exec (.matrixOpRetire core) s = .next t ∧ t.out = .done ∧ t.ops.get? id = none
          ∧ (∀ key, (t.warp key).s = (s.warp key).s ∧ (t.warp key).v = (s.warp key).v) ∧ t.mbar core bar = (s.mbar core bar).countdown 98304
          ∧ ∀ i < 24576, t.padWord core (o.off + 4 * i) = (((s.block o.blk).accs.get o.tile []).get i 0).toNat))

/-- R289 to R295: the factor-tile words go to their tile's queue with what they read; FTINIT with a diagonal element
that is not positive and finite is a loss, and raises DEFLOST where FTCTL says so (found at issue: log entry 36). R286, R290 to R295: the oldest
operation of a tile runs and ends: FTINIT leaves a diagonal factor, a sweep that loses nothing the new bank and one
that does the old bank and FTSTAT, the solves and FTROW their lanes, FTLD a tile whose diagonal is good, FTST the
packed image. A sweep waits for the arrival its chain makes at a barrier (log entry 36). -/
def Obligations.FactorTile : Prop :=
  (∀ (s : State) (tt : BitVec 1) (v o : Src),
    let t0 := tt.toNat
    let n := s.ftOrder t0
    let off := (s.readScalar v).toNat
    let bar := (s.readScalar o).toNat
    let k := (s.readScalar o).toNat
    let queued (i : Instr) (kind : OpKind) (g : EngOp → Prop) : Prop :=
      ∃ t op, exec i s = .next t ∧ t.out = .done ∧ t.warps = s.warps ∧ s.sameBytes t ∧ t.blocks = s.blocks
        ∧ t.ops.get? s.nextId = some op ∧ op.kind = kind ∧ op.tile = t0 ∧ op.blk = s.myBlk ∧ op.started = false ∧ g op
        ∧ .factorOpStart s.myBlk t0 ∈ t.agenda
    s.before.acq = [] → s.isTrap = false → t0 < s.myBlock.nft → (s.ftQueue s.myBlk t0).length < 4 →
    (s.ftChanging t0 = false → n ≠ 0 →
      (s.gate (.ftupd tt v) = .go → queued (.ftupd tt v) (.ftupd false) fun op => op.vec = s.vecOf v)
      ∧ (s.gate (.ftdnd tt v) = .go → queued (.ftdnd tt v) (.ftupd true) fun op => op.vec = s.vecOf v)
      ∧ (s.gate (.ftslvf tt v o) = .go → queued (.ftslvf tt v o) (.ftslv false) fun op =>
        op.vec = s.vecOf o ∧ op.n = Src.num v ∧ op.exec = s.execMask)
      ∧ (s.gate (.ftslvb tt v o) = .go → queued (.ftslvb tt v o) (.ftslv true) fun op =>
        op.vec = s.vecOf o ∧ op.n = Src.num v ∧ op.exec = s.execMask)
      ∧ (s.gate (.ftrow tt v o) = .go → k < n → queued (.ftrow tt v o) .ftrow fun op =>
        op.n = Src.num v ∧ op.exec = s.execMask ∧ op.args.getD 1 0 = k)
      ∧ (s.gate (.ftst tt v o) = .go → off % 16 = 0 → bar % 16 = 0 → s.padCovered s.myBlk bar 16 = true →
        s.padCovered s.myBlk off (ftBytes n) = true → s.locksWait s.myCore [] [s.padRange off (ftBytes n)] = false →
        s.unsettled s.cur s.chainId [s.padRange off (ftBytes n)] = false →
        queued (.ftst tt v o) .ftst fun op => op.off = off ∧ op.bar = some bar ∧ op.args.getD 1 0 = n))
    ∧ (s.gate (.ftinit tt v o) = .go → 1 ≤ k → k ≤ 96 →
      (∀ i < k, posFinite (s.readLane v i).toNat = true) →
      queued (.ftinit tt v o) .ftinit fun op => op.vec = s.vecOf v ∧ op.args.getD 1 0 = k)
    ∧ (∀ i, s.gate (.ftinit tt v o) = .go → i < k → k ≤ 96 → (∀ j < i, posFinite (s.readLane v j).toNat = true) →
      posFinite (s.readLane v i).toNat = false →
      exec (.ftinit tt v o) s = .next (if s.before.ftTrap
        then (s.noteLoss s.cur t0 i).raise { cause := .deflost, data := BitVec.ofNat 32 (128 * t0 + i), after := true }
        else { s.noteLoss s.cur t0 i with out := .done }))
    ∧ (let m := fieldAt (s.padRead s.myCore off 16) 0 4
      s.gate (.ftld tt v o) = .go → off % 16 = 0 → bar % 16 = 0 → s.padCovered s.myBlk bar 16 = true → s.padCovered s.myBlk off 16 = true →
      s.engineWaits s.myCore [s.padRange off 16] [] = false → s.unsettled s.cur s.chainId [s.padRange off 16] = false →
      s.staleRange s.myCore off 16 = false → 1 ≤ m → m ≤ 96 → zeroFrom (s.padRead s.myCore off 16) 4 12 = true →
      s.padCovered s.myBlk off (ftBytes m) = true →
      s.lateRange s.myCore off (ftBytes m) (clocksNs ((ftBytes m + 2047) / 2048 + m + s.ftDue s.myBlk t0)) = false →
      s.locksWait s.myCore [s.padRange off (ftBytes m)] [] = false → s.unsettled s.cur s.chainId [s.padRange off (ftBytes m)] = false →
      queued (.ftld tt v o) .ftld fun op => op.off = off ∧ op.bar = some bar ∧ op.args.getD 1 0 = m))
  ∧ ∀ (s : State) (blk tile id bar : Nat) (o : EngOp), (s.ftQueue blk tile).head? = some (id, o) →
    let f := (s.block blk).ftiles.get tile {}
    let key := warpKey o.core o.slot
    let n := o.args.getD 1 0
    (o.started = false → s.ops.get? id = some o → ∃ t, exec (.factorOpStart blk tile) s = .next t ∧ t.out = .done ∧ t.warps = s.warps ∧ s.sameBytes t
      ∧ t.ops.get? id = some { o with started := true } ∧ t.agenda = s.agenda ++ [.factorOpComplete blk tile])
    ∧ (o.started = true →
      (o.kind = .ftinit → ∃ t, exec (.factorOpComplete blk tile) s = .next t ∧ t.out = .done ∧ t.warps = s.warps ∧ s.sameBytes t
        ∧ t.ops.get? id = none ∧ (t.block blk).ftiles.get tile {}
          = { order := n, bank := (List.range n).map fun i => (97 * i, o.vec.getD i 0) })
      ∧ (∀ down, o.kind = .ftupd down → s.lossHeld key = true → exec (.factorOpComplete blk tile) s
        = .next { s with agenda := s.agenda ++ [.factorOpComplete blk tile], out := .done })
      ∧ (∀ down, o.kind = .ftupd down → s.lossHeld key = false → match sweep down f.order f.order 0 { bank := f.bank, x := o.vec.map (·.toNat) } with
        | .ok bank => ∃ t, exec (.factorOpComplete blk tile) s = .next t ∧ t.out = .done ∧ t.warps = s.warps ∧ s.sameBytes t
          ∧ t.ops.get? id = none ∧ (t.block blk).ftiles.get tile {} = { f with bank := bank }
        | .error c => s.hasWarp key = true → (s.warp key).blk = blk → (s.warp key).ftLost = false → (s.warp key).ftTrap = false →
          ∃ t, exec (.factorOpComplete blk tile) s = .next t ∧ t.out = .done ∧ s.sameBytes t ∧ t.ops.get? id = none
            ∧ (t.block blk).ftiles.get tile {} = f ∧ (t.warp key).ftLost = true ∧ (t.warp key).ftTile = tile ∧ (t.warp key).ftCol = c)
      ∧ (s.hasWarp key = true → (s.warp key).blk = blk →
        (∀ back, o.kind = .ftslv back → ∃ t, exec (.factorOpComplete blk tile) s = .next t ∧ t.out = .done ∧ s.sameBytes t
          ∧ t.ops.get? id = none ∧ t.blocks = s.blocks ∧ (∀ r, r ≠ o.n → (t.warp key).vreg r = (s.warp key).vreg r)
          ∧ ∀ l < 96, lane ((t.warp key).vreg o.n) l = if o.exec.getLsbD l ∧ l < f.order
            then BitVec.ofNat 32 ((solve f back ((o.vec.take f.order).map (·.toNat))).getD l 0) else lane ((s.warp key).vreg o.n) l)
        ∧ (o.kind = .ftrow → ∃ t, exec (.factorOpComplete blk tile) s = .next t ∧ t.out = .done ∧ s.sameBytes t
          ∧ t.ops.get? id = none ∧ t.blocks = s.blocks ∧ (∀ r, r ≠ o.n → (t.warp key).vreg r = (s.warp key).vreg r)
          ∧ ∀ l < 96, lane ((t.warp key).vreg o.n) l = if o.exec.getLsbD l then BitVec.ofNat 32 (f.at' l n)
            else lane ((s.warp key).vreg o.n) l))
      ∧ (o.kind = .ftld → o.bar = some bar → s.ops.get? id = some o →
        let x := FTile.ofImage n (s.padRead o.core o.off (ftBytes n))
        ∃ t, exec (.factorOpComplete blk tile) s = .next t ∧ t.out = .done ∧ t.ops.get? id = none
          ∧ ((∀ k < n, posFinite (x.at' k k) = true) → (t.block blk).ftiles.get tile {} = x)
          ∧ ((∃ k < n, posFinite (x.at' k k) = false) → (t.block blk).ftiles.get tile {} = f
            ∧ ((s.mbar o.core bar).status = 0 → (t.mbar o.core bar).status = 10)))
      ∧ (o.kind = .ftst → o.bar = some bar → s.ops.get? id = some o → bar + 16 ≤ o.off ∨ o.off + f.image.length ≤ bar →
        ∃ t, exec (.factorOpComplete blk tile) s = .next t ∧ t.out = .done ∧ t.ops.get? id = none ∧ t.blocks = s.blocks
          ∧ t.padRead o.core o.off f.image.length = f.image ∧ t.mbar o.core bar = (s.mbar o.core bar).countdown (ftBytes n)))

/-! Regions, records and queues. -/

/-- R313, R314, R316, R401: a region's activation ends with the error its control block gives, and none of it active; or
with the region active with its effective fields, within four levels and within its parent's masks and limits, looking
at every producer index it watches; or goes on while a producer index's leaf is held. A producer index is read at the
line watched: a record is taken, or the warps that wait on a SOFTWARE queue are served, when it has moved past CIDX;
a read that fails leaves the queue as it was (log entry 39) with a RAS record PIDX (log entry 54); every watched one is read
at a poll. -/
def Obligations.Regions : Prop :=
  ∀ (s : State) (die region q : Nat),
    (region ∈ (s.die die).regBusy → (s.going.find? fun r => r.die == die && r.id == region) = none →
      ∀ z code, s.readRcb die region = (z, .error code) →
      ∃ t, exec (.regionActivationDone die region) s = .next t ∧ t.out = .done ∧ (t.die die).regErr.get region 0 = code
        ∧ region ∉ (t.die die).regBusy ∧ t.regionActive die region = false ∧ z.sameBytes t ∧ t.blocks = z.blocks)
    ∧ (region ∈ (s.die die).regBusy → ∀ z r,
      ((s.going.find? fun r => r.die == die && r.id == region) = some r ∧ z = s
        ∨ (s.going.find? fun r => r.die == die && r.id == region) = none ∧ s.readRcb die region = (z, .ok r)) →
      (∀ u y, z.setWatches r (List.range 8) = (u, y, true) →
        ∃ t, exec (.regionActivationDone die region) s = .next t ∧ t.out = .done ∧ (t.die die).regErr.get region 0 = 0
          ∧ region ∉ (t.die die).regBusy ∧ t.regionOf die region = some y ∧ y = { r with watch := y.watch, queues := y.queues }
          ∧ ∀ e ∈ y.watch, .pidxNotice die region e.1 ∈ t.agenda)
      ∧ ∀ u y, z.setWatches r (List.range 8) = (u, y, false) →
        ∃ t, exec (.regionActivationDone die region) s = .next t ∧ t.out = .done ∧ t.regions = u.regions
          ∧ (t.going.find? fun r => r.die == die && r.id == region) = some y ∧ t.agenda = u.agenda ++ [.regionActivationDone die region])
    ∧ (∀ b r, s.activation die region b = .ok r → r.die = die ∧ r.id = region ∧ r.active = true ∧ r.depth ≤ 4
      ∧ ∀ p, r.parent = some p → ∃ x, s.regionOf die p = some x ∧ x.active = true ∧ r.depth = x.depth + 1
        ∧ r.diemask &&& x.diemask = r.diemask ∧ r.rodmask &&& x.rodmask = r.rodmask ∧ r.coremask &&& x.coremask = r.coremask
        ∧ r.maxcores ≤ x.maxcores ∧ r.spceil ≤ x.spceil)
    ∧ (∀ r line l, s.regionOf die region = some r → r.active = true → r.watch.get? q = some (line, l) →
      (∀ y d, s.readLine line r.part l.ns l.policy = (y, .bytes d) →
        let p := leNat (slice d ((r.queue q).pidxa % 128) 4)
        ∃ t, exec (.pidxNotice die region q) s = .next t ∧ t.out = .done
          ∧ (∀ x, y.regionOf die region = some x → t.regionOf die region = some { x with pidx := x.pidx.put q p })
          ∧ (p = (r.queue q).cidx → t.agenda = y.agenda)
          ∧ (p ≠ (r.queue q).cidx → (r.queue q).cons = false → .recordTake die region q ∈ t.agenda)
          ∧ (p ≠ (r.queue q).cidx → (r.queue q).cons = true → ∀ e ∈ y.warps, ∀ n, e.2.asks.get? 1 = some (.qwait region q n) →
            .qwaitServe (keyCore e.1) (keySlot e.1) ∈ t.agenda))
      ∧ (∀ y, s.readLine line r.part l.ns l.policy = (y, .held) →
        exec (.pidxNotice die region q) s = .next { y.pushNew (.pidxNotice die region q) with out := .done })
      ∧ ∀ y c n m, s.readLine line r.part l.ns l.policy = (y, .fail c n m) →
        exec (.pidxNotice die region q) s = .next { y with ras := y.ras ++ [⟨"PIDX", [region, q, c.bit]⟩], out := .done })
    ∧ ∃ t, exec (.pidxPoll die) s = .next t ∧ t.out = .done ∧ (t.die die).polled = s.now die
      ∧ ∀ r ∈ s.regions, r.die = die → r.active = true → ∀ e ∈ r.watch, .pidxNotice die r.id e.1 ∈ t.agenda

/-- R318 to R323, R401: of the queues that are ready an engine serves one of the lowest class; its head record stops the
queue when it is bad, and launches when it is not; a block is placed on the core the engine prefers, before no evicted
block of its class that could go, its warps at the packet after the descriptor with the frame in s62:s63; a block whose
warps have all exited, and that nothing is in flight for, retires; a record whose blocks have retired contributes to its
join object, once its leases are over, and is gone; a successor is dropped, held in its order of arrival, or put in its
queue. The core preferred beyond R322's order, and the rotation, are the model's (log entry 37), and so are the words of
the RAS records QUEUE and PUSHDROP (log entry 54). -/
def Obligations.Records : Prop :=
  ∀ (s : State),
    (∀ die region q, s.nextQueue die = some (region, q) → ∃ r ∈ s.regions, r.die = die ∧ r.id = region ∧ s.queueReady r q = true
      ∧ ∀ x ∈ s.regions, x.die = die → ∀ j < 8, s.queueReady x j = true → r.cls ≤ x.cls)
    ∧ (∀ die region q r, s.regionOf die region = some r → s.queueReady r q = true →
      let again (z : State) := exec (.recordTake die region q) s = .next { z with agenda := z.agenda ++ [.recordTake die region q], out := .done }
      (s.nextQueue die ≠ some (region, q) → again s)
      ∧ (s.nextQueue die = some (region, q) →
        (∀ z, (s.turned r q).checkRecord r q = (z, none) → again z)
        ∧ (∀ z code, (s.turned r q).checkRecord r q = (z, some (.error code)) → ∃ t, exec (.recordTake die region q) s = .next t
          ∧ t = { z.stopQueue r q code (r.queue q).cidx with out := .done }
          ∧ ∃ pre, t.ras = pre ++ [⟨"QUEUE", [r.id, q, code, (r.queue q).cidx]⟩])
        ∧ ∀ z x, (s.turned r q).checkRecord r q = (z, some (.ok x)) → ∃ t id g, exec (.recordTake die region q) s = .next t
          ∧ t.out = .done ∧ t.recs.get? id = some { x with grid := g } ∧ .recordTake die region q ∈ t.agenda
          ∧ (x.nblk = 0 → .joinContribution id ∈ t.agenda)
          ∧ (x.nblk ≠ 0 → t.grids.get? g = some { home := die, coop := x.coop, nblk := x.nblk })))
    ∧ (∀ rec core, s.findPlace rec ≠ some core → exec (.blockPlacement rec core) s = .next { s with out := .done })
    ∧ (∀ rec core x r, s.recs.get? rec = some x → s.regionOf x.die x.region = some r → x.coop = false → x.clust = 0 →
      s.findPlace rec = some core → s.resumesFirst (State.recCls r x) = false →
      ∃ t b y, exec (.blockPlacement rec core) s = .next t ∧ t.out = .done
        ∧ t.recs.get? rec = some { x with placed := x.placed + 1 } ∧ t.blocks.get? b = some y
        ∧ y.core = core ∧ y.region = r.id ∧ y.idx = x.placed ∧ y.nblk = x.nblk ∧ y.lrec = rec ∧ y.slots.length = x.warps
        ∧ ∀ i < x.warps, ∃ w, t.warps.get? (warpKey core (y.slots.getD i 0)) = some w ∧ w.blk = b ∧ w.widx = i
          ∧ w.position = (x.code + 384, 0, false) ∧ w.run = .running ∧ w.exec = BitVec.allOnes 96 ∧ w.sls = BitVec.allOnes 96
          ∧ w.sreg 62 = lowWord x.frame ∧ w.sreg 63 = highWord x.frame ∧ w.role = bits x.rolemap (2 * i) 2)
    ∧ (∀ blk x, s.blocks.get? blk = some x → x.state = .running → (∀ k ∈ s.blockWarps blk, (s.warp k).run = .exited) →
      s.blockBusy blk = false → x.mstale = [] →
      ∃ t, exec (.blockRetire blk) s = .next t ∧ t.out = .done ∧ (t.block blk).state = .retired ∧ (t.block blk).slots = []
        ∧ (∀ a ∈ t.allocs, a.blk ≠ blk) ∧ ∀ r, s.recs.get? x.lrec = some r →
          (t.recs.get? x.lrec).map (·.live) = some (r.live - 1)
          ∧ (r.live = 1 → r.placed = r.nblk → .joinContribution x.lrec ∈ t.agenda))
    ∧ (∀ rec x, s.recs.get? rec = some x →
      (x.joinc = 0 → ∃ t, exec (.joinContribution rec) s = .next t ∧ t.out = .done ∧ t.recs.get? rec = none ∧ s.sameBytes t)
      ∧ (x.joinc ≠ 0 → s.now x.die ≤ x.ended.hold →
        exec (.joinContribution rec) s = .next { s with agenda := s.agenda ++ [.joinContribution rec], out := .done })
      ∧ (x.joinc ≠ 0 → x.ended.hold < s.now x.die → ∀ r z b, s.regionOf x.die x.region = some r →
        s.joinDec (State.regionAgent r) x.joinc 1 x.ended = (z, .bytes b) →
        ∃ t, exec (.joinContribution rec) s = .next t ∧ t.out = .done ∧ t.recs.get? rec = none ∧ t.pushes = z.pushes
          ∧ t.agenda = z.agenda))
    ∧ (∀ push x, s.pushes.get? push = some x →
      let dropped (z : State) := exec (.successorPush push) s
        = .next { z with ras := z.ras ++ [⟨"PUSHDROP", [x.from']⟩], pushes := z.pushes.del push, out := .done }
      let again (z : State) := exec (.successorPush push) s = .next { z with agenda := z.agenda ++ [.successorPush push], out := .done }
      ((∀ r, s.queueAt x.region x.queue = some r → r.active = false ∨ (r.queue x.queue).en = false ∨ (r.queue x.queue).prod = false) →
        dropped s)
      ∧ ∀ r, s.queueAt x.region x.queue = some r → r.active = true → (r.queue x.queue).en = true → (r.queue x.queue).prod = true →
        let y := s.arrives push x
        (y.pushBehind x.region x.queue ((y.pushes.get push x).at') = true → again y)
        ∧ (y.pushBehind x.region x.queue ((y.pushes.get push x).at') = false → ∀ z p, y.pushSuccessor r x = (z, p) →
          (p = .full ∨ p = .held → again z) ∧ (p = .failed → dropped z)
          ∧ (p = .done → exec (.successorPush push) s = .next { z with pushes := z.pushes.del push, out := .done })))
    ∧ ∀ r x a bs b pb c l, s.readBytes (State.regionAgent r) x.succ 64 .r = (a, .bytes bs) → a.pidxRead r x.queue = (b, .bytes pb) →
      b.lidxOf r x.queue = (c, l) →
      (2 ^ (r.queue x.queue).log2 ≤ (leNat pb + 2 ^ 32 - l) % 2 ^ 32 → s.pushSuccessor r x = (c, .full))
      ∧ ((leNat pb + 2 ^ 32 - l) % 2 ^ 32 < 2 ^ (r.queue x.queue).log2 →
        ∀ z, c.ringPush r x.queue (leNat pb) bs x.tag = (z, some true) → s.pushSuccessor r x = (z, .done))

/-- R326, R327: QWAIT parks until the queue's engine gives it a record's address, to the warp that has waited longest;
CRPUSH and JDEC release at DEV and wait for theirs: a push is told 3 where the region is not the block's or a
descendant, or PROD is EXTERNAL, 2 where the region or the queue is not active, 1 where the ring is full, 4 where an
access fails, 0 when the record is in (log entry 37); a JDEC's count goes down by n at the object's home, which answers what
is left or FFFFFFFF, and the last one pushes the successor; where a PUT of its chain fails, neither has an effect (R23). -/
def Obligations.QueueWords : Prop :=
  ∀ (s : State) (d o q st p n : BitVec 6) (x : Src),
    let me := if s.isTrap then s.ctxRegion else s.myBlock.region
    let num := (s.readScalar x).toNat
    (s.gate (.qwait d x) = .go →
      (∀ v, s.me.replies.get? 1 = some (.value v) → ∃ t, exec (.qwait d x) s = .next t ∧ t.out = .done ∧ s.onlyMe t
        ∧ (∀ r, r ≠ d.toNat → r ≠ d.toNat + 1 → t.me.sreg r = s.me.sreg r)
        ∧ t.me.sreg d.toNat = Warp.slsAnd s.before.sls d.toNat (lowWord v)
        ∧ t.me.sreg (d.toNat + 1) = Warp.slsAnd s.before.sls (d.toNat + 1) (highWord v) ∧ t.me.asks.get? 1 = none ∧ t.me.wake = .none)
      ∧ (s.me.replies.get? 1 = none → s.me.asks.get? 1 = none → s.acqHolds = false →
        (∀ e, num ≤ 7 → s.queueInfo me num = some e → e.en = true → e.cons = true →
          ∃ t, exec (.qwait d x) s = .next t ∧ t.out = .parked ∧ s.sameRegs t ∧ t.me.asks.get? 1 = some (.qwait me num s.nextId)
            ∧ t.me.wake = .qwait me num ∧ t.agenda = s.agenda ++ [.qwaitServe s.myCore s.mySlot])
        ∧ (7 < num ∨ (∀ e, s.queueInfo me num = some e → e.en = false ∨ e.cons = false) →
          exec (.qwait d x) s = .next (s.fail .bounds))))
    ∧ (∀ core slot region k r m j, (s.warp (warpKey core slot)).asks.get? 1 = some (.qwait region k m) →
      s.firstWaiter region k = some j → s.queueAt region k = some r → (r.queue k).en = true → (r.queue k).cons = true → r.active = true →
      (∀ z bs, s.pidxRead r k = (z, .bytes bs) →
        (leNat bs ≠ (r.queue k).cidx → ∃ t, exec (.qwaitServe core slot) s = .next t ∧ t.out = .done
          ∧ (t.warp j).replies.get? 1 = some (.value ((r.queue k).ring + (r.queue k).cidx % 2 ^ (r.queue k).log2 * 64)))
        ∧ (leNat bs = (r.queue k).cidx → exec (.qwaitServe core slot) s = .next { z with out := .done }))
      ∧ ∀ z, s.pidxRead r k = (z, .held) →
        exec (.qwaitServe core slot) s = .next { z with agenda := z.agenda ++ [.qwaitServe core slot], out := .done })
    ∧ (s.gate (.crpush o q st) = .go →
      let off := (s.before.sreg o.toNat).toNat
      let sel := (s.before.sreg q.toNat).toNat
      (∀ v, s.me.replies.get? 2 = some (.value v) → ∃ t, exec (.crpush o q st) s = .next t ∧ t.out = .done ∧ s.onlyMe t
        ∧ (∀ r, r ≠ st.toNat → t.me.sreg r = s.me.sreg r)
        ∧ t.me.sreg st.toNat = Warp.slsAnd s.before.sls st.toNat (BitVec.ofNat 32 v) ∧ t.me.asks.get? 2 = none)
      ∧ (s.me.replies.get? 2 = none → s.me.asks.get? 2 = none → s.acqHolds = false → s.isTrap = false → off % 64 = 0 →
        s.padReadCheck off 64 = none → sel < 2 ^ 15 → s.relReady 4 = true →
        ∃ t, exec (.crpush o q st) s = .next t ∧ t.out = .waiting ∧ s.sameRegs t ∧ t.agenda = s.agenda ++ [.crpushAtEngine s.myCore s.mySlot]
          ∧ t.me.asks.get? 2 = some (.crpush off (sel % 4096) (sel / 4096 % 8) ((s.core s.myCore).pad.readN off 64))))
    ∧ (∀ core slot off region k bs, let key := warpKey core slot
      (s.warp key).asks.get? 2 = some (.crpush off region k bs) → (s.warp key).replies.get? 2 = none →
      let mine := s.descends 4 region (s.block (s.warp key).blk).region
      let prod := ((s.queueInfo region k).map (·.prod)).getD false
      let told (v : Nat) : Prop := ∃ t, exec (.crpushAtEngine core slot) s = .next t ∧ t.out = .done
        ∧ (t.warp key).replies.get? 2 = some (.value v)
      let waits (z : State) : Prop := exec (.crpushAtEngine core slot) s = .next { z.crpushWaits key region k with out := .done }
      (mine = false ∨ prod = false → told 3)
      ∧ (mine = true → prod = true →
        ((∀ r, s.queueAt region k = some r → r.active = false ∨ (r.queue k).en = false) → told 2)
        ∧ ∀ r, s.queueAt region k = some r → r.active = true → (r.queue k).en = true →
          let n := ((s.pushes.find? fun e => e.2.warp == some key).map (·.2.at')).getD s.nextId
          (s.pushBehind region k n = true → ∀ z full, s.crpushFull r k = (z, full) → if full then told 1 else waits z)
          ∧ (s.pushBehind region k n = false → ∀ z p, s.pushRecord r k bs ⟨(s.core core).lclk, (s.core core).leasemax⟩ = (z, p) →
            match p with
            | .full => told 1
            | .held => waits z
            | .failed => told 4
            | .done => told 0)))
    ∧ (s.gate (.jdec p n st) = .go →
      let a := s.before.spair p.toNat
      (∀ v, s.me.replies.get? 3 = some (.value v) → ∃ t, exec (.jdec p n st) s = .next t ∧ t.out = .done ∧ s.onlyMe t
        ∧ (∀ r, r ≠ st.toNat → t.me.sreg r = s.me.sreg r)
        ∧ t.me.sreg st.toNat = Warp.slsAnd s.before.sls st.toNat (BitVec.ofNat 32 v) ∧ t.me.asks.get? 3 = none)
      ∧ (s.me.replies.get? 3 = none → s.me.asks.get? 3 = none → s.acqHolds = false → a % 32 = 0 → a < 2 ^ 56 → s.relReady 4 = true →
        ∃ t, exec (.jdec p n st) s = .next t ∧ t.out = .waiting ∧ s.sameRegs t ∧ t.agenda = s.agenda ++ [.jdecAtHome s.myCore s.mySlot]
          ∧ t.me.asks.get? 3 = some (.jdec a (s.before.sreg n.toNat).toNat)))
    ∧ (∀ core slot va m, slot ≤ 64 → (s.warp (warpKey core slot)).asks.get? 3 = some (.jdec va m) →
      (s.warp (warpKey core slot)).replies.get? 3 = none →
      let c := s.core core
      let ag : Agent := if slot = 64 then
          { core := some core, die := dieOf core, region := c.region, root := c.xroot, part := c.part, ns := c.world }
        else s.blockAgent (s.warp (warpKey core slot)).blk
      ∀ z l off z' b, s.translate ag va .rw = (z, .leaf l) → placeOf (l.phys va) = .memory off → z.readVa ag va 32 .r = (z', .bytes b) →
      let old := fieldAt b 0 4
      let alone := (s.warp (warpKey core slot)).asks.get? 0 = none
      (old < m → alone → ∃ t, exec (.jdecAtHome core slot) s = .next t ∧ t.out = .done
        ∧ (t.warp (warpKey core slot)).replies.get? 3 = some (.value 0xFFFFFFFF))
      ∧ (old < m → ∀ j mode v num sp nz o, (s.warp (warpKey core slot)).asks.get? 0 = some (.put j mode v num sp nz) →
        (s.warp (warpKey core slot)).replies.get? 0 = none →
        (s.putFile (s.warp (warpKey core slot)).blk j).slots.get? j = some o → o.mode ≠ mode →
        (z'.warp (warpKey core slot)) = s.warp (warpKey core slot) → z'.blocks = s.blocks → z'.clusters = s.clusters → z'.grids = s.grids →
        ∃ t, exec (.jdecAtHome core slot) s = .next t ∧ t.out = .done ∧ s.sameBytes t
          ∧ (t.warp (warpKey core slot)).replies.get? 0 = some (.cause .scopemix) ∧ (t.warp (warpKey core slot)).replies.get? 3 = none
          ∧ (t.warp (warpKey core slot)).asks.get? 3 = none)
      ∧ (m ≤ old → alone → ∀ z'' c y, z'.writeVa ag va (leBytes 4 (old - m)) = (z'', .bytes c, y) →
        ∃ t, exec (.jdecAtHome core slot) s = .next t ∧ t.out = .done
          ∧ (t.warp (warpKey core slot)).replies.get? 3 = some (.value (old - m))
          ∧ (old = m → 0 < m → fieldAt b 8 8 ≠ 0 → ∃ id u, .successorPush id ∈ t.agenda ∧ t.pushes.get? id = some u
            ∧ u.region = fieldAt b 4 4 % 4096 ∧ u.queue = fieldAt b 4 4 / 4096 % 8 ∧ u.succ = fieldAt b 8 8 ∧ u.from' = va)))

/-! The configuration window and what its registers start. -/

/-- R70 to R77, R102: a domain's mask, range and enable take effect only when the rules let them; quiescing drains the
domain of its directory entries, a dead slice counting as drained, once no transaction is open there; a share, a slice's
power and a core's power change as their rules say (what a mask may name, a release while the drain is BUSY and the share read meanwhile: log
entry 56). -/
def Obligations.DomainsAndPower : Prop :=
  ∀ (s : State) (die n v part sc core : Nat) (limit : Bool) (en : Bool), n < 4 →
    let d := s.domain die n
    let off := (List.range 32).any fun k => (v % 2 ^ 32).testBit k && !(s.slc die k).on
    let done := { s with out := Issue.done }
    let mine (l : Nat) : Bool := isMemory l && homeDie l == die && s.domainOf l == n
    let live (l : Nat) : Bool := mine l && !(s.slc die (s.sliceOf l)).dead
    let ofPart (l : Nat) : Bool := isMemory l && homeDie l == die
      && (((s.sliceLine l).map (·.part)) == some part || ((s.dirEnt l).map (·.part)) == some part)
    (∃ t, exec (.domMaskWrite die n v) s = .next t ∧ t.out = .done
      ∧ (d.quiesce = true → d.busy = false → v % 2 ^ 32 ≠ 0 → off = false → t.domain die n = { d with mask := v % 2 ^ 32 })
      ∧ (d.quiesce = false ∨ d.busy = true ∨ v % 2 ^ 32 = 0 ∨ off = true → t = done))
    ∧ (∃ t, exec (.domRangeWrite die n limit v) s = .next t ∧ t.out = .done
      ∧ (d.en = false ∨ d.quiesce = true → t.domain die n = if limit then { d with limit := v / 2 ^ 16 % 2 ^ 36 } else { d with base := v / 2 ^ 16 % 2 ^ 36 })
      ∧ (d.en = true → d.quiesce = false → t = done))
    ∧ (d.quiesce = false → ∃ t, exec (.domQuiesce die n) s = .next t ∧ t.out = .done ∧ t.domain die n = { d with quiesce := true, busy := true }
      ∧ t.agenda = s.agenda ++ [.domDrainComplete die n])
    ∧ (∃ t, exec (.domRelease die n) s = .next t ∧ t.out = .done ∧ t.domain die n = { d with quiesce := false, busy := false })
    ∧ (∃ t, exec (.domEnable die n en) s = .next t ∧ t.out = .done ∧ (n = 0 → t = done) ∧ (n ≠ 0 → t.domain die n = { d with en := en }))
    ∧ (d.busy = true → (∀ l ∈ s.txns, live l = false) → (∀ l ∈ s.linesHeld, live l = true → s.silent l = false) →
      ∃ t, exec (.domDrainComplete die n) s = .next t ∧ t.out = .done ∧ (t.domain die n).busy = false ∧ ∀ e ∈ t.dir, live e.base = false)
    ∧ (d.busy = true → (∃ l ∈ s.txns, live l = true) →
      exec (.domDrainComplete die n) s = .next { s with agenda := s.agenda ++ [.domDrainComplete die n], out := .done })
    ∧ (∃ t, exec (.partShareWrite die part v) s = .next t ∧ t.out = .done
      ∧ (v % 8 ≤ 4 → (s.die die).shareNew.get? part = none → v % 8 ≠ s.share die part →
        (t.die die).shareNew.get? part = some (v % 8) ∧ t.share die part = s.share die part ∧ t.agenda = s.agenda ++ [.partShareDone die part])
      ∧ (4 < v % 8 → t = done))
    ∧ (∀ m, (s.die die).shareNew.get? part = some m → (∀ l ∈ s.txns, ofPart l = false) →
      (∀ l ∈ s.linesHeld, ofPart l = true → s.silent l = false) →
      ∃ t, exec (.partShareDone die part) s = .next t ∧ t.out = .done ∧ t.share die part = m ∧ (t.die die).shareNew.get? part = none)
    ∧ ((∀ k < 4, (s.domain die k).mask.testBit sc = false) →
      ∃ t, exec (.slicePowerOff die sc) s = .next t ∧ t.out = .done ∧ (t.slc die sc).pwr = false ∧ (t.slc die sc).on = (s.slc die sc).on)
    ∧ ((s.slc die sc).pwr = false → ∃ t, exec (.sliceOffComplete die sc) s = .next t ∧ t.out = .done ∧ (t.slc die sc).on = false
      ∧ t.mem = s.mem ∧ ∀ x ∈ t.slices, x.die ≠ die ∨ x.slice ≠ sc)
    ∧ (∃ t, exec (.slicePowerOn die sc) s = .next t ∧ t.out = .done ∧ (t.slc die sc).on = true ∧ (t.slc die sc).pwr = true
      ∧ (t.slc die sc).mclk = (s.slc die sc).mclk ∧ ((s.slc die sc).on = false → (t.slc die sc).floor0 = (s.slc die sc).mclk))
    ∧ (∃ t, exec (.corePowerOff core) s = .next t ∧ t.out = .done ∧ (s.blocksOn core ≠ [] → t = done)
      ∧ (s.blocksOn core = [] → (t.core core).powered = false ∧ (∀ c ∈ t.chunks, c.core ≠ core) ∧ (t.core core).dicts = Vector.replicate 2 {}))
    ∧ ∃ t, exec (.corePowerOn core) s = .next t ∧ t.out = .done ∧ (t.core core).powered = true ∧ s.sameBytes t

/-- R50, R101, R102, R115, R314, R344, R345, R399: a write of the configuration window reaches the register at its
address, of its width, and nothing elsewhere, and does what a write of that register does, for every register of the map
(the corners of the map: log entry 22); bundle tables and the device id hold while a record is in use; declaring an agent
dead raises its incarnation and starts the scrub (whose incarnation, and a write without GO: log entry 24); a pre-emption
request (PARK latched at GO, which clears RESULT: log entry 48) and a region's activation begin, or end with their result. -/
def Obligations.WindowWrites : Prop :=
  ∀ (s : State) (die v agent core bslot region pa : Nat) (versions park w64 : Bool),
    let done := { s with out := Issue.done }
    ((s.die die).deadBusy = false → agent < 32 →
      (∃ t, exec (.deadCore die agent) s = .next t ∧ t.out = .done ∧ (t.core (32 * die + agent)).inc = ((s.core (32 * die + agent)).inc + 1) % 256
        ∧ (t.die die).deadBusy = true ∧ t.agenda = s.agenda ++ [.scrubComplete die])
      ∧ (∃ t, exec (.deadSlice die agent) s = .next t ∧ t.out = .done ∧ (t.slc die agent).inc = ((s.slc die agent).inc + 1) % 256
        ∧ (t.slc die agent).dead = true ∧ (t.die die).deadBusy = true ∧ t.agenda = s.agenda ++ [.scrubComplete die])
      ∧ (agent < 24 → ∃ t, exec (.deadDie die agent) s = .next t ∧ t.out = .done ∧ (t.die agent).dead = true
        ∧ (t.die die).incs.get agent 0 = ((s.die die).incs.get agent 0 + 1) % 256 ∧ (t.die die).deadBusy = true
        ∧ t.agenda = s.agenda ++ [.scrubComplete die]))
    ∧ (∃ t u, exec (.bndlBaseWrite die versions v) s = .next t ∧ t.out = .done ∧ exec (.devIdWrite die v) s = .next u ∧ u.out = .done
      ∧ ((∀ r ∈ s.brecs, r.die = die → r.st = 0) → (t.die die).bbase = (if versions then (s.die die).bbase else some (v / 2 ^ 22 % 2 ^ 30 * 2 ^ 22))
        ∧ (t.die die).vbase = (if versions then some (v / 2 ^ 25 % 2 ^ 27 * 2 ^ 25) else (s.die die).vbase)
        ∧ (u.die die).devId = v % 4096)
      ∧ ∀ r ∈ s.brecs, r.die = die → r.st ≠ 0 → t = done ∧ u = done)
    ∧ (cfgTarget pa w64 = none → exec (.configRegisterWrite pa w64 v) s = .next done)
    ∧ (∀ off r, die < 24 → cfgRegAt off = some r →
      let w := exec (.configRegisterWrite (die * 2 ^ 32 + off) r.w64 v) s
      let set (f : Die → Die) : Prop := w = .next { s.modDie die f with out := .done }
      exec (.configRegisterWrite (die * 2 ^ 32 + off) (!r.w64) v) s = .next done
      ∧ match r with
        | .domMask n => w = exec (.domMaskWrite die n v) s
        | .domBase n => w = exec (.domRangeWrite die n false v) s
        | .domLimit n => w = exec (.domRangeWrite die n true v) s
        | .domCtl n => ∀ t, exec (.domEnable die n (v.testBit 0)) s = .next t →
          w = exec (if v.testBit 1 then .domQuiesce die n else .domRelease die n) t
        | .partShare p => w = exec (.partShareWrite die p v) s
        | .deadCtl => if v.testBit 31 then
            ((s.die die).deadBusy = true → w = .next done)
            ∧ ((s.die die).deadBusy = false → ∀ e ∈ ([(0, .deadCore die (v % 32)), (1, .deadSlice die (v % 32)),
                (2, .deadDie die (v % 32))] : List (Nat × Instr)), v / 2 ^ 28 % 4 = e.1 → w = exec e.2 s)
          else set fun d => { d with deadKind := v / 2 ^ 28 % 4, deadAgent := v % 32 }
        | .bndlDiag => set fun d => { d with bdiagEn := v.testBit 31, bdelay := v % 2 ^ 16 }
        | .bndlHorizon => if v % 2 ^ 16 < 10 then w = .next done else set fun d => { d with hor := v % 2 ^ 16 }
        | .bndlBase => w = exec (.bndlBaseWrite die false v) s
        | .bndlVbase => w = exec (.bndlBaseWrite die true v) s
        | .preempt c => let u := s.modCore (32 * die + c) fun x =>
            { x with preempt := { x.preempt with park := v.testBit 28, bslot := v / 2 ^ 16 % 64 } }
          w = if v.testBit 30 then exec (.preemptCancel (32 * die + c)) u
            else if v.testBit 31 then exec (.preemptGo (32 * die + c) (v / 2 ^ 16 % 64) (v.testBit 28)) u
            else .next { u with out := .done }
        | .ctxBase => set fun d => { d with ctxBase := v / 2 ^ 24 % 2 ^ 28 * 2 ^ 24 }
        | .ctxN => set fun d => { d with ctxN := v % 2 ^ 16 }
        | .fwinCtl n => set fun d => { d with fwinCtl := d.fwinCtl.put n (v / 2 ^ 61 % 8 * 2 ^ 61 + v / 2 ^ 48 % 4096 * 2 ^ 48
            + (if 12 ≤ v / 2 ^ 44 % 16 then 15 else v / 2 ^ 44 % 16) * 2 ^ 44 + v / 2 ^ 38 % 64 * 2 ^ 38 + v % 2 ^ 23) }
        | .fwinBase n => set fun d => { d with fwinBase := d.fwinBase.put n (v / 2 ^ 16 % 2 ^ 48 * 2 ^ 16) }
        | .ingCtl k => set fun d => { d with ingCtl := d.ingCtl.put k (v / 2 ^ 61 % 8 * 2 ^ 61 + v / 2 ^ 49 % 64 * 2 ^ 49
            + v % 2 ^ 36) }
        | .ingBase k => set fun d => { d with ingBase := d.ingBase.put k (v / 2 ^ 16 % 2 ^ 36 * 2 ^ 16) }
        | .pwrStat => w = .next done
        | .devId => w = exec (.devIdWrite die v) s
        | .sliceCtl k => w = exec (if v.testBit 0 then .slicePowerOn die k else .slicePowerOff die k) s
        | .regPtr id => set fun d => { d with regPtr := d.regPtr.put id (v / 2 ^ 9 % 2 ^ 43 * 2 ^ 9) }
        | .regCtl id => w = if v.testBit 31 && !v.testBit 30 then exec (.regionGo die id) s
            else if v.testBit 30 && !v.testBit 31 then exec (.regionStop die id) s else .next done
        | .counter i => set fun d => { d with counts := Tab.put d.counts i (v % 2 ^ 32, v / 2 ^ 32 % 2 ^ 32) })
    ∧ (die < 24 → exec (.configRegisterWrite (die * 2 ^ 32 + 0x70000) false v) s = .next done
      ∧ exec (.configRegisterWrite (die * 2 ^ 32 + 0x51000) false v) s = .next done
      ∧ (∃ t, exec (.configRegisterWrite (die * 2 ^ 32 + 0x51000) true v) s = .next t ∧ t.out = .done
        ∧ (t.die die).ctxBase = v / 2 ^ 24 % 2 ^ 28 * 2 ^ 24)
      ∧ ∃ t, exec (.configRegisterWrite (die * 2 ^ 32 + 0x40008) false v) s = .next t ∧ t.out = .done
        ∧ (t.die die).hor = if v % 2 ^ 16 < 10 then (s.die die).hor else v % 2 ^ 16)
    ∧ (let p := (s.core core).preempt
      (p.busy = false → ∃ t, exec (.preemptGo core bslot park) s = .next t ∧ t.out = .done
        ∧ (s.blockAt core bslot = none → (t.core core).preempt.result = 6 ∧ (t.core core).preempt.busy = false ∧ t.agenda = s.agenda)
        ∧ ∀ b, s.blockAt core bslot = some b → (∀ x ∈ b :: s.clusterBlks b, (s.block x).state = .running) →
          (t.core core).preempt.busy = true ∧ (t.core core).preempt.saving = false ∧ (t.core core).preempt.parking = park
          ∧ (t.core core).preempt.result = 0 ∧ t.agenda = s.agenda ++ [.evictionProceed core])
      ∧ (∃ t, exec (.preemptCancel core) s = .next t ∧ t.out = .done ∧ (p.busy = true → p.saving = false →
          (t.core core).preempt.busy = false ∧ (t.core core).preempt.result = 3) ∧ (p.busy = false ∨ p.saving = true → t = done)))
    ∧ (region ∉ (s.die die).regBusy → ∃ t, exec (.regionGo die region) s = .next t ∧ t.out = .done ∧ region ∈ (t.die die).regBusy
      ∧ t.agenda = s.agenda ++ [.regionActivationDone die region])
    ∧ ∃ t, exec (.regionStop die region) s = .next t ∧ t.out = .done ∧ t.regionActive die region = false ∧ t.blocks = s.blocks

/-! The trap warp. -/

/-- R338 to R341: SRET sends a stopped warp of the served block on from its resumption position, SKILL ends the block,
XRD reads an item of its warps and XWR writes one; a warp or an item that is not there is BOUNDS. -/
def Obligations.HandlerWords : Prop :=
  ∀ (s : State) (x : BitVec 6) (l i : Src) (k : Nat),
    let w := s.warp k
    let fl := (s.readScalar l).toNat
    let n := (s.readScalar i).toNat
    (s.gate (.sret l i) = .go →
      (4 ≤ fl ∨ s.servedWarp n = none → exec (.sret l i) s = .next (s.fail .bounds))
      ∧ (fl < 4 → s.servedWarp n = some k →
        (w.run = .exited → ∃ t, exec (.sret l i) s = .next t ∧ t.out = .done ∧ s.sameBytes t ∧ t.warp k = { w with frec := { w.frec with valid := false } })
        ∧ (w.run = .stopped → fl % 2 = 0 ∨ w.frec.replay = false → ∃ t, exec (.sret l i) s = .next t ∧ t.out = .done ∧ s.sameBytes t
          ∧ (t.warp k).position = (w.frec.rpc, w.frec.rslot, w.frec.rexp) ∧ (t.warp k).run = .running ∧ (t.warp k).frec.valid = false
          ∧ (t.warp k).stepping = decide (2 ≤ fl) ∧ (t.warp k).s = w.s ∧ (t.warp k).v = w.v ∧ (t.warp k).q = w.q ∧ (t.warp k).stack = w.stack
          ∧ (t.warp k).cause = w.cause ∧ ((∀ j ∈ s.blockWarps w.blk, j = k ∨ (s.warp j).run ≠ .stopped) → (t.block w.blk).state = .running)
          ∧ ∀ j, j ≠ k → t.warps.get? j = s.warps.get? j)
        ∧ (w.run = .running → exec (.sret l i) s = .next (s.fail .bounds))))
    ∧ (s.gate .skill = .go → ∀ b, (s.core s.myCore).serving = some b →
      ∃ t, exec .skill s = .next t ∧ t.out = .done ∧ s.sameBytes t ∧ (t.block b).killed = true
        ∧ (∀ j ∈ s.blockWarps b, (t.warp j).run = .exited) ∧ b ∉ (t.core (s.block b).core).haltq ∧ .blockRetire b ∈ t.agenda)
    ∧ (s.gate (.xrd x l i) = .go → (s.servedWarp fl = none ∨ (∃ k, s.servedWarp fl = some k ∧ itemOf (s.warp k) n = none) →
        exec (.xrd x l i) s = .next (s.fail .bounds))
      ∧ (s.servedWarp fl = some k → ∀ m j, ∀ e ∈ ([(256 * m, m < 64, some (128 + m), w.sreg m),
          (0x10000000 + 256 * m + j, m < w.budget ∧ w.budget ≤ 128 ∧ j < 96 ∧ w.bad.get (96 * m + j) 0 = 0, some m, lane (w.vreg m) j),
          (0x20000000 + 256 * m + j, m < 8 ∧ j < 3, none, w.qreg m j), (0x30000100, True, none, w.cause),
          (0x40000000 + 256 * m, m < 16, none, w.frec.word m),
          (0x60000000 + m, m < 96, none, BitVec.ofNat 32 (((List.range 5).map fun b => if w.flag b m then 2 ^ b else 0).sum)),
          (0x70000000 + 256 * m, m < 16, none, (s.block w.blk).bfile.regs.get m 0)] : List (Nat × Prop × Option Nat × Word)),
        n = e.1 → e.2.1 → (∀ r, e.2.2.1 = some r → s.resultDue k r = false) →
        ∃ t, exec (.xrd x l i) s = .next t ∧ t.out = .done ∧ s.onlyS t [x.toNat]
          ∧ t.me.sreg x.toNat = Warp.slsAnd s.before.sls x.toNat e.2.2.2))
    ∧ (s.gate (.xwr x l i) = .go → s.servedWarp fl = some k →
      let v := s.before.sreg x.toNat
      (itemOf w n = none ∨ n / 2 ^ 28 = 7 → exec (.xwr x l i) s = .next (s.fail .bounds))
      ∧ ∀ m j, ∀ e ∈ ([(256 * m, m < 64, some (128 + m), w.setS m v),
          (0x10000000 + 256 * m + j, m < w.budget ∧ w.budget ≤ 128 ∧ j < 96, some m, w.setV m (maskIf (· == j)) (Vector.replicate 96 v)),
          (0x20000000 + 256 * m + j, m < 8 ∧ j < 3, none, w.setQ m j v), (0x30000100, True, none, { w with cause := w.cause &&& ~~~v }),
          (0x40000500, True, none, { w with rpcHeld := some v })] : List (Nat × Prop × Option Nat × Warp)),
        n = e.1 → e.2.1 → (∀ r, e.2.2.1 = some r → s.resultDue k r = false) →
        ∃ t, exec (.xwr x l i) s = .next t ∧ t = { s with warps := t.warps, out := .done } ∧ t.warp k = e.2.2.2
          ∧ ∀ j, j ≠ k → t.warps.get? j = s.warps.get? j)

/-- R342, R343: CSRR reads a privileged register, a low one latching its high half; CSRW writes one, a pair when its
high half is written, for the trap warp's context or the block's (a TRAP_BASE that is no multiple of 384, and a high half
with no low half held: log entry 45). -/
def Obligations.PrivilegedRegisters : Prop :=
  ∀ (s : State) (x : BitVec 6) (n : BitVec 8),
    let c := s.core s.myCore
    let v := s.before.sreg x.toNat
    let lo (a : Nat) : Word := BitVec.ofNat 32 a
    let hi (a : Nat) : Word := BitVec.ofNat 32 (a / 2 ^ 32)
    let bk (j : Nat) : Nat := ((c.bkpt[j]?).getD 0).toNat
    (s.gate (.csrr x n) = .go → ∃ t, exec (.csrr x n) s = .next t ∧ t.out = .done ∧ s.onlyMe t
      ∧ (∀ r, r ≠ x.toNat → t.me.sreg r = s.me.sreg r)
      ∧ (∀ e ∈ ([(0x00, lo ((if c.bken then 2 else 0) + if c.place then 1 else 0)), (0x01, lo c.trapBase), (0x03, lo s.ctxRegion), (0x04, lo s.ctxPart),
          (0x05, if s.ctxNs then 1 else 0), (0x06, lo s.ctxRoot), (0x08, lo (s.preemptRead s.myCore)), (0x10, lo (bk 0)), (0x12, lo (bk 1)),
          (0x14, lo (bk 2)), (0x16, lo (bk 3))] : List (BitVec 8 × Word)), n = e.1 → t.me.sreg x.toNat = Warp.slsAnd s.before.sls x.toNat e.2)
      ∧ (∀ e ∈ ([(0x01, hi c.trapBase), (0x06, hi s.ctxRoot), (0x10, hi (bk 0)), (0x12, hi (bk 1)), (0x14, hi (bk 2)), (0x16, hi (bk 3))] :
          List (BitVec 8 × Word)), (n = e.1 → t.me.csrLat.get? (n.toNat + 1) = some e.2)
        ∧ (n = e.1 + 1 → t.me.sreg x.toNat = Warp.slsAnd s.before.sls x.toNat ((s.me.csrLat.get? n.toNat).getD e.2)
          ∧ t.me.csrLat.get? n.toNat = none)))
    ∧ (s.gate (.csrw x n) = .go → ∃ t, exec (.csrw x n) s = .next t ∧ t.out = .done ∧ s.sameBytes t ∧ t.me.s = s.me.s
      ∧ (n = 0x00 → (t.core s.myCore).bken = v.getLsbD 1 ∧ (t.core s.myCore).place = v.getLsbD 0
        ∧ (v.getLsbD 2 = false → t.blocks = s.blocks) ∧ (v.getLsbD 2 = true → ∀ b ∈ s.blocksOn s.myCore, (t.block b).state ≠ .running))
      ∧ (n = 0x03 → t.ctxRegion = v.toNat % 2 ^ 12) ∧ (n = 0x04 → t.ctxPart = v.toNat % 2 ^ 6) ∧ (n = 0x05 → t.ctxNs = v.getLsbD 0)
      ∧ (n ∈ [0x01, 0x06, 0x10, 0x12, 0x14, 0x16] → t.me.csrHeld.get? n.toNat = some v ∧ t.cores = s.cores ∧ t.blocks = s.blocks)
      ∧ (∀ low, s.me.csrHeld.get? (n.toNat - 1) = some low → let a := 2 ^ 32 * v.toNat + low.toNat
        (n = 0x02 → (t.core s.myCore).trapBase = if a % 384 = 0 then a else c.trapBase) ∧ (n = 0x07 → t.ctxRoot = a / 2 ^ 13 % 2 ^ 39 * 2 ^ 13)
        ∧ ∀ j < 4, n.toNat = 0x11 + 2 * j → (t.core s.myCore).bkpt[j]? = some (BitVec.ofNat 64 (a % 2 ^ 56))))

/-- R312, R330, R332, R336, R343: a warp of a halted block stops with HALTED; the handler its region's policy names
starts on the trap warp, in that region's context, or the system handler in region 0's; a debug halt halts every block
of a core, a breakpoint stops the warp that stands at it, and a register error poisons its element. The system values a
handler of policy HOST starts with are the model's (log entry 44), and so is the RAS record REGECC (log entry 54). -/
def Obligations.HaltsAndEntries : Prop :=
  ∀ (s : State) (core slot skid n reg l h b pc : Nat) (sc : Bool),
    let k := warpKey core slot
    let w := s.warp k
    let c := s.core core
    let key := if sc then Warp.sKey (reg % 64) else Warp.vKey (reg % 128) (l % 96)
    (w.run = .running → (s.block w.blk).state = .halted → s.sweeping k = false → k ≠ s.cur →
      ∃ t, exec (.siblingHaltStop core slot skid) s = .next t ∧ t.out = .done ∧ s.sameBytes t ∧ (t.warp k).run = .stopped
        ∧ (t.warp k).cause = w.cause ||| 0x400000 ∧ (t.warp k).frec.haltOnly = true ∧ (t.warp k).frec.valid = true
        ∧ (t.warp k).frec.precise = false ∧ (t.warp k).frec.skid = min 16 skid
        ∧ ((t.warp k).frec.rpc, (t.warp k).frec.rslot, (t.warp k).frec.rexp) = w.position ∧ (t.warp k).position = w.position
        ∧ (t.warp k).frec.lanes = w.exec
        ∧ (t.warp k).s = w.s ∧ ∀ j, j ≠ k → t.warps.get? j = s.warps.get? j)
    ∧ (∀ rest r, c.serving = none → c.haltq = b :: rest → s.unsettledHalt b = false →
      (s.handlerOf (dieOf core) 5 (s.block b).region = some (pc, some r)
        ∨ (s.handlerOf (dieOf core) 5 (s.block b).region = some (0, none) ∧ c.trapBase = pc ∧ pc ≠ 0 ∧ s.regionOf (dieOf core) 0 = some r)) →
      ∃ t y, exec (.trapWarpEntry core) s = .next t ∧ t.out = .done ∧ s.sameBytes t ∧ (t.core core).serving = some b ∧ (t.core core).haltq = rest
        ∧ (t.core core).region = r.id ∧ (t.core core).part = r.part ∧ (t.core core).world = r.ns ∧ (t.core core).xroot = r.xroot
        ∧ t.warps.get? (warpKey core 64) = some y ∧ y.position = (pc, 0, false) ∧ y.run = .running ∧ y.exec = BitVec.allOnes 96
        ∧ y.sreg 4 = BitVec.ofNat 32 (s.block b).bslot ∧ y.sreg 5 = BitVec.ofNat 32 (s.block b).first
        ∧ y.sreg 6 = lowWord (s.validSlots b) ∧ y.sreg 7 = highWord (s.validSlots b) ∧ y.sreg 8 = BitVec.ofNat 32 (s.block b).region)
    ∧ (∃ t, exec (.debugHalt core) s = .next t ∧ t.out = .done ∧ s.sameBytes t ∧ t.warps = s.warps
      ∧ ∀ b ∈ s.blocksOn core, (s.block b).state = .running → (t.block b).state = .halted ∧ b ∈ (t.core (s.block b).core).haltq)
    ∧ (s.hasWarp k = true → w.run = .running → s.breakpointAt k = some n → (s.block w.blk).state = .running →
      ∃ t, exec (.breakpointTrigger core slot n) s = .next t ∧ t.out = .done ∧ s.sameBytes t ∧ (t.warp k).run = .stopped
        ∧ (t.warp k).cause = w.cause ||| 0x100000 ∧ (t.warp k).frec.prime = 20 ∧ (t.warp k).frec.data = BitVec.ofNat 32 n
        ∧ (t.warp k).frec.lanes = w.exec
        ∧ (t.block w.blk).state = .halted)
    ∧ (s.hasWarp k = true → h % 4 ≠ 0 →
      ∃ t, exec (.registerEccError core slot sc reg l h) s = .next t ∧ t.out = .done ∧ s.sameBytes t
        ∧ (t.warp k).bad.get key 0 = w.bad.get key 0 ||| h % 4 ∧ t.warp k = { w with bad := (t.warp k).bad }
        ∧ ∃ args, t.ras = s.ras ++ [⟨"REGECC", args⟩])

/-- R17, R31: a fetched chunk, and a dictionary's image, are what memory holds for execution; a failed load of an image
leaves its fault in the RAM. In whose context an image is loaded is the model's choice (log entry 62). -/
def Obligations.FetchedCode : Prop :=
  ∀ (s : State) (core slot blk : Nat),
    let t' := { s with cur := warpKey core slot }
    let base := t'.me.pc / 384 * 384
    (∀ z bs, s.hasWarp (warpKey core slot) = true → (t'.chunkLines t'.agent base).length = 3 → (t'.chunkLines t'.agent base).all isMemory = true →
      t'.readBytes t'.agent base 384 .x = (z, .bytes bs) →
      ∃ t, exec (.instructionFetch core slot) s = .next t ∧ t.out = .done ∧ t.mem = z.mem ∧ t.warps = z.warps
        ∧ ∃ ch ∈ t.chunks, ch.core = core ∧ ch.va = base ∧ ch.bytes = bs ∧ ch.lines = t'.chunkLines t'.agent base)
    ∧ ∀ x, ∀ (d : DictRam) (j : Nat), s.blocks.get? blk = some x → x.dict ≠ 0 → x.state ≠ .evicted → x.state ≠ .retired →
      (s.core x.core).dicts[j]? = some d → d.tag = x.dict → d.loaded = false →
      (∀ z bs, s.readBytes (s.blockAgent blk) x.dict 4096 .x = (z, .bytes bs) →
        ∃ t, ∃ y : DictRam, exec (.dictionaryLoad blk) s = .next t ∧ t.out = .done ∧ (t.core x.core).dicts[j]? = some y ∧ y.tag = x.dict
          ∧ y.loaded = true ∧ y.fail = none ∧ y.data = (List.range 1024).map fun i => BitVec.ofNat 32 (fieldAt bs (4 * i) 4))
      ∧ (∀ z c n m, s.readBytes (s.blockAgent blk) x.dict 4096 .x = (z, .fail c n m) →
        ∃ t, ∃ y : DictRam, exec (.dictionaryLoad blk) s = .next t ∧ t.out = .done ∧ (t.core x.core).dicts[j]? = some y ∧ y.tag = x.dict
          ∧ y.loaded = true ∧ y.fail = some { cause := c, level := n, tier := m, addr := x.dict })
      ∧ ∀ z, s.readBytes (s.blockAgent blk) x.dict 4096 .x = (z, .held) →
        exec (.dictionaryLoad blk) s = .next { z with agenda := z.agenda ++ [.dictionaryLoad blk], out := .done }

/-! Pre-emption. -/

/-- R345, R348: an eviction waits until every warp of its blocks is at a blocking point, takes its context slots or
ends NO_SLOT, saves once nothing is in flight, and is released once its stores are over; a cluster that wakes is placed
again, where the engine's order puts it (log entry 48: the order is the model's). -/
def Obligations.Preemption : Prop :=
  ∀ (s : State) (core b : Nat),
    let p := (s.core core).preempt
    let bs := s.evicting core
    let die := dieOf core
    (p.busy = true → p.saving = false → bs ≠ [] → (∀ x ∈ bs, (s.block x).state = .running) →
      (bs.all s.allBlocked = false → exec (.evictionProceed core) s = .next { s with agenda := s.agenda ++ [.evictionProceed core], out := .done })
      ∧ (bs.all s.allBlocked = true → p.parking = false → (s.freeCtxs die).length < bs.length →
        ∃ t, exec (.evictionProceed core) s = .next t ∧ t.out = .done ∧ (t.core core).preempt.busy = false ∧ (t.core core).preempt.result = 4
          ∧ t.blocks = s.blocks)
      ∧ (bs.all s.allBlocked = true → p.parking = true → s.parkFits bs = true →
        ∃ t, exec (.evictionProceed core) s = .next t ∧ t.out = .done ∧ (t.core core).preempt.saving = true ∧ (t.core core).preempt.blks = bs
          ∧ t.agenda = s.agenda ++ [.evictionSave core] ∧ t.warps = s.warps
          ∧ ∀ x ∈ bs, (t.block x).state = .evicting ∧ (t.block x).parked = true)
      ∧ (bs.all s.allBlocked = true → p.parking = false → bs.length ≤ (s.freeCtxs die).length →
        ∃ t, exec (.evictionProceed core) s = .next t ∧ t.out = .done ∧ (t.core core).preempt.saving = true ∧ (t.core core).preempt.blks = bs
          ∧ t.agenda = s.agenda ++ [.evictionSave core] ∧ t.warps = s.warps ∧ (∀ x ∈ bs, (t.block x).state = .evicting)
          ∧ (t.die die).ctxUsed = (s.die die).ctxUsed ++ (s.freeCtxs die).take bs.length))
    ∧ (p.saving = true → bs.any s.saveWaits = false →
      ∃ t, exec (.evictionSave core) s = .next t ∧ t.out = .done ∧ (t.core core).preempt.busy = false
        ∧ (t.core core).preempt.result = (if bs.any fun x => (s.block x).parked then 2 else 1) ∧ ∀ x ∈ bs, (t.block x).state = .evicted)
    ∧ ((s.block b).state = .evicted → (s.block b).landed = false → s.blockFlights b = [] → (s.block b).leasemax < s.nowCore (s.block b).core →
      ∃ t, exec (.evictionReleaseDone b) s = .next t ∧ t.out = .done ∧ (t.block b).landed = true ∧ (t.block b).state = .evicted)
    ∧ (s.findResume b ≠ some core → exec (.resumption b core) s = .next { s with out := .done })
    ∧ (s.findResume b = some core → s.wakes b = true ∧ core ∈ s.prefCores (dieOf (s.block b).core)
      ∧ ((∀ x ∈ s.clusterBlks b, x ≠ b → (s.block x).state = .retired) → (s.block b).kept = none →
        ∃ t, exec (.resumption b core) s = .next t ∧ t.out = .done ∧ (t.block b).state = .running ∧ (t.block b).core = core
          ∧ (t.block b).slots.length = (s.block b).slots.length ∧ (t.block b).ctx = none ∧ (t.block b).images = []))

/-! Ports, boot, time and power. -/

/-- R350 to R352, R355, R399: an inbound request without a grant that covers it is answered PROT and does nothing; under a grant
it waits while a line of it is held at its home (R355), and else is performed at the homes of its lines and answered, by the
port it came in, to the device that sent it. The numbers of an answer's status are the model's (log entries 50, 54). R110,
R111, R119, R350, R351, R356 to R358: a peer's staging, notices and carries reach the line's home; time is slewed, by one
nanosecond in 10,000, and never set back; the ports open at boot once region 0 is active on every die; management frames, a
lost grandmaster, a dropped packet and the duty do what their rules say. The words of a RAS record and when time is slewed are
the model's (log entries 51, 54), and so is that a boot of a module that runs resets it first (log entry 52). -/
def Obligations.InboundRequests : Prop :=
  (∀ (s : State) (hd : Sender) (key pa n fn v : Nat) (w64 : Bool) (bytes : List Byte),
    let replied (z : State) (st : Nat) (bs : List Byte) : State := { z.reply hd st bs with out := .done }
    let waits (i : Instr) : Prop := exec i s = .next { s with out := .waiting }
    let m := if w64 then 8 else 4
    (∀ z st bs, State.reply z hd st bs = { z with outbox := z.outbox ++ [{
        port := hd.port, kind := .completion, status := st, key := 0, target := hd.device, addr := 0
        device := (z.die (if hd.port < 6 then hd.port else hd.port + 12)).devId, inc := 0, rod := hd.flow.isSome, bytes := bs }] })
    ∧ (s.admitted hd.port key pa n false = none → exec (.inboundMread hd key pa n) s = .next (replied s 1 []))
    ∧ (s.admitted hd.port key pa bytes.length true = none → exec (.inboundMwrite hd key pa bytes) s = .next (replied s 1 []))
    ∧ (s.admitted hd.port key pa m true = none → exec (.inboundMatom hd key pa fn w64 v) s = .next (replied s 1 []))
    ∧ (∀ g, s.admitted hd.port key pa n false = some g → s.inboundHeld pa n g.part = true → waits (.inboundMread hd key pa n))
    ∧ (∀ g, s.admitted hd.port key pa bytes.length true = some g → s.inboundHeld pa bytes.length g.part = true →
      waits (.inboundMwrite hd key pa bytes))
    ∧ (∀ g z d, s.admitted hd.port key pa n false = some g → s.inboundHeld pa n g.part = false →
      s.inboundRead g pa (State.piecesFrom pa (n / 128 + 2) n) = (z, none, d) →
      exec (.inboundMread hd key pa n) s = .next (replied z 0 d))
    ∧ (∀ g z, s.admitted hd.port key pa bytes.length true = some g → s.inboundHeld pa bytes.length g.part = false →
      s.inboundWrite g pa bytes (State.piecesFrom pa (bytes.length / 128 + 2) bytes.length) = (z, none) →
      exec (.inboundMwrite hd key pa bytes) s = .next (replied z 0 []))
    ∧ (∀ g z d z', s.admitted hd.port key pa m true = some g → s.inboundHeld pa m g.part = false → pa % m = 0 → fn < (if w64 then 9 else 13) →
      s.readLine (State.inboundLine (pa / 128)) g.part g.ns .cached = (z, .bytes d) →
      z.inboundWrite g pa (leBytes m (atomOp fn w64 (fieldAt d (pa % 128) m) (v % 2 ^ (8 * m)))) [m] = (z', none) →
      exec (.inboundMatom hd key pa fn w64 v) s = .next (replied z' 0 (leBytes m (fieldAt d (pa % 128) m))))
    ∧ ∀ g, s.admitted hd.port key pa n (decide (fn = 1)) = some g → s.opened = true ∧ key < 64 ∧ g.valid = true ∧ (fn = 1 → g.writes = true)
      ∧ (s.die (portDie hd.port)).ingBase.get key 0 ≤ pa
      ∧ pa + n ≤ (s.die (portDie hd.port)).ingBase.get key 0 + (s.die (portDie hd.port)).ingCtl.get key 0 % 2 ^ 36 * 2 ^ 16)
  ∧ ∀ (s : State) (hd : Sender) (port key die idx line mask part code v : Nat) (ns : Bool) (bytes : List Byte),
    let ln := State.inboundLine line
    let z := s.homeEnter ln part ns false
    let me := sideName hd.device die idx
    let replied (z : State) (st : Nat) (bs : List Byte) : State := { z.reply hd st bs with out := .done }
    let op : CarryOp := { code := code }
    let open' := s.opened = true ∧ isMemory ln = true ∧ s.notTaken ln part = false ∧ s.homeCheck ln part ns false = none
    (open' → s.stageHeld ln me 0 = false → ∃ y a st,
      (if z.stageRefused ln me 0 mask then z else z.collectForWrite ln part).stageAt ln me 0 mask bytes = (y, a, st)
      ∧ exec (.inboundBstage hd key die idx line mask bytes part ns) s
        = .next (replied (y.dirRoom ln) 0 (leBytes 1 a ++ leBytes 8 st)))
    ∧ (s.opened = false → exec (.inboundBstage hd key die idx line mask bytes part ns) s = .next (replied s 1 [])
      ∧ exec (.inboundBnote hd v key die idx line) s = .next (replied s 1 [])
      ∧ ∀ ask, exec (.inboundCarry hd key ⟨ask, code⟩ line bytes part ns) s = .next (replied s 1 []))
    ∧ (s.opened = true → isMemory ln = true → ∃ t, exec (.inboundBnote hd 1 key die idx line) s = .next t ∧ t.out = .done
      ∧ (∀ x ∈ t.vers, x.line ≠ ln ∨ x.staged = false ∨ x.side ≠ me) ∧ t.mem = s.mem ∧ t.outbox = (s.reply hd 0 []).outbox)
    ∧ (s.opened = true → isMemory ln = true →
      exec (.inboundBnote hd 2 key die idx line) s = .next (replied (s.forget ln me) 0 []))
    ∧ (∀ x, s.opened = true → isMemory ln = true → s.staged ln = some x → x.side = me → x.notice = none →
      exec (.inboundBnote hd 0 key die idx line) s = .next { (s.setNotice x (some hd)).peerPromote me ln with out := .done })
    ∧ (open' → code ≤ 12 → ∀ e ∈ ([(.deliver, false), (.plain, true)] : List (CarryAsk × Bool)),
      let y := (z.deliverLine ln part .cached none op e.2 (State.peerStep hd) bytes).dirRoom ln
      exec (.inboundCarry hd key ⟨e.1, code⟩ line bytes part ns) s = .next (replied y 0 (leBytes 8 (y.ackLend ln))))
    ∧ (open' → code ≤ 12 → ∀ y, z.reserve ln part .cached op (State.peerStep hd) = some y →
      exec (.inboundCarry hd key ⟨.reserve, code⟩ line bytes part ns) s = .next (replied y 0 [0]))
    ∧ (open' → code ≤ 12 → z.reserve ln part .cached op (State.peerStep hd) = none →
      exec (.inboundCarry hd key ⟨.reserve, code⟩ line bytes part ns) s = .next (replied z 0 [1]))
    ∧ (open' → code ≤ 12 → ∃ t, exec (.inboundCarry hd key ⟨.release, code⟩ line bytes part ns) s = .next t
      ∧ t = { replied s 0 [] with resv := t.resv } ∧ (∀ r ∈ t.resv, r.line ≠ ln → r ∈ s.resv)
      ∧ ∀ r ∈ s.resv, r.line ≠ ln → r.steps ≠ [] → r ∈ t.resv)
    ∧ (s.opened = true → isMemory ln = true → code ≤ 12 → s.notTaken ln part = true → ∀ ask,
      exec (.inboundCarry hd key ⟨ask, code⟩ line bytes part ns) s = .next { s with out := .waiting })
    ∧ exec (.inboundTime v) s = .next { s with steer := (v : Int) - s.time, grandmaster := true, out := .done }
    ∧ (s.time ≤ s.tick.time ∧ s.tick.time ≤ s.time + 2 ∧ (s.steer = 0 ∨ s.time < s.slewed + 10000 → s.tick.time = s.time + 1)
      ∧ (s.tick.time ≠ s.time + 1 → s.tick.slewed = s.tick.time
        ∧ (s.tick.time : Int) - (s.time + 1) = s.steer - s.tick.steer ∧ s.tick.steer.natAbs < s.steer.natAbs))
    ∧ exec .grandmasterLoss s = .next { s with grandmaster := false, ras := s.ras ++ [⟨"GRANDMASTER", []⟩], out := .done }
    ∧ exec (.inboundMgmt port bytes) s = .next { s with osros := s.osros ++ [BitVec.ofNat 8 port :: bytes], out := .done }
    ∧ exec (.unsupportedPacketDrop port) s = .next { s with ras := s.ras ++ [⟨"PACKETDROP", [port]⟩], out := .done }
    ∧ (s.opened = false → s.booted = false →
      ∃ t, exec .moduleBoot s = .next t ∧ t.out = .waiting ∧ t.booted = true ∧ t.opened = false ∧ ∀ d < 24, 0 ∈ (t.die d).regBusy)
    ∧ (s.opened = false → s.booted = true → (∃ d < 24, 0 ∈ (s.die d).regBusy) → exec .moduleBoot s = .next { s with out := .waiting })
    ∧ (s.opened = false → s.booted = true → (∀ d < 24, 0 ∉ (s.die d).regBusy) →
      exec .moduleBoot s = .next { s with opened := (List.range 24).all (s.regionActive · 0), out := .done })
    ∧ (s.opened = true → exec .moduleBoot s = .next { State.reset with sched := s.sched, drawn := s.drawn, out := .done })
    ∧ ∃ t, exec (.dutyChange die v) s = .next t ∧ t.out = .done ∧ (t.die die).duty = min 16 (max 1 v) ∧ s.sameBytes t

/-! Decoding, issue and the step. -/

/-- The worked encodings of the spec, one a family and more (01_instruction_words.md "Worked encodings", and the
examples beside each instruction), and the reserved opcodes of R41. -/
def Obligations.DecodeWords : Prop :=
  (∀ e ∈ ([([0x00050304], some (false, .vadd 5 (.v 3) (.v 4))), ([0x008503F6], some (false, .vsub 5 (.v 3) (.const 6))),
      ([0x820702FF, 0x3E8], some (true, .vmul 7 (.v 2) (.lit 1000))), ([0x90080809], some (true, .vfadd 8 (.v 8) (.v 9))),
      ([0xA00484F1], some (true, .sadd 4 (.s 4) (.const 1))), ([0xFE068000], some (true, .vpfx 1 1 2 (.v 0))),
      ([0x7F805006], some (false, .dpair 1 5 6)), ([0x7C20888A], some (false, .tlbiPage 0 (.s 8) (.s 10))),
      ([0x5900008A], some (false, .bopen (.s 10))), ([0x59D08C00], some (false, .bclose 2 4 (.s 12))),
      ([0x45030085], some (false, .waitc 0 0 1 1 (.s 5))), ([0x48020802], some (false, .vld 0 0 2 (.v 8) (.v 2))),
      ([0x51040602], some (false, .vcas 0 0 1 12 1)), ([0x568A0802], some (false, .spcast 10 (.v 8) 2)),
      ([0x62010620], some (false, .tgather 4 6 8 0)), ([0x310A0B86], some (false, .xchg 10 (.v 11) (.s 6))),
      ([0x3010CA84], some (false, .put 1 (.b 2) (.s 4))), ([0x41800000], some (false, .gbar)),
      ([0x3A000000], some (false, .join)), ([0x3D000000], some (false, .exit)), ([0x3A000001], none),
      ([0x780000F3], some (false, .trap (.const 3))), ([0x7B080008], some (false, .csrr 8 8))] :
      List (List Nat × Option (Bool × Instr))), decode e.1 = e.2)
    ∧ ∀ o ∈ [0x1E, 0x1F, 0x2F, 0x32, 0x33, 0x34, 0x35, 0x36, 0x37, 0x3F, 0x5D, 0x5E, 0x5F, 0x68, 0x69, 0x6A, 0x6B, 0x6C, 0x6D, 0x6E, 0x6F, 0x7D],
      ∀ w lit, fld w 24 7 = o → decodeWord w lit = none

/-- R25, R27, R32, R36: decoding the words of a well-formed instruction gives it back, whatever its operands and chain
bit. -/
def Obligations.RoundTrip : Prop :=
  ∀ (i : Instr) (c : Bool), i.isWord = true → i.wf = true → decode (encode c i) = some (c || i.isVpfx, i)

/-- R33: what decodes is well formed, and its words are those that were read: no other word stands for it. -/
def Obligations.OneMeaning : Prop :=
  ∀ (ws : List Nat) (c : Bool) (i : Instr), (∀ w ∈ ws, w < 2 ^ 32) → decode ws = some (c, i) →
    i.isWord = true ∧ i.wf = true ∧ encode c i <+: ws

/-- R35, R44, R142, R143, R249, R336: what stands before an instruction's own effect, in order: ILLEGAL, PRIV, ROLE,
then a register still to be loaded, a failed load's mark, a special-function result to wait for, and poison (the order of
these four: log entry 18). -/
def Obligations.IssueChecks : Prop :=
  ∀ (s : State) (i : Instr), i.pipe.isSome = true →
    let keys := s.reads i ++ i.writes
    let good := i.wf = true ∧ pfxOk s.pfx i = true ∧ ∀ k ∈ keys, 128 ≤ k ∨ k < s.me.budget
    (¬ good → exec i s = .next (s.raise { cause := .illegal }))
    ∧ (good → i.privileged = true → s.isPriv = false → exec i s = .next (s.raise { cause := .priv }))
    ∧ (good → (i.privileged = false ∨ s.isPriv = true) → i.roleOk s.me.role = false → exec i s = .next (s.raise { cause := .role }))
    ∧ (good → (i.privileged = false ∨ s.isPriv = true) → i.roleOk s.me.role = true → (i.byLane = true → s.execMask ≠ 0) →
      (∀ k, keys.find? s.pending = some k → exec i s = .next (s.raise { cause := .loadhaz, data := BitVec.ofNat 32 k }))
      ∧ (keys.find? s.pending = none → (∀ m, s.markOn keys = some m → exec i s = .next (s.raise m.stop))
        ∧ (s.markOn keys = none → ((s.sfuBusy keys || s.flagsBusy i) = true → exec i s = .next { s with out := .waiting })
          ∧ ((s.sfuBusy keys || s.flagsBusy i) = false → (∀ st, s.poisonOf i = some st → exec i s = .next (s.raise st))
            ∧ (s.poisonOf i = none → s.gate i = .go)))))

/-- R42, R43: the privileged words, outside the trap warp and region 0, and the engine words, from a role not listed
for them, stop before any effect. -/
def Obligations.PrivilegeAndRoles : Prop :=
  ∀ (s : State) (i : Instr), i.isWord = true →
    (i.privileged = decide (encodeBits i / 2 ^ 24 ∈ [0x79, 0x7A, 0x7B, 0x7C]))
    ∧ (i.roleOk 0 = true) ∧ (i.roleOk 1 = decide (encodeBits i / 2 ^ 24 ∉ [0x70, 0x71, 0x72, 0x73, 0x74, 0x75, 0x76, 0x77]))
    ∧ (i.roleOk 2 = decide (encodeBits i / 2 ^ 24 ∉ [0x60, 0x61, 0x62, 0x63, 0x64]))
    ∧ (i.roleOk 3 = decide (encodeBits i / 2 ^ 24 ∉ [0x60, 0x61, 0x62, 0x63, 0x64, 0x70, 0x71]))
    ∧ (i.wf = true → i.privileged = true → s.isTrap = false → s.myBlock.priv = false → s.pfx = none → s.me.budget = 128 →
      exec i s = .next (s.raise { cause := .priv }))
    ∧ (i.wf = true → i.privileged = false ∨ s.isPriv = true → s.pfx = none → s.me.budget = 128 → i.roleOk s.me.role = false →
      exec i s = .next (s.raise { cause := .role }))

/-- R27, R29: DPAIR completes where the block's dictionary is loaded, and stands for the dictionary's two entries: the chain
bit of the last is the DPAIR's own, and that of a first before another is P. VPFX completes, standing for its fields. -/
def Obligations.PairsAndPrefixes : Prop :=
  ∀ (s : State) (p z : BitVec 1) (a b : BitVec 10) (m : BitVec 6) (r : BitVec 3) (o : Src) (d : DictRam),
    (s.isTrap = false → s.myBlock.dict ≠ 0 → (s.core s.myCore).dicts.toList.find? (·.tag == s.myBlock.dict) = some d → d.loaded = true →
      d.fail = none → a.toNat ≠ 1023 → (p = 1 → b.toNat ≠ 1023) → ∃ t x, exec (.dpair p a b) s = .next t
      ∧ t = { s with expansion := x :: (if b.toNat = 1023 then [] else [d.data.getD b.toNat 0]), out := .done }
      ∧ x.extractLsb' 0 31 = (d.data.getD a.toNat 0).extractLsb' 0 31 ∧ (b.toNat ≠ 1023 → x.getLsbD 31 = (p == 1))
      ∧ ∀ e xs, entries t.expansion (p == 1) e = some xs → xs.getLast?.map (·.c) = some e.c ∧ ∀ y ∈ xs.dropLast, y.c = (p == 1))
    ∧ (a.toNat = 1023 ∨ (p = 1 ∧ b.toNat = 1023) ∨ s.isTrap = true ∨ s.myBlock.dict = 0 →
      exec (.dpair p a b) s = .next (s.raise { cause := .illegal }))
    ∧ (m.toNat ≤ 20 → r.toNat ≤ 5 → o.ok = true → ∃ t, exec (.vpfx m z r o) s = .next t
      ∧ t = { s with pfx := some (m.toNat, z == 1, r.toNat, o), out := .done })

/-- R16, R17, R20 to R24, R44, R324: in a scheduler's turn a step runs, once what is due has happened, the instruction
the packet of the warp it picks first decodes to, alone in its chain and granted its pipe: in the packet's state, with its
prefix, its position and what its operands are read from; then the warp stands at what follows, what is left of the packet
kept, or where it was sent, and a precise cause leaves no effect but its own. An event that may run, and an input, is run
the same way, one that has to wait staying in flight before those of its flow (R355); and time goes on. What is due, the
order of turns and grants, and what may come from outside are the model's (log entry 7), and so are a packet decoded once, when it
is entered, and what is held of it (log entry 41), and where a warp past slot 2 stands (log entry 43). -/
def Obligations.StepRunsDecoded : Prop :=
  ∀ (s z t : State) (sch k : Nat) (ks : List Nat) (rest : List Choice) (e : Elem) (es : List Elem),
    let b := { s.background with sched := rest }
    let a := b.cycle sch
    let m := a.turnAt sch
    let pipes := a.pipesOf k
    let s0 := { a with cur := k, src := none, pfx := none, expansion := [], only := none }
    let p := State.stands s0.me
    let n := State.follows p.1 e
    let h := z.hold p (e :: es)
    let s2 := { h with pos := p, npos := n, srcId := h.nextId, src := none, out := .done }
    let s1 := { s2 with pfx := e.pfx, expansion := [], pos := (p.1, e.place), src := some h.me }
    let still (t : State) : State := { t with src := none, pfx := none, expansion := [], only := none }
    let later (t : State) : State := ((still t).useGrants k m pipes).tick
    let fresh (t : State) (w : Warp) : Warp := { w with age := t.turnOf t.cur, noBkpt := false, solo := none, leaseAt := none }
    (s.sched = .issue sch :: rest → sch < 3072 → a.onDuty (sch / 4) m = true → a.picks sch = k :: ks →
      pipes.all (a.granted k m) = true → s0.me.solo = none →
      ({ s0 with pos := p, npos := p } : State).elemsAt p = (z, .got (e :: es)) → e.c = false → z.breakpointAt k = none →
      z.me.stepping = false →
      (exec e.i s1 = .next t →
        (t.out = .done → t.hasWarp t.cur = true → let y := if es = [] ∨ t.me.run = .stopped then t else t.hold n es
          step s = .next (later (y.modMe fun w => fresh t (w.goto n))))
        ∧ (t.out = .moved → t.hasWarp t.cur = true → step s
          = .next (later { t.modMe fun w => fresh t { w with held := none } with npos := t.me.position }))
        ∧ (∀ st, t.out = .raised st → st.after = false → st.precise = true → step s = .next (later (s2.raise st)))))
    ∧ (∀ q, (s.me.held = none → s.elemsAt q = s.packetAt q) ∧ ∀ xs, s.me.held = some (q, xs) → s.elemsAt q = (s, .got xs))
    ∧ (∀ pc ws j x, s.fetchPacket pc = (z, .got ws) → s.packetAt (pc, j, x) = (z, z.decodePacket ws j x))
    ∧ (∀ ws j, z.decodePacket ws j false = .got (e :: es) → fld (ws.getD j 0).toNat 24 7 ≠ 0x7E → fld (ws.getD j 0).toNat 24 7 ≠ 0x7F →
      decodeWord (ws.getD j 0).toNat (ws.getD (j + 1) 0) = some e.i ∧ e.pfx = none ∧ e.c = (ws.getD j 0).getLsbD 31 ∧ e.place = (j, false)
        ∧ ({ z with pfx := none } : State).permitted e.i = none)
    ∧ (∀ i, s.sched = .input i :: rest → State.isInput i = true → b.agenda.any (State.sameFlow i) = false →
      exec i { still b with cur := 65 * 768 } = .next t →
      step s = .next (if t.out = .waiting then { t.keptBack i with out := .done } else t).tick)
    ∧ (∀ i, s.sched = .input i :: rest → State.isInput i = true → b.agenda.any (State.sameFlow i) = true →
      step s = .next { b with agenda := b.agenda ++ [i], out := .done }.tick)
    ∧ ∀ i j, s.sched = .event j :: rest → b.mayRun j = true → b.agenda[j]? = some i →
      exec i { still b with agenda := b.agenda.eraseIdx j, cur := 65 * 768 } = .next t →
      step s = .next (if t.out = .waiting then { t.keptBack i with out := .done } else t).tick

/-! What every step keeps. -/

/-- Memory, and every core's scratchpad, keep their canonical form (that of log entry 2) through every step. -/
def Obligations.MemoryKept : Prop :=
   ∀ s t : State, s.memoryWf → step s = .next t → t.memoryWf

/-- R299: no word but EXIT lets the execute mask take in a lane that the running split does not have: neither the split
that runs after it nor, for a chain whose other word has moved the warp to another split, the one it was read in. -/
def Obligations.ExecWithinSplit : Prop :=
  ∀ (s t : State) (i : Instr), i.pipe.isSome = true → i ≠ .exit → s.me.exec &&& ~~~s.me.sls = 0 → exec i s = .next t →
    t.me.exec &&& ~~~(t.me.sls ||| s.before.sls) = 0 ∧ (s.before.sls = s.me.sls → t.me.exec &&& ~~~t.me.sls = 0)

/-- R7, R70, R71, R105, R114, R121, R312, R344, R357, R358: what reset leaves; the trap base is the model's value (log
entry 5). -/
def Obligations.ResetState : Prop :=
  State.reset.memoryWf ∧ State.reset.booted = false ∧ State.reset.opened = false ∧ State.reset.regions = [] ∧ State.reset.warps = []
    ∧ ∀ die sc core : Nat, ∀ n < 4,
      let d := State.reset.die die
      State.reset.domain die n = (if n = 0 then ⟨0xFFFFFFFF, 0, 0, false, false, true⟩ else ⟨0, 0, 0, false, false, false⟩)
      ∧ d.hor = 1000 ∧ d.bdiagEn = false ∧ d.bdelay = 0 ∧ d.duty = 16 ∧ (State.reset.slc die sc).mclk = 0 ∧ (State.reset.slc die sc).on = true
      ∧ (State.reset.core core).place = true ∧ (State.reset.core core).bken = false ∧ (State.reset.core core).trapBase = 0
      ∧ (State.reset.core core).bkpt = Vector.replicate 4 0
end

