-- ==== Sys2Proof/Laws/State.lean ====
section
/-!
SUPPORT. One lemma a field for each update of the state, so that no proof unfolds a record update.
-/

namespace Sys2Proof.Machine

namespace State

variable (s : State)

/-! `modCore` -/

@[simp] theorem modCore_time (c : Nat) (f : Core → Core) : (s.modCore c f).time = s.time := rfl
@[simp] theorem modCore_mem (c : Nat) (f : Core → Core) : (s.modCore c f).mem = s.mem := rfl
@[simp] theorem modCore_poison (c : Nat) (f : Core → Core) : (s.modCore c f).poison = s.poison := rfl
@[simp] theorem modCore_side (c : Nat) (f : Core → Core) : (s.modCore c f).side = s.side := rfl
@[simp] theorem modCore_slices (c : Nat) (f : Core → Core) : (s.modCore c f).slices = s.slices := rfl
@[simp] theorem modCore_dir (c : Nat) (f : Core → Core) : (s.modCore c f).dir = s.dir := rfl
@[simp] theorem modCore_txns (c : Nat) (f : Core → Core) : (s.modCore c f).txns = s.txns := rfl
@[simp] theorem modCore_lineq (c : Nat) (f : Core → Core) : (s.modCore c f).lineq = s.lineq := rfl
@[simp] theorem modCore_l1 (c : Nat) (f : Core → Core) : (s.modCore c f).l1 = s.l1 := rfl
@[simp] theorem modCore_rdc (c : Nat) (f : Core → Core) : (s.modCore c f).rdc = s.rdc := rfl
@[simp] theorem modCore_wbs (c : Nat) (f : Core → Core) : (s.modCore c f).wbs = s.wbs := rfl
@[simp] theorem modCore_vers (c : Nat) (f : Core → Core) : (s.modCore c f).vers = s.vers := rfl
@[simp] theorem modCore_brecs (c : Nat) (f : Core → Core) : (s.modCore c f).brecs = s.brecs := rfl
@[simp] theorem modCore_resv (c : Nat) (f : Core → Core) : (s.modCore c f).resv = s.resv := rfl
@[simp] theorem modCore_tlb (c : Nat) (f : Core → Core) : (s.modCore c f).tlb = s.tlb := rfl
@[simp] theorem modCore_walks (c : Nat) (f : Core → Core) : (s.modCore c f).walks = s.walks := rfl
@[simp] theorem modCore_missq (c : Nat) (f : Core → Core) : (s.modCore c f).missq = s.missq := rfl
@[simp] theorem modCore_ras (c : Nat) (f : Core → Core) : (s.modCore c f).ras = s.ras := rfl
@[simp] theorem modCore_dies (c : Nat) (f : Core → Core) : (s.modCore c f).dies = s.dies := rfl
@[simp] theorem modCore_warps (c : Nat) (f : Core → Core) : (s.modCore c f).warps = s.warps := rfl
@[simp] theorem modCore_left (c : Nat) (f : Core → Core) : (s.modCore c f).left = s.left := rfl
@[simp] theorem modCore_blocks (c : Nat) (f : Core → Core) : (s.modCore c f).blocks = s.blocks := rfl
@[simp] theorem modCore_clusters (c : Nat) (f : Core → Core) : (s.modCore c f).clusters = s.clusters := rfl
@[simp] theorem modCore_grids (c : Nat) (f : Core → Core) : (s.modCore c f).grids = s.grids := rfl
@[simp] theorem modCore_regions (c : Nat) (f : Core → Core) : (s.modCore c f).regions = s.regions := rfl
@[simp] theorem modCore_going (c : Nat) (f : Core → Core) : (s.modCore c f).going = s.going := rfl
@[simp] theorem modCore_recs (c : Nat) (f : Core → Core) : (s.modCore c f).recs = s.recs := rfl
@[simp] theorem modCore_pushes (c : Nat) (f : Core → Core) : (s.modCore c f).pushes = s.pushes := rfl
@[simp] theorem modCore_flights (c : Nat) (f : Core → Core) : (s.modCore c f).flights = s.flights := rfl
@[simp] theorem modCore_ops (c : Nat) (f : Core → Core) : (s.modCore c f).ops = s.ops := rfl
@[simp] theorem modCore_locks (c : Nat) (f : Core → Core) : (s.modCore c f).locks = s.locks := rfl
@[simp] theorem modCore_sfu (c : Nat) (f : Core → Core) : (s.modCore c f).sfu = s.sfu := rfl
@[simp] theorem modCore_allocs (c : Nat) (f : Core → Core) : (s.modCore c f).allocs = s.allocs := rfl
@[simp] theorem modCore_chunks (c : Nat) (f : Core → Core) : (s.modCore c f).chunks = s.chunks := rfl
@[simp] theorem modCore_xreqs (c : Nat) (f : Core → Core) : (s.modCore c f).xreqs = s.xreqs := rfl
@[simp] theorem modCore_outbox (c : Nat) (f : Core → Core) : (s.modCore c f).outbox = s.outbox := rfl
@[simp] theorem modCore_osros (c : Nat) (f : Core → Core) : (s.modCore c f).osros = s.osros := rfl
@[simp] theorem modCore_booted (c : Nat) (f : Core → Core) : (s.modCore c f).booted = s.booted := rfl
@[simp] theorem modCore_opened (c : Nat) (f : Core → Core) : (s.modCore c f).opened = s.opened := rfl
@[simp] theorem modCore_grandmaster (c : Nat) (f : Core → Core) : (s.modCore c f).grandmaster = s.grandmaster := rfl
@[simp] theorem modCore_slewed (c : Nat) (f : Core → Core) : (s.modCore c f).slewed = s.slewed := rfl
@[simp] theorem modCore_steer (c : Nat) (f : Core → Core) : (s.modCore c f).steer = s.steer := rfl
@[simp] theorem modCore_cur (c : Nat) (f : Core → Core) : (s.modCore c f).cur = s.cur := rfl
@[simp] theorem modCore_src (c : Nat) (f : Core → Core) : (s.modCore c f).src = s.src := rfl
@[simp] theorem modCore_srcId (c : Nat) (f : Core → Core) : (s.modCore c f).srcId = s.srcId := rfl
@[simp] theorem modCore_pos (c : Nat) (f : Core → Core) : (s.modCore c f).pos = s.pos := rfl
@[simp] theorem modCore_npos (c : Nat) (f : Core → Core) : (s.modCore c f).npos = s.npos := rfl
@[simp] theorem modCore_out (c : Nat) (f : Core → Core) : (s.modCore c f).out = s.out := rfl
@[simp] theorem modCore_pfx (c : Nat) (f : Core → Core) : (s.modCore c f).pfx = s.pfx := rfl
@[simp] theorem modCore_only (c : Nat) (f : Core → Core) : (s.modCore c f).only = s.only := rfl
@[simp] theorem modCore_expansion (c : Nat) (f : Core → Core) : (s.modCore c f).expansion = s.expansion := rfl
@[simp] theorem modCore_agenda (c : Nat) (f : Core → Core) : (s.modCore c f).agenda = s.agenda := rfl
@[simp] theorem modCore_sched (c : Nat) (f : Core → Core) : (s.modCore c f).sched = s.sched := rfl
@[simp] theorem modCore_nextId (c : Nat) (f : Core → Core) : (s.modCore c f).nextId = s.nextId := rfl
@[simp] theorem modCore_drawn (c : Nat) (f : Core → Core) : (s.modCore c f).drawn = s.drawn := rfl

/-! `modDie` -/

@[simp] theorem modDie_time (d : Nat) (f : Die → Die) : (s.modDie d f).time = s.time := rfl
@[simp] theorem modDie_mem (d : Nat) (f : Die → Die) : (s.modDie d f).mem = s.mem := rfl
@[simp] theorem modDie_poison (d : Nat) (f : Die → Die) : (s.modDie d f).poison = s.poison := rfl
@[simp] theorem modDie_side (d : Nat) (f : Die → Die) : (s.modDie d f).side = s.side := rfl
@[simp] theorem modDie_slices (d : Nat) (f : Die → Die) : (s.modDie d f).slices = s.slices := rfl
@[simp] theorem modDie_dir (d : Nat) (f : Die → Die) : (s.modDie d f).dir = s.dir := rfl
@[simp] theorem modDie_txns (d : Nat) (f : Die → Die) : (s.modDie d f).txns = s.txns := rfl
@[simp] theorem modDie_lineq (d : Nat) (f : Die → Die) : (s.modDie d f).lineq = s.lineq := rfl
@[simp] theorem modDie_l1 (d : Nat) (f : Die → Die) : (s.modDie d f).l1 = s.l1 := rfl
@[simp] theorem modDie_rdc (d : Nat) (f : Die → Die) : (s.modDie d f).rdc = s.rdc := rfl
@[simp] theorem modDie_wbs (d : Nat) (f : Die → Die) : (s.modDie d f).wbs = s.wbs := rfl
@[simp] theorem modDie_vers (d : Nat) (f : Die → Die) : (s.modDie d f).vers = s.vers := rfl
@[simp] theorem modDie_brecs (d : Nat) (f : Die → Die) : (s.modDie d f).brecs = s.brecs := rfl
@[simp] theorem modDie_resv (d : Nat) (f : Die → Die) : (s.modDie d f).resv = s.resv := rfl
@[simp] theorem modDie_tlb (d : Nat) (f : Die → Die) : (s.modDie d f).tlb = s.tlb := rfl
@[simp] theorem modDie_walks (d : Nat) (f : Die → Die) : (s.modDie d f).walks = s.walks := rfl
@[simp] theorem modDie_missq (d : Nat) (f : Die → Die) : (s.modDie d f).missq = s.missq := rfl
@[simp] theorem modDie_ras (d : Nat) (f : Die → Die) : (s.modDie d f).ras = s.ras := rfl
@[simp] theorem modDie_cores (d : Nat) (f : Die → Die) : (s.modDie d f).cores = s.cores := rfl
@[simp] theorem modDie_warps (d : Nat) (f : Die → Die) : (s.modDie d f).warps = s.warps := rfl
@[simp] theorem modDie_left (d : Nat) (f : Die → Die) : (s.modDie d f).left = s.left := rfl
@[simp] theorem modDie_blocks (d : Nat) (f : Die → Die) : (s.modDie d f).blocks = s.blocks := rfl
@[simp] theorem modDie_clusters (d : Nat) (f : Die → Die) : (s.modDie d f).clusters = s.clusters := rfl
@[simp] theorem modDie_grids (d : Nat) (f : Die → Die) : (s.modDie d f).grids = s.grids := rfl
@[simp] theorem modDie_regions (d : Nat) (f : Die → Die) : (s.modDie d f).regions = s.regions := rfl
@[simp] theorem modDie_going (d : Nat) (f : Die → Die) : (s.modDie d f).going = s.going := rfl
@[simp] theorem modDie_recs (d : Nat) (f : Die → Die) : (s.modDie d f).recs = s.recs := rfl
@[simp] theorem modDie_pushes (d : Nat) (f : Die → Die) : (s.modDie d f).pushes = s.pushes := rfl
@[simp] theorem modDie_flights (d : Nat) (f : Die → Die) : (s.modDie d f).flights = s.flights := rfl
@[simp] theorem modDie_ops (d : Nat) (f : Die → Die) : (s.modDie d f).ops = s.ops := rfl
@[simp] theorem modDie_locks (d : Nat) (f : Die → Die) : (s.modDie d f).locks = s.locks := rfl
@[simp] theorem modDie_sfu (d : Nat) (f : Die → Die) : (s.modDie d f).sfu = s.sfu := rfl
@[simp] theorem modDie_allocs (d : Nat) (f : Die → Die) : (s.modDie d f).allocs = s.allocs := rfl
@[simp] theorem modDie_chunks (d : Nat) (f : Die → Die) : (s.modDie d f).chunks = s.chunks := rfl
@[simp] theorem modDie_xreqs (d : Nat) (f : Die → Die) : (s.modDie d f).xreqs = s.xreqs := rfl
@[simp] theorem modDie_outbox (d : Nat) (f : Die → Die) : (s.modDie d f).outbox = s.outbox := rfl
@[simp] theorem modDie_osros (d : Nat) (f : Die → Die) : (s.modDie d f).osros = s.osros := rfl
@[simp] theorem modDie_booted (d : Nat) (f : Die → Die) : (s.modDie d f).booted = s.booted := rfl
@[simp] theorem modDie_opened (d : Nat) (f : Die → Die) : (s.modDie d f).opened = s.opened := rfl
@[simp] theorem modDie_grandmaster (d : Nat) (f : Die → Die) : (s.modDie d f).grandmaster = s.grandmaster := rfl
@[simp] theorem modDie_slewed (d : Nat) (f : Die → Die) : (s.modDie d f).slewed = s.slewed := rfl
@[simp] theorem modDie_steer (d : Nat) (f : Die → Die) : (s.modDie d f).steer = s.steer := rfl
@[simp] theorem modDie_cur (d : Nat) (f : Die → Die) : (s.modDie d f).cur = s.cur := rfl
@[simp] theorem modDie_src (d : Nat) (f : Die → Die) : (s.modDie d f).src = s.src := rfl
@[simp] theorem modDie_srcId (d : Nat) (f : Die → Die) : (s.modDie d f).srcId = s.srcId := rfl
@[simp] theorem modDie_pos (d : Nat) (f : Die → Die) : (s.modDie d f).pos = s.pos := rfl
@[simp] theorem modDie_npos (d : Nat) (f : Die → Die) : (s.modDie d f).npos = s.npos := rfl
@[simp] theorem modDie_out (d : Nat) (f : Die → Die) : (s.modDie d f).out = s.out := rfl
@[simp] theorem modDie_pfx (d : Nat) (f : Die → Die) : (s.modDie d f).pfx = s.pfx := rfl
@[simp] theorem modDie_only (d : Nat) (f : Die → Die) : (s.modDie d f).only = s.only := rfl
@[simp] theorem modDie_expansion (d : Nat) (f : Die → Die) : (s.modDie d f).expansion = s.expansion := rfl
@[simp] theorem modDie_agenda (d : Nat) (f : Die → Die) : (s.modDie d f).agenda = s.agenda := rfl
@[simp] theorem modDie_sched (d : Nat) (f : Die → Die) : (s.modDie d f).sched = s.sched := rfl
@[simp] theorem modDie_nextId (d : Nat) (f : Die → Die) : (s.modDie d f).nextId = s.nextId := rfl
@[simp] theorem modDie_drawn (d : Nat) (f : Die → Die) : (s.modDie d f).drawn = s.drawn := rfl

/-! `modWarp` -/

@[simp] theorem modWarp_time (k : Nat) (f : Warp → Warp) : (s.modWarp k f).time = s.time := rfl
@[simp] theorem modWarp_mem (k : Nat) (f : Warp → Warp) : (s.modWarp k f).mem = s.mem := rfl
@[simp] theorem modWarp_poison (k : Nat) (f : Warp → Warp) : (s.modWarp k f).poison = s.poison := rfl
@[simp] theorem modWarp_side (k : Nat) (f : Warp → Warp) : (s.modWarp k f).side = s.side := rfl
@[simp] theorem modWarp_slices (k : Nat) (f : Warp → Warp) : (s.modWarp k f).slices = s.slices := rfl
@[simp] theorem modWarp_dir (k : Nat) (f : Warp → Warp) : (s.modWarp k f).dir = s.dir := rfl
@[simp] theorem modWarp_txns (k : Nat) (f : Warp → Warp) : (s.modWarp k f).txns = s.txns := rfl
@[simp] theorem modWarp_lineq (k : Nat) (f : Warp → Warp) : (s.modWarp k f).lineq = s.lineq := rfl
@[simp] theorem modWarp_l1 (k : Nat) (f : Warp → Warp) : (s.modWarp k f).l1 = s.l1 := rfl
@[simp] theorem modWarp_rdc (k : Nat) (f : Warp → Warp) : (s.modWarp k f).rdc = s.rdc := rfl
@[simp] theorem modWarp_wbs (k : Nat) (f : Warp → Warp) : (s.modWarp k f).wbs = s.wbs := rfl
@[simp] theorem modWarp_vers (k : Nat) (f : Warp → Warp) : (s.modWarp k f).vers = s.vers := rfl
@[simp] theorem modWarp_brecs (k : Nat) (f : Warp → Warp) : (s.modWarp k f).brecs = s.brecs := rfl
@[simp] theorem modWarp_resv (k : Nat) (f : Warp → Warp) : (s.modWarp k f).resv = s.resv := rfl
@[simp] theorem modWarp_tlb (k : Nat) (f : Warp → Warp) : (s.modWarp k f).tlb = s.tlb := rfl
@[simp] theorem modWarp_walks (k : Nat) (f : Warp → Warp) : (s.modWarp k f).walks = s.walks := rfl
@[simp] theorem modWarp_missq (k : Nat) (f : Warp → Warp) : (s.modWarp k f).missq = s.missq := rfl
@[simp] theorem modWarp_ras (k : Nat) (f : Warp → Warp) : (s.modWarp k f).ras = s.ras := rfl
@[simp] theorem modWarp_dies (k : Nat) (f : Warp → Warp) : (s.modWarp k f).dies = s.dies := rfl
@[simp] theorem modWarp_cores (k : Nat) (f : Warp → Warp) : (s.modWarp k f).cores = s.cores := rfl
@[simp] theorem modWarp_left (k : Nat) (f : Warp → Warp) : (s.modWarp k f).left = s.left := rfl
@[simp] theorem modWarp_blocks (k : Nat) (f : Warp → Warp) : (s.modWarp k f).blocks = s.blocks := rfl
@[simp] theorem modWarp_clusters (k : Nat) (f : Warp → Warp) : (s.modWarp k f).clusters = s.clusters := rfl
@[simp] theorem modWarp_grids (k : Nat) (f : Warp → Warp) : (s.modWarp k f).grids = s.grids := rfl
@[simp] theorem modWarp_regions (k : Nat) (f : Warp → Warp) : (s.modWarp k f).regions = s.regions := rfl
@[simp] theorem modWarp_going (k : Nat) (f : Warp → Warp) : (s.modWarp k f).going = s.going := rfl
@[simp] theorem modWarp_recs (k : Nat) (f : Warp → Warp) : (s.modWarp k f).recs = s.recs := rfl
@[simp] theorem modWarp_pushes (k : Nat) (f : Warp → Warp) : (s.modWarp k f).pushes = s.pushes := rfl
@[simp] theorem modWarp_flights (k : Nat) (f : Warp → Warp) : (s.modWarp k f).flights = s.flights := rfl
@[simp] theorem modWarp_ops (k : Nat) (f : Warp → Warp) : (s.modWarp k f).ops = s.ops := rfl
@[simp] theorem modWarp_locks (k : Nat) (f : Warp → Warp) : (s.modWarp k f).locks = s.locks := rfl
@[simp] theorem modWarp_sfu (k : Nat) (f : Warp → Warp) : (s.modWarp k f).sfu = s.sfu := rfl
@[simp] theorem modWarp_allocs (k : Nat) (f : Warp → Warp) : (s.modWarp k f).allocs = s.allocs := rfl
@[simp] theorem modWarp_chunks (k : Nat) (f : Warp → Warp) : (s.modWarp k f).chunks = s.chunks := rfl
@[simp] theorem modWarp_xreqs (k : Nat) (f : Warp → Warp) : (s.modWarp k f).xreqs = s.xreqs := rfl
@[simp] theorem modWarp_outbox (k : Nat) (f : Warp → Warp) : (s.modWarp k f).outbox = s.outbox := rfl
@[simp] theorem modWarp_osros (k : Nat) (f : Warp → Warp) : (s.modWarp k f).osros = s.osros := rfl
@[simp] theorem modWarp_booted (k : Nat) (f : Warp → Warp) : (s.modWarp k f).booted = s.booted := rfl
@[simp] theorem modWarp_opened (k : Nat) (f : Warp → Warp) : (s.modWarp k f).opened = s.opened := rfl
@[simp] theorem modWarp_grandmaster (k : Nat) (f : Warp → Warp) : (s.modWarp k f).grandmaster = s.grandmaster := rfl
@[simp] theorem modWarp_slewed (k : Nat) (f : Warp → Warp) : (s.modWarp k f).slewed = s.slewed := rfl
@[simp] theorem modWarp_steer (k : Nat) (f : Warp → Warp) : (s.modWarp k f).steer = s.steer := rfl
@[simp] theorem modWarp_cur (k : Nat) (f : Warp → Warp) : (s.modWarp k f).cur = s.cur := rfl
@[simp] theorem modWarp_src (k : Nat) (f : Warp → Warp) : (s.modWarp k f).src = s.src := rfl
@[simp] theorem modWarp_srcId (k : Nat) (f : Warp → Warp) : (s.modWarp k f).srcId = s.srcId := rfl
@[simp] theorem modWarp_pos (k : Nat) (f : Warp → Warp) : (s.modWarp k f).pos = s.pos := rfl
@[simp] theorem modWarp_npos (k : Nat) (f : Warp → Warp) : (s.modWarp k f).npos = s.npos := rfl
@[simp] theorem modWarp_out (k : Nat) (f : Warp → Warp) : (s.modWarp k f).out = s.out := rfl
@[simp] theorem modWarp_pfx (k : Nat) (f : Warp → Warp) : (s.modWarp k f).pfx = s.pfx := rfl
@[simp] theorem modWarp_only (k : Nat) (f : Warp → Warp) : (s.modWarp k f).only = s.only := rfl
@[simp] theorem modWarp_expansion (k : Nat) (f : Warp → Warp) : (s.modWarp k f).expansion = s.expansion := rfl
@[simp] theorem modWarp_agenda (k : Nat) (f : Warp → Warp) : (s.modWarp k f).agenda = s.agenda := rfl
@[simp] theorem modWarp_sched (k : Nat) (f : Warp → Warp) : (s.modWarp k f).sched = s.sched := rfl
@[simp] theorem modWarp_nextId (k : Nat) (f : Warp → Warp) : (s.modWarp k f).nextId = s.nextId := rfl
@[simp] theorem modWarp_drawn (k : Nat) (f : Warp → Warp) : (s.modWarp k f).drawn = s.drawn := rfl

/-! `modBlock` -/

@[simp] theorem modBlock_time (b : Nat) (f : Block → Block) : (s.modBlock b f).time = s.time := rfl
@[simp] theorem modBlock_mem (b : Nat) (f : Block → Block) : (s.modBlock b f).mem = s.mem := rfl
@[simp] theorem modBlock_poison (b : Nat) (f : Block → Block) : (s.modBlock b f).poison = s.poison := rfl
@[simp] theorem modBlock_side (b : Nat) (f : Block → Block) : (s.modBlock b f).side = s.side := rfl
@[simp] theorem modBlock_slices (b : Nat) (f : Block → Block) : (s.modBlock b f).slices = s.slices := rfl
@[simp] theorem modBlock_dir (b : Nat) (f : Block → Block) : (s.modBlock b f).dir = s.dir := rfl
@[simp] theorem modBlock_txns (b : Nat) (f : Block → Block) : (s.modBlock b f).txns = s.txns := rfl
@[simp] theorem modBlock_lineq (b : Nat) (f : Block → Block) : (s.modBlock b f).lineq = s.lineq := rfl
@[simp] theorem modBlock_l1 (b : Nat) (f : Block → Block) : (s.modBlock b f).l1 = s.l1 := rfl
@[simp] theorem modBlock_rdc (b : Nat) (f : Block → Block) : (s.modBlock b f).rdc = s.rdc := rfl
@[simp] theorem modBlock_wbs (b : Nat) (f : Block → Block) : (s.modBlock b f).wbs = s.wbs := rfl
@[simp] theorem modBlock_vers (b : Nat) (f : Block → Block) : (s.modBlock b f).vers = s.vers := rfl
@[simp] theorem modBlock_brecs (b : Nat) (f : Block → Block) : (s.modBlock b f).brecs = s.brecs := rfl
@[simp] theorem modBlock_resv (b : Nat) (f : Block → Block) : (s.modBlock b f).resv = s.resv := rfl
@[simp] theorem modBlock_tlb (b : Nat) (f : Block → Block) : (s.modBlock b f).tlb = s.tlb := rfl
@[simp] theorem modBlock_walks (b : Nat) (f : Block → Block) : (s.modBlock b f).walks = s.walks := rfl
@[simp] theorem modBlock_missq (b : Nat) (f : Block → Block) : (s.modBlock b f).missq = s.missq := rfl
@[simp] theorem modBlock_ras (b : Nat) (f : Block → Block) : (s.modBlock b f).ras = s.ras := rfl
@[simp] theorem modBlock_dies (b : Nat) (f : Block → Block) : (s.modBlock b f).dies = s.dies := rfl
@[simp] theorem modBlock_cores (b : Nat) (f : Block → Block) : (s.modBlock b f).cores = s.cores := rfl
@[simp] theorem modBlock_warps (b : Nat) (f : Block → Block) : (s.modBlock b f).warps = s.warps := rfl
@[simp] theorem modBlock_left (b : Nat) (f : Block → Block) : (s.modBlock b f).left = s.left := rfl
@[simp] theorem modBlock_clusters (b : Nat) (f : Block → Block) : (s.modBlock b f).clusters = s.clusters := rfl
@[simp] theorem modBlock_grids (b : Nat) (f : Block → Block) : (s.modBlock b f).grids = s.grids := rfl
@[simp] theorem modBlock_regions (b : Nat) (f : Block → Block) : (s.modBlock b f).regions = s.regions := rfl
@[simp] theorem modBlock_going (b : Nat) (f : Block → Block) : (s.modBlock b f).going = s.going := rfl
@[simp] theorem modBlock_recs (b : Nat) (f : Block → Block) : (s.modBlock b f).recs = s.recs := rfl
@[simp] theorem modBlock_pushes (b : Nat) (f : Block → Block) : (s.modBlock b f).pushes = s.pushes := rfl
@[simp] theorem modBlock_flights (b : Nat) (f : Block → Block) : (s.modBlock b f).flights = s.flights := rfl
@[simp] theorem modBlock_ops (b : Nat) (f : Block → Block) : (s.modBlock b f).ops = s.ops := rfl
@[simp] theorem modBlock_locks (b : Nat) (f : Block → Block) : (s.modBlock b f).locks = s.locks := rfl
@[simp] theorem modBlock_sfu (b : Nat) (f : Block → Block) : (s.modBlock b f).sfu = s.sfu := rfl
@[simp] theorem modBlock_allocs (b : Nat) (f : Block → Block) : (s.modBlock b f).allocs = s.allocs := rfl
@[simp] theorem modBlock_chunks (b : Nat) (f : Block → Block) : (s.modBlock b f).chunks = s.chunks := rfl
@[simp] theorem modBlock_xreqs (b : Nat) (f : Block → Block) : (s.modBlock b f).xreqs = s.xreqs := rfl
@[simp] theorem modBlock_outbox (b : Nat) (f : Block → Block) : (s.modBlock b f).outbox = s.outbox := rfl
@[simp] theorem modBlock_osros (b : Nat) (f : Block → Block) : (s.modBlock b f).osros = s.osros := rfl
@[simp] theorem modBlock_booted (b : Nat) (f : Block → Block) : (s.modBlock b f).booted = s.booted := rfl
@[simp] theorem modBlock_opened (b : Nat) (f : Block → Block) : (s.modBlock b f).opened = s.opened := rfl
@[simp] theorem modBlock_grandmaster (b : Nat) (f : Block → Block) : (s.modBlock b f).grandmaster = s.grandmaster := rfl
@[simp] theorem modBlock_slewed (b : Nat) (f : Block → Block) : (s.modBlock b f).slewed = s.slewed := rfl
@[simp] theorem modBlock_steer (b : Nat) (f : Block → Block) : (s.modBlock b f).steer = s.steer := rfl
@[simp] theorem modBlock_cur (b : Nat) (f : Block → Block) : (s.modBlock b f).cur = s.cur := rfl
@[simp] theorem modBlock_src (b : Nat) (f : Block → Block) : (s.modBlock b f).src = s.src := rfl
@[simp] theorem modBlock_srcId (b : Nat) (f : Block → Block) : (s.modBlock b f).srcId = s.srcId := rfl
@[simp] theorem modBlock_pos (b : Nat) (f : Block → Block) : (s.modBlock b f).pos = s.pos := rfl
@[simp] theorem modBlock_npos (b : Nat) (f : Block → Block) : (s.modBlock b f).npos = s.npos := rfl
@[simp] theorem modBlock_out (b : Nat) (f : Block → Block) : (s.modBlock b f).out = s.out := rfl
@[simp] theorem modBlock_pfx (b : Nat) (f : Block → Block) : (s.modBlock b f).pfx = s.pfx := rfl
@[simp] theorem modBlock_only (b : Nat) (f : Block → Block) : (s.modBlock b f).only = s.only := rfl
@[simp] theorem modBlock_expansion (b : Nat) (f : Block → Block) : (s.modBlock b f).expansion = s.expansion := rfl
@[simp] theorem modBlock_agenda (b : Nat) (f : Block → Block) : (s.modBlock b f).agenda = s.agenda := rfl
@[simp] theorem modBlock_sched (b : Nat) (f : Block → Block) : (s.modBlock b f).sched = s.sched := rfl
@[simp] theorem modBlock_nextId (b : Nat) (f : Block → Block) : (s.modBlock b f).nextId = s.nextId := rfl
@[simp] theorem modBlock_drawn (b : Nat) (f : Block → Block) : (s.modBlock b f).drawn = s.drawn := rfl

/-! `modCluster` -/

@[simp] theorem modCluster_time (c : Nat) (f : Cluster → Cluster) : (s.modCluster c f).time = s.time := rfl
@[simp] theorem modCluster_mem (c : Nat) (f : Cluster → Cluster) : (s.modCluster c f).mem = s.mem := rfl
@[simp] theorem modCluster_poison (c : Nat) (f : Cluster → Cluster) : (s.modCluster c f).poison = s.poison := rfl
@[simp] theorem modCluster_side (c : Nat) (f : Cluster → Cluster) : (s.modCluster c f).side = s.side := rfl
@[simp] theorem modCluster_slices (c : Nat) (f : Cluster → Cluster) : (s.modCluster c f).slices = s.slices := rfl
@[simp] theorem modCluster_dir (c : Nat) (f : Cluster → Cluster) : (s.modCluster c f).dir = s.dir := rfl
@[simp] theorem modCluster_txns (c : Nat) (f : Cluster → Cluster) : (s.modCluster c f).txns = s.txns := rfl
@[simp] theorem modCluster_lineq (c : Nat) (f : Cluster → Cluster) : (s.modCluster c f).lineq = s.lineq := rfl
@[simp] theorem modCluster_l1 (c : Nat) (f : Cluster → Cluster) : (s.modCluster c f).l1 = s.l1 := rfl
@[simp] theorem modCluster_rdc (c : Nat) (f : Cluster → Cluster) : (s.modCluster c f).rdc = s.rdc := rfl
@[simp] theorem modCluster_wbs (c : Nat) (f : Cluster → Cluster) : (s.modCluster c f).wbs = s.wbs := rfl
@[simp] theorem modCluster_vers (c : Nat) (f : Cluster → Cluster) : (s.modCluster c f).vers = s.vers := rfl
@[simp] theorem modCluster_brecs (c : Nat) (f : Cluster → Cluster) : (s.modCluster c f).brecs = s.brecs := rfl
@[simp] theorem modCluster_resv (c : Nat) (f : Cluster → Cluster) : (s.modCluster c f).resv = s.resv := rfl
@[simp] theorem modCluster_tlb (c : Nat) (f : Cluster → Cluster) : (s.modCluster c f).tlb = s.tlb := rfl
@[simp] theorem modCluster_walks (c : Nat) (f : Cluster → Cluster) : (s.modCluster c f).walks = s.walks := rfl
@[simp] theorem modCluster_missq (c : Nat) (f : Cluster → Cluster) : (s.modCluster c f).missq = s.missq := rfl
@[simp] theorem modCluster_ras (c : Nat) (f : Cluster → Cluster) : (s.modCluster c f).ras = s.ras := rfl
@[simp] theorem modCluster_dies (c : Nat) (f : Cluster → Cluster) : (s.modCluster c f).dies = s.dies := rfl
@[simp] theorem modCluster_cores (c : Nat) (f : Cluster → Cluster) : (s.modCluster c f).cores = s.cores := rfl
@[simp] theorem modCluster_warps (c : Nat) (f : Cluster → Cluster) : (s.modCluster c f).warps = s.warps := rfl
@[simp] theorem modCluster_left (c : Nat) (f : Cluster → Cluster) : (s.modCluster c f).left = s.left := rfl
@[simp] theorem modCluster_blocks (c : Nat) (f : Cluster → Cluster) : (s.modCluster c f).blocks = s.blocks := rfl
@[simp] theorem modCluster_grids (c : Nat) (f : Cluster → Cluster) : (s.modCluster c f).grids = s.grids := rfl
@[simp] theorem modCluster_regions (c : Nat) (f : Cluster → Cluster) : (s.modCluster c f).regions = s.regions := rfl
@[simp] theorem modCluster_going (c : Nat) (f : Cluster → Cluster) : (s.modCluster c f).going = s.going := rfl
@[simp] theorem modCluster_recs (c : Nat) (f : Cluster → Cluster) : (s.modCluster c f).recs = s.recs := rfl
@[simp] theorem modCluster_pushes (c : Nat) (f : Cluster → Cluster) : (s.modCluster c f).pushes = s.pushes := rfl
@[simp] theorem modCluster_flights (c : Nat) (f : Cluster → Cluster) : (s.modCluster c f).flights = s.flights := rfl
@[simp] theorem modCluster_ops (c : Nat) (f : Cluster → Cluster) : (s.modCluster c f).ops = s.ops := rfl
@[simp] theorem modCluster_locks (c : Nat) (f : Cluster → Cluster) : (s.modCluster c f).locks = s.locks := rfl
@[simp] theorem modCluster_sfu (c : Nat) (f : Cluster → Cluster) : (s.modCluster c f).sfu = s.sfu := rfl
@[simp] theorem modCluster_allocs (c : Nat) (f : Cluster → Cluster) : (s.modCluster c f).allocs = s.allocs := rfl
@[simp] theorem modCluster_chunks (c : Nat) (f : Cluster → Cluster) : (s.modCluster c f).chunks = s.chunks := rfl
@[simp] theorem modCluster_xreqs (c : Nat) (f : Cluster → Cluster) : (s.modCluster c f).xreqs = s.xreqs := rfl
@[simp] theorem modCluster_outbox (c : Nat) (f : Cluster → Cluster) : (s.modCluster c f).outbox = s.outbox := rfl
@[simp] theorem modCluster_osros (c : Nat) (f : Cluster → Cluster) : (s.modCluster c f).osros = s.osros := rfl
@[simp] theorem modCluster_booted (c : Nat) (f : Cluster → Cluster) : (s.modCluster c f).booted = s.booted := rfl
@[simp] theorem modCluster_opened (c : Nat) (f : Cluster → Cluster) : (s.modCluster c f).opened = s.opened := rfl
@[simp] theorem modCluster_grandmaster (c : Nat) (f : Cluster → Cluster) : (s.modCluster c f).grandmaster = s.grandmaster := rfl
@[simp] theorem modCluster_slewed (c : Nat) (f : Cluster → Cluster) : (s.modCluster c f).slewed = s.slewed := rfl
@[simp] theorem modCluster_steer (c : Nat) (f : Cluster → Cluster) : (s.modCluster c f).steer = s.steer := rfl
@[simp] theorem modCluster_cur (c : Nat) (f : Cluster → Cluster) : (s.modCluster c f).cur = s.cur := rfl
@[simp] theorem modCluster_src (c : Nat) (f : Cluster → Cluster) : (s.modCluster c f).src = s.src := rfl
@[simp] theorem modCluster_srcId (c : Nat) (f : Cluster → Cluster) : (s.modCluster c f).srcId = s.srcId := rfl
@[simp] theorem modCluster_pos (c : Nat) (f : Cluster → Cluster) : (s.modCluster c f).pos = s.pos := rfl
@[simp] theorem modCluster_npos (c : Nat) (f : Cluster → Cluster) : (s.modCluster c f).npos = s.npos := rfl
@[simp] theorem modCluster_out (c : Nat) (f : Cluster → Cluster) : (s.modCluster c f).out = s.out := rfl
@[simp] theorem modCluster_pfx (c : Nat) (f : Cluster → Cluster) : (s.modCluster c f).pfx = s.pfx := rfl
@[simp] theorem modCluster_only (c : Nat) (f : Cluster → Cluster) : (s.modCluster c f).only = s.only := rfl
@[simp] theorem modCluster_expansion (c : Nat) (f : Cluster → Cluster) : (s.modCluster c f).expansion = s.expansion := rfl
@[simp] theorem modCluster_agenda (c : Nat) (f : Cluster → Cluster) : (s.modCluster c f).agenda = s.agenda := rfl
@[simp] theorem modCluster_sched (c : Nat) (f : Cluster → Cluster) : (s.modCluster c f).sched = s.sched := rfl
@[simp] theorem modCluster_nextId (c : Nat) (f : Cluster → Cluster) : (s.modCluster c f).nextId = s.nextId := rfl
@[simp] theorem modCluster_drawn (c : Nat) (f : Cluster → Cluster) : (s.modCluster c f).drawn = s.drawn := rfl

/-! `modGrid` -/

@[simp] theorem modGrid_time (g : Nat) (f : Grid → Grid) : (s.modGrid g f).time = s.time := rfl
@[simp] theorem modGrid_mem (g : Nat) (f : Grid → Grid) : (s.modGrid g f).mem = s.mem := rfl
@[simp] theorem modGrid_poison (g : Nat) (f : Grid → Grid) : (s.modGrid g f).poison = s.poison := rfl
@[simp] theorem modGrid_side (g : Nat) (f : Grid → Grid) : (s.modGrid g f).side = s.side := rfl
@[simp] theorem modGrid_slices (g : Nat) (f : Grid → Grid) : (s.modGrid g f).slices = s.slices := rfl
@[simp] theorem modGrid_dir (g : Nat) (f : Grid → Grid) : (s.modGrid g f).dir = s.dir := rfl
@[simp] theorem modGrid_txns (g : Nat) (f : Grid → Grid) : (s.modGrid g f).txns = s.txns := rfl
@[simp] theorem modGrid_lineq (g : Nat) (f : Grid → Grid) : (s.modGrid g f).lineq = s.lineq := rfl
@[simp] theorem modGrid_l1 (g : Nat) (f : Grid → Grid) : (s.modGrid g f).l1 = s.l1 := rfl
@[simp] theorem modGrid_rdc (g : Nat) (f : Grid → Grid) : (s.modGrid g f).rdc = s.rdc := rfl
@[simp] theorem modGrid_wbs (g : Nat) (f : Grid → Grid) : (s.modGrid g f).wbs = s.wbs := rfl
@[simp] theorem modGrid_vers (g : Nat) (f : Grid → Grid) : (s.modGrid g f).vers = s.vers := rfl
@[simp] theorem modGrid_brecs (g : Nat) (f : Grid → Grid) : (s.modGrid g f).brecs = s.brecs := rfl
@[simp] theorem modGrid_resv (g : Nat) (f : Grid → Grid) : (s.modGrid g f).resv = s.resv := rfl
@[simp] theorem modGrid_tlb (g : Nat) (f : Grid → Grid) : (s.modGrid g f).tlb = s.tlb := rfl
@[simp] theorem modGrid_walks (g : Nat) (f : Grid → Grid) : (s.modGrid g f).walks = s.walks := rfl
@[simp] theorem modGrid_missq (g : Nat) (f : Grid → Grid) : (s.modGrid g f).missq = s.missq := rfl
@[simp] theorem modGrid_ras (g : Nat) (f : Grid → Grid) : (s.modGrid g f).ras = s.ras := rfl
@[simp] theorem modGrid_dies (g : Nat) (f : Grid → Grid) : (s.modGrid g f).dies = s.dies := rfl
@[simp] theorem modGrid_cores (g : Nat) (f : Grid → Grid) : (s.modGrid g f).cores = s.cores := rfl
@[simp] theorem modGrid_warps (g : Nat) (f : Grid → Grid) : (s.modGrid g f).warps = s.warps := rfl
@[simp] theorem modGrid_left (g : Nat) (f : Grid → Grid) : (s.modGrid g f).left = s.left := rfl
@[simp] theorem modGrid_blocks (g : Nat) (f : Grid → Grid) : (s.modGrid g f).blocks = s.blocks := rfl
@[simp] theorem modGrid_clusters (g : Nat) (f : Grid → Grid) : (s.modGrid g f).clusters = s.clusters := rfl
@[simp] theorem modGrid_regions (g : Nat) (f : Grid → Grid) : (s.modGrid g f).regions = s.regions := rfl
@[simp] theorem modGrid_going (g : Nat) (f : Grid → Grid) : (s.modGrid g f).going = s.going := rfl
@[simp] theorem modGrid_recs (g : Nat) (f : Grid → Grid) : (s.modGrid g f).recs = s.recs := rfl
@[simp] theorem modGrid_pushes (g : Nat) (f : Grid → Grid) : (s.modGrid g f).pushes = s.pushes := rfl
@[simp] theorem modGrid_flights (g : Nat) (f : Grid → Grid) : (s.modGrid g f).flights = s.flights := rfl
@[simp] theorem modGrid_ops (g : Nat) (f : Grid → Grid) : (s.modGrid g f).ops = s.ops := rfl
@[simp] theorem modGrid_locks (g : Nat) (f : Grid → Grid) : (s.modGrid g f).locks = s.locks := rfl
@[simp] theorem modGrid_sfu (g : Nat) (f : Grid → Grid) : (s.modGrid g f).sfu = s.sfu := rfl
@[simp] theorem modGrid_allocs (g : Nat) (f : Grid → Grid) : (s.modGrid g f).allocs = s.allocs := rfl
@[simp] theorem modGrid_chunks (g : Nat) (f : Grid → Grid) : (s.modGrid g f).chunks = s.chunks := rfl
@[simp] theorem modGrid_xreqs (g : Nat) (f : Grid → Grid) : (s.modGrid g f).xreqs = s.xreqs := rfl
@[simp] theorem modGrid_outbox (g : Nat) (f : Grid → Grid) : (s.modGrid g f).outbox = s.outbox := rfl
@[simp] theorem modGrid_osros (g : Nat) (f : Grid → Grid) : (s.modGrid g f).osros = s.osros := rfl
@[simp] theorem modGrid_booted (g : Nat) (f : Grid → Grid) : (s.modGrid g f).booted = s.booted := rfl
@[simp] theorem modGrid_opened (g : Nat) (f : Grid → Grid) : (s.modGrid g f).opened = s.opened := rfl
@[simp] theorem modGrid_grandmaster (g : Nat) (f : Grid → Grid) : (s.modGrid g f).grandmaster = s.grandmaster := rfl
@[simp] theorem modGrid_slewed (g : Nat) (f : Grid → Grid) : (s.modGrid g f).slewed = s.slewed := rfl
@[simp] theorem modGrid_steer (g : Nat) (f : Grid → Grid) : (s.modGrid g f).steer = s.steer := rfl
@[simp] theorem modGrid_cur (g : Nat) (f : Grid → Grid) : (s.modGrid g f).cur = s.cur := rfl
@[simp] theorem modGrid_src (g : Nat) (f : Grid → Grid) : (s.modGrid g f).src = s.src := rfl
@[simp] theorem modGrid_srcId (g : Nat) (f : Grid → Grid) : (s.modGrid g f).srcId = s.srcId := rfl
@[simp] theorem modGrid_pos (g : Nat) (f : Grid → Grid) : (s.modGrid g f).pos = s.pos := rfl
@[simp] theorem modGrid_npos (g : Nat) (f : Grid → Grid) : (s.modGrid g f).npos = s.npos := rfl
@[simp] theorem modGrid_out (g : Nat) (f : Grid → Grid) : (s.modGrid g f).out = s.out := rfl
@[simp] theorem modGrid_pfx (g : Nat) (f : Grid → Grid) : (s.modGrid g f).pfx = s.pfx := rfl
@[simp] theorem modGrid_only (g : Nat) (f : Grid → Grid) : (s.modGrid g f).only = s.only := rfl
@[simp] theorem modGrid_expansion (g : Nat) (f : Grid → Grid) : (s.modGrid g f).expansion = s.expansion := rfl
@[simp] theorem modGrid_agenda (g : Nat) (f : Grid → Grid) : (s.modGrid g f).agenda = s.agenda := rfl
@[simp] theorem modGrid_sched (g : Nat) (f : Grid → Grid) : (s.modGrid g f).sched = s.sched := rfl
@[simp] theorem modGrid_nextId (g : Nat) (f : Grid → Grid) : (s.modGrid g f).nextId = s.nextId := rfl
@[simp] theorem modGrid_drawn (g : Nat) (f : Grid → Grid) : (s.modGrid g f).drawn = s.drawn := rfl

/-! `modMe` -/

@[simp] theorem modMe_time (f : Warp → Warp) : (s.modMe f).time = s.time := rfl
@[simp] theorem modMe_mem (f : Warp → Warp) : (s.modMe f).mem = s.mem := rfl
@[simp] theorem modMe_poison (f : Warp → Warp) : (s.modMe f).poison = s.poison := rfl
@[simp] theorem modMe_side (f : Warp → Warp) : (s.modMe f).side = s.side := rfl
@[simp] theorem modMe_slices (f : Warp → Warp) : (s.modMe f).slices = s.slices := rfl
@[simp] theorem modMe_dir (f : Warp → Warp) : (s.modMe f).dir = s.dir := rfl
@[simp] theorem modMe_txns (f : Warp → Warp) : (s.modMe f).txns = s.txns := rfl
@[simp] theorem modMe_lineq (f : Warp → Warp) : (s.modMe f).lineq = s.lineq := rfl
@[simp] theorem modMe_l1 (f : Warp → Warp) : (s.modMe f).l1 = s.l1 := rfl
@[simp] theorem modMe_rdc (f : Warp → Warp) : (s.modMe f).rdc = s.rdc := rfl
@[simp] theorem modMe_wbs (f : Warp → Warp) : (s.modMe f).wbs = s.wbs := rfl
@[simp] theorem modMe_vers (f : Warp → Warp) : (s.modMe f).vers = s.vers := rfl
@[simp] theorem modMe_brecs (f : Warp → Warp) : (s.modMe f).brecs = s.brecs := rfl
@[simp] theorem modMe_resv (f : Warp → Warp) : (s.modMe f).resv = s.resv := rfl
@[simp] theorem modMe_tlb (f : Warp → Warp) : (s.modMe f).tlb = s.tlb := rfl
@[simp] theorem modMe_walks (f : Warp → Warp) : (s.modMe f).walks = s.walks := rfl
@[simp] theorem modMe_missq (f : Warp → Warp) : (s.modMe f).missq = s.missq := rfl
@[simp] theorem modMe_ras (f : Warp → Warp) : (s.modMe f).ras = s.ras := rfl
@[simp] theorem modMe_dies (f : Warp → Warp) : (s.modMe f).dies = s.dies := rfl
@[simp] theorem modMe_cores (f : Warp → Warp) : (s.modMe f).cores = s.cores := rfl
@[simp] theorem modMe_left (f : Warp → Warp) : (s.modMe f).left = s.left := rfl
@[simp] theorem modMe_blocks (f : Warp → Warp) : (s.modMe f).blocks = s.blocks := rfl
@[simp] theorem modMe_clusters (f : Warp → Warp) : (s.modMe f).clusters = s.clusters := rfl
@[simp] theorem modMe_grids (f : Warp → Warp) : (s.modMe f).grids = s.grids := rfl
@[simp] theorem modMe_regions (f : Warp → Warp) : (s.modMe f).regions = s.regions := rfl
@[simp] theorem modMe_going (f : Warp → Warp) : (s.modMe f).going = s.going := rfl
@[simp] theorem modMe_recs (f : Warp → Warp) : (s.modMe f).recs = s.recs := rfl
@[simp] theorem modMe_pushes (f : Warp → Warp) : (s.modMe f).pushes = s.pushes := rfl
@[simp] theorem modMe_flights (f : Warp → Warp) : (s.modMe f).flights = s.flights := rfl
@[simp] theorem modMe_ops (f : Warp → Warp) : (s.modMe f).ops = s.ops := rfl
@[simp] theorem modMe_locks (f : Warp → Warp) : (s.modMe f).locks = s.locks := rfl
@[simp] theorem modMe_sfu (f : Warp → Warp) : (s.modMe f).sfu = s.sfu := rfl
@[simp] theorem modMe_allocs (f : Warp → Warp) : (s.modMe f).allocs = s.allocs := rfl
@[simp] theorem modMe_chunks (f : Warp → Warp) : (s.modMe f).chunks = s.chunks := rfl
@[simp] theorem modMe_xreqs (f : Warp → Warp) : (s.modMe f).xreqs = s.xreqs := rfl
@[simp] theorem modMe_outbox (f : Warp → Warp) : (s.modMe f).outbox = s.outbox := rfl
@[simp] theorem modMe_osros (f : Warp → Warp) : (s.modMe f).osros = s.osros := rfl
@[simp] theorem modMe_booted (f : Warp → Warp) : (s.modMe f).booted = s.booted := rfl
@[simp] theorem modMe_opened (f : Warp → Warp) : (s.modMe f).opened = s.opened := rfl
@[simp] theorem modMe_grandmaster (f : Warp → Warp) : (s.modMe f).grandmaster = s.grandmaster := rfl
@[simp] theorem modMe_slewed (f : Warp → Warp) : (s.modMe f).slewed = s.slewed := rfl
@[simp] theorem modMe_steer (f : Warp → Warp) : (s.modMe f).steer = s.steer := rfl
@[simp] theorem modMe_cur (f : Warp → Warp) : (s.modMe f).cur = s.cur := rfl
@[simp] theorem modMe_src (f : Warp → Warp) : (s.modMe f).src = s.src := rfl
@[simp] theorem modMe_srcId (f : Warp → Warp) : (s.modMe f).srcId = s.srcId := rfl
@[simp] theorem modMe_pos (f : Warp → Warp) : (s.modMe f).pos = s.pos := rfl
@[simp] theorem modMe_npos (f : Warp → Warp) : (s.modMe f).npos = s.npos := rfl
@[simp] theorem modMe_out (f : Warp → Warp) : (s.modMe f).out = s.out := rfl
@[simp] theorem modMe_pfx (f : Warp → Warp) : (s.modMe f).pfx = s.pfx := rfl
@[simp] theorem modMe_only (f : Warp → Warp) : (s.modMe f).only = s.only := rfl
@[simp] theorem modMe_expansion (f : Warp → Warp) : (s.modMe f).expansion = s.expansion := rfl
@[simp] theorem modMe_agenda (f : Warp → Warp) : (s.modMe f).agenda = s.agenda := rfl
@[simp] theorem modMe_sched (f : Warp → Warp) : (s.modMe f).sched = s.sched := rfl
@[simp] theorem modMe_nextId (f : Warp → Warp) : (s.modMe f).nextId = s.nextId := rfl
@[simp] theorem modMe_drawn (f : Warp → Warp) : (s.modMe f).drawn = s.drawn := rfl

/-! `push` -/

@[simp] theorem push_time (is : List Instr) : (s.push is).time = s.time := rfl
@[simp] theorem push_mem (is : List Instr) : (s.push is).mem = s.mem := rfl
@[simp] theorem push_poison (is : List Instr) : (s.push is).poison = s.poison := rfl
@[simp] theorem push_side (is : List Instr) : (s.push is).side = s.side := rfl
@[simp] theorem push_slices (is : List Instr) : (s.push is).slices = s.slices := rfl
@[simp] theorem push_dir (is : List Instr) : (s.push is).dir = s.dir := rfl
@[simp] theorem push_txns (is : List Instr) : (s.push is).txns = s.txns := rfl
@[simp] theorem push_lineq (is : List Instr) : (s.push is).lineq = s.lineq := rfl
@[simp] theorem push_l1 (is : List Instr) : (s.push is).l1 = s.l1 := rfl
@[simp] theorem push_rdc (is : List Instr) : (s.push is).rdc = s.rdc := rfl
@[simp] theorem push_wbs (is : List Instr) : (s.push is).wbs = s.wbs := rfl
@[simp] theorem push_vers (is : List Instr) : (s.push is).vers = s.vers := rfl
@[simp] theorem push_brecs (is : List Instr) : (s.push is).brecs = s.brecs := rfl
@[simp] theorem push_resv (is : List Instr) : (s.push is).resv = s.resv := rfl
@[simp] theorem push_tlb (is : List Instr) : (s.push is).tlb = s.tlb := rfl
@[simp] theorem push_walks (is : List Instr) : (s.push is).walks = s.walks := rfl
@[simp] theorem push_missq (is : List Instr) : (s.push is).missq = s.missq := rfl
@[simp] theorem push_ras (is : List Instr) : (s.push is).ras = s.ras := rfl
@[simp] theorem push_dies (is : List Instr) : (s.push is).dies = s.dies := rfl
@[simp] theorem push_cores (is : List Instr) : (s.push is).cores = s.cores := rfl
@[simp] theorem push_warps (is : List Instr) : (s.push is).warps = s.warps := rfl
@[simp] theorem push_left (is : List Instr) : (s.push is).left = s.left := rfl
@[simp] theorem push_blocks (is : List Instr) : (s.push is).blocks = s.blocks := rfl
@[simp] theorem push_clusters (is : List Instr) : (s.push is).clusters = s.clusters := rfl
@[simp] theorem push_grids (is : List Instr) : (s.push is).grids = s.grids := rfl
@[simp] theorem push_regions (is : List Instr) : (s.push is).regions = s.regions := rfl
@[simp] theorem push_going (is : List Instr) : (s.push is).going = s.going := rfl
@[simp] theorem push_recs (is : List Instr) : (s.push is).recs = s.recs := rfl
@[simp] theorem push_pushes (is : List Instr) : (s.push is).pushes = s.pushes := rfl
@[simp] theorem push_flights (is : List Instr) : (s.push is).flights = s.flights := rfl
@[simp] theorem push_ops (is : List Instr) : (s.push is).ops = s.ops := rfl
@[simp] theorem push_locks (is : List Instr) : (s.push is).locks = s.locks := rfl
@[simp] theorem push_sfu (is : List Instr) : (s.push is).sfu = s.sfu := rfl
@[simp] theorem push_allocs (is : List Instr) : (s.push is).allocs = s.allocs := rfl
@[simp] theorem push_chunks (is : List Instr) : (s.push is).chunks = s.chunks := rfl
@[simp] theorem push_xreqs (is : List Instr) : (s.push is).xreqs = s.xreqs := rfl
@[simp] theorem push_outbox (is : List Instr) : (s.push is).outbox = s.outbox := rfl
@[simp] theorem push_osros (is : List Instr) : (s.push is).osros = s.osros := rfl
@[simp] theorem push_booted (is : List Instr) : (s.push is).booted = s.booted := rfl
@[simp] theorem push_opened (is : List Instr) : (s.push is).opened = s.opened := rfl
@[simp] theorem push_grandmaster (is : List Instr) : (s.push is).grandmaster = s.grandmaster := rfl
@[simp] theorem push_slewed (is : List Instr) : (s.push is).slewed = s.slewed := rfl
@[simp] theorem push_steer (is : List Instr) : (s.push is).steer = s.steer := rfl
@[simp] theorem push_cur (is : List Instr) : (s.push is).cur = s.cur := rfl
@[simp] theorem push_src (is : List Instr) : (s.push is).src = s.src := rfl
@[simp] theorem push_srcId (is : List Instr) : (s.push is).srcId = s.srcId := rfl
@[simp] theorem push_pos (is : List Instr) : (s.push is).pos = s.pos := rfl
@[simp] theorem push_npos (is : List Instr) : (s.push is).npos = s.npos := rfl
@[simp] theorem push_out (is : List Instr) : (s.push is).out = s.out := rfl
@[simp] theorem push_pfx (is : List Instr) : (s.push is).pfx = s.pfx := rfl
@[simp] theorem push_only (is : List Instr) : (s.push is).only = s.only := rfl
@[simp] theorem push_expansion (is : List Instr) : (s.push is).expansion = s.expansion := rfl
@[simp] theorem push_sched (is : List Instr) : (s.push is).sched = s.sched := rfl
@[simp] theorem push_nextId (is : List Instr) : (s.push is).nextId = s.nextId := rfl
@[simp] theorem push_drawn (is : List Instr) : (s.push is).drawn = s.drawn := rfl

/-! `done` -/

@[simp] theorem done_time  : (s.done).time = s.time := rfl
@[simp] theorem done_mem  : (s.done).mem = s.mem := rfl
@[simp] theorem done_poison  : (s.done).poison = s.poison := rfl
@[simp] theorem done_side  : (s.done).side = s.side := rfl
@[simp] theorem done_slices  : (s.done).slices = s.slices := rfl
@[simp] theorem done_dir  : (s.done).dir = s.dir := rfl
@[simp] theorem done_txns  : (s.done).txns = s.txns := rfl
@[simp] theorem done_lineq  : (s.done).lineq = s.lineq := rfl
@[simp] theorem done_l1  : (s.done).l1 = s.l1 := rfl
@[simp] theorem done_rdc  : (s.done).rdc = s.rdc := rfl
@[simp] theorem done_wbs  : (s.done).wbs = s.wbs := rfl
@[simp] theorem done_vers  : (s.done).vers = s.vers := rfl
@[simp] theorem done_brecs  : (s.done).brecs = s.brecs := rfl
@[simp] theorem done_resv  : (s.done).resv = s.resv := rfl
@[simp] theorem done_tlb  : (s.done).tlb = s.tlb := rfl
@[simp] theorem done_walks  : (s.done).walks = s.walks := rfl
@[simp] theorem done_missq  : (s.done).missq = s.missq := rfl
@[simp] theorem done_ras  : (s.done).ras = s.ras := rfl
@[simp] theorem done_dies  : (s.done).dies = s.dies := rfl
@[simp] theorem done_cores  : (s.done).cores = s.cores := rfl
@[simp] theorem done_warps  : (s.done).warps = s.warps := rfl
@[simp] theorem done_left  : (s.done).left = s.left := rfl
@[simp] theorem done_blocks  : (s.done).blocks = s.blocks := rfl
@[simp] theorem done_clusters  : (s.done).clusters = s.clusters := rfl
@[simp] theorem done_grids  : (s.done).grids = s.grids := rfl
@[simp] theorem done_regions  : (s.done).regions = s.regions := rfl
@[simp] theorem done_going  : (s.done).going = s.going := rfl
@[simp] theorem done_recs  : (s.done).recs = s.recs := rfl
@[simp] theorem done_pushes  : (s.done).pushes = s.pushes := rfl
@[simp] theorem done_flights  : (s.done).flights = s.flights := rfl
@[simp] theorem done_ops  : (s.done).ops = s.ops := rfl
@[simp] theorem done_locks  : (s.done).locks = s.locks := rfl
@[simp] theorem done_sfu  : (s.done).sfu = s.sfu := rfl
@[simp] theorem done_allocs  : (s.done).allocs = s.allocs := rfl
@[simp] theorem done_chunks  : (s.done).chunks = s.chunks := rfl
@[simp] theorem done_xreqs  : (s.done).xreqs = s.xreqs := rfl
@[simp] theorem done_outbox  : (s.done).outbox = s.outbox := rfl
@[simp] theorem done_osros  : (s.done).osros = s.osros := rfl
@[simp] theorem done_booted  : (s.done).booted = s.booted := rfl
@[simp] theorem done_opened  : (s.done).opened = s.opened := rfl
@[simp] theorem done_grandmaster  : (s.done).grandmaster = s.grandmaster := rfl
@[simp] theorem done_slewed  : (s.done).slewed = s.slewed := rfl
@[simp] theorem done_steer  : (s.done).steer = s.steer := rfl
@[simp] theorem done_cur  : (s.done).cur = s.cur := rfl
@[simp] theorem done_src  : (s.done).src = s.src := rfl
@[simp] theorem done_srcId  : (s.done).srcId = s.srcId := rfl
@[simp] theorem done_pos  : (s.done).pos = s.pos := rfl
@[simp] theorem done_npos  : (s.done).npos = s.npos := rfl
@[simp] theorem done_pfx  : (s.done).pfx = s.pfx := rfl
@[simp] theorem done_only  : (s.done).only = s.only := rfl
@[simp] theorem done_expansion  : (s.done).expansion = s.expansion := rfl
@[simp] theorem done_agenda  : (s.done).agenda = s.agenda := rfl
@[simp] theorem done_sched  : (s.done).sched = s.sched := rfl
@[simp] theorem done_nextId  : (s.done).nextId = s.nextId := rfl
@[simp] theorem done_drawn  : (s.done).drawn = s.drawn := rfl

/-! `wait` -/

@[simp] theorem wait_time  : (s.wait).time = s.time := rfl
@[simp] theorem wait_mem  : (s.wait).mem = s.mem := rfl
@[simp] theorem wait_poison  : (s.wait).poison = s.poison := rfl
@[simp] theorem wait_side  : (s.wait).side = s.side := rfl
@[simp] theorem wait_slices  : (s.wait).slices = s.slices := rfl
@[simp] theorem wait_dir  : (s.wait).dir = s.dir := rfl
@[simp] theorem wait_txns  : (s.wait).txns = s.txns := rfl
@[simp] theorem wait_lineq  : (s.wait).lineq = s.lineq := rfl
@[simp] theorem wait_l1  : (s.wait).l1 = s.l1 := rfl
@[simp] theorem wait_rdc  : (s.wait).rdc = s.rdc := rfl
@[simp] theorem wait_wbs  : (s.wait).wbs = s.wbs := rfl
@[simp] theorem wait_vers  : (s.wait).vers = s.vers := rfl
@[simp] theorem wait_brecs  : (s.wait).brecs = s.brecs := rfl
@[simp] theorem wait_resv  : (s.wait).resv = s.resv := rfl
@[simp] theorem wait_tlb  : (s.wait).tlb = s.tlb := rfl
@[simp] theorem wait_walks  : (s.wait).walks = s.walks := rfl
@[simp] theorem wait_missq  : (s.wait).missq = s.missq := rfl
@[simp] theorem wait_ras  : (s.wait).ras = s.ras := rfl
@[simp] theorem wait_dies  : (s.wait).dies = s.dies := rfl
@[simp] theorem wait_cores  : (s.wait).cores = s.cores := rfl
@[simp] theorem wait_warps  : (s.wait).warps = s.warps := rfl
@[simp] theorem wait_left  : (s.wait).left = s.left := rfl
@[simp] theorem wait_blocks  : (s.wait).blocks = s.blocks := rfl
@[simp] theorem wait_clusters  : (s.wait).clusters = s.clusters := rfl
@[simp] theorem wait_grids  : (s.wait).grids = s.grids := rfl
@[simp] theorem wait_regions  : (s.wait).regions = s.regions := rfl
@[simp] theorem wait_going  : (s.wait).going = s.going := rfl
@[simp] theorem wait_recs  : (s.wait).recs = s.recs := rfl
@[simp] theorem wait_pushes  : (s.wait).pushes = s.pushes := rfl
@[simp] theorem wait_flights  : (s.wait).flights = s.flights := rfl
@[simp] theorem wait_ops  : (s.wait).ops = s.ops := rfl
@[simp] theorem wait_locks  : (s.wait).locks = s.locks := rfl
@[simp] theorem wait_sfu  : (s.wait).sfu = s.sfu := rfl
@[simp] theorem wait_allocs  : (s.wait).allocs = s.allocs := rfl
@[simp] theorem wait_chunks  : (s.wait).chunks = s.chunks := rfl
@[simp] theorem wait_xreqs  : (s.wait).xreqs = s.xreqs := rfl
@[simp] theorem wait_outbox  : (s.wait).outbox = s.outbox := rfl
@[simp] theorem wait_osros  : (s.wait).osros = s.osros := rfl
@[simp] theorem wait_booted  : (s.wait).booted = s.booted := rfl
@[simp] theorem wait_opened  : (s.wait).opened = s.opened := rfl
@[simp] theorem wait_grandmaster  : (s.wait).grandmaster = s.grandmaster := rfl
@[simp] theorem wait_slewed  : (s.wait).slewed = s.slewed := rfl
@[simp] theorem wait_steer  : (s.wait).steer = s.steer := rfl
@[simp] theorem wait_cur  : (s.wait).cur = s.cur := rfl
@[simp] theorem wait_src  : (s.wait).src = s.src := rfl
@[simp] theorem wait_srcId  : (s.wait).srcId = s.srcId := rfl
@[simp] theorem wait_pos  : (s.wait).pos = s.pos := rfl
@[simp] theorem wait_npos  : (s.wait).npos = s.npos := rfl
@[simp] theorem wait_pfx  : (s.wait).pfx = s.pfx := rfl
@[simp] theorem wait_only  : (s.wait).only = s.only := rfl
@[simp] theorem wait_expansion  : (s.wait).expansion = s.expansion := rfl
@[simp] theorem wait_agenda  : (s.wait).agenda = s.agenda := rfl
@[simp] theorem wait_sched  : (s.wait).sched = s.sched := rfl
@[simp] theorem wait_nextId  : (s.wait).nextId = s.nextId := rfl
@[simp] theorem wait_drawn  : (s.wait).drawn = s.drawn := rfl

/-! `park` -/

@[simp] theorem park_time  : (s.park).time = s.time := rfl
@[simp] theorem park_mem  : (s.park).mem = s.mem := rfl
@[simp] theorem park_poison  : (s.park).poison = s.poison := rfl
@[simp] theorem park_side  : (s.park).side = s.side := rfl
@[simp] theorem park_slices  : (s.park).slices = s.slices := rfl
@[simp] theorem park_dir  : (s.park).dir = s.dir := rfl
@[simp] theorem park_txns  : (s.park).txns = s.txns := rfl
@[simp] theorem park_lineq  : (s.park).lineq = s.lineq := rfl
@[simp] theorem park_l1  : (s.park).l1 = s.l1 := rfl
@[simp] theorem park_rdc  : (s.park).rdc = s.rdc := rfl
@[simp] theorem park_wbs  : (s.park).wbs = s.wbs := rfl
@[simp] theorem park_vers  : (s.park).vers = s.vers := rfl
@[simp] theorem park_brecs  : (s.park).brecs = s.brecs := rfl
@[simp] theorem park_resv  : (s.park).resv = s.resv := rfl
@[simp] theorem park_tlb  : (s.park).tlb = s.tlb := rfl
@[simp] theorem park_walks  : (s.park).walks = s.walks := rfl
@[simp] theorem park_missq  : (s.park).missq = s.missq := rfl
@[simp] theorem park_ras  : (s.park).ras = s.ras := rfl
@[simp] theorem park_dies  : (s.park).dies = s.dies := rfl
@[simp] theorem park_cores  : (s.park).cores = s.cores := rfl
@[simp] theorem park_warps  : (s.park).warps = s.warps := rfl
@[simp] theorem park_left  : (s.park).left = s.left := rfl
@[simp] theorem park_blocks  : (s.park).blocks = s.blocks := rfl
@[simp] theorem park_clusters  : (s.park).clusters = s.clusters := rfl
@[simp] theorem park_grids  : (s.park).grids = s.grids := rfl
@[simp] theorem park_regions  : (s.park).regions = s.regions := rfl
@[simp] theorem park_going  : (s.park).going = s.going := rfl
@[simp] theorem park_recs  : (s.park).recs = s.recs := rfl
@[simp] theorem park_pushes  : (s.park).pushes = s.pushes := rfl
@[simp] theorem park_flights  : (s.park).flights = s.flights := rfl
@[simp] theorem park_ops  : (s.park).ops = s.ops := rfl
@[simp] theorem park_locks  : (s.park).locks = s.locks := rfl
@[simp] theorem park_sfu  : (s.park).sfu = s.sfu := rfl
@[simp] theorem park_allocs  : (s.park).allocs = s.allocs := rfl
@[simp] theorem park_chunks  : (s.park).chunks = s.chunks := rfl
@[simp] theorem park_xreqs  : (s.park).xreqs = s.xreqs := rfl
@[simp] theorem park_outbox  : (s.park).outbox = s.outbox := rfl
@[simp] theorem park_osros  : (s.park).osros = s.osros := rfl
@[simp] theorem park_booted  : (s.park).booted = s.booted := rfl
@[simp] theorem park_opened  : (s.park).opened = s.opened := rfl
@[simp] theorem park_grandmaster  : (s.park).grandmaster = s.grandmaster := rfl
@[simp] theorem park_slewed  : (s.park).slewed = s.slewed := rfl
@[simp] theorem park_steer  : (s.park).steer = s.steer := rfl
@[simp] theorem park_cur  : (s.park).cur = s.cur := rfl
@[simp] theorem park_src  : (s.park).src = s.src := rfl
@[simp] theorem park_srcId  : (s.park).srcId = s.srcId := rfl
@[simp] theorem park_pos  : (s.park).pos = s.pos := rfl
@[simp] theorem park_npos  : (s.park).npos = s.npos := rfl
@[simp] theorem park_pfx  : (s.park).pfx = s.pfx := rfl
@[simp] theorem park_only  : (s.park).only = s.only := rfl
@[simp] theorem park_expansion  : (s.park).expansion = s.expansion := rfl
@[simp] theorem park_agenda  : (s.park).agenda = s.agenda := rfl
@[simp] theorem park_sched  : (s.park).sched = s.sched := rfl
@[simp] theorem park_nextId  : (s.park).nextId = s.nextId := rfl
@[simp] theorem park_drawn  : (s.park).drawn = s.drawn := rfl

/-! `log` -/

@[simp] theorem log_time (w : String) (a : List Nat) : (s.log w a).time = s.time := rfl
@[simp] theorem log_mem (w : String) (a : List Nat) : (s.log w a).mem = s.mem := rfl
@[simp] theorem log_poison (w : String) (a : List Nat) : (s.log w a).poison = s.poison := rfl
@[simp] theorem log_side (w : String) (a : List Nat) : (s.log w a).side = s.side := rfl
@[simp] theorem log_slices (w : String) (a : List Nat) : (s.log w a).slices = s.slices := rfl
@[simp] theorem log_dir (w : String) (a : List Nat) : (s.log w a).dir = s.dir := rfl
@[simp] theorem log_txns (w : String) (a : List Nat) : (s.log w a).txns = s.txns := rfl
@[simp] theorem log_lineq (w : String) (a : List Nat) : (s.log w a).lineq = s.lineq := rfl
@[simp] theorem log_l1 (w : String) (a : List Nat) : (s.log w a).l1 = s.l1 := rfl
@[simp] theorem log_rdc (w : String) (a : List Nat) : (s.log w a).rdc = s.rdc := rfl
@[simp] theorem log_wbs (w : String) (a : List Nat) : (s.log w a).wbs = s.wbs := rfl
@[simp] theorem log_vers (w : String) (a : List Nat) : (s.log w a).vers = s.vers := rfl
@[simp] theorem log_brecs (w : String) (a : List Nat) : (s.log w a).brecs = s.brecs := rfl
@[simp] theorem log_resv (w : String) (a : List Nat) : (s.log w a).resv = s.resv := rfl
@[simp] theorem log_tlb (w : String) (a : List Nat) : (s.log w a).tlb = s.tlb := rfl
@[simp] theorem log_walks (w : String) (a : List Nat) : (s.log w a).walks = s.walks := rfl
@[simp] theorem log_missq (w : String) (a : List Nat) : (s.log w a).missq = s.missq := rfl
@[simp] theorem log_dies (w : String) (a : List Nat) : (s.log w a).dies = s.dies := rfl
@[simp] theorem log_cores (w : String) (a : List Nat) : (s.log w a).cores = s.cores := rfl
@[simp] theorem log_warps (w : String) (a : List Nat) : (s.log w a).warps = s.warps := rfl
@[simp] theorem log_left (w : String) (a : List Nat) : (s.log w a).left = s.left := rfl
@[simp] theorem log_blocks (w : String) (a : List Nat) : (s.log w a).blocks = s.blocks := rfl
@[simp] theorem log_clusters (w : String) (a : List Nat) : (s.log w a).clusters = s.clusters := rfl
@[simp] theorem log_grids (w : String) (a : List Nat) : (s.log w a).grids = s.grids := rfl
@[simp] theorem log_regions (w : String) (a : List Nat) : (s.log w a).regions = s.regions := rfl
@[simp] theorem log_going (w : String) (a : List Nat) : (s.log w a).going = s.going := rfl
@[simp] theorem log_recs (w : String) (a : List Nat) : (s.log w a).recs = s.recs := rfl
@[simp] theorem log_pushes (w : String) (a : List Nat) : (s.log w a).pushes = s.pushes := rfl
@[simp] theorem log_flights (w : String) (a : List Nat) : (s.log w a).flights = s.flights := rfl
@[simp] theorem log_ops (w : String) (a : List Nat) : (s.log w a).ops = s.ops := rfl
@[simp] theorem log_locks (w : String) (a : List Nat) : (s.log w a).locks = s.locks := rfl
@[simp] theorem log_sfu (w : String) (a : List Nat) : (s.log w a).sfu = s.sfu := rfl
@[simp] theorem log_allocs (w : String) (a : List Nat) : (s.log w a).allocs = s.allocs := rfl
@[simp] theorem log_chunks (w : String) (a : List Nat) : (s.log w a).chunks = s.chunks := rfl
@[simp] theorem log_xreqs (w : String) (a : List Nat) : (s.log w a).xreqs = s.xreqs := rfl
@[simp] theorem log_outbox (w : String) (a : List Nat) : (s.log w a).outbox = s.outbox := rfl
@[simp] theorem log_osros (w : String) (a : List Nat) : (s.log w a).osros = s.osros := rfl
@[simp] theorem log_booted (w : String) (a : List Nat) : (s.log w a).booted = s.booted := rfl
@[simp] theorem log_opened (w : String) (a : List Nat) : (s.log w a).opened = s.opened := rfl
@[simp] theorem log_grandmaster (w : String) (a : List Nat) : (s.log w a).grandmaster = s.grandmaster := rfl
@[simp] theorem log_slewed (w : String) (a : List Nat) : (s.log w a).slewed = s.slewed := rfl
@[simp] theorem log_steer (w : String) (a : List Nat) : (s.log w a).steer = s.steer := rfl
@[simp] theorem log_cur (w : String) (a : List Nat) : (s.log w a).cur = s.cur := rfl
@[simp] theorem log_src (w : String) (a : List Nat) : (s.log w a).src = s.src := rfl
@[simp] theorem log_srcId (w : String) (a : List Nat) : (s.log w a).srcId = s.srcId := rfl
@[simp] theorem log_pos (w : String) (a : List Nat) : (s.log w a).pos = s.pos := rfl
@[simp] theorem log_npos (w : String) (a : List Nat) : (s.log w a).npos = s.npos := rfl
@[simp] theorem log_out (w : String) (a : List Nat) : (s.log w a).out = s.out := rfl
@[simp] theorem log_pfx (w : String) (a : List Nat) : (s.log w a).pfx = s.pfx := rfl
@[simp] theorem log_only (w : String) (a : List Nat) : (s.log w a).only = s.only := rfl
@[simp] theorem log_expansion (w : String) (a : List Nat) : (s.log w a).expansion = s.expansion := rfl
@[simp] theorem log_agenda (w : String) (a : List Nat) : (s.log w a).agenda = s.agenda := rfl
@[simp] theorem log_sched (w : String) (a : List Nat) : (s.log w a).sched = s.sched := rfl
@[simp] theorem log_nextId (w : String) (a : List Nat) : (s.log w a).nextId = s.nextId := rfl
@[simp] theorem log_drawn (w : String) (a : List Nat) : (s.log w a).drawn = s.drawn := rfl

/-! `setS` -/

@[simp] theorem setS_time (n : Nat) (x : Word) : (s.setS n x).time = s.time := rfl
@[simp] theorem setS_mem (n : Nat) (x : Word) : (s.setS n x).mem = s.mem := rfl
@[simp] theorem setS_poison (n : Nat) (x : Word) : (s.setS n x).poison = s.poison := rfl
@[simp] theorem setS_side (n : Nat) (x : Word) : (s.setS n x).side = s.side := rfl
@[simp] theorem setS_slices (n : Nat) (x : Word) : (s.setS n x).slices = s.slices := rfl
@[simp] theorem setS_dir (n : Nat) (x : Word) : (s.setS n x).dir = s.dir := rfl
@[simp] theorem setS_txns (n : Nat) (x : Word) : (s.setS n x).txns = s.txns := rfl
@[simp] theorem setS_lineq (n : Nat) (x : Word) : (s.setS n x).lineq = s.lineq := rfl
@[simp] theorem setS_l1 (n : Nat) (x : Word) : (s.setS n x).l1 = s.l1 := rfl
@[simp] theorem setS_rdc (n : Nat) (x : Word) : (s.setS n x).rdc = s.rdc := rfl
@[simp] theorem setS_wbs (n : Nat) (x : Word) : (s.setS n x).wbs = s.wbs := rfl
@[simp] theorem setS_vers (n : Nat) (x : Word) : (s.setS n x).vers = s.vers := rfl
@[simp] theorem setS_brecs (n : Nat) (x : Word) : (s.setS n x).brecs = s.brecs := rfl
@[simp] theorem setS_resv (n : Nat) (x : Word) : (s.setS n x).resv = s.resv := rfl
@[simp] theorem setS_tlb (n : Nat) (x : Word) : (s.setS n x).tlb = s.tlb := rfl
@[simp] theorem setS_walks (n : Nat) (x : Word) : (s.setS n x).walks = s.walks := rfl
@[simp] theorem setS_missq (n : Nat) (x : Word) : (s.setS n x).missq = s.missq := rfl
@[simp] theorem setS_ras (n : Nat) (x : Word) : (s.setS n x).ras = s.ras := rfl
@[simp] theorem setS_dies (n : Nat) (x : Word) : (s.setS n x).dies = s.dies := rfl
@[simp] theorem setS_cores (n : Nat) (x : Word) : (s.setS n x).cores = s.cores := rfl
@[simp] theorem setS_left (n : Nat) (x : Word) : (s.setS n x).left = s.left := rfl
@[simp] theorem setS_blocks (n : Nat) (x : Word) : (s.setS n x).blocks = s.blocks := rfl
@[simp] theorem setS_clusters (n : Nat) (x : Word) : (s.setS n x).clusters = s.clusters := rfl
@[simp] theorem setS_grids (n : Nat) (x : Word) : (s.setS n x).grids = s.grids := rfl
@[simp] theorem setS_regions (n : Nat) (x : Word) : (s.setS n x).regions = s.regions := rfl
@[simp] theorem setS_going (n : Nat) (x : Word) : (s.setS n x).going = s.going := rfl
@[simp] theorem setS_recs (n : Nat) (x : Word) : (s.setS n x).recs = s.recs := rfl
@[simp] theorem setS_pushes (n : Nat) (x : Word) : (s.setS n x).pushes = s.pushes := rfl
@[simp] theorem setS_flights (n : Nat) (x : Word) : (s.setS n x).flights = s.flights := rfl
@[simp] theorem setS_ops (n : Nat) (x : Word) : (s.setS n x).ops = s.ops := rfl
@[simp] theorem setS_locks (n : Nat) (x : Word) : (s.setS n x).locks = s.locks := rfl
@[simp] theorem setS_sfu (n : Nat) (x : Word) : (s.setS n x).sfu = s.sfu := rfl
@[simp] theorem setS_allocs (n : Nat) (x : Word) : (s.setS n x).allocs = s.allocs := rfl
@[simp] theorem setS_chunks (n : Nat) (x : Word) : (s.setS n x).chunks = s.chunks := rfl
@[simp] theorem setS_xreqs (n : Nat) (x : Word) : (s.setS n x).xreqs = s.xreqs := rfl
@[simp] theorem setS_outbox (n : Nat) (x : Word) : (s.setS n x).outbox = s.outbox := rfl
@[simp] theorem setS_osros (n : Nat) (x : Word) : (s.setS n x).osros = s.osros := rfl
@[simp] theorem setS_booted (n : Nat) (x : Word) : (s.setS n x).booted = s.booted := rfl
@[simp] theorem setS_opened (n : Nat) (x : Word) : (s.setS n x).opened = s.opened := rfl
@[simp] theorem setS_grandmaster (n : Nat) (x : Word) : (s.setS n x).grandmaster = s.grandmaster := rfl
@[simp] theorem setS_slewed (n : Nat) (x : Word) : (s.setS n x).slewed = s.slewed := rfl
@[simp] theorem setS_steer (n : Nat) (x : Word) : (s.setS n x).steer = s.steer := rfl
@[simp] theorem setS_cur (n : Nat) (x : Word) : (s.setS n x).cur = s.cur := rfl
@[simp] theorem setS_src (n : Nat) (x : Word) : (s.setS n x).src = s.src := rfl
@[simp] theorem setS_srcId (n : Nat) (x : Word) : (s.setS n x).srcId = s.srcId := rfl
@[simp] theorem setS_pos (n : Nat) (x : Word) : (s.setS n x).pos = s.pos := rfl
@[simp] theorem setS_npos (n : Nat) (x : Word) : (s.setS n x).npos = s.npos := rfl
@[simp] theorem setS_out (n : Nat) (x : Word) : (s.setS n x).out = s.out := rfl
@[simp] theorem setS_pfx (n : Nat) (x : Word) : (s.setS n x).pfx = s.pfx := rfl
@[simp] theorem setS_only (n : Nat) (x : Word) : (s.setS n x).only = s.only := rfl
@[simp] theorem setS_expansion (n : Nat) (x : Word) : (s.setS n x).expansion = s.expansion := rfl
@[simp] theorem setS_agenda (n : Nat) (x : Word) : (s.setS n x).agenda = s.agenda := rfl
@[simp] theorem setS_sched (n : Nat) (x : Word) : (s.setS n x).sched = s.sched := rfl
@[simp] theorem setS_nextId (n : Nat) (x : Word) : (s.setS n x).nextId = s.nextId := rfl
@[simp] theorem setS_drawn (n : Nat) (x : Word) : (s.setS n x).drawn = s.drawn := rfl

/-! `setV` -/

@[simp] theorem setV_time (n : Nat) (m : LaneMask) (x : Lanes) : (s.setV n m x).time = s.time := rfl
@[simp] theorem setV_mem (n : Nat) (m : LaneMask) (x : Lanes) : (s.setV n m x).mem = s.mem := rfl
@[simp] theorem setV_poison (n : Nat) (m : LaneMask) (x : Lanes) : (s.setV n m x).poison = s.poison := rfl
@[simp] theorem setV_side (n : Nat) (m : LaneMask) (x : Lanes) : (s.setV n m x).side = s.side := rfl
@[simp] theorem setV_slices (n : Nat) (m : LaneMask) (x : Lanes) : (s.setV n m x).slices = s.slices := rfl
@[simp] theorem setV_dir (n : Nat) (m : LaneMask) (x : Lanes) : (s.setV n m x).dir = s.dir := rfl
@[simp] theorem setV_txns (n : Nat) (m : LaneMask) (x : Lanes) : (s.setV n m x).txns = s.txns := rfl
@[simp] theorem setV_lineq (n : Nat) (m : LaneMask) (x : Lanes) : (s.setV n m x).lineq = s.lineq := rfl
@[simp] theorem setV_l1 (n : Nat) (m : LaneMask) (x : Lanes) : (s.setV n m x).l1 = s.l1 := rfl
@[simp] theorem setV_rdc (n : Nat) (m : LaneMask) (x : Lanes) : (s.setV n m x).rdc = s.rdc := rfl
@[simp] theorem setV_wbs (n : Nat) (m : LaneMask) (x : Lanes) : (s.setV n m x).wbs = s.wbs := rfl
@[simp] theorem setV_vers (n : Nat) (m : LaneMask) (x : Lanes) : (s.setV n m x).vers = s.vers := rfl
@[simp] theorem setV_brecs (n : Nat) (m : LaneMask) (x : Lanes) : (s.setV n m x).brecs = s.brecs := rfl
@[simp] theorem setV_resv (n : Nat) (m : LaneMask) (x : Lanes) : (s.setV n m x).resv = s.resv := rfl
@[simp] theorem setV_tlb (n : Nat) (m : LaneMask) (x : Lanes) : (s.setV n m x).tlb = s.tlb := rfl
@[simp] theorem setV_walks (n : Nat) (m : LaneMask) (x : Lanes) : (s.setV n m x).walks = s.walks := rfl
@[simp] theorem setV_missq (n : Nat) (m : LaneMask) (x : Lanes) : (s.setV n m x).missq = s.missq := rfl
@[simp] theorem setV_ras (n : Nat) (m : LaneMask) (x : Lanes) : (s.setV n m x).ras = s.ras := rfl
@[simp] theorem setV_dies (n : Nat) (m : LaneMask) (x : Lanes) : (s.setV n m x).dies = s.dies := rfl
@[simp] theorem setV_cores (n : Nat) (m : LaneMask) (x : Lanes) : (s.setV n m x).cores = s.cores := rfl
@[simp] theorem setV_left (n : Nat) (m : LaneMask) (x : Lanes) : (s.setV n m x).left = s.left := rfl
@[simp] theorem setV_blocks (n : Nat) (m : LaneMask) (x : Lanes) : (s.setV n m x).blocks = s.blocks := rfl
@[simp] theorem setV_clusters (n : Nat) (m : LaneMask) (x : Lanes) : (s.setV n m x).clusters = s.clusters := rfl
@[simp] theorem setV_grids (n : Nat) (m : LaneMask) (x : Lanes) : (s.setV n m x).grids = s.grids := rfl
@[simp] theorem setV_regions (n : Nat) (m : LaneMask) (x : Lanes) : (s.setV n m x).regions = s.regions := rfl
@[simp] theorem setV_going (n : Nat) (m : LaneMask) (x : Lanes) : (s.setV n m x).going = s.going := rfl
@[simp] theorem setV_recs (n : Nat) (m : LaneMask) (x : Lanes) : (s.setV n m x).recs = s.recs := rfl
@[simp] theorem setV_pushes (n : Nat) (m : LaneMask) (x : Lanes) : (s.setV n m x).pushes = s.pushes := rfl
@[simp] theorem setV_flights (n : Nat) (m : LaneMask) (x : Lanes) : (s.setV n m x).flights = s.flights := rfl
@[simp] theorem setV_ops (n : Nat) (m : LaneMask) (x : Lanes) : (s.setV n m x).ops = s.ops := rfl
@[simp] theorem setV_locks (n : Nat) (m : LaneMask) (x : Lanes) : (s.setV n m x).locks = s.locks := rfl
@[simp] theorem setV_sfu (n : Nat) (m : LaneMask) (x : Lanes) : (s.setV n m x).sfu = s.sfu := rfl
@[simp] theorem setV_allocs (n : Nat) (m : LaneMask) (x : Lanes) : (s.setV n m x).allocs = s.allocs := rfl
@[simp] theorem setV_chunks (n : Nat) (m : LaneMask) (x : Lanes) : (s.setV n m x).chunks = s.chunks := rfl
@[simp] theorem setV_xreqs (n : Nat) (m : LaneMask) (x : Lanes) : (s.setV n m x).xreqs = s.xreqs := rfl
@[simp] theorem setV_outbox (n : Nat) (m : LaneMask) (x : Lanes) : (s.setV n m x).outbox = s.outbox := rfl
@[simp] theorem setV_osros (n : Nat) (m : LaneMask) (x : Lanes) : (s.setV n m x).osros = s.osros := rfl
@[simp] theorem setV_booted (n : Nat) (m : LaneMask) (x : Lanes) : (s.setV n m x).booted = s.booted := rfl
@[simp] theorem setV_opened (n : Nat) (m : LaneMask) (x : Lanes) : (s.setV n m x).opened = s.opened := rfl
@[simp] theorem setV_grandmaster (n : Nat) (m : LaneMask) (x : Lanes) : (s.setV n m x).grandmaster = s.grandmaster := rfl
@[simp] theorem setV_slewed (n : Nat) (m : LaneMask) (x : Lanes) : (s.setV n m x).slewed = s.slewed := rfl
@[simp] theorem setV_steer (n : Nat) (m : LaneMask) (x : Lanes) : (s.setV n m x).steer = s.steer := rfl
@[simp] theorem setV_cur (n : Nat) (m : LaneMask) (x : Lanes) : (s.setV n m x).cur = s.cur := rfl
@[simp] theorem setV_src (n : Nat) (m : LaneMask) (x : Lanes) : (s.setV n m x).src = s.src := rfl
@[simp] theorem setV_srcId (n : Nat) (m : LaneMask) (x : Lanes) : (s.setV n m x).srcId = s.srcId := rfl
@[simp] theorem setV_pos (n : Nat) (m : LaneMask) (x : Lanes) : (s.setV n m x).pos = s.pos := rfl
@[simp] theorem setV_npos (n : Nat) (m : LaneMask) (x : Lanes) : (s.setV n m x).npos = s.npos := rfl
@[simp] theorem setV_out (n : Nat) (m : LaneMask) (x : Lanes) : (s.setV n m x).out = s.out := rfl
@[simp] theorem setV_pfx (n : Nat) (m : LaneMask) (x : Lanes) : (s.setV n m x).pfx = s.pfx := rfl
@[simp] theorem setV_only (n : Nat) (m : LaneMask) (x : Lanes) : (s.setV n m x).only = s.only := rfl
@[simp] theorem setV_expansion (n : Nat) (m : LaneMask) (x : Lanes) : (s.setV n m x).expansion = s.expansion := rfl
@[simp] theorem setV_agenda (n : Nat) (m : LaneMask) (x : Lanes) : (s.setV n m x).agenda = s.agenda := rfl
@[simp] theorem setV_sched (n : Nat) (m : LaneMask) (x : Lanes) : (s.setV n m x).sched = s.sched := rfl
@[simp] theorem setV_nextId (n : Nat) (m : LaneMask) (x : Lanes) : (s.setV n m x).nextId = s.nextId := rfl
@[simp] theorem setV_drawn (n : Nat) (m : LaneMask) (x : Lanes) : (s.setV n m x).drawn = s.drawn := rfl

/-! `jump` -/

@[simp] theorem jump_time (n : Nat) : (s.jump n).time = s.time := rfl
@[simp] theorem jump_mem (n : Nat) : (s.jump n).mem = s.mem := rfl
@[simp] theorem jump_poison (n : Nat) : (s.jump n).poison = s.poison := rfl
@[simp] theorem jump_side (n : Nat) : (s.jump n).side = s.side := rfl
@[simp] theorem jump_slices (n : Nat) : (s.jump n).slices = s.slices := rfl
@[simp] theorem jump_dir (n : Nat) : (s.jump n).dir = s.dir := rfl
@[simp] theorem jump_txns (n : Nat) : (s.jump n).txns = s.txns := rfl
@[simp] theorem jump_lineq (n : Nat) : (s.jump n).lineq = s.lineq := rfl
@[simp] theorem jump_l1 (n : Nat) : (s.jump n).l1 = s.l1 := rfl
@[simp] theorem jump_rdc (n : Nat) : (s.jump n).rdc = s.rdc := rfl
@[simp] theorem jump_wbs (n : Nat) : (s.jump n).wbs = s.wbs := rfl
@[simp] theorem jump_vers (n : Nat) : (s.jump n).vers = s.vers := rfl
@[simp] theorem jump_brecs (n : Nat) : (s.jump n).brecs = s.brecs := rfl
@[simp] theorem jump_resv (n : Nat) : (s.jump n).resv = s.resv := rfl
@[simp] theorem jump_tlb (n : Nat) : (s.jump n).tlb = s.tlb := rfl
@[simp] theorem jump_walks (n : Nat) : (s.jump n).walks = s.walks := rfl
@[simp] theorem jump_missq (n : Nat) : (s.jump n).missq = s.missq := rfl
@[simp] theorem jump_ras (n : Nat) : (s.jump n).ras = s.ras := rfl
@[simp] theorem jump_dies (n : Nat) : (s.jump n).dies = s.dies := rfl
@[simp] theorem jump_cores (n : Nat) : (s.jump n).cores = s.cores := rfl
@[simp] theorem jump_left (n : Nat) : (s.jump n).left = s.left := rfl
@[simp] theorem jump_blocks (n : Nat) : (s.jump n).blocks = s.blocks := rfl
@[simp] theorem jump_clusters (n : Nat) : (s.jump n).clusters = s.clusters := rfl
@[simp] theorem jump_grids (n : Nat) : (s.jump n).grids = s.grids := rfl
@[simp] theorem jump_regions (n : Nat) : (s.jump n).regions = s.regions := rfl
@[simp] theorem jump_going (n : Nat) : (s.jump n).going = s.going := rfl
@[simp] theorem jump_recs (n : Nat) : (s.jump n).recs = s.recs := rfl
@[simp] theorem jump_pushes (n : Nat) : (s.jump n).pushes = s.pushes := rfl
@[simp] theorem jump_flights (n : Nat) : (s.jump n).flights = s.flights := rfl
@[simp] theorem jump_ops (n : Nat) : (s.jump n).ops = s.ops := rfl
@[simp] theorem jump_locks (n : Nat) : (s.jump n).locks = s.locks := rfl
@[simp] theorem jump_sfu (n : Nat) : (s.jump n).sfu = s.sfu := rfl
@[simp] theorem jump_allocs (n : Nat) : (s.jump n).allocs = s.allocs := rfl
@[simp] theorem jump_chunks (n : Nat) : (s.jump n).chunks = s.chunks := rfl
@[simp] theorem jump_xreqs (n : Nat) : (s.jump n).xreqs = s.xreqs := rfl
@[simp] theorem jump_outbox (n : Nat) : (s.jump n).outbox = s.outbox := rfl
@[simp] theorem jump_osros (n : Nat) : (s.jump n).osros = s.osros := rfl
@[simp] theorem jump_booted (n : Nat) : (s.jump n).booted = s.booted := rfl
@[simp] theorem jump_opened (n : Nat) : (s.jump n).opened = s.opened := rfl
@[simp] theorem jump_grandmaster (n : Nat) : (s.jump n).grandmaster = s.grandmaster := rfl
@[simp] theorem jump_slewed (n : Nat) : (s.jump n).slewed = s.slewed := rfl
@[simp] theorem jump_steer (n : Nat) : (s.jump n).steer = s.steer := rfl
@[simp] theorem jump_cur (n : Nat) : (s.jump n).cur = s.cur := rfl
@[simp] theorem jump_src (n : Nat) : (s.jump n).src = s.src := rfl
@[simp] theorem jump_srcId (n : Nat) : (s.jump n).srcId = s.srcId := rfl
@[simp] theorem jump_pos (n : Nat) : (s.jump n).pos = s.pos := rfl
@[simp] theorem jump_npos (n : Nat) : (s.jump n).npos = s.npos := rfl
@[simp] theorem jump_pfx (n : Nat) : (s.jump n).pfx = s.pfx := rfl
@[simp] theorem jump_only (n : Nat) : (s.jump n).only = s.only := rfl
@[simp] theorem jump_expansion (n : Nat) : (s.jump n).expansion = s.expansion := rfl
@[simp] theorem jump_agenda (n : Nat) : (s.jump n).agenda = s.agenda := rfl
@[simp] theorem jump_sched (n : Nat) : (s.jump n).sched = s.sched := rfl
@[simp] theorem jump_nextId (n : Nat) : (s.jump n).nextId = s.nextId := rfl
@[simp] theorem jump_drawn (n : Nat) : (s.jump n).drawn = s.drawn := rfl

/-! `idle` -/

@[simp] theorem idle_time  : (s.idle).time = s.time := rfl
@[simp] theorem idle_mem  : (s.idle).mem = s.mem := rfl
@[simp] theorem idle_poison  : (s.idle).poison = s.poison := rfl
@[simp] theorem idle_side  : (s.idle).side = s.side := rfl
@[simp] theorem idle_slices  : (s.idle).slices = s.slices := rfl
@[simp] theorem idle_dir  : (s.idle).dir = s.dir := rfl
@[simp] theorem idle_txns  : (s.idle).txns = s.txns := rfl
@[simp] theorem idle_lineq  : (s.idle).lineq = s.lineq := rfl
@[simp] theorem idle_l1  : (s.idle).l1 = s.l1 := rfl
@[simp] theorem idle_rdc  : (s.idle).rdc = s.rdc := rfl
@[simp] theorem idle_wbs  : (s.idle).wbs = s.wbs := rfl
@[simp] theorem idle_vers  : (s.idle).vers = s.vers := rfl
@[simp] theorem idle_brecs  : (s.idle).brecs = s.brecs := rfl
@[simp] theorem idle_resv  : (s.idle).resv = s.resv := rfl
@[simp] theorem idle_tlb  : (s.idle).tlb = s.tlb := rfl
@[simp] theorem idle_walks  : (s.idle).walks = s.walks := rfl
@[simp] theorem idle_missq  : (s.idle).missq = s.missq := rfl
@[simp] theorem idle_ras  : (s.idle).ras = s.ras := rfl
@[simp] theorem idle_dies  : (s.idle).dies = s.dies := rfl
@[simp] theorem idle_cores  : (s.idle).cores = s.cores := rfl
@[simp] theorem idle_warps  : (s.idle).warps = s.warps := rfl
@[simp] theorem idle_left  : (s.idle).left = s.left := rfl
@[simp] theorem idle_blocks  : (s.idle).blocks = s.blocks := rfl
@[simp] theorem idle_clusters  : (s.idle).clusters = s.clusters := rfl
@[simp] theorem idle_grids  : (s.idle).grids = s.grids := rfl
@[simp] theorem idle_regions  : (s.idle).regions = s.regions := rfl
@[simp] theorem idle_going  : (s.idle).going = s.going := rfl
@[simp] theorem idle_recs  : (s.idle).recs = s.recs := rfl
@[simp] theorem idle_pushes  : (s.idle).pushes = s.pushes := rfl
@[simp] theorem idle_flights  : (s.idle).flights = s.flights := rfl
@[simp] theorem idle_ops  : (s.idle).ops = s.ops := rfl
@[simp] theorem idle_locks  : (s.idle).locks = s.locks := rfl
@[simp] theorem idle_sfu  : (s.idle).sfu = s.sfu := rfl
@[simp] theorem idle_allocs  : (s.idle).allocs = s.allocs := rfl
@[simp] theorem idle_chunks  : (s.idle).chunks = s.chunks := rfl
@[simp] theorem idle_xreqs  : (s.idle).xreqs = s.xreqs := rfl
@[simp] theorem idle_outbox  : (s.idle).outbox = s.outbox := rfl
@[simp] theorem idle_osros  : (s.idle).osros = s.osros := rfl
@[simp] theorem idle_booted  : (s.idle).booted = s.booted := rfl
@[simp] theorem idle_opened  : (s.idle).opened = s.opened := rfl
@[simp] theorem idle_grandmaster  : (s.idle).grandmaster = s.grandmaster := rfl
@[simp] theorem idle_slewed  : (s.idle).slewed = s.slewed := rfl
@[simp] theorem idle_steer  : (s.idle).steer = s.steer := rfl
@[simp] theorem idle_cur  : (s.idle).cur = s.cur := rfl
@[simp] theorem idle_srcId  : (s.idle).srcId = s.srcId := rfl
@[simp] theorem idle_pos  : (s.idle).pos = s.pos := rfl
@[simp] theorem idle_npos  : (s.idle).npos = s.npos := rfl
@[simp] theorem idle_out  : (s.idle).out = s.out := rfl
@[simp] theorem idle_agenda  : (s.idle).agenda = s.agenda := rfl
@[simp] theorem idle_sched  : (s.idle).sched = s.sched := rfl
@[simp] theorem idle_nextId  : (s.idle).nextId = s.nextId := rfl
@[simp] theorem idle_drawn  : (s.idle).drawn = s.drawn := rfl

/-! `tick` -/

@[simp] theorem tick_mem  : (s.tick).mem = s.mem := rfl
@[simp] theorem tick_poison  : (s.tick).poison = s.poison := rfl
@[simp] theorem tick_side  : (s.tick).side = s.side := rfl
@[simp] theorem tick_slices  : (s.tick).slices = s.slices := rfl
@[simp] theorem tick_dir  : (s.tick).dir = s.dir := rfl
@[simp] theorem tick_txns  : (s.tick).txns = s.txns := rfl
@[simp] theorem tick_lineq  : (s.tick).lineq = s.lineq := rfl
@[simp] theorem tick_l1  : (s.tick).l1 = s.l1 := rfl
@[simp] theorem tick_rdc  : (s.tick).rdc = s.rdc := rfl
@[simp] theorem tick_wbs  : (s.tick).wbs = s.wbs := rfl
@[simp] theorem tick_vers  : (s.tick).vers = s.vers := rfl
@[simp] theorem tick_brecs  : (s.tick).brecs = s.brecs := rfl
@[simp] theorem tick_resv  : (s.tick).resv = s.resv := rfl
@[simp] theorem tick_tlb  : (s.tick).tlb = s.tlb := rfl
@[simp] theorem tick_walks  : (s.tick).walks = s.walks := rfl
@[simp] theorem tick_missq  : (s.tick).missq = s.missq := rfl
@[simp] theorem tick_ras  : (s.tick).ras = s.ras := rfl
@[simp] theorem tick_dies  : (s.tick).dies = s.dies := rfl
@[simp] theorem tick_cores  : (s.tick).cores = s.cores := rfl
@[simp] theorem tick_warps  : (s.tick).warps = s.warps := rfl
@[simp] theorem tick_left  : (s.tick).left = s.left := rfl
@[simp] theorem tick_blocks  : (s.tick).blocks = s.blocks := rfl
@[simp] theorem tick_clusters  : (s.tick).clusters = s.clusters := rfl
@[simp] theorem tick_grids  : (s.tick).grids = s.grids := rfl
@[simp] theorem tick_regions  : (s.tick).regions = s.regions := rfl
@[simp] theorem tick_going  : (s.tick).going = s.going := rfl
@[simp] theorem tick_recs  : (s.tick).recs = s.recs := rfl
@[simp] theorem tick_pushes  : (s.tick).pushes = s.pushes := rfl
@[simp] theorem tick_flights  : (s.tick).flights = s.flights := rfl
@[simp] theorem tick_ops  : (s.tick).ops = s.ops := rfl
@[simp] theorem tick_locks  : (s.tick).locks = s.locks := rfl
@[simp] theorem tick_sfu  : (s.tick).sfu = s.sfu := rfl
@[simp] theorem tick_allocs  : (s.tick).allocs = s.allocs := rfl
@[simp] theorem tick_chunks  : (s.tick).chunks = s.chunks := rfl
@[simp] theorem tick_xreqs  : (s.tick).xreqs = s.xreqs := rfl
@[simp] theorem tick_outbox  : (s.tick).outbox = s.outbox := rfl
@[simp] theorem tick_osros  : (s.tick).osros = s.osros := rfl
@[simp] theorem tick_booted  : (s.tick).booted = s.booted := rfl
@[simp] theorem tick_opened  : (s.tick).opened = s.opened := rfl
@[simp] theorem tick_grandmaster  : (s.tick).grandmaster = s.grandmaster := rfl
@[simp] theorem tick_cur  : (s.tick).cur = s.cur := rfl
@[simp] theorem tick_src  : (s.tick).src = s.src := rfl
@[simp] theorem tick_srcId  : (s.tick).srcId = s.srcId := rfl
@[simp] theorem tick_pos  : (s.tick).pos = s.pos := rfl
@[simp] theorem tick_npos  : (s.tick).npos = s.npos := rfl
@[simp] theorem tick_out  : (s.tick).out = s.out := rfl
@[simp] theorem tick_pfx  : (s.tick).pfx = s.pfx := rfl
@[simp] theorem tick_only  : (s.tick).only = s.only := rfl
@[simp] theorem tick_expansion  : (s.tick).expansion = s.expansion := rfl
@[simp] theorem tick_agenda  : (s.tick).agenda = s.agenda := rfl
@[simp] theorem tick_sched  : (s.tick).sched = s.sched := rfl
@[simp] theorem tick_nextId  : (s.tick).nextId = s.nextId := rfl
@[simp] theorem tick_drawn  : (s.tick).drawn = s.drawn := rfl

/-! What the changed fields hold. -/

@[simp] theorem push_agenda (is : List Instr) : (s.push is).agenda = s.agenda ++ is := rfl
@[simp] theorem done_out : s.done.out = .done := rfl
@[simp] theorem wait_out : s.wait.out = .waiting := rfl
@[simp] theorem park_out : s.park.out = .parked := rfl
@[simp] theorem jump_out (n : Nat) : (s.jump n).out = .moved := rfl
@[simp] theorem log_ras (w : String) (a : List Nat) : (s.log w a).ras = s.ras ++ [⟨w, a⟩] := rfl
@[simp] theorem tick_time : s.tick.time = s.nextTime := rfl
@[simp] theorem idle_src : s.idle.src = none := rfl
@[simp] theorem idle_pfx : s.idle.pfx = none := rfl
@[simp] theorem idle_expansion : s.idle.expansion = [] := rfl

end State

end Sys2Proof.Machine
end

