-- ==== Sys2Proof/Laws/Tables.lean ====
section
/-!
SUPPORT. What a sparse table and a memory hold after a write, and that every memory operation keeps the
canonical form.
-/

namespace Sys2Proof.Machine

/-! Tables. -/

namespace Tab

variable {α : Type}

@[simp] theorem get?_nil (k : Nat) : Tab.get? ([] : Tab α) k = none := rfl

@[simp] theorem get?_put_same (t : Tab α) (k : Nat) (a : α) : Tab.get? (t.put k a) k = some a := by
  induction t with
  | nil => simp [Tab.put, Tab.get?]
  | cons e t ih =>
    obtain ⟨k', a'⟩ := e
    unfold Tab.put
    split
    · simp [Tab.get?]
    · split
      · simp [Tab.get?]
      · simp [Tab.get?, ih, Ne.symm ‹_›]

theorem get?_put_other (t : Tab α) {j k : Nat} (h : j ≠ k) (a : α) : Tab.get? (t.put k a) j = Tab.get? t j := by
  induction t with
  | nil => simp [Tab.put, Tab.get?, h.symm]
  | cons e t ih =>
    obtain ⟨k', a'⟩ := e
    unfold Tab.put
    split
    · simp [Tab.get?, h.symm]
    · split
      · subst k; simp [Tab.get?, Ne.symm h]
      · simp [Tab.get?, ih]

theorem get?_put (t : Tab α) (j k : Nat) (a : α) :
    Tab.get? (t.put k a) j = if j = k then some a else Tab.get? t j := by
  split
  · subst j; simp
  · exact get?_put_other t ‹_› a

@[simp] theorem get_put_same (t : Tab α) (k : Nat) (a d : α) : Tab.get (t.put k a) k d = a := by
  simp [Tab.get]

theorem get_put_other (t : Tab α) {j k : Nat} (h : j ≠ k) (a d : α) : Tab.get (t.put k a) j d = Tab.get t j d := by
  simp [Tab.get, get?_put_other t h]

theorem get?_del_same (t : Tab α) (k : Nat) : Tab.get? (t.del k) k = none := by
  induction t with
  | nil => rfl
  | cons e t ih =>
    obtain ⟨k', a'⟩ := e
    by_cases h : k' = k
    · simpa [Tab.del, h] using ih
    · simp [Tab.del, Tab.get?, h]
      exact ih

theorem get?_del_other (t : Tab α) {j k : Nat} (h : j ≠ k) : Tab.get? (t.del k) j = Tab.get? t j := by
  induction t with
  | nil => rfl
  | cons e t ih =>
    obtain ⟨k', a'⟩ := e
    by_cases hk : k' = k
    · subst hk
      simpa [Tab.del, Tab.get?, h.symm] using ih
    · simp only [Tab.del, List.filter_cons, bne_iff_ne, ne_eq, hk, not_false_eq_true, if_true, Tab.get?]
      split
      · rfl
      · exact ih

/-- What a table holds after a write: the new entry, and old ones. -/
theorem mem_put {t : Tab α} {k : Nat} {a : α} {e : Nat × α} (h : e ∈ t.put k a) : e = (k, a) ∨ e ∈ t := by
  induction t with
  | nil => simpa [Tab.put] using h
  | cons x t ih =>
    obtain ⟨k', a'⟩ := x
    unfold Tab.put at h
    split at h
    · simpa using h
    · split at h
      · simp at h; tauto
      · simp only [List.mem_cons] at h ⊢
        rcases h with h | h
        · exact .inr (.inl h)
        · rcases ih h with h | h
          · exact .inl h
          · exact .inr (.inr h)

end Tab

/-! Memory. -/

namespace Memory

variable {m : Memory}

theorem wf_nil : Memory.wf [] := by simp [Memory.wf]

theorem wf_del (h : m.wf) (a : Nat) : Memory.wf (Tab.del m a) :=
  ⟨h.1.filter _, fun c hc => h.2 c (List.mem_of_mem_filter hc)⟩

theorem wf_filter (h : m.wf) (p : Host.Cell → Bool) : Memory.wf (m.filter p) :=
  ⟨h.1.filter _, fun c hc => h.2 c (List.mem_of_mem_filter hc)⟩

/-- Writing a listed byte's value keeps the addresses rising. -/
theorem rising_put {t : Tab Byte} (h : t.Pairwise fun c d => c.1 < d.1) (a : Nat) (b : Byte) :
    (t.put a b).Pairwise fun c d => c.1 < d.1 := by
  induction t with
  | nil => simp [Tab.put]
  | cons e t ih =>
    obtain ⟨k, x⟩ := e
    obtain ⟨h₁, h₂⟩ := List.pairwise_cons.mp h
    unfold Tab.put
    split
    · refine List.pairwise_cons.mpr ⟨fun c hc => ?_, h⟩
      rcases List.mem_cons.mp hc with hc | hc
      · subst hc; assumption
      · exact Nat.lt_trans ‹_› (h₁ c hc)
    · split
      · subst a; exact List.pairwise_cons.mpr ⟨h₁, h₂⟩
      · refine List.pairwise_cons.mpr ⟨fun c hc => ?_, ih h₂⟩
        rcases Tab.mem_put hc with hc | hc
        · subst hc; show k < a; omega
        · exact h₁ c hc

/-- One byte written keeps the canonical form. -/
theorem wf_write (h : m.wf) (a : Nat) (b : Byte) : (m.write a b).wf := by
  unfold Memory.write
  split
  · exact wf_del h a
  · refine ⟨rising_put h.1 a b, fun c hc => ?_⟩
    rcases Tab.mem_put hc with hc | hc
    · subst hc; assumption
    · exact h.2 c hc

/-- Bytes written keep the canonical form. -/
theorem wf_writeN (h : m.wf) (a : Nat) (bs : List Byte) : (m.writeN a bs).wf := by
  induction bs generalizing m a with
  | nil => exact h
  | cons b bs ih => exact ih (wf_write h a b) (a + 1)

@[simp] theorem read_nil (a : Nat) : Memory.read [] a = 0 := rfl

/-- A byte reads as it was written. -/
@[simp] theorem read_write_same (m : Memory) (a : Nat) (b : Byte) : (m.write a b).read a = b := by
  unfold Memory.write Memory.read
  split
  · subst b; simp [Tab.get, Tab.get?_del_same]
  · simp

/-- Every other byte reads as before. -/
theorem read_write_other (m : Memory) {a j : Nat} (h : j ≠ a) (b : Byte) : (m.write a b).read j = m.read j := by
  unfold Memory.write Memory.read
  split
  · simp [Tab.get, Tab.get?_del_other m h]
  · simp [Tab.get_put_other m h]

/-- A byte outside those written reads as before. -/
theorem read_writeN_other (m : Memory) (a : Nat) (bs : List Byte) {j : Nat} (h : j < a ∨ a + bs.length ≤ j) :
    (m.writeN a bs).read j = m.read j := by
  induction bs generalizing m a with
  | nil => rfl
  | cons b bs ih =>
    simp only [List.length_cons] at h
    show ((m.write a b).writeN (a + 1) bs).read j = m.read j
    rw [ih (m.write a b) (a + 1) (by omega), read_write_other m (by omega)]

/-- The byte at a place of those written reads as it was written. -/
theorem read_writeN_at (m : Memory) (a : Nat) (bs : List Byte) (i : Nat) (h : i < bs.length) :
    (m.writeN a bs).read (a + i) = bs[i] := by
  induction bs generalizing m a i with
  | nil => simp at h
  | cons b bs ih =>
    show ((m.write a b).writeN (a + 1) bs).read (a + i) = _
    cases i with
    | zero => rw [read_writeN_other _ _ _ (by omega)]; simp
    | succ i =>
      have := ih (m.write a b) (a + 1) i (by simpa using h)
      rw [show a + (i + 1) = a + 1 + i by omega, this]; rfl

/-- What is read back is what was written. -/
theorem readN_writeN (m : Memory) (a : Nat) (bs : List Byte) : (m.writeN a bs).readN a bs.length = bs := by
  induction bs generalizing m a with
  | nil => rfl
  | cons b bs ih =>
    show _ :: _ = _
    have h0 : (m.writeN a (b :: bs)).read a = b := read_writeN_at m a (b :: bs) 0 (by simp)
    have h1 : (m.writeN a (b :: bs)).readN (a + 1) bs.length = bs := ih (m.write a b) (a + 1)
    rw [h0, h1]

end Memory

/-! Bytes of a number. -/

@[simp] theorem leBytes_length (n v : Nat) : (leBytes n v).length = n := by
  induction n generalizing v with
  | zero => rfl
  | succ n ih => simp [leBytes, ih]

/-- Little-endian bytes hold the number they are made from. -/
theorem leNat_leBytes (n v : Nat) (h : v < 256 ^ n) : leNat (leBytes n v) = v := by
  induction n generalizing v with
  | zero => simp at h; simp [leBytes, leNat, h]
  | succ n ih =>
    have : v / 256 < 256 ^ n := Nat.div_lt_of_lt_mul (by rw [Nat.pow_succ] at h; omega)
    simp only [leBytes, leNat, ih _ this, BitVec.toNat_ofNat]
    omega

end Sys2Proof.Machine
end

