-- ==== Sys2Proof/Laws/Registers.lean ====
section
/-!
SUPPORT. What a warp, a core and a block hold after an update, and what the shared operations over registers
do, each said once.
-/

namespace Sys2Proof.Machine

namespace State

variable (s : State)

/-! Tables of warps, cores, blocks and dies. -/

@[simp] theorem warp_modWarp (k : Nat) (f : Warp → Warp) : (s.modWarp k f).warp k = f (s.warp k) := by
  simp [warp, modWarp]
theorem warp_modWarp_other {j k : Nat} (h : j ≠ k) (f : Warp → Warp) : (s.modWarp k f).warp j = s.warp j := by
  simp [warp, modWarp, Tab.get_put_other _ h]
theorem warps_modWarp_other {j k : Nat} (h : j ≠ k) (f : Warp → Warp) : (s.modWarp k f).warps.get? j = s.warps.get? j := by
  simp [modWarp, Tab.get?_put_other _ h]
@[simp] theorem core_modCore (c : Nat) (f : Core → Core) : (s.modCore c f).core c = f (s.core c) := by
  simp [core, modCore]
theorem core_modCore_other {j c : Nat} (h : j ≠ c) (f : Core → Core) : (s.modCore c f).core j = s.core j := by
  simp [core, modCore, Tab.get_put_other _ h]
@[simp] theorem block_modBlock (b : Nat) (f : Block → Block) : (s.modBlock b f).block b = f (s.block b) := by
  simp [block, modBlock]
theorem block_modBlock_other {j b : Nat} (h : j ≠ b) (f : Block → Block) : (s.modBlock b f).block j = s.block j := by
  simp [block, modBlock, Tab.get_put_other _ h]
@[simp] theorem die_modDie (d : Nat) (f : Die → Die) : (s.modDie d f).die d = f (s.die d) := by
  simp [die, modDie]
theorem die_modDie_other {j d : Nat} (h : j ≠ d) (f : Die → Die) : (s.modDie d f).die j = s.die j := by
  simp [die, modDie, Tab.get_put_other _ h]
@[simp] theorem me_modMe (f : Warp → Warp) : (s.modMe f).me = f s.me := by simp [me, modMe]
@[simp] theorem me_done : s.done.me = s.me := rfl
@[simp] theorem warp_done (k : Nat) : s.done.warp k = s.warp k := rfl
@[simp] theorem core_modMe (c : Nat) (f : Warp → Warp) : (s.modMe f).core c = s.core c := rfl
@[simp] theorem core_done (c : Nat) : s.done.core c = s.core c := rfl

/-- An update of the issuing warp leaves the rest as it was. -/
theorem onlyMe_modMe (f : Warp → Warp) : s.onlyMe (s.modMe f).done :=
  ⟨rfl, fun _ h => Tab.get?_put_other _ h _, fun _ => rfl, fun _ _ => rfl⟩

theorem onlyMe_modMe_modMe (f g : Warp → Warp) : s.onlyMe ((s.modMe f).modMe g).done :=
  ⟨rfl, fun _ h => (Tab.get?_put_other _ h _).trans (Tab.get?_put_other _ h _), fun _ => rfl, fun _ _ => rfl⟩

end State

/-! Lanes. -/

@[simp] theorem lane_lanesOf (f : Nat → Word) {l : Nat} (h : l < 96) : lane (lanesOf f) l = f l := by
  simp [lane, lanesOf, h]

/-- A sum of distinct powers of two below `2 ^ n`, and its bits. -/
theorem bits_of_sum (p : Nat → Bool) (n : Nat) :
    (List.range n).foldl (fun m l => if p l then m + 2 ^ l else m) 0 < 2 ^ n
      ∧ ∀ l, ((List.range n).foldl (fun m l => if p l then m + 2 ^ l else m) 0).testBit l = (decide (l < n) && p l) := by
  induction n with
  | zero => simp
  | succ n ih =>
    obtain ⟨h₁, h₂⟩ := ih
    rw [List.range_succ, List.foldl_append]
    simp only [List.foldl_cons, List.foldl_nil]
    set x := (List.range n).foldl (fun m l => if p l then m + 2 ^ l else m) 0
    by_cases hp : p n
    · refine ⟨by simp only [hp, if_true]; rw [Nat.pow_succ]; omega, fun l => ?_⟩
      simp only [hp, if_true, Nat.add_comm x]
      rcases Nat.lt_trichotomy l n with h | h | h
      · rw [Nat.testBit_two_pow_add_gt h, h₂]; simp [h, Nat.lt_succ_of_lt h]
      · subst h; rw [Nat.testBit_two_pow_add_eq, h₂]; simp [hp]
      · have : 2 ^ n + x < 2 ^ l :=
          Nat.lt_of_lt_of_le (by rw [Nat.pow_succ]; omega : 2 ^ n + x < 2 ^ (n + 1)) (Nat.pow_le_pow_right (by omega) h)
        rw [Nat.testBit_lt_two_pow this, decide_eq_false (by omega), Bool.false_and]
    · refine ⟨by simp only [hp]; exact Nat.lt_trans h₁ (Nat.pow_lt_pow_right (by omega) (by omega)), fun l => ?_⟩
      simp only [hp]
      rw [if_neg (by simp), h₂]
      rcases Nat.lt_trichotomy l n with h | h | h
      · simp [h, Nat.lt_succ_of_lt h]
      · subst h; simp [hp]
      · rw [decide_eq_false (by omega), decide_eq_false (by omega), Bool.false_and]

/-- A lane is in a mask where the test holds. -/
@[simp] theorem getLsbD_maskIf (p : Nat → Bool) (l : Nat) : (maskIf p).getLsbD l = (decide (l < 96) && p l) := by
  simp only [maskIf, BitVec.getLsbD_ofNat, (bits_of_sum p 96).2]
  by_cases h : l < 96 <;> simp [h]

namespace Warp

variable (w : Warp)

@[simp] theorem sreg_setSAt_same (m : LaneMask) {n : Nat} (h : n < 64) (x : Word) : (w.setSAt m n x).sreg n = slsAnd m n x := by
  simp [setSAt, sreg, h]
theorem sreg_setSAt_other (m : LaneMask) {n r : Nat} (h : r ≠ n) (x : Word) : (w.setSAt m n x).sreg r = w.sreg r := by
  simp [setSAt, sreg, h.symm]
@[simp] theorem sls_setSAt (m : LaneMask) (n : Nat) (x : Word) : (w.setSAt m n x).sls = w.sls := rfl
theorem bad_setSAt_other (m : LaneMask) {n k : Nat} (h : k ≠ sKey n) (x : Word) :
    (w.setSAt m n x).bad.get k 0 = w.bad.get k 0 := by
  simp [setSAt, Tab.get, Tab.get?_del_other _ h]

@[simp] theorem sreg_setS_same {n : Nat} (h : n < 64) (x : Word) : (w.setS n x).sreg n = slsAnd w.sls n x :=
  w.sreg_setSAt_same _ h x
theorem sreg_setS_other {n r : Nat} (h : r ≠ n) (x : Word) : (w.setS n x).sreg r = w.sreg r := w.sreg_setSAt_other _ h x
@[simp] theorem sls_setS (n : Nat) (x : Word) : (w.setS n x).sls = w.sls := rfl
theorem bad_setS_other {n k : Nat} (h : k ≠ sKey n) (x : Word) : (w.setS n x).bad.get k 0 = w.bad.get k 0 :=
  w.bad_setSAt_other _ h x

/-- A write of a v register: the lanes of the mask take the value, the others stay. -/
theorem lane_setV (n : Nat) (m : LaneMask) (x : Lanes) {l : Nat} (h : l < 96) :
    lane ((w.setV n m x).vreg n) l = if m.getLsbD l then lane x l else lane (w.vreg n) l := by
  simp [setV, vreg, h]
theorem vreg_setV_other {n r : Nat} (h : r ≠ n) (m : LaneMask) (x : Lanes) : (w.setV n m x).vreg r = w.vreg r := by
  simp [setV, vreg, unwritten, Tab.get_put_other _ h]

theorem get?_filter_keep {α : Type} (t : Tab α) (p : Nat × α → Bool) (k : Nat) (h : ∀ e : Nat × α, e.1 = k → p e = true) :
    Tab.get? (t.filter p) k = Tab.get? t k := by
  induction t with
  | nil => rfl
  | cons e t ih =>
    obtain ⟨j, a⟩ := e
    by_cases hj : j = k
    · subst hj; simp [h (j, a) rfl, Tab.get?]
    · by_cases hp : p (j, a) = true
      · simp [hp, Tab.get?, hj, ih]
      · simp [hp, Tab.get?, hj, ih]

theorem bad_setV_other {n k : Nat} (h : k / 96 ≠ n) (m : LaneMask) (x : Lanes) :
    (w.setV n m x).bad.get k 0 = w.bad.get k 0 := by
  unfold Tab.get
  congr 1
  exact get?_filter_keep _ _ _ fun e he => by simp [he, h]

end Warp

/-! The shared vector effects (R247, R251, R253). -/

namespace State

variable (s : State)

/-- Everything `vecPut` does. -/
theorem vecPut_spec (d : Nat) (r : Nat → Word) :
    (s.vecPut d r).out = .done ∧ s.onlyV (s.vecPut d r) d
      ∧ ∀ l < 96, lane ((s.vecPut d r).me.vreg d) l = s.laneAfter d r l := by
  have hme : (s.vecPut d r).me = s.me.setV d s.writeMask (lanesOf fun l => if s.actMask.getLsbD l then r l else 0) := by
    simp [vecPut, setV]
  refine ⟨rfl, ⟨s.onlyMe_modMe _, ?_, ?_, ?_⟩, ?_⟩
  · rw [hme]; rfl
  · intro j hj; rw [hme]; exact Warp.vreg_setV_other _ hj _ _
  · intro k hk; rw [hme]; exact Warp.bad_setV_other _ hk _ _
  · intro l hl
    rw [hme, Warp.lane_setV _ _ _ _ hl, lane_lanesOf _ hl]
    have hz : ∀ l, s.actMask.getLsbD l = true → s.execMask.getLsbD l = true := by
      intro l h; unfold actMask at h; split at h
      · simp [BitVec.getLsbD_and] at h; exact h.1
      · exact h
    unfold laneAfter writeMask
    by_cases ha : s.actMask.getLsbD l = true
    · have := hz l ha
      by_cases hzr : s.zeroing = true <;> simp_all
    · by_cases hzr : s.zeroing = true <;> simp_all

end State

end Sys2Proof.Machine
end

