-- ==== Sys2Proof/Laws/Issue.lean ====
section
/-!
SUPPORT. What the shared operations around an instruction's issue do, each said once: the checks that stand
before its effect, the writes of s registers and of mask triples, and the stop of a warp.
-/

namespace Sys2Proof.Machine

namespace State

variable (s : State) {i : Instr}

/-! The checks before an instruction's effect. -/

theorem permitted_of_go (h : s.gate i = .go) : s.permitted i = none := by
  unfold gate at h
  split at h
  · cases h
  · assumption

theorem hazard_of_go (h : s.gate i = .go) : s.hazard i = .go := by
  have hp := s.permitted_of_go h
  unfold gate at h
  rwa [hp] at h

theorem issue_go (h : s.gate i = .go) (k : State) : s.issue i k = k := by simp only [issue, h]

theorem issue_wait (h : s.gate i = .wait) (k : State) : s.issue i k = s.wait := by simp only [issue, h]

theorem issue_stop {st : Stop} (h : s.gate i = .stop st) (k : State) : s.issue i k = s.raise st := by simp only [issue, h]

theorem issueVec_go (h : s.gate i = .go) (hx : s.execMask ≠ 0) (k : State) : s.issueVec i k = k := by
  simp only [issueVec, s.permitted_of_go h, if_neg hx, s.issue_go h]

theorem issueVec_empty (h : s.permitted i = none) (hx : s.execMask = 0) (k : State) : s.issueVec i k = s.done := by
  simp only [issueVec, h, if_pos hx]

theorem issueVec_stop {st : Stop} (h : s.gate i = .stop st) (hx : s.execMask ≠ 0) (k : State) :
    s.issueVec i k = s.raise st := by
  cases hp : s.permitted i with
  | some c =>
    have : st = { cause := c } := by
      unfold gate at h
      simpa [hp] using h.symm
    simp only [issueVec, hp, this, fail]
  | none => simp only [issueVec, hp, if_neg hx, s.issue_stop h]

/-- The gate lets an instruction go exactly when its decode checks pass and no register it names stands in its way. -/
theorem gate_go_iff : s.gate i = .go ↔ s.permitted i = none ∧ s.hazard i = .go := by
  refine ⟨fun h => ⟨s.permitted_of_go h, s.hazard_of_go h⟩, fun ⟨hp, hh⟩ => ?_⟩
  unfold gate
  rw [hp, hh]

/-- The register checks in their order: a pending register, a mark, an unfinished result, poison. -/
theorem hazard_go_iff :
    s.hazard i = .go ↔ (s.reads i ++ i.writes).find? s.pending = none ∧ s.markOn (s.reads i ++ i.writes) = none
      ∧ (s.sfuBusy (s.reads i ++ i.writes) || s.flagsBusy i) = false ∧ s.poisonOf i = none := by
  unfold hazard
  generalize s.reads i ++ i.writes = keys
  dsimp only
  split
  · simp_all
  · split
    · simp_all
    · split
      · rename_i hb
        rw [hb]
        simp_all
      · split <;> simp_all

/-! How an instruction comes out. -/

@[simp] theorem raise_out (st : Stop) : (s.raise st).out = .raised st := rfl

/-! Bytes. -/

theorem sameBytes_refl : s.sameBytes s := ⟨fun _ => rfl, fun _ _ => rfl⟩

theorem sameBytes_trans {s t u : State} (h : s.sameBytes t) (k : t.sameBytes u) : s.sameBytes u :=
  ⟨fun a => (k.1 a).trans (h.1 a), fun c a => (k.2 c a).trans (h.2 c a)⟩

/-- An update that leaves memory and the cores alone leaves every byte. -/
theorem sameBytes_of {s t : State} (hm : t.mem = s.mem) (hc : t.cores = s.cores) : s.sameBytes t :=
  ⟨fun a => by rw [hm], fun c a => by simp only [core, hc]⟩

/-- An update of a core that keeps its scratchpad leaves every byte. -/
theorem sameBytes_modCore (c : Nat) (f : Core → Core) (h : ∀ x, (f x).pad = x.pad) : s.sameBytes (s.modCore c f) := by
  refine ⟨fun _ => rfl, fun d a => ?_⟩
  by_cases hd : d = c
  · subst hd; rw [core_modCore, h]
  · rw [core_modCore_other _ hd]

/-! Writes of s registers and of mask triples. -/

/-- Everything a write of an s register does. -/
theorem setS_spec {d : Nat} (hd : d < 64) (x : Word) :
    (s.setS d x).done.out = .done ∧ s.onlyS (s.setS d x).done [d] ∧ (s.setS d x).done.me.sreg d = Warp.slsAnd s.before.sls d x := by
  have hme : (s.setS d x).done.me = s.me.setSAt s.before.sls d x := by simp [setS]
  refine ⟨rfl, ⟨s.onlyMe_modMe _, ?_, ?_, ?_⟩, ?_⟩
  · rw [hme]; rfl
  · intro r hr
    rw [hme]
    exact Warp.sreg_setSAt_other _ _ (by simpa using hr) x
  · intro k hk
    rw [hme]
    exact Warp.bad_setSAt_other _ _ (hk d (by simp)) x
  · rw [hme, Warp.sreg_setSAt_same _ _ hd]

/-- Everything an ordinary scalar result does, once the word may issue. -/
theorem scalar_result (h : s.gate i = .go) {d : Nat} (hd : d < 64) (x : Word)
    (he : exec i s = .next (s.issue i (s.setS d x).done)) :
    ∃ t, exec i s = .next t ∧ t.out = .done ∧ s.onlyS t [d] ∧ t.me.sreg d = Warp.slsAnd s.before.sls d x :=
  ⟨_, by rw [he, s.issue_go h], s.setS_spec hd x⟩

/-- Everything an ordinary vector result does, once the word may issue. -/
theorem vector_result (h : s.gate i = .go) (hx : s.execMask ≠ 0) (d : Nat) (r : Nat → Word)
    (he : exec i s = .next (s.issueVec i (s.vecPut d r))) :
    ∃ t, exec i s = .next t ∧ t.out = .done ∧ s.onlyV t d ∧ ∀ l < 96, lane (t.me.vreg d) l = s.laneAfter d r l :=
  ⟨_, by rw [he, s.issueVec_go h hx], s.vecPut_spec d r⟩

/-- Everything a vector floating-point result does: the lanes, and the sticky flags its active lanes set. -/
theorem vecPutF_spec (d : Nat) (r : Nat → Word × Flags) :
    (s.vecPutF d r).out = .done ∧ s.onlyMe (s.vecPutF d r)
      ∧ (∀ l < 96, lane ((s.vecPutF d r).me.vreg d) l = s.laneAfter d (fun l => (r l).1) l)
      ∧ (∀ n, n ≠ d → (s.vecPutF d r).me.vreg n = s.me.vreg n)
      ∧ (s.vecPutF d r).me.vf = orFlags s.me.vf s.actMask fun l => (r l).2 := by
  have hme : (s.vecPutF d r).me = (s.vecPut d fun l => (r l).1).me.addFlags s.actMask fun l => (r l).2 := by
    simp [vecPutF, vecPut, setV]
  have hv : ∀ n, (s.vecPutF d r).me.vreg n = (s.vecPut d fun l => (r l).1).me.vreg n := fun n => by rw [hme]; rfl
  obtain ⟨-, ⟨-, hw, hk, -⟩, hl⟩ := s.vecPut_spec d fun l => (r l).1
  refine ⟨rfl, s.onlyMe_modMe_modMe _ _, fun l h => by rw [hv]; exact hl l h, fun n h => by rw [hv]; exact hk n h, ?_⟩
  rw [hme, hw]
  rfl

/-! The stop of a warp (R328 to R331). -/

/-- What a stopped warp holds. -/
theorem stopWarp_me (k : Nat) (st : Stop) (n : Nat) :
    let w := (s.stopWarp k st n).warp k
    w.cause = setCause (s.warp k).cause st.cause
      ∧ w.frec = { st.record (s.faultPos k st) (s.resumePos k st) with skid := n }
      ∧ w.position = s.resumePos k st ∧ w.s = (s.warp k).s ∧ w.v = (s.warp k).v ∧ w.q = (s.warp k).q
      ∧ w.run = (if (s.warp k).run == .exited then .exited else .stopped) := by
  have h : (s.stopWarp k st n).warp k = _ := warp_modWarp _ _ _
  rw [h]
  refine ⟨?_, ?_, ?_, ?_, ?_, ?_, ?_⟩ <;> rfl

/-- A stop changes no other warp, and no byte. -/
theorem stopWarp_other (k : Nat) (st : Stop) (n : Nat) :
    (∀ j, j ≠ k → (s.stopWarp k st n).warp j = s.warp j) ∧ s.sameBytes (s.stopWarp k st n) :=
  ⟨fun _ h => warp_modWarp_other _ h _, sameBytes_of rfl rfl⟩

end State

end Sys2Proof.Machine
end

