-- ==== Sys2Proof/Laws/PerInstr.lean ====
section
/-!
SUPPORT. Facts about every instruction as syntax, one lemma a constructor.
-/

namespace Sys2Proof

/-- A specifier's code fills one byte (R36). -/
theorem Src.code_lt (a : Src) : a.code < 256 := by
  cases a <;> simp only [Src.code] <;> omega

namespace Laws.BelowChain

/-- An instruction's fields leave bit 31 of its word free: the chain bit stands there (R19, R33). -/
def Statement (i : Instr) : Prop := encodeBits i < 2 ^ 31

theorem vadd (d : BitVec 7) (a : Src) (b : Src) : Statement (.vadd d a b) := by
  have h0 := d.isLt
  have h1 := a.code_lt
  have h2 := b.code_lt
  show 0x00000000 + d.toNat * 0x10000 + a.code * 0x100 + b.code < 2 ^ 31
  omega

theorem vsub (d : BitVec 7) (a : Src) (b : Src) : Statement (.vsub d a b) := by
  have h0 := d.isLt
  have h1 := a.code_lt
  have h2 := b.code_lt
  show 0x00800000 + d.toNat * 0x10000 + a.code * 0x100 + b.code < 2 ^ 31
  omega

theorem vadds (d : BitVec 7) (a : Src) (b : Src) : Statement (.vadds d a b) := by
  have h0 := d.isLt
  have h1 := a.code_lt
  have h2 := b.code_lt
  show 0x01000000 + d.toNat * 0x10000 + a.code * 0x100 + b.code < 2 ^ 31
  omega

theorem vsubs (d : BitVec 7) (a : Src) (b : Src) : Statement (.vsubs d a b) := by
  have h0 := d.isLt
  have h1 := a.code_lt
  have h2 := b.code_lt
  show 0x01800000 + d.toNat * 0x10000 + a.code * 0x100 + b.code < 2 ^ 31
  omega

theorem vmul (d : BitVec 7) (a : Src) (b : Src) : Statement (.vmul d a b) := by
  have h0 := d.isLt
  have h1 := a.code_lt
  have h2 := b.code_lt
  show 0x02000000 + d.toNat * 0x10000 + a.code * 0x100 + b.code < 2 ^ 31
  omega

theorem vmulh (d : BitVec 7) (a : Src) (b : Src) : Statement (.vmulh d a b) := by
  have h0 := d.isLt
  have h1 := a.code_lt
  have h2 := b.code_lt
  show 0x02800000 + d.toNat * 0x10000 + a.code * 0x100 + b.code < 2 ^ 31
  omega

theorem vmulhu (d : BitVec 7) (a : Src) (b : Src) : Statement (.vmulhu d a b) := by
  have h0 := d.isLt
  have h1 := a.code_lt
  have h2 := b.code_lt
  show 0x03000000 + d.toNat * 0x10000 + a.code * 0x100 + b.code < 2 ^ 31
  omega

theorem vmad (d : BitVec 7) (a : Src) (b : Src) : Statement (.vmad d a b) := by
  have h0 := d.isLt
  have h1 := a.code_lt
  have h2 := b.code_lt
  show 0x03800000 + d.toNat * 0x10000 + a.code * 0x100 + b.code < 2 ^ 31
  omega

theorem vand (d : BitVec 7) (a : Src) (b : Src) : Statement (.vand d a b) := by
  have h0 := d.isLt
  have h1 := a.code_lt
  have h2 := b.code_lt
  show 0x04000000 + d.toNat * 0x10000 + a.code * 0x100 + b.code < 2 ^ 31
  omega

theorem vandn (d : BitVec 7) (a : Src) (b : Src) : Statement (.vandn d a b) := by
  have h0 := d.isLt
  have h1 := a.code_lt
  have h2 := b.code_lt
  show 0x04800000 + d.toNat * 0x10000 + a.code * 0x100 + b.code < 2 ^ 31
  omega

theorem vor (d : BitVec 7) (a : Src) (b : Src) : Statement (.vor d a b) := by
  have h0 := d.isLt
  have h1 := a.code_lt
  have h2 := b.code_lt
  show 0x05000000 + d.toNat * 0x10000 + a.code * 0x100 + b.code < 2 ^ 31
  omega

theorem vxor (d : BitVec 7) (a : Src) (b : Src) : Statement (.vxor d a b) := by
  have h0 := d.isLt
  have h1 := a.code_lt
  have h2 := b.code_lt
  show 0x05800000 + d.toNat * 0x10000 + a.code * 0x100 + b.code < 2 ^ 31
  omega

theorem vshl (d : BitVec 7) (a : Src) (b : Src) : Statement (.vshl d a b) := by
  have h0 := d.isLt
  have h1 := a.code_lt
  have h2 := b.code_lt
  show 0x06000000 + d.toNat * 0x10000 + a.code * 0x100 + b.code < 2 ^ 31
  omega

theorem vshr (d : BitVec 7) (a : Src) (b : Src) : Statement (.vshr d a b) := by
  have h0 := d.isLt
  have h1 := a.code_lt
  have h2 := b.code_lt
  show 0x06800000 + d.toNat * 0x10000 + a.code * 0x100 + b.code < 2 ^ 31
  omega

theorem vsar (d : BitVec 7) (a : Src) (b : Src) : Statement (.vsar d a b) := by
  have h0 := d.isLt
  have h1 := a.code_lt
  have h2 := b.code_lt
  show 0x07000000 + d.toNat * 0x10000 + a.code * 0x100 + b.code < 2 ^ 31
  omega

theorem vrol (d : BitVec 7) (a : Src) (b : Src) : Statement (.vrol d a b) := by
  have h0 := d.isLt
  have h1 := a.code_lt
  have h2 := b.code_lt
  show 0x07800000 + d.toNat * 0x10000 + a.code * 0x100 + b.code < 2 ^ 31
  omega

theorem vmin (d : BitVec 7) (a : Src) (b : Src) : Statement (.vmin d a b) := by
  have h0 := d.isLt
  have h1 := a.code_lt
  have h2 := b.code_lt
  show 0x08000000 + d.toNat * 0x10000 + a.code * 0x100 + b.code < 2 ^ 31
  omega

theorem vmax (d : BitVec 7) (a : Src) (b : Src) : Statement (.vmax d a b) := by
  have h0 := d.isLt
  have h1 := a.code_lt
  have h2 := b.code_lt
  show 0x08800000 + d.toNat * 0x10000 + a.code * 0x100 + b.code < 2 ^ 31
  omega

theorem vminu (d : BitVec 7) (a : Src) (b : Src) : Statement (.vminu d a b) := by
  have h0 := d.isLt
  have h1 := a.code_lt
  have h2 := b.code_lt
  show 0x09000000 + d.toNat * 0x10000 + a.code * 0x100 + b.code < 2 ^ 31
  omega

theorem vmaxu (d : BitVec 7) (a : Src) (b : Src) : Statement (.vmaxu d a b) := by
  have h0 := d.isLt
  have h1 := a.code_lt
  have h2 := b.code_lt
  show 0x09800000 + d.toNat * 0x10000 + a.code * 0x100 + b.code < 2 ^ 31
  omega

theorem vicmp (t : BitVec 5) (k : BitVec 3) (a : Src) (b : Src) : Statement (.vicmp t k a b) := by
  have h0 := t.isLt
  have h1 := k.isLt
  have h2 := a.code_lt
  have h3 := b.code_lt
  show 0x0A000000 + t.toNat * 0x80000 + k.toNat * 0x10000 + a.code * 0x100 + b.code < 2 ^ 31
  omega

theorem vfcmp (t : BitVec 5) (k : BitVec 3) (a : Src) (b : Src) : Statement (.vfcmp t k a b) := by
  have h0 := t.isLt
  have h1 := k.isLt
  have h2 := a.code_lt
  have h3 := b.code_lt
  show 0x0B000000 + t.toNat * 0x80000 + k.toNat * 0x10000 + a.code * 0x100 + b.code < 2 ^ 31
  omega

theorem vpopc (d : BitVec 7) (a : Src) : Statement (.vpopc d a) := by
  have h0 := d.isLt
  have h1 := a.code_lt
  show 0x0C000000 + d.toNat * 0x10000 + a.code * 0x100 < 2 ^ 31
  omega

theorem vclz (d : BitVec 7) (a : Src) : Statement (.vclz d a) := by
  have h0 := d.isLt
  have h1 := a.code_lt
  show 0x0C800000 + d.toNat * 0x10000 + a.code * 0x100 < 2 ^ 31
  omega

theorem vbrev (d : BitVec 7) (a : Src) : Statement (.vbrev d a) := by
  have h0 := d.isLt
  have h1 := a.code_lt
  show 0x0D000000 + d.toNat * 0x10000 + a.code * 0x100 < 2 ^ 31
  omega

theorem vctz (d : BitVec 7) (a : Src) : Statement (.vctz d a) := by
  have h0 := d.isLt
  have h1 := a.code_lt
  show 0x0D800000 + d.toNat * 0x10000 + a.code * 0x100 < 2 ^ 31
  omega

theorem vmov (d : BitVec 7) (a : Src) : Statement (.vmov d a) := by
  have h0 := d.isLt
  have h1 := a.code_lt
  show 0x0E000000 + d.toNat * 0x10000 + a.code * 0x100 < 2 ^ 31
  omega

theorem vnot (d : BitVec 7) (a : Src) : Statement (.vnot d a) := by
  have h0 := d.isLt
  have h1 := a.code_lt
  show 0x0E800000 + d.toNat * 0x10000 + a.code * 0x100 < 2 ^ 31
  omega

theorem vcvt (d : BitVec 7) (a : Src) (e : BitVec 8) : Statement (.vcvt d a e) := by
  have h0 := d.isLt
  have h1 := a.code_lt
  have h2 := e.isLt
  show 0x0F000000 + d.toNat * 0x10000 + a.code * 0x100 + e.toNat < 2 ^ 31
  omega

theorem vfadd (d : BitVec 7) (a : Src) (b : Src) : Statement (.vfadd d a b) := by
  have h0 := d.isLt
  have h1 := a.code_lt
  have h2 := b.code_lt
  show 0x10000000 + d.toNat * 0x10000 + a.code * 0x100 + b.code < 2 ^ 31
  omega

theorem vfsub (d : BitVec 7) (a : Src) (b : Src) : Statement (.vfsub d a b) := by
  have h0 := d.isLt
  have h1 := a.code_lt
  have h2 := b.code_lt
  show 0x10800000 + d.toNat * 0x10000 + a.code * 0x100 + b.code < 2 ^ 31
  omega

theorem vfmul (d : BitVec 7) (a : Src) (b : Src) : Statement (.vfmul d a b) := by
  have h0 := d.isLt
  have h1 := a.code_lt
  have h2 := b.code_lt
  show 0x11000000 + d.toNat * 0x10000 + a.code * 0x100 + b.code < 2 ^ 31
  omega

theorem vfscl (d : BitVec 7) (a : Src) (b : Src) : Statement (.vfscl d a b) := by
  have h0 := d.isLt
  have h1 := a.code_lt
  have h2 := b.code_lt
  show 0x11800000 + d.toNat * 0x10000 + a.code * 0x100 + b.code < 2 ^ 31
  omega

theorem vfma (d : BitVec 7) (a : Src) (b : Src) : Statement (.vfma d a b) := by
  have h0 := d.isLt
  have h1 := a.code_lt
  have h2 := b.code_lt
  show 0x12000000 + d.toNat * 0x10000 + a.code * 0x100 + b.code < 2 ^ 31
  omega

theorem vfms (d : BitVec 7) (a : Src) (b : Src) : Statement (.vfms d a b) := by
  have h0 := d.isLt
  have h1 := a.code_lt
  have h2 := b.code_lt
  show 0x12800000 + d.toNat * 0x10000 + a.code * 0x100 + b.code < 2 ^ 31
  omega

theorem vfnma (d : BitVec 7) (a : Src) (b : Src) : Statement (.vfnma d a b) := by
  have h0 := d.isLt
  have h1 := a.code_lt
  have h2 := b.code_lt
  show 0x13000000 + d.toNat * 0x10000 + a.code * 0x100 + b.code < 2 ^ 31
  omega

theorem vfnms (d : BitVec 7) (a : Src) (b : Src) : Statement (.vfnms d a b) := by
  have h0 := d.isLt
  have h1 := a.code_lt
  have h2 := b.code_lt
  show 0x13800000 + d.toNat * 0x10000 + a.code * 0x100 + b.code < 2 ^ 31
  omega

theorem vfmin (d : BitVec 7) (a : Src) (b : Src) : Statement (.vfmin d a b) := by
  have h0 := d.isLt
  have h1 := a.code_lt
  have h2 := b.code_lt
  show 0x14000000 + d.toNat * 0x10000 + a.code * 0x100 + b.code < 2 ^ 31
  omega

theorem vfmax (d : BitVec 7) (a : Src) (b : Src) : Statement (.vfmax d a b) := by
  have h0 := d.isLt
  have h1 := a.code_lt
  have h2 := b.code_lt
  show 0x14800000 + d.toNat * 0x10000 + a.code * 0x100 + b.code < 2 ^ 31
  omega

theorem vfabs (d : BitVec 7) (a : Src) : Statement (.vfabs d a) := by
  have h0 := d.isLt
  have h1 := a.code_lt
  show 0x15000000 + d.toNat * 0x10000 + a.code * 0x100 < 2 ^ 31
  omega

theorem vfneg (d : BitVec 7) (a : Src) : Statement (.vfneg d a) := by
  have h0 := d.isLt
  have h1 := a.code_lt
  show 0x15800000 + d.toNat * 0x10000 + a.code * 0x100 < 2 ^ 31
  omega

theorem vfrnd (d : BitVec 7) (a : Src) : Statement (.vfrnd d a) := by
  have h0 := d.isLt
  have h1 := a.code_lt
  show 0x16000000 + d.toNat * 0x10000 + a.code * 0x100 < 2 ^ 31
  omega

theorem vffrc (d : BitVec 7) (a : Src) : Statement (.vffrc d a) := by
  have h0 := d.isLt
  have h1 := a.code_lt
  show 0x16800000 + d.toNat * 0x10000 + a.code * 0x100 < 2 ^ 31
  omega

theorem vh2fma (d : BitVec 7) (a : Src) (b : Src) : Statement (.vh2fma d a b) := by
  have h0 := d.isLt
  have h1 := a.code_lt
  have h2 := b.code_lt
  show 0x17000000 + d.toNat * 0x10000 + a.code * 0x100 + b.code < 2 ^ 31
  omega

theorem vb2fma (d : BitVec 7) (a : Src) (b : Src) : Statement (.vb2fma d a b) := by
  have h0 := d.isLt
  have h1 := a.code_lt
  have h2 := b.code_lt
  show 0x17800000 + d.toNat * 0x10000 + a.code * 0x100 + b.code < 2 ^ 31
  omega

theorem vrcp (d : BitVec 7) (a : Src) : Statement (.vrcp d a) := by
  have h0 := d.isLt
  have h1 := a.code_lt
  show 0x18000000 + d.toNat * 0x10000 + a.code * 0x100 < 2 ^ 31
  omega

theorem vrsq (d : BitVec 7) (a : Src) : Statement (.vrsq d a) := by
  have h0 := d.isLt
  have h1 := a.code_lt
  show 0x18800000 + d.toNat * 0x10000 + a.code * 0x100 < 2 ^ 31
  omega

theorem vsqrt (d : BitVec 7) (a : Src) : Statement (.vsqrt d a) := by
  have h0 := d.isLt
  have h1 := a.code_lt
  show 0x19000000 + d.toNat * 0x10000 + a.code * 0x100 < 2 ^ 31
  omega

theorem vlog2 (d : BitVec 7) (a : Src) : Statement (.vlog2 d a) := by
  have h0 := d.isLt
  have h1 := a.code_lt
  show 0x19800000 + d.toNat * 0x10000 + a.code * 0x100 < 2 ^ 31
  omega

theorem vex2 (d : BitVec 7) (a : Src) : Statement (.vex2 d a) := by
  have h0 := d.isLt
  have h1 := a.code_lt
  show 0x1A000000 + d.toNat * 0x10000 + a.code * 0x100 < 2 ^ 31
  omega

theorem vtanh (d : BitVec 7) (a : Src) : Statement (.vtanh d a) := by
  have h0 := d.isLt
  have h1 := a.code_lt
  show 0x1A800000 + d.toNat * 0x10000 + a.code * 0x100 < 2 ^ 31
  omega

theorem vex2s (d : BitVec 7) (a : Src) (b : Src) : Statement (.vex2s d a b) := by
  have h0 := d.isLt
  have h1 := a.code_lt
  have h2 := b.code_lt
  show 0x1B000000 + d.toNat * 0x10000 + a.code * 0x100 + b.code < 2 ^ 31
  omega

theorem vhyp (d : BitVec 7) (a : Src) (b : Src) : Statement (.vhyp d a b) := by
  have h0 := d.isLt
  have h1 := a.code_lt
  have h2 := b.code_lt
  show 0x1B800000 + d.toNat * 0x10000 + a.code * 0x100 + b.code < 2 ^ 31
  omega

theorem vshfl (d : BitVec 7) (a : Src) (b : Src) : Statement (.vshfl d a b) := by
  have h0 := d.isLt
  have h1 := a.code_lt
  have h2 := b.code_lt
  show 0x1C000000 + d.toNat * 0x10000 + a.code * 0x100 + b.code < 2 ^ 31
  omega

theorem vshfx (d : BitVec 7) (a : Src) (b : Src) : Statement (.vshfx d a b) := by
  have h0 := d.isLt
  have h1 := a.code_lt
  have h2 := b.code_lt
  show 0x1C800000 + d.toNat * 0x10000 + a.code * 0x100 + b.code < 2 ^ 31
  omega

theorem vmtov (d : BitVec 7) (t : BitVec 8) : Statement (.vmtov d t) := by
  have h0 := d.isLt
  have h1 := t.isLt
  show 0x1D000000 + d.toNat * 0x10000 + t.toNat * 0x100 < 2 ^ 31
  omega

theorem vvtom (t : BitVec 7) (a : Src) : Statement (.vvtom t a) := by
  have h0 := t.isLt
  have h1 := a.code_lt
  show 0x1D800000 + t.toNat * 0x10000 + a.code * 0x100 < 2 ^ 31
  omega

theorem sadd (d : BitVec 6) (a : Src) (b : Src) : Statement (.sadd d a b) := by
  have h0 := d.isLt
  have h1 := a.code_lt
  have h2 := b.code_lt
  show 0x20000000 + d.toNat * 0x10000 + a.code * 0x100 + b.code < 2 ^ 31
  omega

theorem ssub (d : BitVec 6) (a : Src) (b : Src) : Statement (.ssub d a b) := by
  have h0 := d.isLt
  have h1 := a.code_lt
  have h2 := b.code_lt
  show 0x20800000 + d.toNat * 0x10000 + a.code * 0x100 + b.code < 2 ^ 31
  omega

theorem smul (d : BitVec 6) (a : Src) (b : Src) : Statement (.smul d a b) := by
  have h0 := d.isLt
  have h1 := a.code_lt
  have h2 := b.code_lt
  show 0x21000000 + d.toNat * 0x10000 + a.code * 0x100 + b.code < 2 ^ 31
  omega

theorem smulhu (d : BitVec 6) (a : Src) (b : Src) : Statement (.smulhu d a b) := by
  have h0 := d.isLt
  have h1 := a.code_lt
  have h2 := b.code_lt
  show 0x21800000 + d.toNat * 0x10000 + a.code * 0x100 + b.code < 2 ^ 31
  omega

theorem sand (d : BitVec 6) (a : Src) (b : Src) : Statement (.sand d a b) := by
  have h0 := d.isLt
  have h1 := a.code_lt
  have h2 := b.code_lt
  show 0x22000000 + d.toNat * 0x10000 + a.code * 0x100 + b.code < 2 ^ 31
  omega

theorem sandn (d : BitVec 6) (a : Src) (b : Src) : Statement (.sandn d a b) := by
  have h0 := d.isLt
  have h1 := a.code_lt
  have h2 := b.code_lt
  show 0x22800000 + d.toNat * 0x10000 + a.code * 0x100 + b.code < 2 ^ 31
  omega

theorem sor (d : BitVec 6) (a : Src) (b : Src) : Statement (.sor d a b) := by
  have h0 := d.isLt
  have h1 := a.code_lt
  have h2 := b.code_lt
  show 0x23000000 + d.toNat * 0x10000 + a.code * 0x100 + b.code < 2 ^ 31
  omega

theorem sxor (d : BitVec 6) (a : Src) (b : Src) : Statement (.sxor d a b) := by
  have h0 := d.isLt
  have h1 := a.code_lt
  have h2 := b.code_lt
  show 0x23800000 + d.toNat * 0x10000 + a.code * 0x100 + b.code < 2 ^ 31
  omega

theorem sshl (d : BitVec 6) (a : Src) (b : Src) : Statement (.sshl d a b) := by
  have h0 := d.isLt
  have h1 := a.code_lt
  have h2 := b.code_lt
  show 0x24000000 + d.toNat * 0x10000 + a.code * 0x100 + b.code < 2 ^ 31
  omega

theorem sshr (d : BitVec 6) (a : Src) (b : Src) : Statement (.sshr d a b) := by
  have h0 := d.isLt
  have h1 := a.code_lt
  have h2 := b.code_lt
  show 0x24800000 + d.toNat * 0x10000 + a.code * 0x100 + b.code < 2 ^ 31
  omega

theorem ssar (d : BitVec 6) (a : Src) (b : Src) : Statement (.ssar d a b) := by
  have h0 := d.isLt
  have h1 := a.code_lt
  have h2 := b.code_lt
  show 0x25000000 + d.toNat * 0x10000 + a.code * 0x100 + b.code < 2 ^ 31
  omega

theorem srol (d : BitVec 6) (a : Src) (b : Src) : Statement (.srol d a b) := by
  have h0 := d.isLt
  have h1 := a.code_lt
  have h2 := b.code_lt
  show 0x25800000 + d.toNat * 0x10000 + a.code * 0x100 + b.code < 2 ^ 31
  omega

theorem smin (d : BitVec 6) (a : Src) (b : Src) : Statement (.smin d a b) := by
  have h0 := d.isLt
  have h1 := a.code_lt
  have h2 := b.code_lt
  show 0x26000000 + d.toNat * 0x10000 + a.code * 0x100 + b.code < 2 ^ 31
  omega

theorem smax (d : BitVec 6) (a : Src) (b : Src) : Statement (.smax d a b) := by
  have h0 := d.isLt
  have h1 := a.code_lt
  have h2 := b.code_lt
  show 0x26800000 + d.toNat * 0x10000 + a.code * 0x100 + b.code < 2 ^ 31
  omega

theorem smov (d : BitVec 6) (a : Src) : Statement (.smov d a) := by
  have h0 := d.isLt
  have h1 := a.code_lt
  show 0x27000000 + d.toNat * 0x10000 + a.code * 0x100 < 2 ^ 31
  omega

theorem snot (d : BitVec 6) (a : Src) : Statement (.snot d a) := by
  have h0 := d.isLt
  have h1 := a.code_lt
  show 0x27800000 + d.toNat * 0x10000 + a.code * 0x100 < 2 ^ 31
  omega

theorem scmp (t : BitVec 5) (k : BitVec 3) (a : Src) (b : Src) : Statement (.scmp t k a b) := by
  have h0 := t.isLt
  have h1 := k.isLt
  have h2 := a.code_lt
  have h3 := b.code_lt
  show 0x28000000 + t.toNat * 0x80000 + k.toNat * 0x10000 + a.code * 0x100 + b.code < 2 ^ 31
  omega

theorem spopc (d : BitVec 6) (a : Src) : Statement (.spopc d a) := by
  have h0 := d.isLt
  have h1 := a.code_lt
  show 0x29000000 + d.toNat * 0x10000 + a.code * 0x100 < 2 ^ 31
  omega

theorem sclz (d : BitVec 6) (a : Src) : Statement (.sclz d a) := by
  have h0 := d.isLt
  have h1 := a.code_lt
  show 0x29800000 + d.toNat * 0x10000 + a.code * 0x100 < 2 ^ 31
  omega

theorem sadd64 (d : BitVec 6) (a : Src) (b : Src) : Statement (.sadd64 d a b) := by
  have h0 := d.isLt
  have h1 := a.code_lt
  have h2 := b.code_lt
  show 0x2A000000 + d.toNat * 0x10000 + a.code * 0x100 + b.code < 2 ^ 31
  omega

theorem ssub64 (d : BitVec 6) (a : Src) (b : Src) : Statement (.ssub64 d a b) := by
  have h0 := d.isLt
  have h1 := a.code_lt
  have h2 := b.code_lt
  show 0x2A800000 + d.toNat * 0x10000 + a.code * 0x100 + b.code < 2 ^ 31
  omega

theorem smcnt (d : BitVec 6) (a : BitVec 8) : Statement (.smcnt d a) := by
  have h0 := d.isLt
  have h1 := a.isLt
  show 0x2B000000 + d.toNat * 0x10000 + a.toNat * 0x100 < 2 ^ 31
  omega

theorem smfst (d : BitVec 6) (a : BitVec 8) : Statement (.smfst d a) := by
  have h0 := d.isLt
  have h1 := a.isLt
  show 0x2B800000 + d.toNat * 0x10000 + a.toNat * 0x100 < 2 ^ 31
  omega

theorem sbfx (d : BitVec 6) (a : Src) (b : Src) : Statement (.sbfx d a b) := by
  have h0 := d.isLt
  have h1 := a.code_lt
  have h2 := b.code_lt
  show 0x2C000000 + d.toNat * 0x10000 + a.code * 0x100 + b.code < 2 ^ 31
  omega

theorem sbfi (d : BitVec 6) (a : Src) (b : Src) : Statement (.sbfi d a b) := by
  have h0 := d.isLt
  have h1 := a.code_lt
  have h2 := b.code_lt
  show 0x2C800000 + d.toNat * 0x10000 + a.code * 0x100 + b.code < 2 ^ 31
  omega

theorem srd (d : BitVec 6) (n : BitVec 8) : Statement (.srd d n) := by
  have h0 := d.isLt
  have h1 := n.isLt
  show 0x2D000000 + d.toNat * 0x10000 + n.toNat * 0x100 < 2 ^ 31
  omega

theorem swr (n : BitVec 6) (b : Src) : Statement (.swr n b) := by
  have h0 := n.isLt
  have h1 := b.code_lt
  show 0x2D800000 + n.toNat * 0x10000 + b.code < 2 ^ 31
  omega

theorem sfadd (d : BitVec 6) (a : Src) (b : Src) : Statement (.sfadd d a b) := by
  have h0 := d.isLt
  have h1 := a.code_lt
  have h2 := b.code_lt
  show 0x2E000000 + d.toNat * 0x10000 + a.code * 0x100 + b.code < 2 ^ 31
  omega

theorem sfmul (d : BitVec 6) (a : Src) (b : Src) : Statement (.sfmul d a b) := by
  have h0 := d.isLt
  have h1 := a.code_lt
  have h2 := b.code_lt
  show 0x2E800000 + d.toNat * 0x10000 + a.code * 0x100 + b.code < 2 ^ 31
  omega

theorem put (m : BitVec 4) (d : Src) (s : Src) : Statement (.put m d s) := by
  have h0 := m.isLt
  have h1 := d.code_lt
  have h2 := s.code_lt
  show 0x30000000 + m.toNat * 0x100000 + d.code * 0x100 + s.code < 2 ^ 31
  omega

theorem xchg (d : BitVec 7) (a : Src) (b : Src) : Statement (.xchg d a b) := by
  have h0 := d.isLt
  have h1 := a.code_lt
  have h2 := b.code_lt
  show 0x31000000 + d.toNat * 0x10000 + a.code * 0x100 + b.code < 2 ^ 31
  omega

theorem bra (k : BitVec 4) (r : BitVec 6) (o : BitVec 14) : Statement (.bra k r o) := by
  have h0 := k.isLt
  have h1 := r.isLt
  have h2 := o.isLt
  show 0x38000000 + k.toNat * 0x100000 + r.toNat * 0x4000 + o.toNat < 2 ^ 31
  omega

theorem bdiv (r : BitVec 6) (o : BitVec 14) (lit : Word) : Statement (.bdiv r o lit) := by
  have h0 := r.isLt
  have h1 := o.isLt
  show 0x39400000 + r.toNat * 0x4000 + o.toNat < 2 ^ 31
  omega

theorem join : Statement (.join) := by
  show 0x3A000000 < 2 ^ 31
  decide

theorem call (o : BitVec 22) : Statement (.call o) := by
  have h0 := o.isLt
  show 0x3B000000 + o.toNat < 2 ^ 31
  omega

theorem calli (a : Src) : Statement (.calli a) := by
  have h0 := a.code_lt
  show 0x3B800000 + a.code < 2 ^ 31
  omega

theorem ret : Statement (.ret) := by
  show 0x3C000000 < 2 ^ 31
  decide

theorem bri (a : Src) : Statement (.bri a) := by
  have h0 := a.code_lt
  show 0x3C800000 + a.code < 2 ^ 31
  omega

theorem exit : Statement (.exit) := by
  show 0x3D000000 < 2 ^ 31
  decide

theorem nop : Statement (.nop) := by
  show 0x3E000000 < 2 ^ 31
  decide

theorem yield : Statement (.yield) := by
  show 0x3E800000 < 2 ^ 31
  decide

theorem barSync : Statement (.barSync) := by
  show 0x40000000 < 2 ^ 31
  decide

theorem barArrive : Statement (.barArrive) := by
  show 0x40800000 < 2 ^ 31
  decide

theorem cbar : Statement (.cbar) := by
  show 0x41000000 < 2 ^ 31
  decide

theorem gbar : Statement (.gbar) := by
  show 0x41800000 < 2 ^ 31
  decide

theorem mbinit (l : BitVec 1) (n : Src) (a : Src) : Statement (.mbinit l n a) := by
  have h0 := l.isLt
  have h1 := n.code_lt
  have h2 := a.code_lt
  show 0x42000000 + l.toNat * 0x400000 + n.code * 0x100 + a.code < 2 ^ 31
  omega

theorem mbarr (l : BitVec 1) (n : Src) (a : Src) : Statement (.mbarr l n a) := by
  have h0 := l.isLt
  have h1 := n.code_lt
  have h2 := a.code_lt
  show 0x43000000 + l.toNat * 0x400000 + n.code * 0x100 + a.code < 2 ^ 31
  omega

theorem mbarx (l : BitVec 1) (n : Src) (a : Src) : Statement (.mbarx l n a) := by
  have h0 := l.isLt
  have h1 := n.code_lt
  have h2 := a.code_lt
  show 0x43800000 + l.toNat * 0x400000 + n.code * 0x100 + a.code < 2 ^ 31
  omega

theorem mbwait (l : BitVec 1) (p : Src) (a : Src) : Statement (.mbwait l p a) := by
  have h0 := l.isLt
  have h1 := p.code_lt
  have h2 := a.code_lt
  show 0x44000000 + l.toNat * 0x400000 + p.code * 0x100 + a.code < 2 ^ 31
  omega

theorem mbtest (l : BitVec 1) (d : BitVec 6) (p : Src) (a : Src) : Statement (.mbtest l d p a) := by
  have h0 := l.isLt
  have h1 := d.isLt
  have h2 := p.code_lt
  have h3 := a.code_lt
  show 0x44800000 + l.toNat * 0x400000 + d.toNat * 0x10000 + p.code * 0x100 + a.code < 2 ^ 31
  omega

theorem waitc (v : BitVec 1) (w : BitVec 1) (s : BitVec 1) (g : BitVec 1) (t : Src) :
    Statement (.waitc v w s g t) := by
  have h0 := v.isLt
  have h1 := w.isLt
  have h2 := s.isLt
  have h3 := g.isLt
  have h4 := t.code_lt
  show 0x45000000 + v.toNat * 0x80000 + w.toNat * 0x40000 + s.toNat * 0x20000 + g.toNat * 0x10000 + t.code < 2 ^ 31
  omega

theorem fence (o : BitVec 2) (s : BitVec 3) : Statement (.fence o s) := by
  have h0 := o.isLt
  have h1 := s.isLt
  show 0x46000000 + o.toNat * 0x200000 + s.toNat * 0x40000 < 2 ^ 31
  omega

theorem qwait (d : BitVec 6) (q : Src) : Statement (.qwait d q) := by
  have h0 := d.isLt
  have h1 := q.code_lt
  show 0x47000000 + d.toNat * 0x10000 + q.code < 2 ^ 31
  omega

theorem vld (o : BitVec 2) (s : BitVec 3) (w : BitVec 3) (d : Src) (a : Src) : Statement (.vld o s w d a) := by
  have h0 := o.isLt
  have h1 := s.isLt
  have h2 := w.isLt
  have h3 := d.code_lt
  have h4 := a.code_lt
  show 0x48000000 + o.toNat * 0x400000 + s.toNat * 0x80000 + w.toNat * 0x10000 + d.code * 0x100 + a.code < 2 ^ 31
  omega

theorem vldo (o : BitVec 2) (s : BitVec 3) (w : BitVec 3) (d : Src) (a : Src) (lit : Word) :
    Statement (.vldo o s w d a lit) := by
  have h0 := o.isLt
  have h1 := s.isLt
  have h2 := w.isLt
  have h3 := d.code_lt
  have h4 := a.code_lt
  show 0x49000000 + o.toNat * 0x400000 + s.toNat * 0x80000 + w.toNat * 0x10000 + d.code * 0x100 + a.code < 2 ^ 31
  omega

theorem vst (o : BitVec 2) (s : BitVec 3) (w : BitVec 3) (d : Src) (a : Src) : Statement (.vst o s w d a) := by
  have h0 := o.isLt
  have h1 := s.isLt
  have h2 := w.isLt
  have h3 := d.code_lt
  have h4 := a.code_lt
  show 0x4A000000 + o.toNat * 0x400000 + s.toNat * 0x80000 + w.toNat * 0x10000 + d.code * 0x100 + a.code < 2 ^ 31
  omega

theorem vsto (o : BitVec 2) (s : BitVec 3) (w : BitVec 3) (d : Src) (a : Src) (lit : Word) :
    Statement (.vsto o s w d a lit) := by
  have h0 := o.isLt
  have h1 := s.isLt
  have h2 := w.isLt
  have h3 := d.code_lt
  have h4 := a.code_lt
  show 0x4B000000 + o.toNat * 0x400000 + s.toNat * 0x80000 + w.toNat * 0x10000 + d.code * 0x100 + a.code < 2 ^ 31
  omega

theorem sld (o : BitVec 2) (s : BitVec 3) (w : BitVec 3) (d : Src) (a : Src) (lit : Word) :
    Statement (.sld o s w d a lit) := by
  have h0 := o.isLt
  have h1 := s.isLt
  have h2 := w.isLt
  have h3 := d.code_lt
  have h4 := a.code_lt
  show 0x4C000000 + o.toNat * 0x400000 + s.toNat * 0x80000 + w.toNat * 0x10000 + d.code * 0x100 + a.code < 2 ^ 31
  omega

theorem sst (o : BitVec 2) (s : BitVec 3) (w : BitVec 3) (d : Src) (a : Src) (lit : Word) :
    Statement (.sst o s w d a lit) := by
  have h0 := o.isLt
  have h1 := s.isLt
  have h2 := w.isLt
  have h3 := d.code_lt
  have h4 := a.code_lt
  show 0x4D000000 + o.toNat * 0x400000 + s.toNat * 0x80000 + w.toNat * 0x10000 + d.code * 0x100 + a.code < 2 ^ 31
  omega

theorem ldsp (o : BitVec 2) (s : BitVec 3) (w : BitVec 3) (d : Src) (a : Src) : Statement (.ldsp o s w d a) := by
  have h0 := o.isLt
  have h1 := s.isLt
  have h2 := w.isLt
  have h3 := d.code_lt
  have h4 := a.code_lt
  show 0x4E000000 + o.toNat * 0x400000 + s.toNat * 0x80000 + w.toNat * 0x10000 + d.code * 0x100 + a.code < 2 ^ 31
  omega

theorem stsp (o : BitVec 2) (s : BitVec 3) (w : BitVec 3) (d : Src) (a : Src) : Statement (.stsp o s w d a) := by
  have h0 := o.isLt
  have h1 := s.isLt
  have h2 := w.isLt
  have h3 := d.code_lt
  have h4 := a.code_lt
  show 0x4F000000 + o.toNat * 0x400000 + s.toNat * 0x80000 + w.toNat * 0x10000 + d.code * 0x100 + a.code < 2 ^ 31
  omega

theorem vatom (o : BitVec 2) (s : BitVec 3) (w : BitVec 1) (f : BitVec 4) (d : BitVec 7) (p : BitVec 6) (n : BitVec 1) :
    Statement (.vatom o s w f d p n) := by
  have h0 := o.isLt
  have h1 := s.isLt
  have h2 := w.isLt
  have h3 := f.isLt
  have h4 := d.isLt
  have h5 := p.isLt
  have h6 := n.isLt
  show 0x50000000 + o.toNat * 0x400000 + s.toNat * 0x80000 + w.toNat * 0x40000 + f.toNat * 0x4000 + d.toNat * 0x80 + p.toNat * 0x2 + n.toNat < 2 ^ 31
  omega

theorem vcas (o : BitVec 2) (s : BitVec 3) (w : BitVec 1) (d : BitVec 7) (p : BitVec 6) :
    Statement (.vcas o s w d p) := by
  have h0 := o.isLt
  have h1 := s.isLt
  have h2 := w.isLt
  have h3 := d.isLt
  have h4 := p.isLt
  show 0x51000000 + o.toNat * 0x400000 + s.toNat * 0x80000 + w.toNat * 0x40000 + d.toNat * 0x80 + p.toNat * 0x2 < 2 ^ 31
  omega

theorem satom (o : BitVec 2) (s : BitVec 3) (w : BitVec 1) (f : BitVec 4) (d : BitVec 6) (p : BitVec 6) (n : BitVec 1) :
    Statement (.satom o s w f d p n) := by
  have h0 := o.isLt
  have h1 := s.isLt
  have h2 := w.isLt
  have h3 := f.isLt
  have h4 := d.isLt
  have h5 := p.isLt
  have h6 := n.isLt
  show 0x52000000 + o.toNat * 0x400000 + s.toNat * 0x80000 + w.toNat * 0x40000 + f.toNat * 0x4000 + d.toNat * 0x80 + p.toNat * 0x2 + n.toNat < 2 ^ 31
  omega

theorem scas (o : BitVec 2) (s : BitVec 3) (w : BitVec 1) (d : BitVec 6) (p : BitVec 6) :
    Statement (.scas o s w d p) := by
  have h0 := o.isLt
  have h1 := s.isLt
  have h2 := w.isLt
  have h3 := d.isLt
  have h4 := p.isLt
  show 0x53000000 + o.toNat * 0x400000 + s.toNat * 0x80000 + w.toNat * 0x40000 + d.toNat * 0x80 + p.toNat * 0x2 < 2 ^ 31
  omega

theorem ldcl (o : BitVec 2) (s : BitVec 3) (w : BitVec 3) (d : Src) (a : Src) : Statement (.ldcl o s w d a) := by
  have h0 := o.isLt
  have h1 := s.isLt
  have h2 := w.isLt
  have h3 := d.code_lt
  have h4 := a.code_lt
  show 0x54000000 + o.toNat * 0x400000 + s.toNat * 0x80000 + w.toNat * 0x10000 + d.code * 0x100 + a.code < 2 ^ 31
  omega

theorem stcl (o : BitVec 2) (s : BitVec 3) (w : BitVec 3) (d : Src) (a : Src) : Statement (.stcl o s w d a) := by
  have h0 := o.isLt
  have h1 := s.isLt
  have h2 := w.isLt
  have h3 := d.code_lt
  have h4 := a.code_lt
  show 0x55000000 + o.toNat * 0x400000 + s.toNat * 0x80000 + w.toNat * 0x10000 + d.code * 0x100 + a.code < 2 ^ 31
  omega

theorem sptest (d : BitVec 7) (a : Src) : Statement (.sptest d a) := by
  have h0 := d.isLt
  have h1 := a.code_lt
  show 0x56000000 + d.toNat * 0x10000 + a.code * 0x100 < 2 ^ 31
  omega

theorem spcast (d : BitVec 7) (a : Src) (m : BitVec 8) : Statement (.spcast d a m) := by
  have h0 := d.isLt
  have h1 := a.code_lt
  have h2 := m.isLt
  show 0x56800000 + d.toNat * 0x10000 + a.code * 0x100 + m.toNat < 2 ^ 31
  omega

theorem cachePf (l : Src) (a : Src) : Statement (.cachePf l a) := by
  have h0 := l.code_lt
  have h1 := a.code_lt
  show 0x57000000 + l.code * 0x100 + a.code < 2 ^ 31
  omega

theorem cacheWb (l : Src) (a : Src) : Statement (.cacheWb l a) := by
  have h0 := l.code_lt
  have h1 := a.code_lt
  show 0x57100000 + l.code * 0x100 + a.code < 2 ^ 31
  omega

theorem cacheInv (l : Src) (a : Src) : Statement (.cacheInv l a) := by
  have h0 := l.code_lt
  have h1 := a.code_lt
  show 0x57200000 + l.code * 0x100 + a.code < 2 ^ 31
  omega

theorem cacheWbinv (l : Src) (a : Src) : Statement (.cacheWbinv l a) := by
  have h0 := l.code_lt
  have h1 := a.code_lt
  show 0x57300000 + l.code * 0x100 + a.code < 2 ^ 31
  omega

theorem ldlv (d : BitVec 7) (t : Src) (a : Src) : Statement (.ldlv d t a) := by
  have h0 := d.isLt
  have h1 := t.code_lt
  have h2 := a.code_lt
  show 0x58000000 + d.toNat * 0x10000 + t.code * 0x100 + a.code < 2 ^ 31
  omega

theorem cmst (o : BitVec 2) (s : BitVec 3) (t : Src) (d : Src) : Statement (.cmst o s t d) := by
  have h0 := o.isLt
  have h1 := s.isLt
  have h2 := t.code_lt
  have h3 := d.code_lt
  show 0x58800000 + o.toNat * 0x200000 + s.toNat * 0x40000 + t.code * 0x100 + d.code < 2 ^ 31
  omega

theorem bopen (d : Src) : Statement (.bopen d) := by
  have h0 := d.code_lt
  show 0x59000000 + d.code < 2 ^ 31
  omega

theorem bclose (o : BitVec 2) (s : BitVec 3) (t : Src) : Statement (.bclose o s t) := by
  have h0 := o.isLt
  have h1 := s.isLt
  have h2 := t.code_lt
  show 0x59800000 + o.toNat * 0x200000 + s.toNat * 0x40000 + t.code * 0x100 < 2 ^ 31
  omega

theorem vstb (w : BitVec 3) (d : Src) (a : Src) : Statement (.vstb w d a) := by
  have h0 := w.isLt
  have h1 := d.code_lt
  have h2 := a.code_lt
  show 0x5A000000 + w.toNat * 0x10000 + d.code * 0x100 + a.code < 2 ^ 31
  omega

theorem vopen : Statement (.vopen) := by
  show 0x5B000000 < 2 ^ 31
  decide

theorem vclose (s : Src) : Statement (.vclose s) := by
  have h0 := s.code_lt
  show 0x5B800000 + s.code * 0x100 < 2 ^ 31
  omega

theorem vldv (o : BitVec 2) (s : BitVec 3) (w : BitVec 3) (d : Src) (a : Src) : Statement (.vldv o s w d a) := by
  have h0 := o.isLt
  have h1 := s.isLt
  have h2 := w.isLt
  have h3 := d.code_lt
  have h4 := a.code_lt
  show 0x5C000000 + o.toNat * 0x400000 + s.toNat * 0x80000 + w.toNat * 0x10000 + d.code * 0x100 + a.code < 2 ^ 31
  omega

theorem tcopy (a : BitVec 6) (b : BitVec 6) (d : BitVec 6) (t : BitVec 1) : Statement (.tcopy a b d t) := by
  have h0 := a.isLt
  have h1 := b.isLt
  have h2 := d.isLt
  have h3 := t.isLt
  show 0x60000000 + a.toNat * 0x4000 + b.toNat * 0x100 + d.toNat * 0x4 + t.toNat < 2 ^ 31
  omega

theorem tcopyo (a : BitVec 6) (b : BitVec 6) (d : BitVec 6) (t : BitVec 1) : Statement (.tcopyo a b d t) := by
  have h0 := a.isLt
  have h1 := b.isLt
  have h2 := d.isLt
  have h3 := t.isLt
  show 0x61000000 + a.toNat * 0x4000 + b.toNat * 0x100 + d.toNat * 0x4 + t.toNat < 2 ^ 31
  omega

theorem tgather (a : BitVec 6) (b : BitVec 6) (d : BitVec 6) (t : BitVec 1) : Statement (.tgather a b d t) := by
  have h0 := a.isLt
  have h1 := b.isLt
  have h2 := d.isLt
  have h3 := t.isLt
  show 0x62000000 + a.toNat * 0x4000 + b.toNat * 0x100 + d.toNat * 0x4 + t.toNat < 2 ^ 31
  omega

theorem tcow (a : BitVec 6) (b : BitVec 6) (d : BitVec 6) (t : BitVec 1) : Statement (.tcow a b d t) := by
  have h0 := a.isLt
  have h1 := b.isLt
  have h2 := d.isLt
  have h3 := t.isLt
  show 0x63000000 + a.toNat * 0x4000 + b.toNat * 0x100 + d.toNat * 0x4 + t.toNat < 2 ^ 31
  omega

theorem cstep (p : BitVec 1) (s : BitVec 2) (a : BitVec 6) (b : BitVec 6) (d : BitVec 6) (t : BitVec 1) :
    Statement (.cstep p s a b d t) := by
  have h0 := p.isLt
  have h1 := s.isLt
  have h2 := a.isLt
  have h3 := b.isLt
  have h4 := d.isLt
  have h5 := t.isLt
  show 0x64000000 + p.toNat * 0x400000 + s.toNat * 0x100000 + a.toNat * 0x4000 + b.toNat * 0x100 + d.toNat * 0x4 + t.toNat < 2 ^ 31
  omega

theorem spalloc (d : BitVec 6) (s : BitVec 6) (l : BitVec 6) (x : BitVec 1) : Statement (.spalloc d s l x) := by
  have h0 := d.isLt
  have h1 := s.isLt
  have h2 := l.isLt
  have h3 := x.isLt
  show 0x65000000 + d.toNat * 0x4000 + s.toNat * 0x100 + l.toNat * 0x4 + x.toNat < 2 ^ 31
  omega

theorem spfree (o : BitVec 6) : Statement (.spfree o) := by
  have h0 := o.isLt
  show 0x65800000 + o.toNat * 0x4000 < 2 ^ 31
  omega

theorem sprenew (o : BitVec 6) (l : BitVec 6) : Statement (.sprenew o l) := by
  have h0 := o.isLt
  have h1 := l.isLt
  show 0x66000000 + o.toNat * 0x4000 + l.toNat * 0x100 < 2 ^ 31
  omega

theorem spstat (d : BitVec 6) (o : BitVec 6) : Statement (.spstat d o) := by
  have h0 := d.isLt
  have h1 := o.isLt
  show 0x66800000 + d.toNat * 0x4000 + o.toNat * 0x100 < 2 ^ 31
  omega

theorem crpush (o : BitVec 6) (q : BitVec 6) (s : BitVec 6) : Statement (.crpush o q s) := by
  have h0 := o.isLt
  have h1 := q.isLt
  have h2 := s.isLt
  show 0x67000000 + o.toNat * 0x4000 + q.toNat * 0x100 + s.toNat * 0x4 < 2 ^ 31
  omega

theorem jdec (p : BitVec 6) (n : BitVec 6) (d : BitVec 6) : Statement (.jdec p n d) := by
  have h0 := p.isLt
  have h1 := n.isLt
  have h2 := d.isLt
  show 0x67800000 + p.toNat * 0x4000 + n.toNat * 0x100 + d.toNat * 0x4 < 2 ^ 31
  omega

theorem mma (a : BitVec 3) (n : BitVec 1) (p : BitVec 1) (x : BitVec 6) (y : BitVec 6) (k : BitVec 6) :
    Statement (.mma a n p x y k) := by
  have h0 := a.isLt
  have h1 := n.isLt
  have h2 := p.isLt
  have h3 := x.isLt
  have h4 := y.isLt
  have h5 := k.isLt
  show 0x70000000 + a.toNat * 0x200000 + n.toNat * 0x80000 + p.toNat * 0x40000 + x.toNat * 0x1000 + y.toNat * 0x40 + k.toNat < 2 ^ 31
  omega

theorem mmasp (a : BitVec 3) (n : BitVec 1) (p : BitVec 1) (x : BitVec 6) (y : BitVec 6) (k : BitVec 6) :
    Statement (.mmasp a n p x y k) := by
  have h0 := a.isLt
  have h1 := n.isLt
  have h2 := p.isLt
  have h3 := x.isLt
  have h4 := y.isLt
  have h5 := k.isLt
  show 0x71000000 + a.toNat * 0x200000 + n.toNat * 0x80000 + p.toNat * 0x40000 + x.toNat * 0x1000 + y.toNat * 0x40 + k.toNat < 2 ^ 31
  omega

theorem acld (a : BitVec 3) (o : Src) (b : Src) : Statement (.acld a o b) := by
  have h0 := a.isLt
  have h1 := o.code_lt
  have h2 := b.code_lt
  show 0x72000000 + a.toNat * 0x100000 + o.code * 0x100 + b.code < 2 ^ 31
  omega

theorem acst (a : BitVec 3) (o : Src) (b : Src) : Statement (.acst a o b) := by
  have h0 := a.isLt
  have h1 := o.code_lt
  have h2 := b.code_lt
  show 0x72800000 + a.toNat * 0x100000 + o.code * 0x100 + b.code < 2 ^ 31
  omega

theorem acrd (a : BitVec 3) (v : BitVec 8) (k : Src) : Statement (.acrd a v k) := by
  have h0 := a.isLt
  have h1 := v.isLt
  have h2 := k.code_lt
  show 0x73000000 + a.toNat * 0x100000 + v.toNat * 0x100 + k.code < 2 ^ 31
  omega

theorem acwr (a : BitVec 3) (v : BitVec 8) (k : Src) : Statement (.acwr a v k) := by
  have h0 := a.isLt
  have h1 := v.isLt
  have h2 := k.code_lt
  show 0x73800000 + a.toNat * 0x100000 + v.toNat * 0x100 + k.code < 2 ^ 31
  omega

theorem ftupd (t : BitVec 1) (v : Src) : Statement (.ftupd t v) := by
  have h0 := t.isLt
  have h1 := v.code_lt
  show 0x74000000 + t.toNat * 0x400000 + v.code * 0x100 < 2 ^ 31
  omega

theorem ftdnd (t : BitVec 1) (v : Src) : Statement (.ftdnd t v) := by
  have h0 := t.isLt
  have h1 := v.code_lt
  show 0x74800000 + t.toNat * 0x400000 + v.code * 0x100 < 2 ^ 31
  omega

theorem ftslvf (t : BitVec 1) (v : Src) (o : Src) : Statement (.ftslvf t v o) := by
  have h0 := t.isLt
  have h1 := v.code_lt
  have h2 := o.code_lt
  show 0x75000000 + t.toNat * 0x400000 + v.code * 0x100 + o.code < 2 ^ 31
  omega

theorem ftslvb (t : BitVec 1) (v : Src) (o : Src) : Statement (.ftslvb t v o) := by
  have h0 := t.isLt
  have h1 := v.code_lt
  have h2 := o.code_lt
  show 0x75800000 + t.toNat * 0x400000 + v.code * 0x100 + o.code < 2 ^ 31
  omega

theorem ftld (t : BitVec 1) (v : Src) (o : Src) : Statement (.ftld t v o) := by
  have h0 := t.isLt
  have h1 := v.code_lt
  have h2 := o.code_lt
  show 0x76000000 + t.toNat * 0x400000 + v.code * 0x100 + o.code < 2 ^ 31
  omega

theorem ftst (t : BitVec 1) (v : Src) (o : Src) : Statement (.ftst t v o) := by
  have h0 := t.isLt
  have h1 := v.code_lt
  have h2 := o.code_lt
  show 0x76800000 + t.toNat * 0x400000 + v.code * 0x100 + o.code < 2 ^ 31
  omega

theorem ftinit (t : BitVec 1) (v : Src) (o : Src) : Statement (.ftinit t v o) := by
  have h0 := t.isLt
  have h1 := v.code_lt
  have h2 := o.code_lt
  show 0x77000000 + t.toNat * 0x400000 + v.code * 0x100 + o.code < 2 ^ 31
  omega

theorem ftrow (t : BitVec 1) (v : Src) (o : Src) : Statement (.ftrow t v o) := by
  have h0 := t.isLt
  have h1 := v.code_lt
  have h2 := o.code_lt
  show 0x77800000 + t.toNat * 0x400000 + v.code * 0x100 + o.code < 2 ^ 31
  omega

theorem trap (k : Src) : Statement (.trap k) := by
  have h0 := k.code_lt
  show 0x78000000 + k.code < 2 ^ 31
  omega

theorem brk : Statement (.brk) := by
  show 0x78800000 < 2 ^ 31
  decide

theorem sret (f : Src) (s : Src) : Statement (.sret f s) := by
  have h0 := f.code_lt
  have h1 := s.code_lt
  show 0x79000000 + f.code * 0x100 + s.code < 2 ^ 31
  omega

theorem skill : Statement (.skill) := by
  show 0x79800000 < 2 ^ 31
  decide

theorem xrd (s : BitVec 6) (l : Src) (i : Src) : Statement (.xrd s l i) := by
  have h0 := s.isLt
  have h1 := l.code_lt
  have h2 := i.code_lt
  show 0x7A000000 + s.toNat * 0x10000 + l.code * 0x100 + i.code < 2 ^ 31
  omega

theorem xwr (s : BitVec 6) (l : Src) (i : Src) : Statement (.xwr s l i) := by
  have h0 := s.isLt
  have h1 := l.code_lt
  have h2 := i.code_lt
  show 0x7A800000 + s.toNat * 0x10000 + l.code * 0x100 + i.code < 2 ^ 31
  omega

theorem csrr (s : BitVec 6) (n : BitVec 8) : Statement (.csrr s n) := by
  have h0 := s.isLt
  have h1 := n.isLt
  show 0x7B000000 + s.toNat * 0x10000 + n.toNat < 2 ^ 31
  omega

theorem csrw (s : BitVec 6) (n : BitVec 8) : Statement (.csrw s n) := by
  have h0 := s.isLt
  have h1 := n.isLt
  show 0x7B800000 + s.toNat * 0x10000 + n.toNat < 2 ^ 31
  omega

theorem tlbiAll : Statement (.tlbiAll) := by
  show 0x7C000000 < 2 ^ 31
  decide

theorem tlbiRegion (r : Src) : Statement (.tlbiRegion r) := by
  have h0 := r.code_lt
  show 0x7C100000 + r.code * 0x100 < 2 ^ 31
  omega

theorem tlbiPage (z : BitVec 2) (r : Src) (a : Src) : Statement (.tlbiPage z r a) := by
  have h0 := z.isLt
  have h1 := r.code_lt
  have h2 := a.code_lt
  show 0x7C200000 + z.toNat * 0x40000 + r.code * 0x100 + a.code < 2 ^ 31
  omega

theorem tlbiPageall (z : BitVec 2) (a : Src) : Statement (.tlbiPageall z a) := by
  have h0 := z.isLt
  have h1 := a.code_lt
  show 0x7C300000 + z.toNat * 0x40000 + a.code < 2 ^ 31
  omega

theorem vpfx (m : BitVec 6) (z : BitVec 1) (r : BitVec 3) (o : Src) : Statement (.vpfx m z r o) := by
  have h0 := m.isLt
  have h1 := z.isLt
  have h2 := r.isLt
  have h3 := o.code_lt
  show 0x7E000000 + m.toNat * 0x40000 + z.toNat * 0x20000 + r.toNat * 0x4000 + o.code * 0x40 < 2 ^ 31
  omega

theorem dpair (p : BitVec 1) (a : BitVec 10) (b : BitVec 10) : Statement (.dpair p a b) := by
  have h0 := p.isLt
  have h1 := a.isLt
  have h2 := b.isLt
  show 0x7F000000 + p.toNat * 0x800000 + a.toNat * 0x1000 + b.toNat < 2 ^ 31
  omega

theorem dictionaryLoad (blk : Nat) : Statement (.dictionaryLoad blk) := by
  show (0 : Nat) < 2 ^ 31
  decide

theorem loadDataReturn (fl : Nat) : Statement (.loadDataReturn fl) := by
  show (0 : Nat) < 2 ^ 31
  decide

theorem storeAck (fl : Nat) : Statement (.storeAck fl) := by
  show (0 : Nat) < 2 ^ 31
  decide

theorem releaseProceed (fl : Nat) : Statement (.releaseProceed fl) := by
  show (0 : Nat) < 2 ^ 31
  decide

theorem sfuResultWrite (core : Nat) : Statement (.sfuResultWrite core) := by
  show (0 : Nat) < 2 ^ 31
  decide

theorem tlbMissWalk (fl : Nat) (req : Nat) : Statement (.tlbMissWalk fl req) := by
  show (0 : Nat) < 2 ^ 31
  decide

theorem walkComplete (walk : Nat) : Statement (.walkComplete walk) := by
  show (0 : Nat) < 2 ^ 31
  decide

theorem tlbiAck (fl : Nat) : Statement (.tlbiAck fl) := by
  show (0 : Nat) < 2 ^ 31
  decide

theorem homeLoadMissCore (fl : Nat) (req : Nat) : Statement (.homeLoadMissCore fl req) := by
  show (0 : Nat) < 2 ^ 31
  decide

theorem homeLoadMissRemote (fl : Nat) (req : Nat) : Statement (.homeLoadMissRemote fl req) := by
  show (0 : Nat) < 2 ^ 31
  decide

theorem homeOwnershipMiss (fl : Nat) (req : Nat) : Statement (.homeOwnershipMiss fl req) := by
  show (0 : Nat) < 2 ^ 31
  decide

theorem homeRemoteWrite (fl : Nat) (req : Nat) : Statement (.homeRemoteWrite fl req) := by
  show (0 : Nat) < 2 ^ 31
  decide

theorem homeAtomic (fl : Nat) (req : Nat) : Statement (.homeAtomic fl req) := by
  show (0 : Nat) < 2 ^ 31
  decide

theorem homeCarryRequest (fl : Nat) (req : Nat) : Statement (.homeCarryRequest fl req) := by
  show (0 : Nat) < 2 ^ 31
  decide

theorem carryCollect (isDie : Bool) (agent : Nat) (line : Nat) : Statement (.carryCollect isDie agent line) := by
  show (0 : Nat) < 2 ^ 31
  decide

theorem forward (core : Nat) (line : Nat) (toI : Bool) : Statement (.forward core line toI) := by
  show (0 : Nat) < 2 ^ 31
  decide

theorem invalidation (core : Nat) (line : Nat) : Statement (.invalidation core line) := by
  show (0 : Nat) < 2 ^ 31
  decide

theorem leaseRevocation (die : Nat) (line : Nat) : Statement (.leaseRevocation die line) := by
  show (0 : Nat) < 2 ^ 31
  decide

theorem redirect (fl : Nat) (req : Nat) : Statement (.redirect fl req) := by
  show (0 : Nat) < 2 ^ 31
  decide

theorem drainRequest (core : Nat) (fl : Nat) : Statement (.drainRequest core fl) := by
  show (0 : Nat) < 2 ^ 31
  decide

theorem ldlvAtHome (fl : Nat) : Statement (.ldlvAtHome fl) := by
  show (0 : Nat) < 2 ^ 31
  decide

theorem cmstAtHome (fl : Nat) : Statement (.cmstAtHome fl) := by
  show (0 : Nat) < 2 ^ 31
  decide

theorem bundleStaging (fl : Nat) (req : Nat) : Statement (.bundleStaging fl req) := by
  show (0 : Nat) < 2 ^ 31
  decide

theorem stagingAnswer (fl : Nat) (req : Nat) : Statement (.stagingAnswer fl req) := by
  show (0 : Nat) < 2 ^ 31
  decide

theorem commitRequest (die : Nat) (idx : Nat) : Statement (.commitRequest die idx) := by
  show (0 : Nat) < 2 ^ 31
  decide

theorem commitAnswer (fl : Nat) : Statement (.commitAnswer fl) := by
  show (0 : Nat) < 2 ^ 31
  decide

theorem promotionNotice (die : Nat) (idx : Nat) (line : Nat) : Statement (.promotionNotice die idx line) := by
  show (0 : Nat) < 2 ^ 31
  decide

theorem discardNotice (die : Nat) (idx : Nat) (line : Nat) : Statement (.discardNotice die idx line) := by
  show (0 : Nat) < 2 ^ 31
  decide

theorem forgetNotice (die : Nat) (idx : Nat) (line : Nat) : Statement (.forgetNotice die idx line) := by
  show (0 : Nat) < 2 ^ 31
  decide

theorem noticeAck (die : Nat) (idx : Nat) (lend : Nat) : Statement (.noticeAck die idx lend) := by
  show (0 : Nat) < 2 ^ 31
  decide

theorem bcloseComplete (fl : Nat) : Statement (.bcloseComplete fl) := by
  show (0 : Nat) < 2 ^ 31
  decide

theorem viewConsume (fl : Nat) (req : Nat) : Statement (.viewConsume fl req) := by
  show (0 : Nat) < 2 ^ 31
  decide

theorem cstepReserve (op : Nat) : Statement (.cstepReserve op) := by
  show (0 : Nat) < 2 ^ 31
  decide

theorem cstepDeliver (op : Nat) (target : Nat) (line : Nat) : Statement (.cstepDeliver op target line) := by
  show (0 : Nat) < 2 ^ 31
  decide

theorem cstepLineAck (op : Nat) (target : Nat) (lend : Nat) : Statement (.cstepLineAck op target lend) := by
  show (0 : Nat) < 2 ^ 31
  decide

theorem copyOpStart (op : Nat) : Statement (.copyOpStart op) := by
  show (0 : Nat) < 2 ^ 31
  decide

theorem copyLineComplete (op : Nat) (unit : Nat) : Statement (.copyLineComplete op unit) := by
  show (0 : Nat) < 2 ^ 31
  decide

theorem tcowStep (op : Nat) : Statement (.tcowStep op) := by
  show (0 : Nat) < 2 ^ 31
  decide

theorem barrierObjectCountdown (core : Nat) (off : Nat) (bytes : Nat) :
    Statement (.barrierObjectCountdown core off bytes) := by
  show (0 : Nat) < 2 ^ 31
  decide

theorem matrixOpStart (core : Nat) : Statement (.matrixOpStart core) := by
  show (0 : Nat) < 2 ^ 31
  decide

theorem kgroupBoundary (core : Nat) : Statement (.kgroupBoundary core) := by
  show (0 : Nat) < 2 ^ 31
  decide

theorem matrixOpRetire (core : Nat) : Statement (.matrixOpRetire core) := by
  show (0 : Nat) < 2 ^ 31
  decide

theorem factorOpStart (blk : Nat) (tile : Nat) : Statement (.factorOpStart blk tile) := by
  show (0 : Nat) < 2 ^ 31
  decide

theorem factorOpComplete (blk : Nat) (tile : Nat) : Statement (.factorOpComplete blk tile) := by
  show (0 : Nat) < 2 ^ 31
  decide

theorem putSlotContribution (core : Nat) (slot : Nat) : Statement (.putSlotContribution core slot) := by
  show (0 : Nat) < 2 ^ 31
  decide

theorem putSlotAnswer (core : Nat) (slot : Nat) : Statement (.putSlotAnswer core slot) := by
  show (0 : Nat) < 2 ^ 31
  decide

theorem barrierArrival (core : Nat) (slot : Nat) : Statement (.barrierArrival core slot) := by
  show (0 : Nat) < 2 ^ 31
  decide

theorem gReplicaUpdate (grid : Nat) (die : Nat) : Statement (.gReplicaUpdate grid die) := by
  show (0 : Nat) < 2 ^ 31
  decide

theorem xchgMatch (x : Nat) (y : Nat) : Statement (.xchgMatch x y) := by
  show (0 : Nat) < 2 ^ 31
  decide

theorem warpRetire (core : Nat) (slot : Nat) : Statement (.warpRetire core slot) := by
  show (0 : Nat) < 2 ^ 31
  decide

theorem siblingHaltStop (core : Nat) (slot : Nat) (skid : Nat) : Statement (.siblingHaltStop core slot skid) := by
  show (0 : Nat) < 2 ^ 31
  decide

theorem trapWarpEntry (core : Nat) : Statement (.trapWarpEntry core) := by
  show (0 : Nat) < 2 ^ 31
  decide

theorem evictionProceed (core : Nat) : Statement (.evictionProceed core) := by
  show (0 : Nat) < 2 ^ 31
  decide

theorem evictionSave (core : Nat) : Statement (.evictionSave core) := by
  show (0 : Nat) < 2 ^ 31
  decide

theorem evictionReleaseDone (blk : Nat) : Statement (.evictionReleaseDone blk) := by
  show (0 : Nat) < 2 ^ 31
  decide

theorem pidxNotice (die : Nat) (region : Nat) (q : Nat) : Statement (.pidxNotice die region q) := by
  show (0 : Nat) < 2 ^ 31
  decide

theorem recordTake (die : Nat) (region : Nat) (q : Nat) : Statement (.recordTake die region q) := by
  show (0 : Nat) < 2 ^ 31
  decide

theorem blockRetire (blk : Nat) : Statement (.blockRetire blk) := by
  show (0 : Nat) < 2 ^ 31
  decide

theorem joinContribution (rec : Nat) : Statement (.joinContribution rec) := by
  show (0 : Nat) < 2 ^ 31
  decide

theorem successorPush (push : Nat) : Statement (.successorPush push) := by
  show (0 : Nat) < 2 ^ 31
  decide

theorem qwaitServe (core : Nat) (slot : Nat) : Statement (.qwaitServe core slot) := by
  show (0 : Nat) < 2 ^ 31
  decide

theorem crpushAtEngine (core : Nat) (slot : Nat) : Statement (.crpushAtEngine core slot) := by
  show (0 : Nat) < 2 ^ 31
  decide

theorem jdecAtHome (core : Nat) (slot : Nat) : Statement (.jdecAtHome core slot) := by
  show (0 : Nat) < 2 ^ 31
  decide

theorem regionActivationDone (die : Nat) (region : Nat) : Statement (.regionActivationDone die region) := by
  show (0 : Nat) < 2 ^ 31
  decide

theorem domDrainComplete (die : Nat) (n : Nat) : Statement (.domDrainComplete die n) := by
  show (0 : Nat) < 2 ^ 31
  decide

theorem partShareDone (die : Nat) (part : Nat) : Statement (.partShareDone die part) := by
  show (0 : Nat) < 2 ^ 31
  decide

theorem scrubComplete (die : Nat) : Statement (.scrubComplete die) := by
  show (0 : Nat) < 2 ^ 31
  decide

theorem instructionFetch (core : Nat) (slot : Nat) : Statement (.instructionFetch core slot) := by
  show (0 : Nat) < 2 ^ 31
  decide

theorem heldLeafRewalk (walk : Nat) : Statement (.heldLeafRewalk walk) := by
  show (0 : Nat) < 2 ^ 31
  decide

theorem homeWriteback (holder : Bool × Nat) (line : Nat) : Statement (.homeWriteback holder line) := by
  show (0 : Nat) < 2 ^ 31
  decide

theorem directoryMerge (base : Nat) (log : Nat) : Statement (.directoryMerge base log) := by
  show (0 : Nat) < 2 ^ 31
  decide

theorem leaseEndClear (base : Nat) (log : Nat) : Statement (.leaseEndClear base log) := by
  show (0 : Nat) < 2 ^ 31
  decide

theorem staleMessageDiscard (kind : Nat) (agent : Nat) (inc : Nat) (line : Nat) :
    Statement (.staleMessageDiscard kind agent inc line) := by
  show (0 : Nat) < 2 ^ 31
  decide

theorem promotionDelayExpiry (die : Nat) (idx : Nat) (line : Nat) :
    Statement (.promotionDelayExpiry die idx line) := by
  show (0 : Nat) < 2 ^ 31
  decide

theorem forgetHorizonExpiry (die : Nat) (idx : Nat) : Statement (.forgetHorizonExpiry die idx) := by
  show (0 : Nat) < 2 ^ 31
  decide

theorem gReplicaCopy (grid : Nat) (die : Nat) : Statement (.gReplicaCopy grid die) := by
  show (0 : Nat) < 2 ^ 31
  decide

theorem xchgTimeout (x : Nat) : Statement (.xchgTimeout x) := by
  show (0 : Nat) < 2 ^ 31
  decide

theorem waitcBlockingTimer (core : Nat) (slot : Nat) : Statement (.waitcBlockingTimer core slot) := by
  show (0 : Nat) < 2 ^ 31
  decide

theorem registerEccError (core : Nat) (slot : Nat) (scalar : Bool) (reg : Nat) (lane : Nat) (halves : Nat) :
    Statement (.registerEccError core slot scalar reg lane halves) := by
  show (0 : Nat) < 2 ^ 31
  decide

theorem breakpointTrigger (core : Nat) (slot : Nat) (n : Nat) : Statement (.breakpointTrigger core slot n) := by
  show (0 : Nat) < 2 ^ 31
  decide

theorem debugHalt (core : Nat) : Statement (.debugHalt core) := by
  show (0 : Nat) < 2 ^ 31
  decide

theorem preemptGo (core : Nat) (bslot : Nat) (park : Bool) : Statement (.preemptGo core bslot park) := by
  show (0 : Nat) < 2 ^ 31
  decide

theorem preemptCancel (core : Nat) : Statement (.preemptCancel core) := by
  show (0 : Nat) < 2 ^ 31
  decide

theorem landingSlotFill (fl : Nat) : Statement (.landingSlotFill fl) := by
  show (0 : Nat) < 2 ^ 31
  decide

theorem resumption (blk : Nat) (core : Nat) : Statement (.resumption blk core) := by
  show (0 : Nat) < 2 ^ 31
  decide

theorem sweeperRestore (core : Nat) (row : Nat) : Statement (.sweeperRestore core row) := by
  show (0 : Nat) < 2 ^ 31
  decide

theorem sweeperVisit (core : Nat) (row : Nat) : Statement (.sweeperVisit core row) := by
  show (0 : Nat) < 2 ^ 31
  decide

theorem spretChange (core : Nat) (ns : Nat) : Statement (.spretChange core ns) := by
  show (0 : Nat) < 2 ^ 31
  decide

theorem pidxPoll (die : Nat) : Statement (.pidxPoll die) := by
  show (0 : Nat) < 2 ^ 31
  decide

theorem blockPlacement (rec : Nat) (core : Nat) : Statement (.blockPlacement rec core) := by
  show (0 : Nat) < 2 ^ 31
  decide

theorem regionGo (die : Nat) (region : Nat) : Statement (.regionGo die region) := by
  show (0 : Nat) < 2 ^ 31
  decide

theorem regionStop (die : Nat) (region : Nat) : Statement (.regionStop die region) := by
  show (0 : Nat) < 2 ^ 31
  decide

theorem domMaskWrite (die : Nat) (n : Nat) (mask : Nat) : Statement (.domMaskWrite die n mask) := by
  show (0 : Nat) < 2 ^ 31
  decide

theorem domRangeWrite (die : Nat) (n : Nat) (limit : Bool) (value : Nat) :
    Statement (.domRangeWrite die n limit value) := by
  show (0 : Nat) < 2 ^ 31
  decide

theorem domQuiesce (die : Nat) (n : Nat) : Statement (.domQuiesce die n) := by
  show (0 : Nat) < 2 ^ 31
  decide

theorem domRelease (die : Nat) (n : Nat) : Statement (.domRelease die n) := by
  show (0 : Nat) < 2 ^ 31
  decide

theorem domEnable (die : Nat) (n : Nat) (en : Bool) : Statement (.domEnable die n en) := by
  show (0 : Nat) < 2 ^ 31
  decide

theorem partShareWrite (die : Nat) (part : Nat) (share : Nat) : Statement (.partShareWrite die part share) := by
  show (0 : Nat) < 2 ^ 31
  decide

theorem slicePowerOff (die : Nat) (slice : Nat) : Statement (.slicePowerOff die slice) := by
  show (0 : Nat) < 2 ^ 31
  decide

theorem slicePowerOn (die : Nat) (slice : Nat) : Statement (.slicePowerOn die slice) := by
  show (0 : Nat) < 2 ^ 31
  decide

theorem sliceOffComplete (die : Nat) (slice : Nat) : Statement (.sliceOffComplete die slice) := by
  show (0 : Nat) < 2 ^ 31
  decide

theorem corePowerOff (core : Nat) : Statement (.corePowerOff core) := by
  show (0 : Nat) < 2 ^ 31
  decide

theorem deadCore (die : Nat) (agent : Nat) : Statement (.deadCore die agent) := by
  show (0 : Nat) < 2 ^ 31
  decide

theorem deadSlice (die : Nat) (agent : Nat) : Statement (.deadSlice die agent) := by
  show (0 : Nat) < 2 ^ 31
  decide

theorem deadDie (die : Nat) (agent : Nat) : Statement (.deadDie die agent) := by
  show (0 : Nat) < 2 ^ 31
  decide

theorem bndlBaseWrite (die : Nat) (versions : Bool) (value : Nat) :
    Statement (.bndlBaseWrite die versions value) := by
  show (0 : Nat) < 2 ^ 31
  decide

theorem devIdWrite (die : Nat) (value : Nat) : Statement (.devIdWrite die value) := by
  show (0 : Nat) < 2 ^ 31
  decide

theorem configRegisterWrite (pa : Nat) (w64 : Bool) (value : Nat) :
    Statement (.configRegisterWrite pa w64 value) := by
  show (0 : Nat) < 2 ^ 31
  decide

theorem inboundMread (hd : Sender) (key : Nat) (pa : Nat) (n : Nat) : Statement (.inboundMread hd key pa n) := by
  show (0 : Nat) < 2 ^ 31
  decide

theorem inboundMwrite (hd : Sender) (key : Nat) (pa : Nat) (bytes : List Byte) :
    Statement (.inboundMwrite hd key pa bytes) := by
  show (0 : Nat) < 2 ^ 31
  decide

theorem inboundMatom (hd : Sender) (key : Nat) (pa : Nat) (fn : Nat) (w64 : Bool) (operand : Nat) :
    Statement (.inboundMatom hd key pa fn w64 operand) := by
  show (0 : Nat) < 2 ^ 31
  decide

theorem inboundBstage (hd : Sender) (key : Nat) (die : Nat) (idx : Nat) (line : Nat) (mask : Nat) (bytes : List Byte) (part : Nat) (ns : Bool) :
    Statement (.inboundBstage hd key die idx line mask bytes part ns) := by
  show (0 : Nat) < 2 ^ 31
  decide

theorem inboundBnote (hd : Sender) (kind : Nat) (key : Nat) (die : Nat) (idx : Nat) (line : Nat) :
    Statement (.inboundBnote hd kind key die idx line) := by
  show (0 : Nat) < 2 ^ 31
  decide

theorem inboundCarry (hd : Sender) (key : Nat) (req : CarryReq) (line : Nat) (bytes : List Byte) (part : Nat) (ns : Bool) :
    Statement (.inboundCarry hd key req line bytes part ns) := by
  show (0 : Nat) < 2 ^ 31
  decide

theorem inboundTime (ns : Nat) : Statement (.inboundTime ns) := by
  show (0 : Nat) < 2 ^ 31
  decide

theorem inboundMgmt (port : Nat) (bytes : List Byte) : Statement (.inboundMgmt port bytes) := by
  show (0 : Nat) < 2 ^ 31
  decide

theorem unsupportedPacketDrop (port : Nat) : Statement (.unsupportedPacketDrop port) := by
  show (0 : Nat) < 2 ^ 31
  decide

theorem moduleBoot : Statement (.moduleBoot) := by
  show (0 : Nat) < 2 ^ 31
  decide

theorem dutyChange (die : Nat) (duty : Nat) : Statement (.dutyChange die duty) := by
  show (0 : Nat) < 2 ^ 31
  decide

theorem corePowerOn (core : Nat) : Statement (.corePowerOn core) := by
  show (0 : Nat) < 2 ^ 31
  decide

theorem grandmasterLoss : Statement (.grandmasterLoss) := by
  show (0 : Nat) < 2 ^ 31
  decide

end Laws.BelowChain

end Sys2Proof
end

