-- ==== Sys2Proof/Tests/Slice0.lean ====
section
/-!
SUPPORT. Tests: ill-formed words refused, words of the spec decoded, results the spec prints, and for every
statement a state that meets its hypotheses.
-/

namespace Sys2Proof.Tests

set_option maxRecDepth 100000
set_option Elab.async false

open Sys2Proof Sys2Proof.Machine

/-! Well-formedness: one ill-formed term a check (R33 to R39 and the entry of each instruction). -/

/-- Specifiers, literals, mask triples and special numbers (R25, R36, R39, R248, R267). -/
theorem test_wf_refuses_operands :
    ∀ i ∈ ([.vadd 5 (.v 3) (.const 15), .vadd 5 (.lit 1) (.lit 2), .vicmp 21 0 (.v 1) (.v 2), .vfcmp 31 0 (.v 1) (.v 2),
      .vmtov 5 21, .vvtom 21 (.v 3), .vcvt 5 (.v 3) 16, .sadd 4 (.v 3) (.s 1), .sadd 4 (.s 1) (.q 0), .sadd 4 (.special 0) (.s 1),
      .sadd64 5 (.s 2) (.s 4), .sadd64 4 (.s 3) (.s 4), .ssub64 4 (.s 2) (.b 1), .smcnt 4 21, .smfst 4 63, .srd 4 0x13,
      .swr 4 (.s 1), .swr 2 (.v 1), .smov 4 (.v 1), .scmp 3 0 (.v 1) (.s 1), .vpfx 21 0 0 (.v 0), .vpfx 0 0 6 (.v 0),
      .dpair 0 1023 0, .dpair 1 0 1023] : List Instr), i.wf = false := by
  decide

/-- Synchronisation and control (R228, R237, R245, R301 to R309, R326, R338 to R342). -/
theorem test_wf_refuses_control :
    ∀ i ∈ ([.put 12 (.s 1) (.v 1), .put 1 (.v 1) (.v 2), .put 1 (.b 1) (.q 2), .xchg 4 (.s 1) (.s 2), .xchg 4 (.v 1) (.v 2),
      .bra 7 0 0, .bra 0 1 0, .bra 4 21 0, .bdiv 21 0 0, .calli (.s 9), .bri (.v 2), .mbinit 0 (.v 1) (.s 4), .mbarr 1 (.s 1) (.s 5),
      .mbarx 0 (.s 1) (.const 0), .mbwait 0 (.q 1) (.s 4), .mbtest 1 4 (.s 1) (.s 7), .waitc 0 0 0 0 (.s 5), .waitc 1 0 0 0 (.v 5),
      .fence 0 6, .qwait 11 (.s 1), .qwait 10 (.v 1), .trap (.v 1), .sret (.v 1) (.s 1), .xrd 4 (.s 1) (.v 1), .xwr 4 (.q 1) (.s 1),
      .csrr 4 9, .csrw 4 0x18, .tlbiRegion (.v 1), .tlbiPage 0 (.s 1) (.s 3), .tlbiPageall 0 (.s 3)] : List Instr), i.wf = false := by
  decide

/-- Memory and bundles (R87, R106, R108, R120, R124, R130, R147, R152, R155, R158). -/
theorem test_wf_refuses_memory :
    ∀ i ∈ ([.vld 2 0 2 (.v 4) (.v 2), .vld 0 6 2 (.v 4) (.v 2), .vld 0 7 2 (.v 4) (.v 2), .vld 0 0 7 (.v 4) (.v 2), .vld 0 0 3 (.v 5) (.v 2),
      .vld 0 0 4 (.v 6) (.v 2), .vld 0 0 2 (.s 4) (.v 2), .vld 0 0 2 (.v 4) (.v 3), .vldo 0 0 2 (.v 4) (.s 3) 0,
      .vst 1 0 2 (.v 4) (.v 2), .vst 0 0 5 (.v 4) (.v 2), .vst 0 0 4 (.s 4) (.v 2), .vsto 0 0 2 (.lit 1) (.v 2) 1, .sld 0 0 2 (.v 4) (.s 2) 0,
      .sld 0 0 4 (.s 6) (.s 2) 0, .sst 0 0 3 (.const 1) (.s 2) 0, .sst 0 0 2 (.s 1) (.v 2) 0, .ldsp 3 0 2 (.v 4) (.v 2),
      .ldsp 0 2 2 (.v 4) (.v 2), .stsp 1 0 2 (.v 4) (.v 2), .ldcl 0 3 2 (.v 4) (.v 2), .stcl 0 0 2 (.v 4) (.v 3), .vatom 0 6 0 0 4 1 0,
      .vatom 0 0 0 13 4 1 0, .vatom 0 0 1 9 4 1 0, .vatom 0 0 1 0 5 1 0, .satom 0 0 0 0 4 32 0, .vcas 0 0 0 127 1, .vcas 0 0 1 5 1,
      .scas 0 0 0 63 1, .scas 0 0 0 4 32, .sptest 4 (.v 3), .spcast 4 (.v 2) 4, .spcast 5 (.v 2) 1, .cachePf (.v 1) (.s 2),
      .cacheWb (.s 1) (.s 3), .ldlv 4 (.v 1) (.s 2), .ldlv 4 (.s 1) (.s 3), .cmst 3 0 (.s 1) (.s 2), .cmst 0 6 (.s 1) (.s 2),
      .bopen (.s 3), .bclose 1 0 (.s 3), .bclose 0 0 (.v 3), .vstb 5 (.v 4) (.v 2), .vclose (.v 1), .vldv 2 0 2 (.v 4) (.v 2)] :
      List Instr), i.wf = false := by
  decide

/-- Engines, matrix and factor tile (R109, R199, R222, R274 to R284, R289 to R295, R327). -/
theorem test_wf_refuses_engines :
    ∀ i ∈ ([.tcopy 4 5 6 0, .tcopyo 4 5 6 0, .tgather 4 5 6 0, .tcow 4 5 6 0, .cstep 0 2 4 5 6 0, .spstat 5 4, .jdec 5 4 6,
      .mmasp 0 0 0 4 5 63, .acld 0 (.v 1) (.s 1), .acst 0 (.s 1) (.lit 1), .acrd 0 6 (.s 1), .acrd 0 128 (.s 1), .acwr 0 4 (.v 1),
      .ftupd 0 (.s 1), .ftdnd 0 (.s 1), .ftslvf 0 (.v 1) (.s 1), .ftslvb 0 (.s 1) (.v 1), .ftld 0 (.v 1) (.s 1), .ftst 0 (.s 1) (.v 1),
      .ftinit 0 (.s 1) (.s 2), .ftinit 0 (.v 1) (.v 2), .ftrow 0 (.v 1) (.q 0)] : List Instr), i.wf = false := by
  decide

/-! Decoding: for every constructor a word written from its encoding table, the chapters' own examples where they
print one. -/

theorem test_decode_integer :
    ∀ e ∈ ([
      ([0x00050304], false, .vadd 5 (.v 3) (.v 4)),
      ([0x00850304], false, .vsub 5 (.v 3) (.v 4)),
      ([0x01050304], false, .vadds 5 (.v 3) (.v 4)),
      ([0x01850304], false, .vsubs 5 (.v 3) (.v 4)),
      ([0x02050304], false, .vmul 5 (.v 3) (.v 4)),
      ([0x02850304], false, .vmulh 5 (.v 3) (.v 4)),
      ([0x03050304], false, .vmulhu 5 (.v 3) (.v 4)),
      ([0x03850304], false, .vmad 5 (.v 3) (.v 4)),
      ([0x04050304], false, .vand 5 (.v 3) (.v 4)),
      ([0x04850304], false, .vandn 5 (.v 3) (.v 4)),
      ([0x05050304], false, .vor 5 (.v 3) (.v 4)),
      ([0x05850304], false, .vxor 5 (.v 3) (.v 4)),
      ([0x06050304], false, .vshl 5 (.v 3) (.v 4)),
      ([0x06850304], false, .vshr 5 (.v 3) (.v 4)),
      ([0x07050304], false, .vsar 5 (.v 3) (.v 4)),
      ([0x07850304], false, .vrol 5 (.v 3) (.v 4)),
      ([0x08050304], false, .vmin 5 (.v 3) (.v 4)),
      ([0x08850304], false, .vmax 5 (.v 3) (.v 4)),
      ([0x09050304], false, .vminu 5 (.v 3) (.v 4)),
      ([0x09850304], false, .vmaxu 5 (.v 3) (.v 4))] : List (List Nat × Bool × Instr)),
    decode e.1 = some e.2 := by
  decide

theorem test_decode_compare :
    ∀ e ∈ ([
      ([0x0A0D04F0], false, .vicmp 1 5 (.v 4) (.const 0)),
      ([0x0B130304], false, .vfcmp 2 3 (.v 3) (.v 4)),
      ([0x0C050300], false, .vpopc 5 (.v 3)),
      ([0x0C850300], false, .vclz 5 (.v 3)),
      ([0x0D050300], false, .vbrev 5 (.v 3)),
      ([0x0D850300], false, .vctz 5 (.v 3)),
      ([0x0E050300], false, .vmov 5 (.v 3)),
      ([0x0E850300], false, .vnot 5 (.v 3))] : List (List Nat × Bool × Instr)),
    decode e.1 = some e.2 := by
  decide

theorem test_decode_float :
    ∀ e ∈ ([
      ([0x0F050602], false, .vcvt 5 (.v 6) 2),
      ([0x10050304], false, .vfadd 5 (.v 3) (.v 4)),
      ([0x10850304], false, .vfsub 5 (.v 3) (.v 4)),
      ([0x11050304], false, .vfmul 5 (.v 3) (.v 4)),
      ([0x11850304], false, .vfscl 5 (.v 3) (.v 4)),
      ([0x12050304], false, .vfma 5 (.v 3) (.v 4)),
      ([0x12850304], false, .vfms 5 (.v 3) (.v 4)),
      ([0x13050304], false, .vfnma 5 (.v 3) (.v 4)),
      ([0x13850304], false, .vfnms 5 (.v 3) (.v 4)),
      ([0x14050304], false, .vfmin 5 (.v 3) (.v 4)),
      ([0x14850304], false, .vfmax 5 (.v 3) (.v 4)),
      ([0x15050300], false, .vfabs 5 (.v 3)),
      ([0x15850300], false, .vfneg 5 (.v 3)),
      ([0x16050300], false, .vfrnd 5 (.v 3)),
      ([0x16850300], false, .vffrc 5 (.v 3)),
      ([0x17050304], false, .vh2fma 5 (.v 3) (.v 4)),
      ([0x17850304], false, .vb2fma 5 (.v 3) (.v 4))] : List (List Nat × Bool × Instr)),
    decode e.1 = some e.2 := by
  decide

theorem test_decode_special_function :
    ∀ e ∈ ([
      ([0x18050300], false, .vrcp 5 (.v 3)),
      ([0x18850300], false, .vrsq 5 (.v 3)),
      ([0x19050300], false, .vsqrt 5 (.v 3)),
      ([0x19850300], false, .vlog2 5 (.v 3)),
      ([0x1A050300], false, .vex2 5 (.v 3)),
      ([0x1A850300], false, .vtanh 5 (.v 3)),
      ([0x1B050304], false, .vex2s 5 (.v 3) (.v 4)),
      ([0x1B850304], false, .vhyp 5 (.v 3) (.v 4)),
      ([0x1C050304], false, .vshfl 5 (.v 3) (.v 4)),
      ([0x1C850304], false, .vshfx 5 (.v 3) (.v 4)),
      ([0x1D050100], false, .vmtov 5 1),
      ([0x1D940600], false, .vvtom 20 (.v 6))] : List (List Nat × Bool × Instr)),
    decode e.1 = some e.2 := by
  decide

theorem test_decode_scalar :
    ∀ e ∈ ([
      ([0x2004888A], false, .sadd 4 (.s 8) (.s 10)),
      ([0x2084888A], false, .ssub 4 (.s 8) (.s 10)),
      ([0x2104888A], false, .smul 4 (.s 8) (.s 10)),
      ([0x2184888A], false, .smulhu 4 (.s 8) (.s 10)),
      ([0x2204888A], false, .sand 4 (.s 8) (.s 10)),
      ([0x2284888A], false, .sandn 4 (.s 8) (.s 10)),
      ([0x2304888A], false, .sor 4 (.s 8) (.s 10)),
      ([0x2384888A], false, .sxor 4 (.s 8) (.s 10)),
      ([0x2404888A], false, .sshl 4 (.s 8) (.s 10)),
      ([0x2484888A], false, .sshr 4 (.s 8) (.s 10)),
      ([0x2504888A], false, .ssar 4 (.s 8) (.s 10)),
      ([0x2584888A], false, .srol 4 (.s 8) (.s 10)),
      ([0x2604888A], false, .smin 4 (.s 8) (.s 10)),
      ([0x2684888A], false, .smax 4 (.s 8) (.s 10)),
      ([0x27048800], false, .smov 4 (.s 8)),
      ([0x27848800], false, .snot 4 (.s 8)),
      ([0x281F8889], false, .scmp 3 7 (.s 8) (.s 9)),
      ([0x29048800], false, .spopc 4 (.s 8)),
      ([0x29848800], false, .sclz 4 (.s 8))] : List (List Nat × Bool × Instr)),
    decode e.1 = some e.2 := by
  decide

theorem test_decode_wide_and_special_registers :
    ∀ e ∈ ([
      ([0x2A0A8C8E], false, .sadd64 10 (.s 12) (.s 14)),
      ([0x2A8A8C8E], false, .ssub64 10 (.s 12) (.s 14)),
      ([0x2B0A0100], false, .smcnt 10 1),
      ([0x2B8A0100], false, .smfst 10 1),
      ([0x2C04888A], false, .sbfx 4 (.s 8) (.s 10)),
      ([0x2C84888A], false, .sbfi 4 (.s 8) (.s 10)),
      ([0x2D090200], false, .srd 9 2),
      ([0x2D83008A], false, .swr 3 (.s 10)),
      ([0x2E04888A], false, .sfadd 4 (.s 8) (.s 10)),
      ([0x2E84888A], false, .sfmul 4 (.s 8) (.s 10))] : List (List Nat × Bool × Instr)),
    decode e.1 = some e.2 := by
  decide

theorem test_decode_exchange :
    ∀ e ∈ ([
      ([0x3010CA84], false, .put 1 (.b 2) (.s 4)),
      ([0x310A0B86], false, .xchg 10 (.v 11) (.s 6))] : List (List Nat × Bool × Instr)),
    decode e.1 = some e.2 := by
  decide

theorem test_decode_control :
    ∀ e ∈ ([
      ([0x38250002], false, .bra 2 20 2),
      ([0x39404002, 0x3], false, .bdiv 1 2 3),
      ([0x3A000000], false, .join),
      ([0x3B000005], false, .call 5),
      ([0x3B800088], false, .calli (.s 8)),
      ([0x3C000000], false, .ret),
      ([0x3C800088], false, .bri (.s 8)),
      ([0x3D000000], false, .exit),
      ([0x3E000000], false, .nop),
      ([0x3E800000], false, .yield)] : List (List Nat × Bool × Instr)),
    decode e.1 = some e.2 := by
  decide

theorem test_decode_barrier :
    ∀ e ∈ ([
      ([0x40000000], false, .barSync),
      ([0x40800000], false, .barArrive),
      ([0x41000000], false, .cbar),
      ([0x41800000], false, .gbar),
      ([0x4200F284], false, .mbinit 0 (.const 2) (.s 4)),
      ([0x4300F284], false, .mbarr 0 (.const 2) (.s 4)),
      ([0x4380F284], false, .mbarx 0 (.const 2) (.s 4)),
      ([0x4440F084], false, .mbwait 1 (.const 0) (.s 4)),
      ([0x448CF184], false, .mbtest 0 12 (.const 1) (.s 4)),
      ([0x45030085], false, .waitc 0 0 1 1 (.s 5)),
      ([0x46500000], false, .fence 2 4),
      ([0x470A00F2], false, .qwait 10 (.const 2))] : List (List Nat × Bool × Instr)),
    decode e.1 = some e.2 := by
  decide

theorem test_decode_memory :
    ∀ e ∈ ([
      ([0x48020802], false, .vld 0 0 2 (.v 8) (.v 2)),
      ([0x49630A94, 0x40], false, .vldo 1 4 3 (.v 10) (.s 20) 0x40),
      ([0x4AA20904], false, .vst 2 4 2 (.v 9) (.v 4)),
      ([0x4B020602, 0x400], false, .vsto 0 0 2 (.v 6) (.v 2) 0x400),
      ([0x4C02848A, 0x8], false, .sld 0 0 2 (.s 4) (.s 10) 8),
      ([0x4D02F18A, 0x8], false, .sst 0 0 2 (.const 1) (.s 10) 8),
      ([0x4E020C87], false, .ldsp 0 0 2 (.v 12) (.s 7)),
      ([0x4F010706], false, .stsp 0 0 1 (.v 7) (.v 6))] : List (List Nat × Bool × Instr)),
    decode e.1 = some e.2 := by
  decide

theorem test_decode_atomic :
    ∀ e ∈ ([
      ([0x50024383], false, .vatom 0 0 0 9 7 1 1),
      ([0x51040602], false, .vcas 0 0 1 12 1),
      ([0x52DE060A], false, .satom 3 3 1 8 12 5 0),
      ([0x5300070A], false, .scas 0 0 0 14 5),
      ([0x54520C88], false, .ldcl 1 2 2 (.v 12) (.s 8)),
      ([0x55920C88], false, .stcl 2 2 2 (.v 12) (.s 8)),
      ([0x56060A00], false, .sptest 6 (.v 10)),
      ([0x568A0802], false, .spcast 10 (.v 8) 2)] : List (List Nat × Bool × Instr)),
    decode e.1 = some e.2 := by
  decide

theorem test_decode_cache_and_bundle :
    ∀ e ∈ ([
      ([0x5700888A], false, .cachePf (.s 8) (.s 10)),
      ([0x5710888A], false, .cacheWb (.s 8) (.s 10)),
      ([0x5720FF8A, 0x1000], false, .cacheInv (.lit 0x1000) (.s 10)),
      ([0x5730888A], false, .cacheWbinv (.s 8) (.s 10)),
      ([0x58088C8A], false, .ldlv 8 (.s 12) (.s 10)),
      ([0x58D08C8E], false, .cmst 2 4 (.s 12) (.s 14)),
      ([0x5900008A], false, .bopen (.s 10)),
      ([0x59D08C00], false, .bclose 2 4 (.s 12)),
      ([0x5A020802], false, .vstb 2 (.v 8) (.v 2)),
      ([0x5B000000], false, .vopen),
      ([0x5B808D00], false, .vclose (.s 13)),
      ([0x5C62088A], false, .vldv 1 4 2 (.v 8) (.s 10))] : List (List Nat × Bool × Instr)),
    decode e.1 = some e.2 := by
  decide

theorem test_decode_engine :
    ∀ e ∈ ([
      ([0x60010620], false, .tcopy 4 6 8 0),
      ([0x61028C39], false, .tcopyo 10 12 14 1),
      ([0x62010620], false, .tgather 4 6 8 0),
      ([0x63041250], false, .tcow 16 18 20 0),
      ([0x64510519], false, .cstep 1 1 4 5 6 1),
      ([0x65010519], false, .spalloc 4 5 6 1),
      ([0x65810000], false, .spfree 4),
      ([0x66010700], false, .sprenew 4 7),
      ([0x66828400], false, .spstat 10 4),
      ([0x67010518], false, .crpush 4 5 6),
      ([0x67820A2C], false, .jdec 8 10 11)] : List (List Nat × Bool × Instr)),
    decode e.1 = some e.2 := by
  decide

theorem test_decode_matrix :
    ∀ e ∈ ([
      ([0x70284146], false, .mma 1 1 0 4 5 6),
      ([0x71604146], false, .mmasp 3 0 0 4 5 6),
      ([0x72108488], false, .acld 1 (.s 4) (.s 8)),
      ([0x72A08A8C], false, .acst 2 (.s 10) (.s 12)),
      ([0x732008F4], false, .acrd 2 8 (.const 4)),
      ([0x73A00C85], false, .acwr 2 12 (.s 5))] : List (List Nat × Bool × Instr)),
    decode e.1 = some e.2 := by
  decide

theorem test_decode_factor :
    ∀ e ∈ ([
      ([0x74000500], false, .ftupd 0 (.v 5)),
      ([0x74C00800], false, .ftdnd 1 (.v 8)),
      ([0x75000A08], false, .ftslvf 0 (.v 10) (.v 8)),
      ([0x75800B0A], false, .ftslvb 0 (.v 11) (.v 10)),
      ([0x76008488], false, .ftld 0 (.s 4) (.s 8)),
      ([0x76C08A8C], false, .ftst 1 (.s 10) (.s 12)),
      ([0x770004F2], false, .ftinit 0 (.v 4) (.const 2)),
      ([0x77800CF0], false, .ftrow 0 (.v 12) (.const 0))] : List (List Nat × Bool × Instr)),
    decode e.1 = some e.2 := by
  decide

theorem test_decode_system :
    ∀ e ∈ ([
      ([0x780000F3], false, .trap (.const 3)),
      ([0x78800000], false, .brk),
      ([0x7900F085], false, .sret (.const 0) (.s 5)),
      ([0x79800000], false, .skill),
      ([0x7A0B85FF, 0x40000100], false, .xrd 11 (.s 5) (.lit 0x40000100)),
      ([0x7A8A85FF, 0x30000100], false, .xwr 10 (.s 5) (.lit 0x30000100)),
      ([0x7B080008], false, .csrr 8 8),
      ([0x7B880017], false, .csrw 8 23),
      ([0x7C000000], false, .tlbiAll),
      ([0x7C108500], false, .tlbiRegion (.s 5)),
      ([0x7C28888A], false, .tlbiPage 2 (.s 8) (.s 10)),
      ([0x7C34008A], false, .tlbiPageall 1 (.s 10)),
      ([0xFE068000], true, .vpfx 1 1 2 (.v 0)),
      ([0x7F805006], false, .dpair 1 5 6)] : List (List Nat × Bool × Instr)),
    decode e.1 = some e.2 := by
  decide


/-! States that meet the statements' hypotheses. -/

/-- A 64 KiB page at 0, all rights. -/
def leaf : Leaf := { pa := 0, log := 16, r := true, w := true, x := true }

/-- Warp 0 of block 0 on core 0, standing at the packet at 384. -/
def w0 : Warp := State.placedWarp 0
def blk : Block := { State.loadBlock with slots := [0], nacc := 8, nft := 2, cluster := 1, grid := 1 }
def at0 (w : Warp) : State :=
  { State.reset with booted := true, blocks := [(0, blk)], warps := [(0, w)], pos := (384, 0, false), npos := (384, 1, false)
                     clusters := [(1, { blks := [0] })], grids := [(1, { coop := true })]
                     allocs := [{ core := 0, index := 0, blk := 0, first := 0, rows := 64, auto := true, life := 0, exp := 0 }]
                     tlb := [{ core := 0, rod := none, region := 0, va := 0, leaf := leaf }], nextId := 100 }

/-- The trap warp of core 0, in slot 64, serving block 0, whose warp has stopped. -/
def atTrap (w : Warp) : State :=
  { at0 w with
      warps := [(0, { w with run := .stopped }), (64, { (w0 : Warp) with blk := 0, widx := 0 })], cur := 64
      blocks := [(0, { blk with state := .halted })] }.modCore 0 fun c => { c with serving := some 0 }

def vreg (xs : List Nat) : Lanes := (List.range xs.length).foldl (fun v i => v.setIfInBounds i (BitVec.ofNat 32 (xs.getD i 0))) (Vector.replicate 96 0)
def withS (w : Warp) (l : List (Nat × Nat)) : Warp :=
  l.foldl (fun w e => { w with s := w.s.setIfInBounds e.1 (BitVec.ofNat 32 e.2) }) w

def okList (e : Except Stop (List (Nat × Tgt))) : List (Nat × Tgt) :=
  match e with
  | .ok ts => ts
  | .error _ => []

theorem wit_VectorIntegerResults :
    ∀ i ∈ ([.vadd 5 (.v 3) (.v 4), .vsub 5 (.v 3) (.const 6), .vadds 0 (.v 0) (.v 0), .vsubs 127 (.s 4) (.v 4), .vmul 7 (.v 2) (.lit 1000),
      .vmulh 1 (.v 2) (.v 3), .vmulhu 1 (.v 2) (.v 3), .vand 1 (.v 2) (.v 3), .vandn 1 (.v 2) (.v 3), .vor 1 (.v 2) (.v 3),
      .vxor 1 (.v 2) (.v 3), .vshl 1 (.v 2) (.lit 33), .vshr 1 (.v 2) (.lit 32), .vsar 1 (.v 2) (.v 3), .vrol 1 (.v 2) (.v 3),
      .vmin 1 (.v 2) (.v 3), .vmax 1 (.v 2) (.v 3), .vminu 1 (.v 2) (.v 3), .vmaxu 1 (.v 2) (.v 3), .vmov 1 (.v 2), .vnot 1 (.v 2),
      .vpopc 1 (.v 2), .vclz 1 (.v 2), .vctz 1 (.v 2), .vbrev 1 (.v 2), .vfabs 1 (.v 2), .vfneg 1 (.v 2), .vmad 1 (.v 2) (.v 3)] : List Instr),
    (at0 w0).gate i = .go ∧ (at0 w0).execMask ≠ 0 := by decide +kernel

theorem wit_EmptyMask :
    let s := at0 (withS w0 [(0, 0), (1, 0), (2, 0)])
    ∀ i ∈ ([.vadd 5 (.v 3) (.v 4), .vld 0 0 2 (.v 8) (.v 2), .vcas 0 0 1 12 1, .spcast 10 (.v 8) 2] : List Instr),
      i.byLane = true ∧ s.permitted i = none ∧ s.execMask = 0 := by decide +kernel

theorem wit_VectorLaneMoves :
    ∀ i ∈ ([.vmad 1 (.v 2) (.v 3), .vshfl 5 (.v 3) (.v 4), .vshfx 5 (.v 3) (.const 6), .vmtov 7 20] : List Instr),
      (at0 w0).gate i = .go ∧ (at0 w0).execMask ≠ 0 := by decide +kernel

theorem wit_VectorFloatResults :
    ∀ i ∈ ([.vfadd 8 (.v 8) (.v 9), .vfsub 8 (.v 8) (.v 9), .vfmul 8 (.v 8) (.v 9), .vfscl 8 (.v 8) (.v 9), .vfma 8 (.v 8) (.v 9),
      .vfms 8 (.v 8) (.v 9), .vfnma 8 (.v 8) (.v 9), .vfnms 8 (.v 8) (.v 9), .vfmin 8 (.v 8) (.v 9), .vfmax 8 (.v 8) (.v 9),
      .vfrnd 8 (.v 8), .vffrc 8 (.v 8), .vh2fma 8 (.v 8) (.v 9), .vb2fma 8 (.v 8) (.v 9), .vcvt 8 (.v 8) 0] : List Instr),
      (at0 w0).gate i = .go ∧ (at0 w0).execMask ≠ 0 := by decide +kernel

theorem wit_VectorCompares :
    ∀ i ∈ ([.vicmp 0 0 (.v 3) (.v 4), .vicmp 0 1 (.v 3) (.v 4), .vicmp 20 2 (.v 3) (.v 4), .vicmp 4 3 (.v 3) (.v 4), .vicmp 4 4 (.v 3) (.v 4),
      .vicmp 4 5 (.v 3) (.v 4), .vicmp 4 6 (.v 3) (.v 4), .vicmp 4 7 (.v 3) (.v 4), .vvtom 0 (.v 3), .vvtom 20 (.v 3),
      .vfcmp 0 0 (.v 3) (.v 4), .vfcmp 20 5 (.v 3) (.v 4)] : List Instr),
      (at0 w0).gate i = .go ∧ (at0 w0).execMask ≠ 0 := by decide +kernel

def sfuRes : SfuRes := { id := 1, core := 0, slot := 0, dst := 5, sub := 0, lanes := 7, vals := vreg [1, 2, 3], flags := Vector.replicate 5 0 }

theorem wit_SpecialFunctions :
    (∀ i ∈ ([.vrcp 4 (.v 2), .vrsq 4 (.v 2), .vsqrt 4 (.v 2), .vlog2 4 (.v 2), .vex2 4 (.v 2), .vtanh 4 (.v 2), .vex2s 4 (.v 2) (.v 3),
      .vhyp 4 (.v 2) (.v 3)] : List Instr), (at0 w0).gate i = .go ∧ (at0 w0).execMask ≠ 0)
    ∧ ({ at0 w0 with sfu := [sfuRes] } : State).sfu.find? (·.core == 0) = some sfuRes := by decide +kernel

theorem wit_ScalarResults :
    ∀ i ∈ ([.sadd 4 (.s 4) (.const 1), .ssub 0 (.s 4) (.s 5), .smul 3 (.s 4) (.s 5), .smulhu 3 (.s 4) (.s 5), .sand 2 (.s 4) (.s 5),
      .sandn 3 (.s 4) (.s 5), .sor 3 (.s 4) (.s 5), .sxor 3 (.s 4) (.s 5), .sshl 3 (.s 4) (.lit 33), .sshr 3 (.s 4) (.lit 32),
      .ssar 3 (.s 4) (.s 5), .srol 3 (.s 4) (.s 5), .smin 3 (.s 4) (.s 5), .smax 3 (.s 4) (.s 5), .smov 63 (.s 4), .snot 3 (.s 4),
      .spopc 3 (.s 4), .sclz 3 (.s 4), .scmp 0 0 (.s 4) (.s 5), .scmp 31 1 (.s 4) (.s 5), .scmp 3 2 (.s 4) (.s 5), .scmp 3 3 (.s 4) (.s 5),
      .scmp 3 4 (.s 4) (.s 5), .scmp 3 5 (.s 4) (.s 5), .scmp 3 6 (.s 4) (.s 5), .scmp 3 7 (.s 4) (.s 5), .smcnt 4 0, .smfst 4 20] : List Instr),
      (at0 w0).gate i = .go := by decide +kernel

theorem wit_ScalarWideResults :
    ∀ i ∈ ([.sadd64 0 (.s 4) (.s 6), .ssub64 62 (.s 4) (.const 1), .sbfx 4 (.s 6) (.lit 0x2004), .sbfi 4 (.s 6) (.lit 0x2004),
      .sfadd 2 (.s 4) (.s 5), .sfmul 63 (.s 4) (.s 5)] : List Instr), (at0 w0).gate i = .go := by decide +kernel

theorem wit_SpecialRegisters :
    (∀ n ∈ List.range 0x13, (at0 w0).gate (.srd 5 (BitVec.ofNat 8 n)) = .go)
    ∧ ∀ n ∈ [0x02, 0x03, 0x10, 0x11], (at0 w0).gate (.swr (BitVec.ofNat 6 n) (.s 4)) = .go := by decide +kernel

/-- s8:s9 names offset 0 of the block's scratchpad, s10:s11 offset 256 of its cluster's, s12:s13 address 256; lanes 0 and 95 run. -/
def wp : Warp :=
  { withS w0 [(0, 1), (1, 0), (2, 0x80000000), (3, 1), (8, 0), (9, 0xFF100000), (10, 256), (11, 0xFF200000), (12, 256), (13, 0)] with
    v := [(2, vreg [256]), (4, vreg [128]), (5, vreg [0xFF100000]), (6, vreg [256])] }

def passes (s : State) (f : Form) (l : List (Nat × Nat)) : Prop := s.checkAll f l = .ok (okList (s.checkAll f l))

theorem wit_LoadIssue :
    let s := at0 wp
    (∀ e ∈ ([(.vld 0 0 2 (.v 8) (.v 2), false, wSize 2, s.lanesAt (s.readPair (.v 2))), (.vld 1 4 4 (.v 8) (.s 8), false, wSize 4, s.lanesAt (s.readPair (.s 8))),
      (.vldo 0 0 0 (.v 8) (.s 12) 4, false, wSize 0, s.lanesAt fun _ => 260), (.sld 0 0 3 (.s 8) (.s 12) 0xFFFFFFF8, false, wSize 3, [(0, 248)]),
      (.sld 0 0 2 (.s 9) (.s 8) 0, false, wSize 2, [(0, 0xFF1 * 2 ^ 52)]), (.ldsp 0 0 5 (.v 8) (.v 3), false, wSize 5, s.lanesAt fun l => s.offPtr (s.readLane (.v 3) l).toNat),
      (.ldcl 0 0 2 (.v 8) (.s 10), true, wSize 2, s.lanesAt (s.readPair (.s 10)))] : List (Instr × Bool × Nat × List (Nat × Nat))),
      s.gate e.1 = .go ∧ s.execMask ≠ 0 ∧ passes s { size := e.2.2.1, reads := true, shared := e.2.1 } e.2.2.2)
    ∧ s.roomy := by unfold passes State.roomy; decide +kernel

theorem wit_StoreIssue :
    let s := at0 (withS wp [(2, 0)])
    (∀ e ∈ ([(.vst 0 0 2 (.v 8) (.v 2), false, wSize 2, s.lanesAt (s.readPair (.v 2))), (.vst 0 0 4 (.v 8) (.s 8), false, wSize 4, s.lanesAt (s.readPair (.s 8))),
      (.vsto 0 0 0 (.v 8) (.s 12) 4, false, wSize 0, s.lanesAt fun _ => 260), (.sst 2 4 3 (.s 8) (.s 12) 0xFFFFFFF8, false, wSize 3, [(0, 248)]),
      (.stsp 0 0 1 (.v 8) (.v 3), false, wSize 1, s.lanesAt fun l => s.offPtr (s.readLane (.v 3) l).toNat), (.stsp 0 0 2 (.v 8) (.v 4), false, wSize 2, s.lanesAt fun _ => s.offPtr 128),
      (.stcl 0 0 2 (.v 8) (.s 10), true, wSize 2, s.lanesAt (s.readPair (.s 10)))] : List (Instr × Bool × Nat × List (Nat × Nat))),
      s.gate e.1 = .go ∧ s.execMask ≠ 0 ∧ passes s { size := e.2.2.1, writes := true, shared := e.2.1 } e.2.2.2)
    ∧ s.checkAll { size := 4, writes := true } (s.lanesAt fun l => s.offPtr (s.readLane (.v 4) l).toNat) = .ok [(0, .pad 128)]
    ∧ s.myFlights = [] ∧ s.roomy := by unfold passes State.roomy; decide +kernel

theorem wit_AtomicIssue :
    let s := at0 wp
    (∀ e ∈ ([(.vatom 0 4 0 0 8 1 0, 4, false, s.lanesAt (s.vpair 2)), (.vatom 0 4 1 8 8 1 1, 8, false, s.lanesAt (s.vpair 2)),
      (.satom 0 4 0 12 9 6 0, 4, false, [(0, s.before.spair 12)]), (.vcas 0 4 1 12 1, 8, false, s.lanesAt (s.vpair 2)),
      (.vcas 0 2 0 12 2, 4, false, s.lanesAt (s.vpair 4)), (.scas 3 4 0 9 6, 4, true, [(0, s.before.spair 12)])] :
      List (Instr × Nat × Bool × List (Nat × Nat))),
      s.gate e.1 = .go ∧ s.execMask ≠ 0
        ∧ passes s { size := e.2.1, reads := true, writes := true, atomic := true, sc := e.2.2.1 } e.2.2.2)
    ∧ s.roomy := by unfold passes State.roomy; decide +kernel

theorem wit_CacheAndTlbi :
    let s := at0 (withS w0 [(14, 0xFFFFFFFF), (15, 0xFFFFFF), (16, 0), (17, 0xFFFFFFFF), (20, 0), (12, 256)])
    (∀ e ∈ ([(.const 2, .s 12), (.s 20, .s 12), (.const 1, .s 14)] : List (Src × Src)),
      (∀ i ∈ ([.cachePf e.1 e.2, .cacheWb e.1 e.2, .cacheInv e.1 e.2, .cacheWbinv e.1 e.2] : List Instr), s.gate i = .go)
        ∧ s.readPair e.2 0 + (s.readScalar e.1).toNat ≤ 2 ^ 56 ∧ s.readPair e.2 0 < 2 ^ 56)
    ∧ (∀ i ∈ ([.tlbiAll, .tlbiRegion (.s 8), .tlbiPage 0 (.s 8) (.s 12), .tlbiPageall 2 (.s 16), .tlbiPage 1 (.s 8) (.s 16)] : List Instr), s.gate i = .go)
    ∧ 2 ^ 56 ≤ s.readPair (.s 16) 0 ∧ s.readPair (.s 16) 0 < 2 ^ 64 ∧ s.roomy := by unfold State.roomy; decide +kernel

/-- A CMST descriptor of one line at address 256, naming token 0, at scratchpad offset 0; at 512, one of 5 lines. -/
def padDesc : Memory := (Memory.writeN ([] : Memory) 0 (leBytes 16 1 ++ leBytes 8 256)).writeN 512 (leBytes 4 5)

def withPad (s : State) (m : Memory) : State := s.modCore 0 fun c => { c with pad := m }

theorem wit_VersionedIssue :
    let s := withPad (at0 (withS wp [(20, 512), (8, 0)])) padDesc
    s.gate (.ldlv 12 (.s 20) (.s 12)) = .go ∧ s.execMask ≠ 0 ∧ s.roomy ∧ s.readPair (.s 12) 0 % 128 = 0 ∧ s.readPair (.s 12) 0 < 2 ^ 56
    ∧ (∀ x ∈ [(0, Src.s 8), (512, .s 20)], s.gate (.cmst 0 4 (.s 21) x.2) = .go ∧ (s.readScalar x.2).toNat = x.1 ∧ s.padReadCheck x.1 128 = none
      ∧ s.padReadCheck (x.1 + 128) 128 = none)
    ∧ (State.cmstDesc (s.padRead s.myCore 0 128) (s.padRead s.myCore 128 128)).isSome = true
    ∧ State.cmstDesc (s.padRead s.myCore 512 128) (s.padRead s.myCore 640 512) = none
    ∧ s.lockedVa 256 128 false = false ∧ s.lockedVa 256 128 true = false
    ∧ (let t := { s with locks := [{ core := 0, op := 50, srcs := [], dsts := [⟨false, 0, 256, 16⟩], bar := none }] }
      t.gate (.ldlv 12 (.s 20) (.s 12)) = .go ∧ t.lockedVa 256 128 false = true ∧ t.lockedVa 256 128 true = true) := by
  unfold State.roomy; decide +kernel

theorem wit_PointerResults :
    let s := at0 { wp with v := [(2, vreg [0x100, 0x200]), (3, vreg [0xFF100000]), (4, vreg [0x100]), (5, vreg [0xFF200000])] }
    s.isTrap = false ∧ s.execMask ≠ 0 ∧ s.identOf s.myBlk < 2 ^ 10 ∧ s.gate (.sptest 8 (.v 2)) = .go
    ∧ (∀ m ∈ [0, 1, 2, 3], s.gate (.spcast 8 (.v 2) (BitVec.ofNat 8 m)) = .go)
    ∧ s.execMask.getLsbD 0 = true ∧ s.readPair (.v 2) 0 / 2 ^ 52 = 0xFF1 ∧ s.readPair (.v 4) 0 / 2 ^ 52 = 0xFF2
    ∧ s.execMask.getLsbD 95 = true ∧ s.readPair (.v 2) 95 < 2 ^ 56 := by decide +kernel

theorem wit_WaitcAndFence :
    let s := at0 (withS w0 [(5, 1)])
    let t := at0 { withS w0 [(5, 1)] with cntG := [(7, false), (8, false)], cntW := [(9, false), (10, false), (11, false)] }
    let m : Mark := { fl := 6, scalar := false, reg := 8, n := 1, stop := { cause := .xlate }, paths := 1, order := [0, 0, 0, 0] }
    let u := at0 { withS w0 [(5, 0)] with marks := [m], counted := Vector.replicate 4 1 }
    (s.gate (.waitc 0 0 1 1 (.s 5)) = .go ∧ inFlight s.before.cntG ≤ 1 ∧ inFlight s.before.cntS ≤ 1 ∧ s.before.marks = [])
    ∧ (u.gate (.waitc 0 0 0 1 (.s 5)) = .go ∧ inFlight u.before.cntG = 0 ∧ State.waitcMark u.before 1 0 = some m)
    ∧ (t.gate (.waitc 0 1 0 1 (.s 5)) = .go ∧ (t.readScalar (.s 5)).toNat < inFlight t.before.cntG)
    ∧ (t.gate (.fence 0 1) = .go ∧ t.before.acq = [] ∧ State.loadsBack t.before = false)
    ∧ s.gate (.fence 2 0) = .go
    ∧ ∀ e ∈ [((0 : BitVec 2), (0 : BitVec 3)), (0, 4), (1, 1), (2, 3)],
      let u := { s.modCore 0 fun c => { c with leasemax := 5 } with time := 6 }
      u.gate (.fence e.1 e.2) = .go ∧ u.before.acq = [] ∧ State.loadsBack u.before = true ∧ u.before.scs = [] ∧ inFlight u.before.cntW = 0
        ∧ u.me.leaseAt.getD (u.core u.myCore).leasemax < u.nowCore u.myCore ∧ u.me.ldTag.1 ≤ 2 ^ 48 - 1 := by decide +kernel

def putSt : State := at0 { withS w0 [(0, 3), (1, 0), (2, 0)] with v := [(4, Vector.replicate 96 1), (5, (Vector.replicate 96 0).setIfInBounds 1 7)] }
def asked (slots : Tab Slot) : State :=
  { putSt with warps := [(0, { w0 with asks := [(0, .put 3 1 9 9 0 false)] })], blocks := [(0, { blk with bfile := { slots := slots } })] }

theorem wit_PutResults :
    (let s := at0 (withS w0 [(0, 0), (1, 0), (2, 0)])
     s.permitted (.put 1 (.b 3) (.v 4)) = none ∧ s.execMask = 0)
    ∧ putSt.execMask ≠ 0 ∧ (∀ m ∈ [0, 1, 2, 3, 4, 5, 6, 7, 8, 10, 11], ∀ d ∈ [Src.s 20, .q 7, .b 3, .k 2, .g 1], putSt.gate (.put (BitVec.ofNat 4 m) d (.v 4)) = .go)
    ∧ laneList putSt.execMask = [0, 1] ∧ (∀ l ∈ [0, 1], putSt.readLane (.v 4) l = 1 ∧ putSt.readLane (.v 5) l = if l = 1 then 7 else 0)
    ∧ putSt.gate (.put 0 (.s 20) (.v 5)) = .go
    ∧ putSt.isTrap = false ∧ (putAll 1 (putSt.putLanes (.v 4) putSt.execMask)).isSome = true ∧ putSt.me.asks.get? 0 = none ∧ putSt.me.replies.get? 0 = none
    ∧ (∀ r ∈ [Reply.ok, .cause .agree],
      let t := { putSt with warps := [(0, { w0 with replies := [(0, r)] })] }
      t.gate (.put 1 (.b 3) (.s 4)) = .go ∧ t.me.replies.get? 0 = some r)
    ∧ ((({ asked [] with warps := [(0, { w0 with replies := [(0, .ok)] })] } : State).warp 0).replies.get? 0).isSome = true
    ∧ ∀ t ∈ [asked [], asked [(3, ⟨1, 4, 4, 0, false⟩)], asked [(3, ⟨2, 4, 4, 0, false⟩)]],
      (t.warp 0).asks.get? 0 = some (.put 3 1 9 9 0 false) := by decide +kernel

theorem wit_Barriers :
    let at' (w : Warp) := at0 w
    let gate (s : State) : Prop := ∀ i ∈ ([.barSync, .barArrive, .cbar, .gbar] : List Instr), s.gate i = .go ∧ s.isTrap = false
    let arriving (k : Nat) := { at' { w0 with inBar := some (k, false, true) } with time := 6 }
    gate (at' w0) ∧ (at' w0).me.inBar = none ∧ (at' w0).me.stack = [] ∧ ((at' w0).grid (at' w0).myBlock.grid).coop = true
    ∧ (at' w0).arithNow = none ∧ (∀ k ∈ [1, 2, 3], (at' w0).barPhase k = 1 ∧ (at' w0).me.arrived[k - 1]?.getD 0 = 0)
    ∧ gate (at' { w0 with stack := [⟨384, 768, 1, false⟩] })
    ∧ (let s := at' { w0 with inBar := some (1, true, true), arrived := Vector.replicate 3 2 }
      gate s ∧ s.barPhase 1 ≤ s.me.arrived[0] - 1)
    ∧ (let s := { at' { w0 with inBar := some (1, true, true), arrived := Vector.replicate 3 2 } with blocks := [(0, { blk with bfile := { phase := 2 } })] }
      gate s ∧ s.me.arrived[0] - 1 < s.barPhase 1)
    ∧ (∀ k ∈ [1, 2, 3], (arriving k).barReleased 0 k = true ∧ ((arriving k).warp 0).inBar = some (k, false, true)
      ∧ (∀ x ∈ (arriving k).barBlocks k 0, ((arriving k).block x).slots = [0]) ∧ ((arriving k).warp 0).widx = 0)
    ∧ (let s := { arriving 3 with grids := [(1, { coop := true, replicas := [(0, [])] })] }
      (s.grid 1).taking = [] ∧ (s.grid 1).replicas ≠ [] ∧ s.barReleased 0 3 = true)
    ∧ (let s := { arriving 1 with blocks := [(0, { blk with slots := [0, 1] })] }
      s.barReleased 0 1 = true ∧ (s.block 0).gone = [] ∧ State.arriver 0 1 ∉ (s.putFile 0 (barDest 1)).arrived)
    ∧ (0 ∈ (({ at' w0 with grids := [(1, { taking := [0, 1] })] } : State).grid 1).taking) := by decide +kernel

def xreq (core slot peer pslot : Nat) : Xreq :=
  { core := core, slot := slot, widx := slot, grid := 1, peerCore := peer, peerWarp := pslot, tag := 3, mask := 7, vals := vreg [1, 2, 3], since := 5 }

theorem wit_Exchange :
    let s := at0 (withS w0 [(6, 767 + 2 ^ 10 * 31 + 2 ^ 16 * 255), (7, 2 ^ 10)])
    let p := (s.readScalar (.s 6)).toNat
    let q := (s.readScalar (.s 7)).toNat
    let t := { at0 { w0 with replies := [(4, .swap 3 (vreg [9]))] } with xreqs := [(1, xreq 0 0 0 1), (2, xreq 0 1 0 0)], time := 110000 }
    s.gate (.xchg 10 (.v 11) (.s 6)) = .go ∧ s.me.replies.get? 4 = none ∧ s.me.asks.get? 4 = none ∧ s.isTrap = false ∧ p < 2 ^ 24
    ∧ bits p 0 10 ≤ 767 ∧ bits p 10 6 ≤ 31 ∧ bits p 0 10 ≠ s.myCore
    ∧ s.gate (.xchg 10 (.v 11) (.s 7)) = .go ∧ bits q 0 10 = s.myCore ∧ bits q 10 6 ≠ s.me.widx
    ∧ t.gate (.xchg 10 (.v 11) (.s 6)) = .go ∧ t.me.replies.get? 4 = some (.swap 3 (vreg [9]))
    ∧ (at0 { w0 with replies := [(4, .cause .timeout)] }).gate (.xchg 10 (.v 11) (.s 6)) = .go
    ∧ (xreq 0 0 0 1).matches (xreq 0 1 0 0) = true ∧ t.xreqs.get? 1 = some (xreq 0 0 0 1) ∧ t.xreqs.get? 2 = some (xreq 0 1 0 0)
    ∧ (∀ k ∈ [warpKey 0 0, warpKey 0 1], (t.warp k).asks.get? 0 = none ∧ (t.warp k).asks.get? 3 = none)
    ∧ (let u := { t with warps := [(0, { w0 with asks := [(0, .put 3 1 9 9 0 false)] })], blocks := [(0, { blk with bfile := { slots := [(3, ⟨2, 4, 4, 0, false⟩)] } })] }
      (u.warp 0).asks.get? 3 = none ∧ (u.warp 0).asks.get? 0 = some (.put 3 1 9 9 0 false) ∧ (u.warp 0).replies.get? 0 = none
      ∧ (u.putFile (u.warp 0).blk 3).slots.get? 3 = some ⟨2, 4, 4, 0, false⟩)
    ∧ t.xreqs.get? 3 = none ∧ (xreq 0 0 0 1).since + xchgLimit ≤ t.nowCore 0 ∧ t.claimed 1 = false
    ∧ ({ t with agenda := [.xchgMatch 1 2] } : State).claimed 1 = true := by decide +kernel

/-- Warp 0 with a stack of `len` entries, the deepest `n` of them spilled, in a private window of `psize` KiB. -/
def ent (i : Nat) : StackEnt := ⟨768 + 12 * i, 384, 1, false⟩
def deepSt (psize n len : Nat) : State :=
  { at0 { withS w0 [(0, 3), (1, 0), (2, 0), (12, 5), (13, 0), (14, 0)] with stack := (List.range len).map ent, spilled := n } with
    blocks := [(0, { blk with psize := psize })] }

/-- How a spill or fill comes out: 0 stops, 1 waits, 2 fails, 3 is done, the warps and the pc's owner as they were. -/
def spills (u : State) (n m : Nat) (f : List Byte → List Byte) : Nat :=
  let va := u.spillArea u.cur
  match u.reach .r va (State.piecesFrom va (n + 2) (32 * n)) with
  | .stop _ => 0
  | .wait _ => 1
  | .ok x => match x.reach .w va (State.piecesFrom va (m + 2) (32 * m)) with
    | .stop _ => 0
    | .wait _ => 1
    | .ok y => match y.readBytes y.agent va (32 * n) .r with
      | (z, .bytes bs) => match z.writeBytes y.agent va (f bs) with
        | (t, .bytes _, _) => if t.warps = u.warps ∧ t.cur = u.cur then 3 else 2
        | _ => 2
      | _ => 2

theorem wit_Branches :
    let s := at0 (withS w0 [(12, 5), (13, 0), (14, 0)])
    let all := at0 (withS w0 [(12, 0xFFFFFFFF), (13, 0xFFFFFFFF), (14, 0xFFFFFFFF)])
    let back (b : Nat) (l : List StackEnt) := at0 { w0 with back := b, stack := l }
    (∀ i ∈ ([.bra 0 0 3, .bra 1 4 3, .bra 2 4 (-3), .bra 3 4 3, .bra 4 4 3, .bra 5 4 3, .bra 6 4 3, .bdiv 4 3 8] : List Instr),
      s.gate i = .go ∧ all.gate i = .go)
    ∧ s.pos.1 % 12 = 0 ∧ (0 : Int) ≤ s.pos.1 + 12 * (8 : Word).toInt ∧ (0 : Int) ≤ s.pos.1 + 12 * (-3 : BitVec 14).toInt
    ∧ s.execMask &&& s.before.triple 4 ≠ 0 ∧ s.execMask &&& ~~~s.before.triple 4 ≠ 0
    ∧ all.execMask &&& all.before.triple 4 ≠ 0 ∧ all.execMask &&& ~~~all.before.triple 4 = 0
    ∧ (back 62 []).gate (.bra 0 0 0) = .go ∧ (back 63 [⟨768, 1152, 1, true⟩]).gate (.bra 0 0 0) = .go
    ∧ (back 63 [⟨768, 1152, 1, false⟩]).gate (.bra 0 0 0) = .go ∧ (back 63 [⟨770, 1152, 1, false⟩]).gate (.bra 0 0 0) = .go
    ∧ s.me.stack.length - s.me.spilled < 15
    ∧ (∀ n ∈ [0, 1], ∀ psize ∈ [40, 80], let t := deepSt psize n (n + 15)
      t.gate (.bdiv 4 3 8) = .go ∧ t.pos.1 = 384 ∧ t.execMask &&& t.before.triple 4 ≠ 0 ∧ t.execMask &&& ~~~t.before.triple 4 ≠ 0
      ∧ t.isTrap = false ∧ t.me.stack.length = t.me.spilled + 15 ∧ t.me.stack[14]? = some (ent 14) ∧ t.myBlock.psize = psize
      ∧ (psize = 80 → let u := t.modMe fun w => { w with stack := ent 99 :: t.me.stack }
        spills u n (n + 1) ((ent 14).bytes ++ ·) = 3))
    ∧ (let u := (deepSt 80 0 15).modMe fun w => { w with stack := ent 99 :: w.stack }
      spills { u with tlb := [] } 0 1 id = 0 ∧ spills { u with tlb := [], txns := [0] } 0 1 id = 1)
    ∧ (s.pos.1 : Int) + 12 * (-33 : BitVec 14).toInt < 0 := by decide +kernel

theorem wit_Joins :
    let s := at0 (withS w0 [(8, 1152), (9, 0), (10, 1153), (11, 0), (60, 0), (61, 0), (20, 0), (21, 0x60000000)])
    let at' (l : List StackEnt) := at0 { w0 with stack := l }
    (∀ l ∈ ([[], [⟨768, 384, 1, false⟩], [⟨768, 1152, 1, false⟩], [⟨770, 384, 1, false⟩], [⟨384, 9999, 1, true⟩], [⟨384, 9999, 1, true⟩, ⟨768, 1152, 2, false⟩]] : List (List StackEnt)),
      (at' l).gate .join = .go ∧ (at' l).me.spilled = 0 ∧ (at' l).pos.1 = 384)
    ∧ (∀ n ∈ [1, 17], let t := { deepSt 80 n (n + 1) with warps := [(0, { (deepSt 80 n (n + 1)).me with stack := ⟨768, 384, 1, false⟩ :: (List.range n).map ent })] }
      t.gate .join = .go ∧ t.me.stack = ⟨768, 384, 1, false⟩ :: (List.range n).map ent ∧ t.me.spilled = n ∧ t.pos.1 = 384
      ∧ let u := t.modMe fun w => { w with stack := (List.range n).map ent }
        spills u n (n - min 16 n) (·.drop (32 * min 16 n)) = 3 ∧ spills { u with tlb := [] } n 0 id = 0
        ∧ spills { u with tlb := [], txns := [0] } n 0 id = 1)
    ∧ (∀ i ∈ ([.call 4, .calli (.s 8), .ret, .bri (.s 8), .bri (.s 10), .bri (.s 20), .call (-33)] : List Instr), s.gate i = .go)
    ∧ s.readPair (.s 8) 0 % 12 = 0 ∧ s.readPair (.s 10) 0 % 12 ≠ 0 ∧ s.readPair (.s 20) 0 % 12 = 0 ∧ 2 ^ 56 ≤ s.readPair (.s 20) 0 := by decide +kernel

theorem wit_ExitsAndYields :
    let s := at0 w0
    let at' (l : List StackEnt) := at0 { withS w0 [(0, 1), (1, 0), (2, 0)] with stack := l }
    let gone := at0 { w0 with run := .exiting }
    let key := warpKey 0 0
    (s.gate .exit = .go ∧ s.isTrap = false ∧ s.me.stack = [] ∧ State.loadsBack s.before = true ∧ s.before.marks = [] ∧ s.arithNow = none)
    ∧ (let t := at0 { w0 with cntG := [(7, false)] }
      t.gate .exit = .go ∧ State.loadsBack t.before = false)
    ∧ (∀ pc ∈ [768, 770], (at' [⟨384, 384, 1, false⟩, ⟨pc, 1152, 3, false⟩]).gate .exit = .go ∧ (1 : LaneMask) &&& ~~~(at' []).execMask = 0)
    ∧ (3 : LaneMask) &&& ~~~(at' []).execMask ≠ 0
    ∧ (let t := { deepSt 80 1 3 with warps := [(0, { (deepSt 80 1 3).me with stack := [⟨768, 384, 7, false⟩, ent 1, ent 2] })] }
      t.gate .exit = .go ∧ t.me.spilled = 1 ∧ (7 : LaneMask) &&& ~~~t.execMask ≠ 0
      ∧ spills t 1 1 (fun bs => (State.entriesIn bs 1).flatMap fun e => ({ e with mask := e.mask &&& ~~~t.execMask } : StackEnt).bytes) = 3)
    ∧ ((gone.warp key).run = .exiting ∧ State.loadsBack (gone.warp key) = true ∧ (gone.warp key).marks = [] ∧ gone.sfu = []
      ∧ (gone.warp key).bid = 0 ∧ State.arithStop { gone.warp key with ten := (gone.warp key).exTen } = none)
    ∧ (let t := at0 { w0 with run := .exiting, cntG := [(7, false)] }
      (t.warp key).run = .exiting ∧ State.loadsBack (t.warp key) = false)
    ∧ (let t := at0 { w0 with run := .exiting, exTen := 31, sf := 1 }
      (t.warp key).run = .exiting ∧ (State.arithStop { t.warp key with ten := (t.warp key).exTen }).isSome = true)
    ∧ s.gate .nop = .go ∧ s.gate .yield = .go ∧ (at' [⟨768, 1152, 3, true⟩]).gate .yield = .go
    ∧ ∀ pc ∈ [768, 770], (at' [⟨pc, 1152, 3, false⟩]).gate .yield = .go := by
  decide +kernel

theorem wit_ExceptionEntry :
    let s := at0 w0
    s.isTrap = false ∧ s.myBlock.state = .running ∧ ({ cause := .bounds } : Stop).fpos = none ∧ ({ cause := .bounds } : Stop).cause ≠ .halted
    ∧ s.gate (.trap (.const 3)) = .go ∧ s.gate .brk = .go := by decide +kernel

/-! A request at the home of line 2, with the line in its slice. -/

def line2 : SliceLine := { die := 0, slice := 2, set := 2, line := 2, data := List.replicate 128 5 }
def fl (kind : FKind) (core : Nat) : Flight :=
  { core := core, slot := 0, blk := 0, pc := 384, pslot := 0, pexp := false, kind := kind, paths := 1, part := 0, ns := false, region := 0
    root := 0, lease := 2000, cls := 0, ord := 0, scp := 0, dst := 8, ndst := 1
    accs := [{ lane := 3, off := 0, size := 4, va := 260, val := 0x1020304, cmp := 0x5050505 }]
    reqs := [{ win := .global, vline := 2, pa := 256, leaf := some leaf }] }
def home (f : Flight) (st : List DirEnt) : State := { at0 w0 with flights := [(7, f)], slices := [line2], dir := st, time := 10 }
def dirOf (st : DirState) : List DirEnt := [{ base := 2, log := 0, st := st }]

/-- `atDoor` as a computation. -/
def door (s : State) (id k : Nat) (f : Flight) (l : Leaf) (line : Nat) : Bool :=
  decide (s.flights.get? id = some f ∧ k < f.reqs.length ∧ (f.req k).leaf = some l ∧ (f.req k).pa / 128 = line
    ∧ (f.req k).done = false ∧ f.isRmt = false ∧ isMemory line = true
    ∧ s.lineBusy line f.part = false ∧ s.behind (id, k) f.cls line = false ∧ s.redirected f.core line = false ∧ (∀ w ∈ s.wbs, w.line ≠ line)
    ∧ s.homeCheck line f.part l.ns l.shared = none ∧ s.isPoisoned line = false ∧ (∀ r ∈ s.resv, r.line ≠ line)
    ∧ (s.sliceLine line).map (·.ns) = some l.ns ∧ (s.dir.filter fun e => s.dirSet e.base == s.dirSet line).length + 1 ≤ 16
    ∧ (s.l1.filter fun x => x.core == f.core).length < 2048
    ∧ (s.rdc.filter fun x => x.die == f.die && x.line % 65536 == line % 65536).length < 16)

theorem atDoor_iff (s : State) (id k : Nat) (f : Flight) (l : Leaf) (line : Nat) :
    s.atDoor id k f l line ↔ door s id k f l line = true := by
  simp [State.atDoor, door, State.dirSpare, Option.map_eq_some_iff]

/-- Line 1024's page unmapped and untranslated, with a level-2 table at 8192 that holds entry `e`. -/
def walking (e : Nat) : State :=
  { home { fl .load 0 with reqs := [{ win := .global, vline := 1024, pa := 0 }] } [] with
    mem := (Memory.writeN ([] : Memory) 0 (leBytes 8 8193)).writeN 8192 (leBytes 8 e)
    walks := [{ id := 9, die := 0, region := 0, root := 0, ns := false, page := 2, waiters := [(7, 0)] }] }

def walk9 : Walk := { id := 9, die := 0, region := 0, root := 0, ns := false, page := 2, waiters := [(7, 0)] }

theorem wit_Walks :
    let f := { fl .load 0 with reqs := [{ win := .global, vline := 1024, pa := 0 }] }
    let again : Walk := { walk9 with held := true, at' := 10 }
    (walking 15).walks.find? (fun x => x.id == 9 && !x.held && !x.queued) = some walk9 ∧ 9 < (walking 15).nextId
    ∧ (let g : Flight := { fl .load 0 with cls := 1, reqs := [{ win := .global, vline := 2048, pa := 0 }] }
      let h : Flight := { fl .load 0 with reqs := [{ win := .global, vline := 4096, pa := 0 }] }
      let s := { walking 0x802 with
        walks := walk9 :: List.replicate 63 { walk9 with id := 10, page := 3 }
        missq := [(20, 0), (21, 0)], flights := [(7, f), (20, g), (21, h)] }
      let z := s.walk 0 (65536 * 2) 0 false
      let rest := z.1.walks.map fun x => if x.id = 9 then { x with held := true, at' := z.1.now x.die + 1000 } else x
      s.walks.find? (fun x => x.id == 9 && !x.held && !x.queued) = some walk9 ∧ z.2 = .held
      ∧ z.1.missq = [(20, 0), (21, 0)] ∧ z.1.flights.get? 20 = some g ∧ z.1.flights.get? 21 = some h ∧ g.die = walk9.die ∧ h.die = walk9.die
      ∧ g.cls ≠ 0 ∧ h.cls = 0 ∧ ({ z.1 with walks := rest } : State).walksOf 0 = 63
      ∧ z.1.pageWalk 0 0 0 4 = none ∧ z.1.pageWalk 0 0 0 8 = none
      ∧ z.1.tlbLookup 0 0 (128 * 2048) = none ∧ z.1.tlbLookup 0 0 (128 * 4096) = none)
    ∧ (∀ e ∈ [(15, WalkRes.leaf { pa := 0, log := 36, r := true, w := true }), (0, .fail .xlate 2 0), (0x802, .held)],
      let z := (walking e.1).walk 0 (65536 * 2) 0 false
      z.2 = e.2 ∧ z.1.flights.get? 7 = some f)
    ∧ (({ walking 15 with txns := [64] } : State).walk 0 (65536 * 2) 0 false).2 = .wait
    ∧ (let s := { walking 15 with walks := [again] }
      s.walks.find? (fun x => x.id == 9 && x.held && x.at' ≤ s.now x.die) = some again ∧ s.walksOf again.die < 64)
    ∧ (∀ ws ∈ [[], [{ walk9 with waiters := [] }], [{ walk9 with waiters := List.replicate 256 (8, 0) }],
        List.replicate 64 { walk9 with page := 3 }],
      let s := { walking 15 with walks := ws }
      s.flights.get? 7 = some f ∧ (f.req 0).done = false ∧ f.released = true ∧ (f.req 0).leaf = none ∧ (f.req 0).win = .global
      ∧ s.tlbLookup 0 0 (128 * 1024) = none
      ∧ (s.pageWalk 0 0 0 2).map (·.waiters.length) = (ws.head?.bind fun w => if w.page = 2 then some w.waiters.length else none)
      ∧ s.walksOf 0 = ws.length) := by
  decide +kernel

theorem wit_HomeRequests :
    let op : CarryOp := { code := 0 }
    (∀ st ∈ [[], dirOf .u, dirOf (.sh [4]), dirOf (.ex 0)], (home (fl .load 0) st).atDoor 7 0 (fl .load 0) leaf 2)
    ∧ (∀ st ∈ [[], dirOf (.sh [4])], (home (fl .load 32) st).atDoor 7 0 (fl .load 32) leaf 2 ∧ (fl .load 32).die ≠ homeDie 2)
    ∧ (∀ n ∈ [4, 8], ∀ k ∈ FKind.cas :: (List.range 13).map FKind.atomic,
      let a : Acc := { lane := 3, off := 0, size := n, va := 256 + 128 - n, val := 2 ^ (8 * n) - 1, cmp := 5 }
      let f := { fl k 0 with w64 := n == 8, accs := [a] }
      (home f []).atDoor 7 0 f leaf 2 ∧ f.accs = [a] ∧ a.req = 0 ∧ a.bad = none ∧ a.val < 2 ^ (8 * n) ∧ a.va % 128 + n ≤ 128)
    ∧ (∀ c ∈ [0, 32], ∀ k ∈ [FKind.store, .cas, .atomic 0, .atomic 12], (home (fl k c) []).atDoor 7 0 (fl k c) leaf 2
      ∧ (home (fl k c) []).invalidateMsgs 2 (some c) = [] ∧ (home (fl k c) []).invalidateMsgs 2 none = [])
    ∧ (∀ c ∈ [0, 32], ∀ st ∈ [[], dirOf (.ca op [4] [1])], let f := { fl (.atomic 0) c with paths := 4 }
      (home f st).atDoor 7 0 f leaf 2 ∧ State.foldOf f leaf = some op ∧ (home f st).dirState 2 = if st = [] then .u else .ca op [4] [1]) := by
  simp only [atDoor_iff]; decide +kernel

theorem wit_HomeRecalls :
    let owned (f : Flight) := home f (dirOf (.ex 4))
    let x : L1Line := { core := 4, line := 2, st := .m, data := List.replicate 128 9 }
    let y : RdcLine := { die := 1, line := 2, op := some { code := 0 }, data := List.replicate 128 9 }
    let s := { home (fl .load 0) (dirOf (.ex 4)) with l1 := [x], rdc := [y] }
    let w : Wb := { die := false, agent := 4, inc := 0, line := 2, data := List.replicate 128 9 }
    (∀ k ∈ [FKind.load, .store, .cas, .atomic 0], ∀ c ∈ [0, 32], (owned (fl k c)).atDoor 7 0 (fl k c) leaf 2 ∧ (owned (fl k c)).dirState 2 = .ex 4)
    ∧ (s.dirEnt 2).map (·.st) = some (.ex 4) ∧ (s.sliceLine 2).isSome = true ∧ s.l1Line 4 2 = some x ∧ s.rdcLine 1 2 = some y
    ∧ s.dirSpare 2 0 ∧ s.resv = [] ∧ s.wbs = [] ∧ s.mute 1 2 = false ∧ s.scrubbing false 4 2 = false
    ∧ ∀ n ∈ [0, 1], let z := { s with wbs := [{ w with inc := n }] }
      z.wbs.filter (fun w' => w'.die == w.die && w'.agent == w.agent && w'.line == 2) = [{ w with inc := n }] ∧ z.incOf false 4 2 = 0 := by
  unfold State.dirSpare; simp only [atDoor_iff]; decide +kernel

theorem wit_DirectoryAndScrub :
    let f := { fl .store 0 with paths := 4, result := 100 }
    let s := { home f [{ base := 2, log := 0, st := .sh [1] }, { base := 3, log := 0, st := .sh [1] }] with
      time := 70000, l1 := [{ core := 4, line := 2, st := .m, data := [] }], slices := [{ line2 with dirty := true }]
      rdc := [{ die := 4, line := 2, op := some { code := 0 }, data := [] }] }
    s.flights.get? 7 = some f ∧ (∀ e ∈ s.flights, e.2.core = 0 → e.2.paths &&& 4 ≠ 0 → e.1 < f.result → e.1 = 7)
    ∧ (s.core 0).leasemax < s.nowCore 0 ∧ (∀ b ∈ [2, 3], (s.dir.find? (fun e => e.base == b && e.log == 0)).isSome = true)
    ∧ (s.core 4).inc = 0 ∧ (s.slc 0 4).inc = 0 ∧ (s.die 0).incs.get 4 0 = 0 ∧ isMemory 2 = true ∧ homeDie 2 = 0
    ∧ (∀ k ∈ [0, 1, 2], let z := s.modDie 0 fun d => { d with deadBusy := true, scrubKind := k, scrubAgent := if k = 1 then 2 else 4 }
      (z.die 0).deadBusy = true ∧ (z.die 0).scrubKind = k) := by decide +kernel

theorem wit_ReturnsAndLanding :
    let f := { fl .load 0 with reqs := [{ win := .global, vline := 2, pa := 256, done := true }] }
    let g := { f with reqs := [{ win := .global, vline := 2, pa := 256, done := true, fail := some (.xlate, 1) }] }
    let mix := { f with paths := 3, reqs := [{ win := .global, vline := 2, pa := 256, done := true }, { win := .pad, vline := 2 }] }
    (∀ x ∈ [f, { f with scalar := true, accs := [{ lane := 0, off := 0, size := 4, va := 260 }] }, { f with kind := .store, paths := 4, ndst := 0 }],
      (home x []).flights.get? 7 = some x ∧ x.reqs.all (·.done) = true ∧ x.landing = false ∧ x.landed = 0 ∧ x.failure = none ∧ x.returned = false
      ∧ 0 < x.paths ∧ x.paths < 16 ∧ (x.paths &&& 3 = 3 → x.paths = 3))
    ∧ (g.reqs.all (·.done) = true ∧ g.failure.isSome = true ∧ g.slot < 64 ∧ ((home g []).warp g.key).run = .running
      ∧ ((home g []).block ((home g []).warp g.key).blk).state = .running ∧ ((home g []).block ((home g []).warp g.key).blk).killed = false)
    ∧ (mix.paths = 3 ∧ mix.scalar = false ∧ mix.returned = false ∧ (∀ r ∈ mix.reqs, mix.pathOf r = 1 → r.done = true) ∧ ∃ r ∈ mix.reqs, r.done = false)
    ∧ (let h := { f with landing := true }
      let s := { home h [] with blocks := [(0, { blk with state := .evicted, images := [(0, w0)] })] }
      s.flights.get? 7 = some h ∧ (s.block h.blk).images = [(0, w0)] ∧ (s.block h.blk).slots[0]? = some h.slot) := by decide +kernel

theorem wit_ReleasesAndTimers :
    let f := { fl .store 0 with released := false, scp := 2, before := [6] }
    let s := home f []
    let dev := { home { f with scp := 4 } [] with time := 9 }.modCore 0 fun c => { c with leasemax := 9 }
    let held := { s with flights := [(6, fl .store 0), (7, f)] }
    let g := { fl (.tlbi 1 0) 0 with released := false, reqs := [], x := 3 }
    let p := { fl .load 0 with reqs := [{ win := .global, vline := 2, pa := 2 ^ 36, leaf := some leaf }], order := [0, 0, 0, 0] }
    let wait := { w0 with wake := .waitc 1 0, wakeAt := 5, counted := Vector.replicate 4 1 }
    let t := { home p [] with warps := [(0, wait)], time := 3000 }
    let u := { t with walks := [{ id := 9, die := 0, region := 0, root := 0, ns := false, page := 0, waiters := [(7, 0)], held := true }] }
    s.flights.get? 7 = some f ∧ f.released = false ∧ (∀ i ∈ f.before, s.flights.get? i = none) ∧ f.scp < 4
    ∧ held.flights.get? 6 ≠ none ∧ ¬ (f.leaseAt.getD (dev.core 0).leasemax < dev.nowCore 0)
    ∧ (home g []).flights.get? 7 = some g ∧ g.before = [] ∧ g.scp < 4 ∧ ({ g with released := true, leaseAt := some 0 }).lines = []
    ∧ (t.warp (warpKey 0 0)).wake = .waitc 1 0 ∧ (t.warp (warpKey 0 0)).wakeAt + 2000 < t.nowCore 0 ∧ p.key = warpKey 0 0
    ∧ (∀ x ∈ [[], [(7, 0)], [(20, 0)]], let h := { g with released := true, leaseAt := some 0, users := x }
      (home h []).flights.get? 7 = some h ∧ (∀ u ∈ h.users, (home h []).stillUses u = (u.1 == 7)) ∧ h.lines = [])
    ∧ p.landed.testBit 0 = false ∧ p.paths.testBit 0 = true ∧ 0 + p.order[0]?.getD 0 < (t.warp (warpKey 0 0)).counted[0]?.getD 0
    ∧ placeOf (p.req 0).pa = .memory 1 ∧ (p.req 0).done = false ∧ ∃ x ∈ u.walks, x.held = true ∧ ∃ y ∈ x.waiters, y.1 = 7 := by decide +kernel

theorem wit_VersionedAtHome :
    let f := fl .ldlv 0
    let g := { fl .cmst 0 with toks := [0], datas := [List.replicate 128 7], reqs := (fl .cmst 0).reqs.map ({ · with ready := true }) }
    (home f []).atDoor 7 0 f leaf 2 ∧ leaf.shared = false ∧ leaf.pol = 0 ∧ leaf.permits .r f.ns = true ∧ (home f []).dirState 2 = .u
    ∧ (home g []).atDoor 7 0 g leaf 2 ∧ g.reqs.length = 1 ∧ leaf.permits .rw g.ns = true ∧ (g.req 0).ready = true ∧ (g.req 0).fail = none
    ∧ (home g []).tokenOf 2 0 = 0 ∧ (let h := { g with toks := [5] }
      (home h []).atDoor 7 0 h leaf 2 ∧ (home h []).tokenOf 2 0 ≠ 5) := by
  simp only [atDoor_iff]; decide +kernel
/-- A warp with an open bundle of side word 513 (core 0's first) and an open view. -/
def wb : Warp := { wp with bid := 0x100000001, brecDie := 0, brecIdx := 0, vopen := true, vt0 := 4 }
def rec0 : BRec := { die := 0, idx := 0, bid := 0x100000001, st := 1 }
def bases (s : State) : State := s.modDie 0 fun d => { d with bbase := some (2 ^ 22), vbase := some (2 ^ 25) }

theorem wit_BundleWordsAndStaging :
    let s := bases (at0 wp)
    let b := { bases (at0 wb) with brecs := [rec0] }
    let f := fl .vstb 0
    let v : VerEnt := { line := 2, staged := true, data := List.replicate 128 0, side := 77 }
    s.roomy ∧ b.roomy ∧ s.gate (.bopen (.s 20)) = .go ∧ s.me.bid = 0 ∧ (s.die (dieOf s.myCore)).bbase.isSome = true
    ∧ (s.die (dieOf s.myCore)).vbase.isSome = true ∧ s.brec (dieOf s.myCore) 0 = none
    ∧ (∀ i ∈ ([.vstb 2 (.v 8) (.s 12), .vldv 0 0 2 (.v 8) (.s 12), .vldv 1 4 2 (.v 8) (.s 12), .bclose 2 0 (.s 20), .bclose 0 4 (.s 0),
        .vclose (.s 20), .vopen] : List Instr), b.gate i = .go ∧ s.gate i = .go)
    ∧ b.execMask ≠ 0 ∧ b.me.bid ≠ 0 ∧ b.me.btab.length < 30 ∧ b.me.vopen = true ∧ b.myFlights = [] ∧ s.me.vopen = false
    ∧ (∀ l < 96, b.execMask.getLsbD l = true → b.readPair (.s 12) l / 128 = 2 ∧ b.readPair (.s 12) l % 4 = 0 ∧ b.readPair (.s 12) l < 2 ^ 56
      ∧ b.lockedVa (b.readPair (.s 12) l) 4 true = false ∧ b.lockedVa (b.readPair (.s 12) l) 4 false = false)
    ∧ (home f []).atDoor 7 0 f leaf 2 ∧ (home f []).dirState 2 = .u ∧ (home f []).staged 2 = none ∧ (home f []).vers.length < 262144
    ∧ v.notice = none
    ∧ (let z := { home f [] with vers := [v], brecs := [rec0] }
      z.atDoor 7 0 f leaf 2 ∧ z.staged 2 = some v ∧ v.side ≠ z.sideOf 0 0) := by
  unfold State.roomy; simp only [atDoor_iff]; decide +kernel

theorem wit_BundleWordsAndStaging_events :
    (let z := { bases (at0 wb) with brecs := [rec0], flights := [(7, fl .store 0)] }
     z.gate (.bclose 2 4 (.s 20)) = .go ∧ z.me.bid ≠ 0 ∧ z.myFlights.map (·.1) = [7] ∧ (fl .store 0).kind ≠ .bopen)
    ∧ (let f := fl .vstb 0
      let v : VerEnt := { line := 2, staged := true, data := List.replicate 128 0, side := 513, bid := 5 }
      let z := { home f [] with vers := [v], brecs := [rec0] }
      z.atDoor 7 0 f leaf 2 ∧ z.staged 2 = some v ∧ v.bid ≠ f.bid ∧ v.notice = none)
    ∧ (let g := { fl .vstb 0 with bid := 0x100000001 }
      let z := { home g [] with brecs := [rec0] }
      z.flights.get? 7 = some g ∧ (g.req 0).done = false ∧ g.landing = false ∧ z.brec g.x g.y = some rec0 ∧ rec0.bid = g.bid) := by
  simp only [atDoor_iff]; decide +kernel

theorem wit_BundleCommit :
    let f := { fl .bclose 0 with paths := 4, reqs := [], scalar := true, dst := 20, accs := [{ lane := 0, off := 0, size := 4, va := 0 }] }
    let at' (r : BRec) := { home f [] with brecs := [r] }
    let v : VerEnt := { line := 2, staged := true, data := List.replicate 128 0, mask := 1, side := (at' rec0).sideOf 0 0, bid := rec0.bid }
    (∀ r ∈ [{ rec0 with closer := some 7 }, { rec0 with closer := some 7, st := 2, got := [2], lines := [2] },
        { rec0 with closer := some 7, st := 1, got := [2], lines := [2], fail := 3 }],
      (at' r).brec 0 0 = some r ∧ (at' r).stagingLeft 0 0 = false ∧ (at' r).flights.get? 7 = some f)
    ∧ f.released = true ∧ f.landing = false ∧ f.result < 2 ^ 32
    ∧ (let r := { rec0 with st := 3, stamp := 9, lines := [2], got := [2], outstanding := 1, closer := some 7 }
      let s := { at' r with vers := [v] }
      s.brec 0 0 = some r ∧ s.staged 2 = some v ∧ v.bid = r.bid ∧ isMemory 2 = true ∧ (s.die 0).dead = false ∧ (s.die 0).bdiagEn = false
      ∧ s.lineBusy 2 (s.partOf 2) = false ∧ s.dirState 2 = .u ∧ s.resv = [] ∧ (s.sliceLine 2).isSome = true ∧ r.outstanding - 1 = 0)
    ∧ isMemory (2 ^ 38) = false ∧ isMemory (fabricBase / 128) = false ∧ (at' rec0).fabricAt 0 (128 * (fabricBase / 128)) = none
    ∧ (((at' rec0).modDie 0 fun d => { d with fwinCtl := [(0, 2 ^ 63 + 15)] }).fabricAt 0 (128 * (fabricBase / 128))).isSome = true
    ∧ (at' { rec0 with st := 3, outstanding := 2 }).brec 0 0 = some { rec0 with st := 3, outstanding := 2 }
    ∧ (let r := { rec0 with st := 3, lines := [2], outstanding := 0, ackt := 0 }
      let s := { at' r with time := 2000000 }
      s.brec 0 0 = some r ∧ r.ackt + 1000 * (s.die 0).hor < s.now 0) := by decide +kernel

theorem wit_ViewLoads :
    let f := { fl .vldv 0 with x := 4 }
    let s := { home f [] with warps := [(0, wb)] }
    let e : Seen := { line := 2, data := List.replicate 128 1, side := 0, stamp := 0 }
    let t := { home f [] with warps := [(0, { wb with seen := [e] })] }
    s.atDoor 7 0 f leaf 2 ∧ (s.warp f.key).vopen = true ∧ (s.warp f.key).vt0 = f.x ∧ s.dirState 2 = .u ∧ f.landing = false
    ∧ t.atDoor 7 0 f leaf 2 ∧ (t.warp f.key).seen.find? (fun x => x.line == 2) = some e := by
  simp only [atDoor_iff]; decide +kernel

theorem wit_Allocations :
    let s := at0 (withS w0 [(4, 8192), (5, 0), (6, 0), (7, 2 ^ 23), (8, 9), (9, 4095 * 4096)])
    let a : Alloc := { core := 0, index := 0, blk := 0, first := 0, rows := 64, auto := true, life := 0, exp := 0 }
    let old := { s with time := 2000000 }
    let half := { s with time := 60000 }
    let busy := { s with flights := [(7, { fl .load 0 with paths := 2, reqs := [{ win := .pad, vline := 2048 }] })] }
    s.before.acq = [] ∧ s.isTrap = false
    ∧ (∀ x ∈ [(0 : BitVec 1), 1], ∀ z ∈ [(4 : BitVec 6), 7], s.gate (.spalloc 10 z 5 x) = .go)
    ∧ s.allocRun 0 s.myBlk 2 true = some 64 ∧ s.allocRun 0 s.myBlk 2048 true = none
    ∧ s.ownAlloc 0 = some a ∧ s.allocLocked a = false ∧ s.ownAlloc 9 = none
    ∧ (∀ o ∈ [(6 : BitVec 6), 8, 9], s.gate (.spfree o) = .go ∧ s.gate (.sprenew o 5) = .go ∧ s.gate (.spstat 10 o) = .go)
    ∧ (∀ r < 64, s.rowStale 0 r = false) ∧ s.allocAt s.myBlk (4095 * 4096 % 2 ^ 23) = none
    ∧ s.rowsAwaited 0 64 2 = false ∧ busy.rowsAwaited 0 64 2 = true
    ∧ (∀ e ∈ s.warps, e.2.run = .running → s.waitsIn a e.1 = false)
    ∧ half.allocOfRow 0 3 = some a ∧ (half.rowSt 0 3).expired = false ∧ (half.core 0).tret / 2 ≤ half.rowAge 0 3
    ∧ half.rowAge 0 3 ≤ (half.core 0).tret
    ∧ (old.core 0).tret < old.rowAge 0 3 := by decide +kernel

/-- Barrier objects at offsets 64 and 80: at 64 two arrivals expected and none made, at 80 the fields given. -/
def bars (w : Warp) (m : MBar) : State :=
  ((at0 w).setMbar 0 64 { phase := false, held := 0, expect := 2, pend := 2, bytes := 0, status := 0 }).setMbar 0 80 m

theorem wit_BarrierObjects :
    let m : MBar := { phase := true, held := 1, expect := 2, pend := 2, bytes := 48, status := 0 }
    let less : MBar := { m with held := 3 }
    let s := bars (withS w0 [(8, 64), (9, 80), (10, 64), (11, 0xFF200000), (12, 65535), (13, 0), (14, 8)]) m
    let ws := withS w0 [(8, 64), (9, 80), (10, 64), (11, 0xFF200000), (14, 8388592)]
    let late := bars { ws with cntW := [(7, false)] } m
    let parked := bars { ws with wake := .mbwait 64 false } m
    s.before.acq = [] ∧ s.mbar 0 80 = m ∧ s.me.tcause = [] ∧ s.mbParked = false ∧ m.held + 1 ≤ m.pend ∧ ¬ less.held + 1 ≤ less.pend
    ∧ late.before.acq = [] ∧ late.gate (.mbarr 0 (.const 1) (.s 8)) = .go ∧ late.relReady (State.mbScope false) = false
    ∧ parked.before.acq = [] ∧ parked.mbParked = true ∧ (∀ x ∈ [Src.s 8, .s 14], parked.gate (.mbwait 0 (.const 0) x) = .go)
    ∧ (parked.mbAwaited false (.s 8)).toOption = some (0, 64) ∧ (parked.mbAwaited false (.s 14)).isOk = false
    ∧ (∀ e ∈ [((0 : BitVec 1), Src.s 8), (1, .s 10)], s.mbObject (e.1 == 1) e.2 true = .ok (0, 64) ∧ s.mbObject (e.1 == 1) e.2 false = .ok (0, 64)
      ∧ s.relReady (State.mbScope (e.1 == 1)) = true
      ∧ ∀ n ∈ [Src.const 1, .s 12, .s 13], (∀ i ∈ ([.mbinit e.1 n e.2, .mbarr e.1 n e.2, .mbarx e.1 n e.2, .mbwait e.1 n e.2, .mbtest e.1 20 n e.2] : List Instr),
        s.gate i = .go))
    ∧ (s.readScalar (.const 1)).toNat = 1 ∧ (s.readScalar (.s 12)).toNat = 65535 ∧ (s.readScalar (.s 13)).toNat = 0
    ∧ (s.mbar 0 64).phase = (s.readScalar (.s 13)).getLsbD 0 ∧ (s.mbar 0 64).phase ≠ (s.readScalar (.s 12)).getLsbD 0
    ∧ s.mbObject false (.s 9) true = .ok (0, 80) ∧ (s.mbObject false (.s 14) true).isOk = false ∧ s.gate (.mbinit 0 (.const 1) (.s 14)) = .go := by
  decide +kernel

/-- Copy records in the scratchpad: at 0 and 64 contiguous copies of 256 bytes from and to 2048, at 128 a gather, at 192 a TCOW
whose entry is 3, with a reference count of 1; at 256 the words. -/
def linRec : List Byte := leBytes 8 2048 ++ leBytes 4 0 ++ leBytes 4 256 ++ leBytes 4 0 ++ leBytes 4 0x3A ++ leBytes 40 0
def gatRec : List Byte :=
  leBytes 8 0x1000 ++ leBytes 8 0x2000 ++ leBytes 4 0 ++ leBytes 4 16 ++ leBytes 4 1024 ++ leBytes 4 0 ++ leBytes 4 64 ++ leBytes 4 0
    ++ leBytes 4 0 ++ leBytes 4 16 ++ leBytes 4 4 ++ leBytes 12 0
def cowRec : List Byte :=
  leBytes 8 0x1000 ++ leBytes 8 0x2000 ++ leBytes 4 128 ++ leBytes 4 16 ++ leBytes 8 0x3000 ++ leBytes 8 0x4000 ++ leBytes 8 0x5000 ++ leBytes 16 0

def copying (w : Warp) : State :=
  { ((((at0 w).padWrite 0 0 linRec).padWrite 0 64 linRec).padWrite 0 128 gatRec).padWrite 0 192 cowRec with
    mem := (Memory.writeN ([] : Memory) 0x1000 (leBytes 4 3)).writeN 0x300C (leBytes 4 1), time := 10 }

def recOf (r : Record) : State × List Byte :=
  match r with
  | .ok z b => (z, b)
  | _ => (State.reset, [])

def copyOp (kind : OpKind) (r : List Byte) : EngOp :=
  { core := 0, slot := 0, blk := 0, pc := 384, pslot := 0, pexp := false, kind := kind, cls := 0, off := 4096, bar := some 512, record := r }

def opAt (o : EngOp) : State := { copying w0 with ops := [(50, o)] }

/-- A tile's record: its storage format, layout, scales and format in the scratchpad. -/
def tileRec (k sfmt lay scaled ifmt : Nat) : List Byte :=
  leBytes 8 2048 ++ leBytes 4 32 ++ leBytes 4 2 ++ leBytes 4 k ++ leBytes 4 (sfmt + 16 * lay + 64 * scaled + 256 * ifmt) ++ leBytes 8 0x3000
    ++ leBytes 8 (if sfmt = 8 then 0x2000 else 0) ++ leBytes 24 0

/-- Whether an operation's two reads come out, and leave it as it was. -/
def reads2 (o : EngOp) (unit va n : Nat) (scales : Bool) (sva sn : Nat) : Bool :=
  let x := (opAt o).opGather 50 unit o va n
  let y := if scales then x.1.opGather 50 unit o sva sn else (x.1, {})
  !x.2.held && !y.2.held && x.2.fail.isNone && y.2.fail.isNone
    && (y.1.ops.get? 50).map (fun q => (q.units, q.bar, q.core)) == some (o.units, o.bar, o.core)
def writes1 (o : EngOp) (unit va : Nat) (bs : List Byte) : Bool :=
  let x := (opAt o).opScatter 50 unit o va bs
  !x.2.held && x.2.fail.isNone && (x.1.ops.get? 50).map (fun q => (q.units, q.bar, q.core)) == some (o.units, o.bar, o.core)

theorem wit_CopyEngine_units :
    (let r := tileRec 32 8 0 0 0
      let o := copyOp .tcopy r
      let z := (opAt o).readVq 50 o (some 0x2000)
      (CopyRec.of r).inOk r = true ∧ (CopyRec.of r).linear = false ∧ (CopyRec.of r).sfmt = 8 ∧ z.2.isSome = true ∧ (z.1.ops.get? 50).isSome = true
      ∧ (({ opAt o with txns := [64] } : State).readVq 50 o (some 0x2000)).2.isNone = true)
    ∧ (let o := copyOp .tgather gatRec
      let r := GatherRec.of gatRec
      let z := (opAt o).readTable 50 o r r.entries r.first
      z.2 = some [3] ∧ (z.1.ops.get? 50).isSome = true ∧ r.sfmt ≠ 8 ∧ (({ opAt o with txns := [32] } : State).readTable 50 o r r.entries r.first).2 = none)
    ∧ (∀ e ∈ [(0, 0, 0), (4, 2, 0), (0, 0, 1)], let b := tileRec 32 e.1 e.2.1 e.2.2 0
      let r := CopyRec.of b
      let o := { copyOp .tcopy b with started := true, units := [0, 1] }
      r.inOk b = true ∧ r.linear = false ∧ o.idx = [] ∧ o.units.filter (· != 1) ≠ [] ∧ r.scales = (e.2.2 == 1) ∧ (r.scales = true → r.k / 32 = 1)
      ∧ (∀ j < r.rowElems, 528 ≤ o.off + if r.lay = 2 then tilePlace r.lay j (padBytes r.sfmt) 1 else tilePlace r.lay (padBytes r.sfmt) 1 j)
      ∧ reads2 o 1 (r.maddr + r.stride) r.rowBytes r.scales (r.saddr + r.k / 32) (r.k / 32) = true)
    ∧ (let r := GatherRec.of gatRec
      let o := { copyOp .tgather gatRec with started := true, units := [0, 1], idx := [3] }
      3 < min r.nblk (2 ^ 32) ∧ r.scales = false ∧ (∀ j < r.dim, 528 ≤ o.off + tilePlace r.lay (padBytes r.sfmt) 1 j)
      ∧ reads2 o 1 (r.pool + 3 * r.blkBytes + r.headOff + r.tokStride) r.dim false 0 0 = true
      ∧ ({ o with idx := [9] }).idx.getD ((r.tok0 + 1) / r.bt - r.first) 0 = 9 ∧ r.nblk ≤ 9 ∧ o.status = 0)
    ∧ (∀ b ∈ [linRec, tileRec 16 4 0 0 4], ∀ us ∈ [[0, 1], [1]], let r := CopyRec.of b
      let o := { copyOp .tcopyo b with started := true, units := us }
      let va := if r.linear then (r.piece 1).1 else r.maddr + r.stride
      r.outOk b = true ∧ r.scaled = false ∧ (opAt o).staleRange 0 4096 1024 = false ∧ writes1 o 1 va (List.replicate 32 7) = true) := by
  decide +kernel

def cowAt (stage : Nat) (regs : List Nat) : EngOp := { copyOp .tcow cowRec with started := true, stage := stage, regs := regs }
def cowSt (o : EngOp) : State := (opAt o).modOp 50 fun x => { x with started := true }
def rbytes (g : Got) : List Byte :=
  match g with
  | .bytes bs => bs
  | _ => []
def isBytes (g : Got) : Bool :=
  match g with
  | .bytes _ => true
  | _ => false
def kept (o : EngOp) (s : State) : Bool := s.ops.get? 50 == some o

theorem wit_CopyEngine_shared :
    (let o := { cowAt 1 [2] with stage := 1 }
      let s := { opAt o with mem := Memory.writeN ([] : Memory) 0x3008 (leBytes 4 2) }
      let z := (s.modOp 50 fun x => { x with started := true }).opRead o 0x3008 4
      rbytes z.2.1 = leBytes 4 2 ∧ kept o z.1 = true)
    ∧ (∀ e ∈ [(2, 0x4000, 8), (3, 0x5000, 4), (9, 0x4000, 8)], let o := cowAt e.1 [3, 2, 5]
      let z := (cowSt o).opRead o e.2.1 e.2.2
      rbytes z.2.1 = leBytes e.2.2 0 ∧ kept o z.1 = true)
    ∧ (let o := cowAt 2 [3, 2]
      let s := { opAt o with mem := Memory.writeN ([] : Memory) 0x4000 (leBytes 8 0xFFFFFFFF) }
      let z := (s.modOp 50 fun x => { x with started := true }).opRead o 0x4000 8
      leNat (rbytes z.2.1) % 2 ^ 32 = 0xFFFFFFFF ∧ kept o z.1 = true)
    ∧ (∀ e ∈ [(6, 0x3014, 1), (7, 0x1000, 5), (10, 0x500C, 0)], let o := cowAt e.1 [3, 2, 5]
      let z := (cowSt o).opStore o e.2.1 (leBytes 4 e.2.2)
      ((cowSt o).core 0).leasemax < (cowSt o).nowCore 0 ∧ isBytes z.2.1 = true ∧ kept o z.1 = true)
    ∧ (let o := cowAt 5 [3, 2, 5]
      let z := (cowSt o).opRead o (0x2000 + 3 * 128) 128
      let y := z.1.opStore o (0x2000 + 5 * 128) (rbytes z.2.1)
      (rbytes z.2.1).length = 128 ∧ isBytes y.2.1 = true ∧ kept o y.1 = true ∧ 128 * (Cow.of o.regs).line < (CowRec.of cowRec).blkBytes
      ∧ (CowRec.of cowRec).blkBytes ≤ 128 * (Cow.of [0, 0, 0, 0, 0, 0, 0, 1]).line)
    ∧ (∀ e ∈ [(4, 0x4000, 8, [3, 2, 5], 0), (4, 0x4000, 8, [3, 2, 5, 0, 0, 1], 1), (8, 0x300C, 4, [3, 2, 5], 1), (8, 0x3008, 4, [2, 2, 5], 1),
        (11, 0x4000, 8, [3, 2, 5], 0), (11, 0x4000, 8, [3, 2, 5, 0, 0, 1], 1)], let o := cowAt e.1 e.2.2.2.1
      let z := (cowSt o).opCurrent o e.2.1 e.2.2.1
      let x := if e.1 = 4 then z.1.opAcquire o z.2.2 else z.1
      let y := x.opStore o e.2.1 (leBytes e.2.2.1 7)
      (rbytes z.2.1).length = e.2.2.1 ∧ kept o x = true ∧ (x.core 0).leasemax < x.nowCore 0 ∧ isBytes y.2.1 = true ∧ kept o y.1 = true
      ∧ (leNat (rbytes z.2.1) = e.2.2.2.2 ↔ e.2.2.2.1 ≠ [3, 2, 5, 0, 0, 1] ∧ e.2.2.2.1 ≠ [2, 2, 5])) := by
  decide +kernel

theorem wit_CopyEngine :
    (∀ e ∈ [(OpKind.tcopy, 0), (.tcopyo, 64), (.tgather, 128), (.tcow, 192)],
      let s := copying (withS w0 [(8, e.2), (9, 0xFF100000), (4, 4096), (5, 512)])
      let z := recOf (s.readRecord (s.before.spair 8) 64)
      let i : Instr := match e.1 with
        | .tcopy => .tcopy 4 8 5 0
        | .tcopyo => .tcopyo 4 8 5 1
        | .tgather => .tgather 4 8 5 0
        | _ => .tcow 4 8 5 1
      s.gate i = .go ∧ s.before.acq = [] ∧ s.isTrap = false ∧ s.padCovered s.myBlk 512 16 = true ∧ s.copyOps s.myCore < 16
      ∧ z.2.length = 64 ∧ (z.1.copyPlan e.1 4096 z.2).ok = true ∧ (z.1.copyPlan e.1 4096 z.2).aligned = true
      ∧ z.1.padCovered z.1.myBlk 4096 (z.1.copyPlan e.1 4096 z.2).pad = true
      ∧ z.1.locksWait z.1.myCore (z.1.copyPlan e.1 4096 z.2).srcs (z.1.copyPlan e.1 4096 z.2).dsts = false
      ∧ (z.1.copyPlan e.1 4096 (leBytes 64 1)).ok = false)
    ∧ (∀ k ∈ [OpKind.tcopy, .tcopyo], (opAt (copyOp k linRec)).ops.get? 50 = some (copyOp k linRec)
      ∧ (opAt (copyOp k linRec)).opHeld 50 (copyOp k linRec) = false) ∧ (CopyRec.of linRec).linear = true
    ∧ (let o := { copyOp .tcopy linRec with started := true, units := [0, 1] }
      let g := (opAt o).opGather 50 1 o ((CopyRec.of linRec).piece 1).1 ((CopyRec.of linRec).piece 1).2
      g.2.held = false ∧ g.2.fail = none ∧ (g.1.ops.get? 50).map (fun q => (q.units, q.bar, q.core)) = some (o.units, o.bar, o.core)
      ∧ (CopyRec.of linRec).piece 1 = (2176, 128))
    ∧ (let o := copyOp .tcow cowRec
      let g := ((opAt o).modOp 50 fun x => { x with started := true }).opRead o 0x1000 4
      (opAt o).opHeld 50 o = false ∧ g.2.1 = .bytes (leBytes 4 3) ∧ g.1.ops.get? 50 = some { o with started := true })
    ∧ (let o := { copyOp .tcow cowRec with started := true, stage := 1, regs := [3] }
      let g := ((opAt o).modOp 50 fun x => { x with started := true }).opRead o 0x300C 4
      g.2.1 = .bytes (leBytes 4 1) ∧ g.1.ops.get? 50 = some o) := by decide +kernel

def checking : State :=
  copying (withS w0 [(4, 4104), (5, 520), (8, 32), (9, 0xFF100000), (10, 0), (11, 0xFF100000), (12, 512), (13, 64 * 4096), (14, 4096), (15, 4112)])
def readOf (s : State) : State × List Byte := recOf (s.readRecord (s.before.spair 10) 64)

theorem wit_CopyEngine_checks :
    checking.before.acq = [] ∧ checking.isTrap = false
    ∧ (∀ i ∈ ([.tcopy 14 10 5 0, .tcopy 14 8 12 0, .tcopy 4 10 12 0, .tcopy 15 10 12 0, .tcopy 14 10 13 0, .tgather 15 10 12 0] : List Instr),
      checking.gate i = .go)
    ∧ checking.padCovered checking.myBlk (64 * 4096) 16 = false
    ∧ ((readOf checking).1.copyPlan .tcopy (64 * 4096) (readOf checking).2).aligned = true
    ∧ ((readOf checking).1.copyPlan .tcopy (64 * 4096) (readOf checking).2).ok = true
    ∧ (readOf checking).1.padCovered 0 (64 * 4096) ((readOf checking).1.copyPlan .tcopy (64 * 4096) (readOf checking).2).pad = false
    ∧ ((readOf (checking.padWrite 0 0 (linRec.set 20 0x0A))).1.copyPlan .tcopy 4112 (readOf (checking.padWrite 0 0 (linRec.set 20 0x0A))).2).aligned
      = false := by decide +kernel


/-- A step descriptor at 256: one target, the line at 256, summed, of one line; at 1024 the source. -/
def stepRec : List Byte := leBytes 4 0x10 ++ leBytes 4 128 ++ leBytes 8 0 ++ leBytes 8 256 ++ leBytes 232 0
def stepping (w : Warp) : State := { ((at0 w).padWrite 0 256 stepRec).padWrite 0 2048 (leBytes 4 0x10 ++ leBytes 4 98304 ++ leBytes 8 0 ++ leBytes 8 256 ++ leBytes 232 0) with
  slices := [line2], time := 10 }
def stepOp (plain : Bool) : EngOp := { copyOp (.cstep false plain) stepRec with off := 1024, left := [128], regs := [1] }
def stepAt (o : EngOp) : State := { stepping w0 with ops := [(50, o)] }
def resvAt (n : Nat) : List Resv := List.replicate n { line := 130, op := { code := 0 }, data := [] }

def homeOf (p : State.Place) : Option (Nat × Leaf) :=
  match p with
  | .home n l => some (n, l)
  | _ => none

theorem wit_CopySteps :
    (∀ e ∈ [((0 : BitVec 2), 1024, 256), (1, 7, 2048), (0, 1024, 0)], ∀ plain ∈ [(0 : BitVec 1), 1],
      let s := stepping (withS w0 [(4, e.2.1), (5, e.2.2), (6, 512)])
      let x := StepDesc.of (s.padRead 0 e.2.2 256)
      s.gate (.cstep plain e.1 4 5 6 0) = .go ∧ s.before.acq = [] ∧ s.isTrap = false ∧ s.tileStale 7 = none ∧ s.padCovered s.myBlk e.2.2 256 = true
      ∧ s.padCovered s.myBlk 512 16 = true ∧ s.unsettled s.cur s.chainId [s.padRange e.2.2 256] = false
      ∧ s.engineWaits s.myCore [s.padRange e.2.2 256] [] = false ∧ s.staleRange s.myCore e.2.2 256 = false
      ∧ x.ok (s.padRead 0 e.2.2 256) (e.1 == 1) = decide (e.2.2 ≠ 0) ∧ s.padCovered s.myBlk 1024 x.bytes = true
      ∧ 7 < s.myBlock.nacc ∧ s.tileBusy s.myBlk 7 = false ∧ s.locksWait s.myCore [s.padRange 1024 x.bytes] [] = false) := by decide +kernel

theorem wit_CopySteps_events :
    (let o := stepOp true
      let g := (stepAt o).stepPlace o (StepDesc.of stepRec) 0 0
      (stepAt o).ops.get? 50 = some o ∧ (stepAt o).opHeld 50 o = false ∧ homeOf g.2 = some (2, leaf) ∧ g.1.dirState 2 = .u ∧ g.1.resv = [] ∧ g.1.wbs = []
      ∧ g.1.dirSpare 2 0 ∧ (g.1.sliceLine 2).isSome = true ∧ (stepAt o).staleRange 0 1024 128 = false)
    ∧ (let o := stepOp false
      let z := (stepAt o).modOp 50 fun o => { o with started := true }
      let g := z.stepPlace o (StepDesc.of stepRec) 0 0
      z.stepYields 50 = false ∧ homeOf g.2 = some (2, leaf) ∧ g.1.ops.get? 50 = some { o with started := true } ∧ (g.1.mbar 0 512).status = 0
      ∧ ((g.1.reserve 2 0 leaf.policy { code := 0 } 50).map fun y => y.ops.get? 50) = some (some { o with started := true }))
    ∧ (stepAt { stepOp true with regs := [2] }).ops.get? 50 = some { stepOp true with regs := [2] }
    ∧ (StepDesc.of stepRec).targets.getD 0 (0, 0, 0) = (256, (State.reset.die 0).devId, 0)
    ∧ (((stepAt (stepOp true)).modDie 0 fun d => { d with dead := true }).die 0).dead = true := by
  unfold State.dirSpare; decide +kernel

theorem wit_CopySteps_noslot :
    let o := stepOp false
    let z := { (stepAt o) with resv := resvAt 4096 }.modOp 50 fun o => { o with started := true }
    let g := z.stepPlace o (StepDesc.of stepRec) 0 0
    (homeOf g.2 = some (2, leaf) ∧ g.1.ops.get? 50 = some { o with started := true } ∧ (g.1.mbar 0 512).status = 0
      ∧ (g.1.reserve 2 0 leaf.policy { code := 0 } 50).isNone = true
      ∧ (let v := (g.1.releaseResvs 50).releasePeers o (StepDesc.of stepRec)
        v.ops.get? 50 = some { o with started := true } ∧ o.bar = some 512 ∧ o.status = 0 ∧ o.left = [128] ∧ (v.mbar 0 512).status = 0))
    ∧ (let s := { stepAt { o with cls := 1 } with resv := resvAt 4095, agenda := [.cstepReserve 51] }
      let t := { s with ops := s.ops ++ [(51, o)] }
      t.opHeld 50 { o with cls := 1 } = false ∧ (t.modOp 50 fun o => { o with started := true }).stepYields 50 = true) := by decide +kernel

/-- Cores 0 and 1 with a block each, of one cluster; the tiles hold elements of order 2. -/
def pairBlk : Block := { blk with core := 1, ident := 1, idx := 1, slots := [0] }
def ftile2 : FTile := { order := 2, bank := [(0, 0x3F800000), (96, 0x3F000000), (97, 0x3F800000)] }
def paired (w : Warp) : State :=
  { at0 w with
    blocks := [(0, { blk with ftiles := [(1, ftile2)] }), (1, pairBlk)], clusters := [(1, { blks := [0, 1] })]
    allocs := [{ core := 0, index := 0, blk := 0, first := 0, rows := 64, auto := true, life := 0, exp := 0 },
      { core := 1, index := 0, blk := 1, first := 0, rows := 64, auto := true, life := 0, exp := 0 }] }
def mmaWarp : Warp := { withS w0 [(4, 0), (5, 8192), (6, 16), (7, 16384), (8, 32), (9, 0), (10, 4), (11, 252), (12, 512), (13, 2)] with
  v := [(2, Vector.replicate 96 0x3F800000), (3, Vector.replicate 96 0)] }

theorem wit_MatrixEngine :
    let s := paired mmaWarp
    s.before.acq = [] ∧ s.isTrap = false ∧ s.tileStale 7 = none ∧ 7 < s.myBlock.nacc ∧ s.pairBusy s.myBlk 7 = false ∧ s.tileLocked s.myBlk 7 = false
    ∧ s.matrixFull [s.myCore] = false ∧ s.matrixFull [s.myCore, 1] = false ∧ s.execMask ≠ 0 ∧ s.tileBusy s.myBlk 7 = false ∧ s.partner = some (1, 1)
    ∧ (∀ i ∈ ([.mma 7 0 0 4 5 6, .mma 7 1 1 4 5 6, .mma 7 0 0 4 5 4, .mmasp 7 0 0 4 5 8, .acld 7 (.s 7) (.s 12), .acst 7 (.s 7) (.s 12),
        .acrd 7 20 (.s 11), .acwr 7 20 (.const 4)] : List Instr), s.gate i = .go)
    ∧ (∀ e ∈ [(false, 16), (true, 32)], let h := Shape.ofWord e.1 e.2 0 8192 (if e.1 then 0 else 0)
      h.ok e.2 = true ∧ s.anyOut s.myBlk (h.rangesA ++ h.rangesB) = none
      ∧ s.anyLate s.myCore (clocksNs (h.groups * h.clocks + s.queueDue [s.myCore, 1] s.ctxCls)) (h.rangesA ++ h.rangesB) = none
      ∧ s.locksWait s.myCore (State.toRanges (s.identOf s.myBlk) (h.rangesA ++ h.rangesB)) [] = false
      ∧ s.unsettled s.cur s.chainId (State.toRanges (s.identOf s.myBlk) (h.rangesA ++ h.rangesB)) = false
      ∧ s.anyOut 1 h.rangesB = none ∧ s.tileLocked 1 7 = false ∧ s.locksWait 1 (State.toRanges (s.identOf 1) h.rangesB) [] = false)
    ∧ (Shape.ofWord false 0 0 8192 0).ok 0 = false
    ∧ s.padCovered s.myBlk 16384 98304 = true ∧ s.padCovered s.myBlk 512 16 = true
    ∧ s.lateRange s.myCore 16384 98304 (clocksNs (48 + s.queueDue [s.myCore] s.ctxCls)) = false
    ∧ (s.readScalar (.s 11)).toNat = 252 := by decide +kernel

def mmaOp (kind : OpKind) : EngOp := { copyOp kind [] with tile := 7, off := 16384, bar := some 512, args := [16, 0, 0, 0, 8192, 0] }
def matrixAt (o : EngOp) (running : Option Nat) : State :=
  { paired mmaWarp with ops := [(50, o)] }.modCore 0 fun c => { c with mq := [50], running := running }

theorem wit_MatrixEngine_events :
    (∀ k ∈ [OpKind.mma false false false, .acst], (matrixAt (mmaOp k) none).nextMatrix 0 = some (50, mmaOp k) ∧ (mmaOp k).entered = false)
    ∧ (∀ k ∈ [OpKind.mma false true false, .mma true false false, .acld, .acst], let o := { mmaOp k with started := true }
      ((matrixAt o (some 50)).core 0).running = some 50 ∧ (matrixAt o (some 50)).ops.get? 50 = some o ∧ o.core = 0 ∧ o.pair = none
      ∧ o.bar = some 512 ∧ 512 + 16 ≤ o.off)
    ∧ (∀ cls ∈ [0, 2], let o := { mmaOp (.mma false false false) with started := true, cls := 1, args := [64, 0, 0, 0, 8192, 0] }
      let s := { matrixAt o (some 50) with ops := [(50, o), (51, { mmaOp .acst with cls := cls })] }.modCore 0 fun c => { c with mq := [50, 51] }
      o.stage + 1 < o.shape.groups ∧ s.lowerWaits o = (cls == 0) ∧ o.entered = false) := by decide +kernel

theorem wit_FactorTile :
    let s := paired mmaWarp
    s.before.acq = [] ∧ s.isTrap = false ∧ 1 < s.myBlock.nft ∧ (s.ftQueue s.myBlk 1).length < 4 ∧ s.ftChanging 1 = false ∧ s.ftOrder 1 = 2
    ∧ (∀ i ∈ ([.ftupd 1 (.v 2), .ftdnd 1 (.v 2), .ftslvf 1 (.v 4) (.v 2), .ftslvb 1 (.v 4) (.v 2), .ftrow 1 (.v 4) (.const 1), .ftst 1 (.s 7) (.s 12),
        .ftld 1 (.s 7) (.s 12), .ftinit 1 (.v 2) (.s 13), .ftinit 1 (.v 3) (.s 13)] : List Instr), s.gate i = .go)
    ∧ s.padCovered s.myBlk 512 16 = true ∧ s.padCovered s.myBlk 16384 (ftBytes 2) = true
    ∧ s.locksWait s.myCore [] [s.padRange 16384 (ftBytes 2)] = false ∧ s.unsettled s.cur s.chainId [s.padRange 16384 (ftBytes 2)] = false
    ∧ (s.readScalar (.s 13)).toNat = 2 ∧ (∀ i < 2, posFinite (s.readLane (.v 2) i).toNat = true) ∧ posFinite (s.readLane (.v 3) 0).toNat = false
    ∧ (let z := s.padWrite 0 16384 (leBytes 16 2)
      z.padCovered z.myBlk 16384 16 = true ∧ z.engineWaits z.myCore [z.padRange 16384 16] [] = false ∧ z.staleRange z.myCore 16384 16 = false
      ∧ fieldAt (z.padRead z.myCore 16384 16) 0 4 = 2 ∧ zeroFrom (z.padRead z.myCore 16384 16) 4 12 = true
      ∧ z.lateRange z.myCore 16384 (ftBytes 2) (clocksNs ((ftBytes 2 + 2047) / 2048 + 2 + z.ftDue z.myBlk 1)) = false
      ∧ z.locksWait z.myCore [z.padRange 16384 (ftBytes 2)] [] = false) := by decide +kernel

def ftOp (kind : OpKind) (v : Word) : EngOp :=
  { copyOp kind [] with tile := 1, off := 16384, args := [5, if kind = .ftrow then 1 else 2], vec := List.replicate 96 v, n := 4, exec := 7, started := true }
def ftAt (o : EngOp) : State :=
  (({ paired { mmaWarp with ftTrap := false } with ops := [(50, o)] } : State).padWrite 0 16384 (ftile2.image))

theorem wit_FactorTile_events :
    (∀ k ∈ [OpKind.ftinit, .ftupd false, .ftupd true, .ftslv false, .ftslv true, .ftrow, .ftld, .ftst],
      let o := ftOp k 0x3F800000
      let p := { o with started := false }
      ((ftAt o).ftQueue 0 1).head? = some (50, o) ∧ (ftAt o).ops.get? 50 = some o ∧ ((ftAt p).ftQueue 0 1).head? = some (50, p)
      ∧ (ftAt p).ops.get? 50 = some p ∧ (ftAt o).hasWarp 0 = true ∧ ((ftAt o).warp 0).blk = 0 ∧ ((ftAt o).warp 0).ftLost = false
      ∧ ((ftAt o).warp 0).ftTrap = false ∧ 512 + 16 ≤ o.off)
    ∧ (let o := ftOp (.ftupd true) 0x3F800000
      (ftAt o).lossHeld 0 = false ∧ ({ ftAt o with warps := [(0, { mmaWarp with inBar := some (3, false, 0) })] }).lossHeld 0 = true)
    ∧ (∀ k < 2, posFinite ((FTile.ofImage 2 ((ftAt (ftOp .ftld 0)).padRead 0 16384 (ftBytes 2))).at' k k) = true)
    ∧ posFinite ((FTile.ofImage 2 (List.replicate 32 0)).at' 0 0) = false
    ∧ (match sweep true 2 2 0 { bank := ftile2.bank, x := [0x41000000, 0] } with
      | .ok _ => false
      | .error c => c == 0) = true
    ∧ (match sweep false 2 2 0 { bank := ftile2.bank, x := [0x3F800000, 0x3F800000] } with
      | .ok _ => true
      | .error _ => false) = true := by decide +kernel

/-! Region 5 of die 0, its control block at 0x100000, queue 0's ring at 0x8000 and its producer index at 0x9000. -/

def puts (l : List (Nat × List Byte)) : Memory := l.foldl (fun m e => Memory.writeN m e.1 e.2) []
def tables : List (Nat × List Byte) := [(0, leBytes 8 8193), (8192, leBytes 8 31)]
def rcbBytes (root : Bool) (parent : Nat) : List Byte :=
  leBytes 4 (5 + 4096 * parent + if root then 2 ^ 24 else 0) ++ leBytes 4 0 ++ leBytes 4 1 ++ leBytes 4 1 ++ leBytes 4 1 ++ leBytes 4 768 ++ leBytes 4 2048
    ++ leBytes 4 256 ++ leBytes 4 1 ++ leBytes 4 0
/-- A queue descriptor with EN, PROD or CONS, of 16 records, at consumer index `c`. -/
def qdesc (flags c : Nat) : List Byte := leBytes 8 0x8000 ++ leBytes 8 0x9000 ++ leBytes 4 (4 + flags) ++ leBytes 4 c ++ leBytes 4 c
def leaf36 : Leaf := { pa := 0, log := 36, r := true, w := true, x := true }
def region5 : Region :=
  { die := 0, id := 5, rcb := 0x100000, diemask := 1, rodmask := 1, coremask := 1, cls := 1, npslot := 4, watch := [(0, (288, leaf36))], pidx := [(0, 1)] }
/-- The region with queue 0 set up. -/
def regionQ (flags c : Nat) : Region := { region5 with queues := [(0, QDesc.of (qdesc flags c))] }
def queues (flags c p : Nat) (rec : List Byte) : State :=
  { at0 w0 with
    mem := puts (tables ++ [(0x6000, leBytes 8 0 ++ leBytes 4 128 ++ leBytes 4 0), (0x8000 + 64 * (c % 16), rec), (0x9000, leBytes 4 p), (0x100100, qdesc flags c)])
    regions := [regionQ flags c], blocks := [], warps := [], allocs := [], time := 10 }
def single : List Byte := leBytes 8 0 ++ leBytes 8 0x6000 ++ leBytes 16 0 ++ leBytes 32 0
def join : List Byte := leBytes 8 2 ++ leBytes 56 0



def errOf (e : State × Except Nat Region) : Nat :=
  match e.2 with
  | .ok _ => 0
  | .error c => c
def watchesOf (e : State × Except Nat Region) : Option (List (Nat × Nat × Leaf) × Bool) :=
  match e with
  | (s, .ok r) => let x := s.setWatches r (List.range 8)
    some (x.2.1.watch, x.2.2)
  | _ => none


def bytesOf (g : Got) : List Byte :=
  match g with
  | .bytes b => b
  | _ => []
def gotBytes (g : Got) : Bool :=
  match g with
  | .bytes _ => true
  | _ => false
def isHeld (g : Got) : Bool :=
  match g with
  | .held => true
  | _ => false

def activating (b q : List Byte) : State :=
  { at0 w0 with mem := puts (tables ++ [(0x9000, leBytes 4 1), (0x100000, b), (0x100100, q)]), regions := [{ region5 with id := 3, rcb := 0x200000 }] }.modDie 0 fun d =>
    { d with regBusy := [5], regPtr := [(5, 0x100000)] }

theorem wit_Regions :
    (∀ e ∈ [(rcbBytes true 0, 0), (rcbBytes false 3, 0), (rcbBytes false 2, 2), (leBytes 4 6, 1)],
      let s := activating e.1 (qdesc 0x60 0)
      5 ∈ (s.die 0).regBusy ∧ s.going = [] ∧ errOf (s.readRcb 0 5) = e.2
      ∧ (e.2 = 0 → watchesOf (s.readRcb 0 5) = some ([(0, (288, leaf36))], true))) := by decide +kernel

theorem wit_Regions_held :
    let s := activating (rcbBytes true 0) (leBytes 8 0x8000 ++ leBytes 8 (2 ^ 36 + 0x9000) ++ leBytes 4 (4 + 0x60) ++ leBytes 8 0)
    let t := { s with mem := s.mem.writeN 8200 (leBytes 8 0x802) }
    watchesOf (t.readRcb 0 5) = some ([], false) := by decide +kernel

theorem wit_Regions_notice :
    (∀ p ∈ [0, 1], ∀ f ∈ [0x60, 0xA0], let s := queues f 0 p join
      let r := regionQ f 0
      s.regionOf 0 5 = some r ∧ r.active = true ∧ r.watch.get? 0 = some (288, leaf36) ∧ (r.queue 0).cidx = 0 ∧ (r.queue 0).cons = decide (f = 0xA0)
      ∧ leNat (slice (bytesOf (s.readLine 288 r.part false leaf36.policy).2) ((r.queue 0).pidxa % 128) 4) = p)
    ∧ isHeld (({ queues 0x60 0 1 join with txns := [288] }).readLine 288 0 false leaf36.policy).2 = true
    ∧ (let s := (queues 0x60 0 1 join).modDie 0 fun d => { d with dead := true }
      gotBytes (s.readLine 288 0 false leaf36.policy).2 = false) := by decide +kernel

def launched (e : State × Option (Except Nat LRec)) : Option (Nat × Nat) :=
  match e.2 with
  | some (.ok x) => some (x.kind, x.nblk)
  | some (.error c) => some (99, c)
  | none => none

def lrec5 : LRec := { die := 0, region := 5, queue := 0, kind := 1, coop := false, clust := 0, nblk := 2, code := 0x6000, dict := 0, frame := 0x7000
                      joinc := 0, vregs := 128, live := 2 }

theorem wit_Records :
    (∀ e ∈ [(join, some (2, 0)), (single, some (0, 1)), (leBytes 8 3 ++ leBytes 56 0, some (99, 1))],
      let s := queues 0x60 0 1 e.1
      s.regionOf 0 5 = some (regionQ 0x60 0) ∧ s.queueReady (regionQ 0x60 0) 0 = true ∧ s.nextQueue 0 = some (5, 0)
      ∧ launched ((s.turned (regionQ 0x60 0) 0).checkRecord (regionQ 0x60 0) 0) = e.2)
    ∧ launched ((({ queues 0x60 0 1 join with txns := [256] }).turned (regionQ 0x60 0) 0).checkRecord (regionQ 0x60 0) 0) = none
    ∧ (let s := { queues 0x60 0 1 join with regions := [regionQ 0x60 0, { regionQ 0x60 0 with id := 6, cls := 0 }] }
      s.queueReady (regionQ 0x60 0) 0 = true ∧ s.nextQueue 0 = some (6, 0))
    ∧ (let s := { queues 0 0 0 [] with recs := [(60, lrec5)] }
      s.recs.get? 60 = some lrec5 ∧ s.regionOf 0 5 = some (regionQ 0 0) ∧ s.findPlace 60 = some 0
      ∧ s.resumesFirst (State.recCls (regionQ 0 0) lrec5) = false) := by decide +kernel



theorem wit_Records_retire :
    (let s := { at0 { w0 with run := .exited } with blocks := [(0, { blk with lrec := 60 })], recs := [(60, { lrec5 with placed := 2, live := 1 })] };
      s.blockBusy 0 = false ∧ (∀ k ∈ s.blockWarps 0, (s.warp k).run = .exited) ∧ (s.block 0).state = .running ∧ (s.block 0).mstale = [])
    ∧ (let x := { lrec5 with joinc := 0xA000, ended := ⟨0, 5⟩ }
      let s := { queues 0 0 0 [] with recs := [(60, x)], mem := puts (tables ++ [(0xA000, leBytes 4 2)]) };
      s.regionOf x.die x.region = some (regionQ 0 0) ∧ x.ended.hold < s.now 0
      ∧ bytesOf (s.joinDec (State.regionAgent (regionQ 0 0)) 0xA000 1 x.ended).2 = leBytes 4 1 ∧ s.now 0 ≤ ({ x.ended with hold := 10 }).hold)
    ∧ (∀ f ∈ [0, 0x20, 0x40, 0x60], let p : Push := { region := 5, queue := 0, succ := 0xB000, from' := 0xA000 }
      let s := { queues f 0 1 [] with pushes := [(61, p)] }
      s.pushes.get? 61 = some p ∧ (s.queueAt 5 0) = some (regionQ f 0) ∧ ((regionQ f 0).queue 0).en = decide (f &&& 0x20 ≠ 0)
      ∧ ((regionQ f 0).queue 0).prod = decide (f &&& 0x40 ≠ 0)) := by decide +kernel

theorem wit_Records_push :
    let p : Push := { region := 5, queue := 0, succ := 0xB000, from' := 0xA000 }
    (∀ e ∈ [(0xB000, 1, State.Pushed.done), (0xB000, 16, .full), (2 ^ 36, 1, .failed)], let p := { p with succ := e.1 }
      let r := regionQ 0x60 0
      let s := { queues 0x60 0 e.2.1 [] with pushes := [(61, p)] }
      let y := s.arrives 61 p
      y.pushBehind 5 0 ((y.pushes.get 61 p).at') = false ∧ (y.pushSuccessor r p).2 = e.2.2
      ∧ (e.1 = 0xB000 → (let a := s.readBytes (State.regionAgent r) p.succ 64 .r
        let b := a.1.pidxRead r 0
        let c := b.1.lidxOf r 0
        (bytesOf a.2).length = 64 ∧ leNat (bytesOf b.2) = e.2.1 ∧ c.2 = 0
        ∧ (e.2.1 = 1 → (c.1.ringPush r 0 1 (bytesOf a.2) p.tag).2 = some true))))
    ∧ (let s := { queues 0x60 0 1 [] with pushes := [(61, p), (62, { p with at' := 3 })] }
      (s.arrives 61 p).pushBehind 5 0 (((s.arrives 61 p).pushes.get 61 p).at') = true)
    ∧ (let s := { queues 0x60 0 1 [] with pushes := [(61, p)], txns := [0xB000 / 128] }
      ((s.arrives 61 p).pushSuccessor (regionQ 0x60 0) p).2 = .held) := by decide +kernel

def qwarp : Warp := withS w0 [(4, 0), (5, 7), (6, 8), (8, 64), (10, 5), (12, 0xA000), (13, 0), (14, 2)]
def qAt (flags p : Nat) (w : Warp) : State :=
  { queues flags 0 p [] with
    blocks := [(0, { blk with region := 5 })], warps := [(0, w)], allocs := (at0 w0).allocs
    mem := puts (tables ++ [(0x9000, leBytes 4 p), (0x100100, qdesc flags 0), (0xA000, leBytes 4 2 ++ leBytes 4 5 ++ leBytes 8 0xB000)]) }

theorem wit_QueueWords :
    (∀ f ∈ [0xA0, 0x60, 0x20, 0x80], let s := qAt f 1 qwarp
      (∀ i ∈ ([.qwait 20 (.s 4), .qwait 20 (.s 5), .qwait 20 (.s 6), .crpush 8 10 20, .jdec 12 14 20] : List Instr), s.gate i = .go)
      ∧ s.me.replies.get? 1 = none ∧ s.me.asks.get? 1 = none ∧ s.acqHolds = false ∧ s.isTrap = false
      ∧ (s.queueInfo 5 0).map (fun e => (e.en, e.cons)) = some (decide (f &&& 0x20 ≠ 0), decide (f &&& 0x80 ≠ 0))
      ∧ s.padReadCheck 64 64 = none ∧ s.relReady 4 = true ∧ s.before.spair 12 % 32 = 0)
    ∧ (∀ k ∈ [1, 2, 3], let s := qAt 0xA0 1 { qwarp with replies := [(k, .value 7)] }
      s.me.replies.get? k = some (.value 7) ∧ (∀ i ∈ ([.qwait 20 (.s 4), .crpush 8 10 20, .jdec 12 14 20] : List Instr), s.gate i = .go))
    ∧ (∀ p ∈ [0, 1], let s := qAt 0xA0 p { qwarp with asks := [(1, .qwait 5 0 3)] }
      let r := regionQ 0xA0 0
      s.firstWaiter 5 0 = some 0 ∧ s.queueAt 5 0 = some r ∧ (r.queue 0).en = true ∧ (r.queue 0).cons = true ∧ r.active = true
      ∧ bytesOf (s.pidxRead r 0).2 = leBytes 4 p ∧ (r.queue 0).cidx = 0
      ∧ isHeld (({ s with txns := [288] }).pidxRead r 0).2 = true) := by
  decide +kernel

theorem wit_QueueWords_events :
    (∀ e ∈ [(5, 0x60, 1, State.Pushed.done), (5, 0x60, 16, .full), (5, 0x40, 1, .done), (5, 0x20, 1, .done), (3, 0x60, 1, .done)],
      let s := { qAt e.2.1 e.2.2.1 { qwarp with asks := [(2, .crpush 64 5 0 (List.replicate 64 1))] } with blocks := [(0, { blk with region := e.1 })] }
      let r := regionQ e.2.1 0
      s.queueAt 5 0 = some r ∧ s.descends 4 5 e.1 = decide (e.1 = 5) ∧ ((s.queueInfo 5 0).map (·.prod)).getD false = decide (e.2.1 &&& 0x40 ≠ 0)
      ∧ (r.queue 0).en = decide (e.2.1 &&& 0x20 ≠ 0) ∧ s.pushes = [] ∧ s.pushBehind 5 0 s.nextId = false
      ∧ (s.pushRecord r 0 (List.replicate 64 1) ⟨(s.core 0).lclk, (s.core 0).leasemax⟩).2 = e.2.2.2)
    ∧ (let s := qAt 0x60 1 { qwarp with asks := [(2, .crpush 64 5 0 (List.replicate 64 1))] }
      let b := { s with pushes := [(61, { region := 5, queue := 0, succ := 0xB000, from' := 0xA000, at' := 3 })] }
      b.pushBehind 5 0 b.nextId = true ∧ (b.crpushFull (regionQ 0x60 0) 0).2 = false
      ∧ (({ s with txns := [288] }).pushRecord (regionQ 0x60 0) 0 (List.replicate 64 1) {}).2 = .held)
    ∧ (∀ m ∈ [1, 2, 3], let s := qAt 0x60 1 { qwarp with asks := [(3, .jdec 0xA000 m)] }
      let ag := s.blockAgent 0
      let z := s.translate ag 0xA000 .rw
      let b := z.1.readVa ag 0xA000 32 .r
      z.2 = .leaf leaf ∧ placeOf (leaf.phys 0xA000) = .memory 0 ∧ fieldAt (bytesOf b.2) 0 4 = 2 ∧ fieldAt (bytesOf b.2) 8 8 = 0xB000
      ∧ (s.warp (warpKey 0 0)).asks.get? 0 = none ∧ (s.warp (warpKey 0 0)).replies.get? 3 = none
      ∧ (m ≤ 2 → gotBytes (b.1.writeVa ag 0xA000 (leBytes 4 (2 - m))).2.1 = true)) := by decide +kernel

/-- A JDEC that borrows chained with a PUT to a slot another mode has. -/
theorem wit_QueueWords_chained :
    let w := { qwarp with asks := [(0, .put 3 1 9 9 0 false), (3, .jdec 0xA000 3)] }
    let s0 := qAt 0x60 1 w
    let s := { s0 with blocks := [(0, { blk with region := 5, bfile := { slots := [(3, { mode := 0, val := 5 })] } })] }
    let ag := s.blockAgent 0
    let z := s.translate ag 0xA000 .rw
    let b := z.1.readVa ag 0xA000 32 .r
    z.2 = .leaf leaf ∧ placeOf (leaf.phys 0xA000) = .memory 0 ∧ fieldAt (bytesOf b.2) 0 4 = 2
    ∧ (s.warp (warpKey 0 0)).asks.get? 0 = some (.put 3 1 9 9 0 false) ∧ (s.warp (warpKey 0 0)).replies.get? 0 = none
    ∧ ((s.putFile (s.warp (warpKey 0 0)).blk 3).slots.get? 3).map (fun x => x.mode) = some 0
    ∧ b.1.warp (warpKey 0 0) = s.warp (warpKey 0 0) ∧ b.1.blocks = s.blocks ∧ b.1.clusters = s.clusters ∧ b.1.grids = s.grids := by decide +kernel
def domAt (n : Nat) (d : Domain) : State := (at0 w0).modDie 0 fun x => { x with doms := x.doms.setIfInBounds n d }

theorem wit_DomainsAndPower :
    (∀ n < 4, ∀ d ∈ ([⟨1, 0, 0, false, true, true⟩, ⟨1, 0, 0, true, true, true⟩, ⟨1, 0, 0, false, false, true⟩, ⟨1, 0, 0, false, false, false⟩] : List Domain),
      (domAt n d).domain 0 n = d ∧ (domAt n d).txns = [] ∧ (domAt n d).linesHeld = [])
    ∧ (let s := { domAt 0 ⟨0xFFFFFFFF, 0, 0, true, true, true⟩ with txns := [2] }
      let z := s.modSlice 0 (s.sliceOf 2) fun x => { x with dead := true }
      isMemory 2 = true ∧ homeDie 2 = 0 ∧ s.domainOf 2 = 0 ∧ (s.slc 0 (s.sliceOf 2)).dead = false ∧ (z.slc 0 (z.sliceOf 2)).dead = true
      ∧ ∃ l ∈ (home (fl .load 0) []).linesHeld, l = 2)
    ∧ ((List.range 32).any fun k => (0xFFFFFFFF : Nat).testBit k && !((at0 w0).slc 0 k).on) = false
    ∧ (let s := (at0 w0).modSlice 0 3 fun x => { x with on := false, pwr := false }
      ((List.range 32).any fun k => (8 : Nat).testBit k && !(s.slc 0 k).on) = true ∧ (s.slc 0 3).pwr = false ∧ (s.slc 0 3).on = false)
    ∧ ((at0 w0).die 0).shareNew.get? 2 = none ∧ (at0 w0).share 0 2 ≠ 4
    ∧ (((at0 w0).modDie 0 fun d => { d with shareNew := [(2, 3)] }).die 0).shareNew.get? 2 = some 3
    ∧ (∀ k < 4, ((domAt 0 ⟨7, 0, 0, false, true, true⟩).domain 0 k).mask.testBit 3 = false)
    ∧ (at0 w0).blocksOn 0 ≠ [] ∧ (at0 w0).blocksOn 5 = [] := by decide +kernel

theorem wit_WindowWrites :
    let s := at0 w0
    (s.die 0).deadBusy = false ∧ (∀ r ∈ s.brecs, r.die = 0 → r.st = 0) ∧ (∃ r ∈ ({ s with brecs := [rec0] } : State).brecs, r.die = 0 ∧ r.st ≠ 0)
    ∧ (∀ off ∈ [0x10000, 0x10068, 0x10070, 0x10038, 0x20000, 0x201F8, 0x30000, 0x40000, 0x40008, 0x40010, 0x40018, 0x50000, 0x500F8, 0x51000,
        0x51008, 0x60000, 0x6DFF8, 0x6E000, 0x6E3F8, 0x70000, 0x70010, 0x1000000, 0x11F0000, 0x3000000, 0x300FFF8, 0x4000000, 0x4001FF8,
        0x4100000, 0x41FFFF8], (cfgRegAt off).isSome = true)
    ∧ ((s.modDie 0 fun d => { d with deadBusy := true }).die 0).deadBusy = true
    ∧ (cfgTarget 0x70008 false).isNone = true ∧ (cfgTarget 0x51000 false).isNone = true ∧ (s.core 0).preempt.busy = false ∧ s.blockAt 0 0 = some 0 ∧ s.blockAt 0 1 = none
    ∧ (∀ x ∈ 0 :: s.clusterBlks 0, (s.block x).state = .running)
    ∧ (let z := s.modCore 0 fun c => { c with preempt := { busy := true, saving := false } }
      (z.core 0).preempt.busy = true ∧ (z.core 0).preempt.saving = false)
    ∧ 5 ∉ (s.die 0).regBusy := by decide +kernel

theorem wit_HandlerWords :
    let fr : FaultRec := { valid := true, rpc := 768, prime := 2 }
    let s (run : Run) (l : List (Nat × Nat)) : State :=
      { atTrap w0 with warps := [(0, { w0 with run := run, frec := fr }), (64, withS w0 l)] }
    (∀ run ∈ [Run.stopped, .exited, .running], ∀ f ∈ [(0, 0), (3, 0), (4, 0), (0, 1)],
      let z := s run [(4, f.1), (5, f.2)]
      z.gate (.sret (.s 4) (.s 5)) = .go ∧ (z.readScalar (.s 4)).toNat = f.1 ∧ z.servedWarp f.2 = if f.2 = 0 then some 0 else none)
    ∧ (let z := s .stopped []
      z.gate .skill = .go ∧ (z.core z.myCore).serving = some 0)
    ∧ (∀ n ∈ [0, 256 * 63, 0x10000000 + 256 * 127 + 95, 0x20000000 + 256 * 7 + 2, 0x30000100, 0x40000000 + 256 * 15, 0x60000000 + 95, 0x70000000 + 256 * 15,
        0x40000500, 0xFFFFFFFF],
      let z := s .stopped [(4, 0), (5, n)]
      z.gate (.xrd 20 (.s 4) (.s 5)) = .go ∧ z.gate (.xwr 20 (.s 4) (.s 5)) = .go ∧ z.servedWarp 0 = some 0 ∧ (z.readScalar (.s 5)).toNat = n
      ∧ (∀ r ∈ [0, 127, 128, 191], z.resultDue 0 r = false)) := by decide +kernel

theorem wit_PrivilegedRegisters :
    let s := atTrap w0
    (∀ n ∈ [0, 1, 2, 3, 4, 5, 6, 7, 8, 0x10, 0x11, 0x12, 0x13, 0x14, 0x15, 0x16, 0x17], s.gate (.csrr 20 (BitVec.ofNat 8 n)) = .go)
    ∧ (∀ n ∈ [0, 1, 2, 3, 4, 5, 6, 7, 0x10, 0x11, 0x12, 0x13, 0x14, 0x15, 0x16, 0x17], s.gate (.csrw 20 (BitVec.ofNat 8 n)) = .go)
    ∧ ((at0 w0).isPriv = true ∧ (at0 w0).gate (.csrw 20 3) = .go)
    ∧ ({ s with warps := [(64, { w0 with csrHeld := [(1, 768)] })] } : State).me.csrHeld.get? 1 = some 768 := by decide +kernel

theorem wit_HaltsAndEntries :
    let halted : State := { at0 w0 with blocks := [(0, { blk with state := .halted })], cur := 130 }
    let r : Region := { region5 with id := 0, handler := 384 * 9 }
    let entry (p : Nat) (h : Nat) : State :=
      { at0 { w0 with run := .stopped } with blocks := [(0, { blk with state := .halted })], regions := [{ r with policy := p, handler := h }] }.modCore 0 fun c =>
        { c with haltq := [0], trapBase := 384 * 5 }
    let bp : State := { at0 w0 with blocks := [(0, { blk with priv := false })] }.modCore 0 fun c =>
      { c with bken := true, bkpt := c.bkpt.setIfInBounds 3 385 }
    ((halted.warp 0).run = .running ∧ (halted.block (halted.warp 0).blk).state = .halted ∧ halted.sweeping 0 = false ∧ 0 ≠ halted.cur)
    ∧ (∀ e ∈ [(0, 384 * 9), (2, 0)], (entry e.1 e.2).unsettledHalt 0 = false ∧ ((entry e.1 e.2).core 0).serving = none
      ∧ ((entry e.1 e.2).core 0).haltq = [0])
    ∧ (entry 0 3456).handlerOf 0 5 0 = some (3456, some { r with policy := 0, handler := 3456 })
    ∧ (entry 2 0).handlerOf 0 5 0 = some (0, none) ∧ ((entry 2 0).core 0).trapBase = 1920 ∧ ((entry 2 0).regionOf 0 0).isSome = true
    ∧ bp.hasWarp 0 = true ∧ (bp.warp 0).run = .running ∧ bp.breakpointAt 0 = some 3 ∧ (bp.block 0).state = .running := by decide +kernel

theorem wit_FetchedCode :
    let s := at0 w0
    let f := s.readBytes s.agent 384 384 .x
    let z := s.modCore 0 fun c => { c with dicts := c.dicts.setIfInBounds 1 { tag := 4096 } }
    s.hasWarp (warpKey 0 0) = true ∧ s.me.pc / 384 * 384 = 384 ∧ (s.chunkLines s.agent 384).length = 3
    ∧ (s.chunkLines s.agent 384).all isMemory = true ∧ (bytesOf f.2).length = 384
    ∧ (s.blocks.get? 0).map (fun x => (x.dict, x.state)) = some (4096, BlkState.running)
    ∧ (z.core 0).dicts[1]? = some { tag := 4096 } ∧ gotBytes (z.readBytes (z.blockAgent 0) 4096 4096 .x).2 = true
    ∧ isHeld (({ z with txns := [32] }).readBytes (z.blockAgent 0) 4096 4096 .x).2 = true
    ∧ (let y := { z with tlb := [{ core := 0, rod := none, region := 0, va := 0, leaf := { leaf with x := false } }] }
      gotBytes (y.readBytes (y.blockAgent 0) 4096 4096 .x).2 = false ∧ isHeld (y.readBytes (y.blockAgent 0) 4096 4096 .x).2 = false) := by decide +kernel

theorem wit_Preemption :
    let s (w : Warp) (n : Nat) : State := ((at0 w).modCore 0 fun c => { c with preempt := { busy := true, blks := [0] } }).modDie 0 fun d => { d with ctxN := n }
    let asleep : Warp := { w0 with wake := .bar 1 0 }
    (∀ w ∈ [w0, asleep], ((s w 4).core 0).preempt.busy = true ∧ ((s w 4).core 0).preempt.saving = false ∧ (s w 4).evicting 0 = [0]
      ∧ ∀ x ∈ (s w 4).evicting 0, ((s w 4).block x).state = .running)
    ∧ (s w0 4).allBlocked 0 = false ∧ (s asleep 4).allBlocked 0 = true ∧ (s asleep 4).freeCtxs 0 = [0, 1, 2, 3] ∧ (s asleep 0).freeCtxs 0 = []
    ∧ (s asleep 4).saveWaits 0 = false
    ∧ (let z := (s asleep 0).modCore 0 fun c => { c with preempt := { c.preempt with parking := true } }
      (z.core 0).preempt.parking = true ∧ (z.core 0).preempt.busy = true ∧ z.evicting 0 = [0] ∧ z.parkFits [0] = true ∧ z.allBlocked 0 = true)
    ∧ (let z := { at0 w0 with blocks := [(0, { blk with state := .evicted, leasemax := 5 })], warps := [], time := 10 }
      (z.block 0).state = .evicted ∧ (z.block 0).landed = false ∧ z.blockFlights 0 = [] ∧ (z.block 0).leasemax < z.nowCore (z.block 0).core)
    ∧ (let z := { queues 0 0 0 [] with
                    blocks := [(0, { blk with region := 5, state := .evicted, landed := true, dict := 0, images := [(0, { w0 with wake := .waitc 1 0 })] })]
                    clusters := [(1, { blks := [0] })] }
      z.wakes 0 = true ∧ (∀ x ∈ z.clusterBlks 0, x ≠ 0 → (z.block x).state = .retired) ∧ z.findResume 0 = some 0 ∧ z.findResume 0 ≠ some 1
      ∧ (z.block 0).kept = none) := by
  decide +kernel

/-- Port 0 of die 0 with grant 3 over the first 64 KiB, and one staged version of line 2 under the side word of agent 4/1/9. -/
def inbound : State :=
  { home (fl .load 0) [] with
    vers := [{ line := 2, staged := true, data := List.replicate 128 3, mask := 1, side := sideName 4 1 9 }]
    flights := [], opened := true }.modDie 0 fun d => { d with ingCtl := [(3, 2 ^ 63 + 2 ^ 62 + 1)], ingBase := [(3, 0)] }

theorem wit_InboundRequests :
    let s := inbound
    (s.admitted 0 3 (2 ^ 20) 4 false).isNone = true ∧ (s.admitted 0 63 0 128 true).isNone = true ∧ (s.admitted 0 64 0 8 true).isNone = true
    ∧ (s.admitted 0 3 65532 4 false).isSome = true ∧ (s.admitted 0 3 256 128 true).isSome = true ∧ (s.admitted 0 3 264 8 true).isSome = true
    ∧ (s.admitted 0 3 65533 4 false).isNone = true ∧ (∀ e ∈ [(65532, 4), (256, 128), (264, 8)], s.inboundHeld e.1 e.2 0 = false)
    ∧ (let g := s.grant 0 3
      (s.inboundRead g 65532 (State.piecesFrom 65532 2 4)).2.1 = none ∧ (s.inboundWrite g 256 (List.replicate 128 1) (State.piecesFrom 256 3 128)).2 = none
      ∧ gotBytes (s.readLine (State.inboundLine 2) g.part g.ns .cached).2 = true ∧ (s.inboundWrite g 264 (leBytes 8 1) [8]).2 = none)
    ∧ (let z := { s with txns := [2] }
      (z.admitted 0 3 256 128 true).isSome = true ∧ z.inboundHeld 256 128 0 = true ∧ z.notTaken (State.inboundLine 2) 0 = true)
    ∧ State.inboundLine 2 = 2 ∧ s.opened = true ∧ isMemory 2 = true ∧ s.notTaken 2 0 = false ∧ s.homeCheck 2 0 false false = none
    ∧ s.stageHeld 2 (sideName 4 1 9) 0 = false ∧ (s.staged 2).map (fun x => (x.side, x.notice)) = some (sideName 4 1 9, none)
    ∧ State.reset.opened = false ∧ State.reset.booted = false := by decide +kernel

theorem wit_InboundRequests_steps :
    (let hd : Sender := { port := 0, device := 4 }
      let resv (n : Nat) : State := { inbound with resv := resvAt n }
      ((inbound.homeEnter 2 0 false false).reserve 2 0 .cached { code := 12 } (State.peerStep hd)).isSome = true
      ∧ (((resv 4096).homeEnter 2 0 false false).reserve 2 0 .cached { code := 0 } (State.peerStep hd)).isNone = true)
    ∧ (let s := { State.reset with booted := true }
      (∀ d < 24, 0 ∉ (s.die d).regBusy) ∧ 0 ∈ ((s.modDie 3 fun d => { d with regBusy := [0] }).die 3).regBusy)
    ∧ (let s := { State.reset with steer := -5, time := 20000 }
      s.steer ≠ 0 ∧ s.slewed + 10000 ≤ s.time ∧ s.tick.time ≠ s.time + 1) := by decide +kernel

theorem wit_DecodeWords : ∀ o ∈ [0x1E, 0x3F, 0x7D], fld (0x80FFFFFF % 2 ^ 24 + o * 2 ^ 24) 24 7 = o := by decide +kernel

theorem wit_RoundTrip :
    ∀ i ∈ ([.vadd 127 (.v 127) (.lit 0xFFFFFFFF), .smov 63 (.s 0), .mma 7 1 1 63 63 62, .bdiv 20 (-1) 0x80000000, .dpair 1 1022 0, .jdec 62 63 63] : List Instr),
      i.isWord = true ∧ i.wf = true := by decide +kernel

theorem wit_OneMeaning : (∀ w ∈ [0x820702FF, 0x3E8, 0xFFFFFFFF], w < 2 ^ 32)
    ∧ decode [0x820702FF, 0x3E8, 0xFFFFFFFF] = some (true, .vmul 7 (.v 2) (.lit 1000)) := by decide +kernel

def user (w : Warp) : State := { at0 w with blocks := [(0, { blk with priv := false, region := 5 })] }
def roled (n : Nat) : State := at0 { w0 with role := n }

theorem wit_IssueChecks :
    let s := at0 w0
    let good (s : State) (i : Instr) : Prop := i.pipe.isSome = true ∧ i.wf = true ∧ pfxOk s.pfx i = true ∧ ∀ k ∈ s.reads i ++ i.writes, 128 ≤ k ∨ k < s.me.budget
    let i : Instr := .vadd 5 (.v 3) (.v 4)
    good s i ∧ i.byLane = true ∧ s.execMask ≠ 0 ∧ s.poisonOf i = none
    ∧ (∃ k ∈ (at0 { w0 with budget := 5 }).reads i ++ i.writes, ¬ (128 ≤ k ∨ k < (at0 { w0 with budget := 5 }).me.budget))
    ∧ good (user w0) (.csrr 4 8) ∧ (Instr.csrr 4 8).privileged = true ∧ (user w0).isPriv = false
    ∧ good (roled 1) (.mma 0 0 0 4 5 6) ∧ (Instr.mma 0 0 0 4 5 6).roleOk 1 = false
    ∧ ((home { fl .load 0 with dst := 4 } []).reads i ++ i.writes).find? (home { fl .load 0 with dst := 4 } []).pending = some 4
    ∧ ((at0 { w0 with marks := [{ fl := 1, scalar := false, reg := 4, n := 1, stop := { cause := .xlate }, paths := 1 }] }).markOn (s.reads i ++ i.writes)).isSome = true
    ∧ ({ s with sfu := [{ sfuRes with dst := 4 }] } : State).sfuBusy (s.reads i ++ i.writes) = true
    ∧ ({ s with sfu := [sfuRes] } : State).flagsBusy (.srd 4 2) = true
    ∧ ((at0 { w0 with bad := [(96 * 4 + 7, 1)] }).poisonOf i).isSome = true := by decide +kernel

theorem wit_PrivilegeAndRoles :
    (∀ i ∈ ([.csrw 4 3, .skill, .tlbiAll] : List Instr), i.isWord = true ∧ i.wf = true ∧ i.privileged = true)
    ∧ (user w0).isTrap = false ∧ (user w0).myBlock.priv = false ∧ (user w0).pfx = none ∧ (user w0).me.budget = 128
    ∧ (∀ e ∈ [(1, Instr.mma 0 0 0 4 5 6), (2, .tcopy 4 8 5 0), (3, .mma 0 0 0 4 5 6), (3, .tcow 4 8 5 0)],
      e.2.isWord = true ∧ e.2.wf = true ∧ e.2.privileged = false ∧ e.2.roleOk (roled e.1).me.role = false ∧ (roled e.1).pfx = none) := by decide +kernel

theorem wit_PairsAndPrefixes :
    let s := State.reset.withPacket [0x00050304, 0, 0]
    s.isTrap = false ∧ s.myBlock.dict = 4096 ∧ (s.core s.myCore).dicts.toList.find? (·.tag == s.myBlock.dict) = some State.loadDict
    ∧ State.loadDict.loaded = true ∧ State.loadDict.fail = none ∧ (20 : BitVec 6).toNat ≤ 20 ∧ (5 : BitVec 3).toNat ≤ 5 ∧ (Src.v 127).ok = true
    ∧ (atTrap w0).isTrap = true ∧ (at0 w0).myBlock.dict ≠ 0
    ∧ (entries [0x00050304, 0x00060304] false { i := .dpair 0 0 1, c := true, place := (0, false), next := (1, false) }).map (·.map (·.c)) = some [false, true]
    ∧ (entries [0x80050304, 0x00060304] true { i := .dpair 1 0 1, c := true, place := (0, false), next := (1, false) }).map (·.map (·.c)) = some [true, true]
    ∧ (entries [0x00050304] false { i := .dpair 0 0 1023, c := false, place := (0, false), next := (1, false) }).map (·.map (·.c)) = some [false] := by decide +kernel

/-- VADD v5, v3, v4 stands alone in its chain, BRA next, as warp 0 issues. -/
def issuing : State := State.reset.withFetchWord 32 0x00050304

def gotElems (p : State × Fetched (List Elem)) : List Elem :=
  match p.2 with
  | .got es => es
  | _ => []

def isNext (r : Host.Outcome State Fault Refusal) : Bool :=
  match r with
  | .next t => t.out == .done && t.hasWarp t.cur
  | _ => false

theorem wit_StepRunsDecoded :
    let s := issuing
    let b := { s.background with sched := [] }
    let a := b.cycle 0
    let s0 : State := { a with cur := 0, src := none, pfx := none, expansion := [], only := none }
    let p := State.stands s0.me
    let z := ({ s0 with pos := p, npos := p } : State).elemsAt p
    let e := (gotElems z).head?
    let m := a.turnAt 0
    s.sched = [.issue 0] ∧ a.onDuty 0 m = true ∧ a.picks 0 = [0] ∧ (a.pipesOf 0).all (a.granted 0 m) = true ∧ s0.me.solo = none
    ∧ e.map (·.i) = some (.vadd 5 (.v 3) (.v 4)) ∧ e.map (·.c) = some false
    ∧ z.1.breakpointAt 0 = none ∧ z.1.me.stepping = false
    ∧ (e.map fun e =>
        let h := z.1.hold p (gotElems z)
        let s1 := { h with pfx := e.pfx, expansion := [], pos := (p.1, e.place), npos := State.follows p.1 e, srcId := h.nextId, out := .done, src := some h.me }
        isNext (exec e.i s1)) = some true
    ∧ State.isInput (.debugHalt 0) = true
    ∧ (let i : Instr := .inboundMread { port := 0, device := 4, flow := some 1 } 3 0 4
      let q (l : List Instr) : State := { State.reset with agenda := l, sched := [.input i] }
      State.isInput i = true ∧ ((q [i]).background.agenda.any (State.sameFlow i)) = true
      ∧ ((q []).background.agenda.any (State.sameFlow i)) = false ∧ ((q [i]).background.agenda.any (State.sameFlow (.debugHalt 0))) = false
      ∧ (q [i]).background.mayRun 0 = true ∧ (q [i]).background.agenda[0]? = some i) := by decide +kernel

theorem wit_MemoryKept : issuing.memoryWf ∧ isNext (match step issuing with
    | .next t => .next { t with out := .done }
    | r => r) = true := by
  unfold State.memoryWf; decide +kernel

theorem wit_ExecWithinSplit :
    let s := at0 w0
    s.me.exec &&& ~~~s.me.sls = 0 ∧ s.before.sls = s.me.sls
    ∧ ∀ i ∈ ([.bra 0 0 3, .sand 0 (.s 0) (.s 1), .vicmp 0 0 (.v 3) (.v 4)] : List Instr), i.pipe.isSome = true ∧ i ≠ .exit ∧ isNext (match exec i s with
      | .next t => .next { t with out := .done }
      | r => r) = true := by decide +kernel

/-! Results. The expected values are the spec's (12_vector_scalar.md, the table of results) or worked by hand from the rule named. -/

def after (i : Instr) (s : State) : State :=
  match exec i s with
  | .next t => t
  | _ => State.reset

/-- One warp with lane 0 active: `a` in v1 and s10, `b` in v2 and s11. -/
def ab (a b : Nat) : State :=
  at0 { withS w0 [(0, 1), (1, 0), (2, 0), (10, a), (11, b), (12, 0), (13, 0)] with
    v := [(1, Vector.replicate 96 (BitVec.ofNat 32 a)), (2, Vector.replicate 96 (BitVec.ofNat 32 b))] }
def v3 (t : State) : Nat := (lane (t.me.vreg 3) 0).toNat
def flags (t : State) : List Bool := (List.range 5).map fun k => t.me.flag k 0

/-- The spec's rows for VADD and VADDS. -/
theorem test_vadd_wraps : v3 (after (.vadd 3 (.v 1) (.v 2)) (ab 0x7FFFFFF0 0x20)) = 0x80000010 := by decide +kernel
theorem test_vadds_saturates : v3 (after (.vadds 3 (.v 1) (.v 2)) (ab 0x7FFFFFF0 0x20)) = 0x7FFFFFFF := by decide +kernel
/-- R252: 0x80000000 less 1 saturates at the least value. -/
theorem test_vsubs_saturates : v3 (after (.vsubs 3 (.v 1) (.v 2)) (ab 0x80000000 1)) = 0x80000000 := by decide +kernel
/-- R252: the high half of -1 times -1, signed and unsigned. -/
theorem test_vmulh_sign : v3 (after (.vmulh 3 (.v 1) (.v 2)) (ab 0xFFFFFFFF 0xFFFFFFFF)) = 0
    ∧ v3 (after (.vmulhu 3 (.v 1) (.v 2)) (ab 0xFFFFFFFF 0xFFFFFFFF)) = 0xFFFFFFFE := by decide +kernel
/-- R252: a count of 33 is one of 1. -/
theorem test_shift_by_33 : v3 (after (.vsar 3 (.v 1) (.v 2)) (ab 0x80000000 33)) = 0xC0000000
    ∧ v3 (after (.vshl 3 (.v 1) (.v 2)) (ab 0x80000001 33)) = 2 ∧ v3 (after (.vrol 3 (.v 1) (.v 2)) (ab 0x80000001 33)) = 3
    ∧ v3 (after (.vrol 3 (.v 1) (.v 2)) (ab 0x12345678 32)) = 0x12345678 := by decide +kernel
/-- The inactive lanes keep their value (R247). -/
theorem test_inactive_lane_kept : lane ((after (.vmov 1 (.v 2)) (ab 5 9)).me.vreg 1) 0 = 9 ∧ lane ((after (.vmov 1 (.v 2)) (ab 5 9)).me.vreg 1) 1 = 5 := by
  decide +kernel
/-- The spec's row for VFMUL then VFADD -1.0: inexact (bit 4) from the product alone. -/
theorem test_vfmul_rounds : v3 (after (.vfmul 3 (.v 1) (.v 2)) (ab 0x3F800001 0x3F7FFFFF)) = 0x3F800000
    ∧ flags (after (.vfmul 3 (.v 1) (.v 2)) (ab 0x3F800001 0x3F7FFFFF)) = [false, false, false, false, true]
    ∧ v3 (after (.vfadd 3 (.v 1) (.v 2)) (ab 0x3F800000 0xBF800000)) = 0 := by decide +kernel
/-- R254: the exact 2^-24 - 2^-47, one rounding, no flag; the spec's row prints 0x337FFFFF, which is 2^-24 - 2^-48 (log entry 49). -/
theorem test_vfma_once : v3 (after (.vfma 3 (.v 1) (.v 2)) { ab 0x3F800001 0x3F7FFFFF with pfx := some (0, false, 0, .const 11) }) = 0x337FFFFE
    ∧ flags (after (.vfma 3 (.v 1) (.v 2)) { ab 0x3F800001 0x3F7FFFFF with pfx := some (0, false, 0, .const 11) }) = List.replicate 5 false := by decide +kernel
/-- The spec's rows for VRCP and VCVT.FS. -/
theorem test_vrcp_third : sfRcp 0x40400000 = (0x3EAAAAAB, 16) := by decide +kernel
theorem test_vcvt_fs : v3 (after (.vcvt 3 (.v 1) 2) (ab 0xC03C0000 0)) = 0xFFFFFFFD
    ∧ flags (after (.vcvt 3 (.v 1) 2) (ab 0xC03C0000 0)) = [false, false, false, false, true] := by decide +kernel
/-- R252, R253: signed and unsigned order; the mask bit is lane 0's. -/
theorem test_vicmp_order : (after (.vicmp 4 2 (.v 1) (.v 2)) (ab 0xFFFFFFFF 1)).me.sreg 12 = 1
    ∧ (after (.vicmp 4 6 (.v 1) (.v 2)) (ab 0xFFFFFFFF 1)).me.sreg 12 = 0 := by decide +kernel
/-- R262: the carry of a 32-bit sum is lost; R263: a 64-bit one keeps it. -/
theorem test_sadd_wraps : (after (.sadd 20 (.s 10) (.s 11)) (ab 0xFFFFFFFF 2)).me.sreg 20 = 1
    ∧ (after (.sadd64 20 (.s 10) (.s 12)) (at0 (withS w0 [(10, 0xFFFFFFFF), (12, 2)]))).me.spair 20 = 2 ^ 32 + 1 := by decide +kernel
/-- R265: the spec's word SBFX s6, s7, 0x0805 takes 8 bits from bit 5; with bit 15 they are signed. -/
theorem test_sbfx_field : (after (.sbfx 20 (.s 10) (.lit 0x0805)) (ab 0x1FE0 0)).me.sreg 20 = 0xFF
    ∧ (after (.sbfx 20 (.s 10) (.lit 0x8805)) (ab 0x1FE0 0)).me.sreg 20 = 0xFFFFFFFF := by decide +kernel
/-- R299: a write of s0 is ANDed with the running split's lanes. -/
theorem test_s0_within_split : (after (.smov 0 (.lit 6)) (at0 { w0 with sls := 5 })).me.sreg 0 = 4 := by decide +kernel
/-- R264: no lane set gives all ones. -/
theorem test_smfst_none : (after (.smfst 20 4) (ab 0 0)).me.sreg 20 = 0xFFFFFFFF := by decide +kernel
/-- R269: reserved rounding mode 6 leaves RND; the enables are written. -/
theorem test_swr_fpctl : (after (.swr 3 (.s 10)) (ab 0x1F06 0)).me.rnd = 1 ∧ (after (.swr 3 (.s 10)) (ab 0x1F06 0)).me.ten = 31 := by decide +kernel
/-- R301: the offset counts packets from the word's own. -/
theorem test_bra_back : (after (.bra 0 0 (-2)) (ab 0 0)).me.pc = 360 ∧ (after (.bra 0 0 (-2)) (ab 0 0)).me.back = 1 := by decide +kernel
/-- R303: the taken lanes wait in the SPLIT on top, the RECONV below it. -/
theorem test_bdiv_pushes :
    let t := after (.bdiv 4 3 8) (at0 (withS w0 [(0, 7), (1, 0), (2, 0), (12, 1), (13, 0), (14, 0)]))
    (t.me.stack.map fun e => (e.pc, e.reconv, e.mask)) = [(420, false, 1), (480, true, 7)] ∧ t.me.exec = 6 := by decide +kernel
/-- R309: the return address is the next packet's. -/
theorem test_call_links : (after (.call 4) (ab 0 0)).me.pc = 432 ∧ (after (.call 4) (ab 0 0)).me.spair 60 = 396 := by decide +kernel
/-- R337: TRAP 3 stops the warp with its code, to resume at the next packet. -/
theorem test_trap_record : (after (.trap (.const 3)) (ab 0 0)).me.frec.data = 3 ∧ (after (.trap (.const 3)) (ab 0 0)).me.frec.rpc = 396
    ∧ (after (.trap (.const 3)) (ab 0 0)).myBlock.state = .halted := by decide +kernel
/-- R227: the last arrival ends the phase and the count starts again. -/
theorem test_mbarr_phase : ((after (.mbarr 0 (.const 2) (.s 10)) (bars (withS w0 [(10, 64)]) { phase := false, held := 0, expect := 1, pend := 1, bytes := 0, status := 0 })).mbar 0 64)
    = { phase := true, held := 0, expect := 2, pend := 2, bytes := 0, status := 0 } := by decide +kernel
/-- R221: rows 0 to 63 are taken, so 8192 bytes go to row 64. -/
theorem test_spalloc_lowest : (after (.spalloc 20 10 11 0) (ab 8192 0)).me.sreg 20 = 4096 * 64 := by decide +kernel
/-- R283: column 4 of row 0. -/
theorem test_acrd_column : lane ((after (.acrd 7 20 (.const 4)) { at0 w0 with blocks := [(0, { blk with accs := [(7, [(4, 9), (5, 8)])] })] }).me.vreg 21) 0 = 8 := by
  decide +kernel
/-- R41: an opcode the table leaves out, and a reserved field that is not 0, decode to nothing. -/
theorem test_reserved_words : ∀ w ∈ [0x1E000000, 0x3F000000, 0x7D000000, 0x3A000001, 0x41800001, 0x0D040003], decodeWord w 0 = none := by decide +kernel
/-- R16, R252: one step of the machine runs the fetched VADD, and the warp stands at the next slot. -/
theorem test_step_runs_vadd : (match step issuing with
    | .next t => (t.warp 0).position == (384, 1, false) && lane ((t.warp 0).vreg 5) 0 == 0 && t.time == 1
    | _ => false) = true := by decide +kernel
end Sys2Proof.Tests
end

section
/-!
PROOFS. A barrier object in the scratchpad (R226, R227): its words read back as they were written, and every
update keeps its fields within their places.
-/

namespace Sys2Proof.Machine

/-! Runs of bytes. -/

@[simp] theorem Memory.length_readN (m : Memory) (a n : Nat) : (m.readN a n).length = n := by
  induction n generalizing a with
  | zero => rfl
  | succ n ih => simp [Memory.readN, ih]

/-- Equal bytes make equal runs. -/
theorem Memory.readN_congr {m m' : Memory} (h : ∀ x, m'.read x = m.read x) (a n : Nat) : m'.readN a n = m.readN a n := by
  induction n generalizing a with
  | zero => rfl
  | succ n ih => simp only [Memory.readN, h, ih]

/-- A run within those bytes just written reads as it was written. -/
theorem Memory.readN_writeN_within (m : Memory) (a : Nat) (bs : List Byte) (i n : Nat) (h : i + n ≤ bs.length) :
    (m.writeN a bs).readN (a + i) n = slice bs i n := by
  induction n generalizing i with
  | zero => simp [Memory.readN, slice]
  | succ n ih =>
    have hi : i < bs.length := by omega
    have hrest : (m.writeN a bs).readN (a + i + 1) n = slice bs (i + 1) n := ih (i + 1) (by omega)
    simp only [Memory.readN, hrest, Memory.read_writeN_at m a bs i hi, slice, List.drop_eq_getElem_cons hi, List.take_succ_cons]

/-- `n` little-endian bytes hold less than `256 ^ n`. -/
theorem leNat_lt (l : List Byte) : leNat l < 256 ^ l.length := by
  induction l with
  | nil => simp [leNat]
  | cons b l ih =>
    have hb := b.isLt
    simp only [leNat, List.length_cons, Nat.pow_succ]
    omega

/-! The object's fields (R226). -/

/-- Every field of a barrier object is within its place of the four words (R226). -/
structure MBar.Fits (m : MBar) : Prop where
  held : m.held < 2 ^ 15
  expect : m.expect < 2 ^ 16
  pend : m.pend < 2 ^ 32
  bytes : m.bytes < 2 ^ 32
  status : m.status < 2 ^ 32

namespace MBar

variable {m : MBar}

theorem less_lt (m : MBar) (n : Nat) : m.less n < 2 ^ 32 := Nat.mod_lt _ (by decide)

/-- Held arrivals that are made leave an object that fits. -/
theorem Fits.made (h : m.Fits) : ({ m with pend := m.less m.held, held := 0 } : MBar).Fits where
  held := Nat.two_pow_pos 15
  expect := h.expect
  pend := m.less_lt m.held
  bytes := h.bytes
  status := h.status

/-- A phase that completes leaves an object that fits. -/
theorem Fits.completed (h : m.Fits) : ({ m with phase := !m.phase, pend := m.expect } : MBar).Fits where
  held := h.held
  expect := h.expect
  pend := Nat.lt_trans h.expect (by decide)
  bytes := h.bytes
  status := h.status

theorem Fits.settle (h : m.Fits) : m.settle.Fits := by
  unfold MBar.settle
  split <;> dsimp only <;> split
  · exact h.made.completed
  · exact h.made
  · exact h.completed
  · exact h

theorem Fits.countdown (h : m.Fits) (n : Nat) : (m.countdown n).Fits := by
  obtain ⟨hheld, hexpect, hpend, hbytes, hstatus⟩ := h
  unfold MBar.countdown
  apply Fits.settle
  split
  · exact ⟨hheld, hexpect, hpend, by dsimp only; omega, hstatus⟩
  · exact ⟨hheld, hexpect, hpend, Nat.two_pow_pos 32, by dsimp only; split <;> omega⟩

/-- The object MBINIT sets up. -/
theorem Fits.initial {c : Nat} (h : c ≤ 65535) :
    ({ phase := false, held := 0, expect := c, pend := c, bytes := 0, status := 0 } : MBar).Fits where
  held := Nat.two_pow_pos 15
  expect := Nat.lt_succ_of_le h
  pend := Nat.lt_of_le_of_lt h (by decide)
  bytes := Nat.two_pow_pos 32
  status := Nat.two_pow_pos 32

/-- The object after MBARR. -/
theorem Fits.arrived (h : m.Fits) (c : Nat) : ({ m with pend := m.less c } : MBar).settle.Fits :=
  settle ⟨h.held, h.expect, m.less_lt c, h.bytes, h.status⟩

/-- The object after MBARX: there is room for one more held arrival and for its bytes. -/
theorem Fits.awaiting (h : m.Fits) {c : Nat} (hroom : m.held ≠ 32767) (hbytes : m.bytes + c ≤ 0xFFFFFFFF) :
    ({ m with bytes := m.bytes + c, held := m.held + 1 } : MBar).settle.Fits :=
  settle ⟨by have := h.held; dsimp only; omega, h.expect, h.pend, Nat.lt_succ_of_le hbytes, h.status⟩

end MBar

namespace State

variable (s : State)

theorem padWord_lt (core off : Nat) : s.padWord core off < 2 ^ 32 := by
  simpa [padWord, padRead] using leNat_lt (s.padRead core off 4)

/-- An object as it stands in the scratchpad fits its words. -/
theorem mbar_fits (core off : Nat) : (s.mbar core off).Fits where
  held := Nat.mod_lt _ (by decide)
  expect := Nat.mod_lt _ (by decide)
  pend := s.padWord_lt core (off + 4)
  bytes := s.padWord_lt core (off + 8)
  status := s.padWord_lt core (off + 12)

/-- A word within bytes just written to a scratchpad. -/
theorem padWord_padWrite (core off : Nat) (bs : List Byte) (i : Nat) (h : i + 4 ≤ bs.length) :
    (s.padWrite core off bs).padWord core (off + i) = leNat (slice bs i 4) := by
  simp only [padWord, padRead, padWrite, core_modCore, Memory.readN_writeN_within _ _ _ _ _ h]

/-- The first word of an object: PHASE, HELD and EXPECT from the top down. -/
theorem first_word_fields (phase : Bool) {held expect : Nat} (hh : held < 2 ^ 15) (he : expect < 2 ^ 16) :
    let w := (if phase then 2 ^ 31 else 0) + 2 ^ 16 * held + expect
    w < 256 ^ 4 ∧ w.testBit 31 = phase ∧ bits w 16 15 = held ∧ bits w 0 16 = expect := by
  cases phase <;> simp only [Nat.testBit_eq_decide_div_mod_eq, bits] <;> refine ⟨?_, ?_, ?_, ?_⟩ <;> simp <;> omega

/-- An object that fits its words reads back as it was written. -/
theorem mbar_setMbar (core off : Nat) {m : MBar} (h : m.Fits) : (s.setMbar core off m).mbar core off = m := by
  obtain ⟨hheld, hexpect, hpend, hbytes, hstatus⟩ := h
  obtain ⟨hw, hphase, hheld', hexpect'⟩ := first_word_fields m.phase hheld hexpect
  set w := (if m.phase then 2 ^ 31 else 0) + 2 ^ 16 * m.held + m.expect
  set bs := leBytes 4 w ++ leBytes 4 m.pend ++ leBytes 4 m.bytes ++ leBytes 4 m.status with hbs
  have hlen : bs.length = 16 := by simp [hbs]
  have word (i v : Nat) (hi : i + 4 ≤ 16) (hv : v < 256 ^ 4) (hs : slice bs i 4 = leBytes 4 v) :
      (s.setMbar core off m).padWord core (off + i) = v := by
    rw [← leNat_leBytes 4 v hv, ← hs]
    exact s.padWord_padWrite core off bs i (by omega)
  have h0 := word 0 w (by omega) hw rfl
  have h1 := word 4 m.pend (by omega) hpend rfl
  have h2 := word 8 m.bytes (by omega) hbytes rfl
  have h3 := word 12 m.status (by omega) hstatus rfl
  rw [Nat.add_zero] at h0
  simp only [mbar, h0, h1, h2, h3, hphase, hheld', hexpect']

/-- An object reads the same wherever the bytes are the same. -/
theorem mbar_of_sameBytes {s t : State} (h : s.sameBytes t) (core off : Nat) : t.mbar core off = s.mbar core off := by
  have word (o : Nat) : t.padWord core o = s.padWord core o := by
    simp only [padWord, padRead, Memory.readN_congr (h.2 core)]
  simp only [mbar, word]

/-! What an update of an object leaves. -/

/-- Memory reads as before, and every scratchpad byte outside the 16 of the object at an offset of a core's. -/
def onlyObject (s t : State) (core off : Nat) : Prop :=
  (∀ x, t.mem.read x = s.mem.read x) ∧
    ∀ k x, (k ≠ core ∨ x < off ∨ off + 16 ≤ x) → (t.core k).pad.read x = (s.core k).pad.read x

theorem onlyObject_setMbar (core off : Nat) (m : MBar) : s.onlyObject (s.setMbar core off m) core off := by
  refine ⟨fun _ => rfl, fun k x h => ?_⟩
  by_cases hk : k = core
  · subst hk
    have hx : x < off ∨ off + 16 ≤ x := by simpa using h
    simp only [setMbar, padWrite, core_modCore]
    exact Memory.read_writeN_other _ _ _ (by simpa using hx)
  · rw [setMbar, padWrite, core_modCore_other _ hk]

theorem onlyObject_of_sameBytes {s t u : State} {core off : Nat} (h : s.onlyObject t core off) (k : t.sameBytes u) :
    s.onlyObject u core off :=
  ⟨fun x => (k.1 x).trans (h.1 x), fun c x hx => (k.2 c x).trans (h.2 c x hx)⟩

theorem sameBytes_mbTag (core' core off : Nat) : s.sameBytes (s.mbTag core' core off) :=
  s.sameBytes_modCore _ _ fun _ => rfl

theorem sameBytes_mbAcquire (core off dst : Nat) : s.sameBytes (s.mbAcquire core off dst) :=
  s.sameBytes_modCore _ _ fun _ => rfl

@[simp] theorem warps_mbTag (core' core off : Nat) : (s.mbTag core' core off).warps = s.warps := rfl
@[simp] theorem me_mbAcquire (core off dst : Nat) : (s.mbAcquire core off dst).me = s.me := rfl

/-- A completed wait has the core's clock past every arrival's (R164). -/
theorem lclk_mbAcquire (core off dst : Nat) :
    ((s.core core).mbTags.get off (0, 0)).1 ≤ ((s.mbAcquire core off dst).core dst).lclk := by
  simp only [mbAcquire, core_modCore]
  exact Nat.le_max_right _ _

/-- An object that fits is stored, and still is after anything that leaves the bytes alone. -/
theorem setMbar_then_sameBytes (core off : Nat) {m : MBar} (h : m.Fits) {t : State} (ht : (s.setMbar core off m).sameBytes t) :
    s.onlyObject t core off ∧ t.mbar core off = m :=
  ⟨onlyObject_of_sameBytes (s.onlyObject_setMbar core off m) ht, (mbar_of_sameBytes ht core off).trans (s.mbar_setMbar core off h)⟩

end State

end Sys2Proof.Machine
end

section
/-!
PROOFS. The MB instructions (R229), through the one update they share, and what a wait or a test ends with.
-/

namespace Sys2Proof.Machine

namespace State

variable {s : State} {core off : Nat}

/-- A release that waits at issue keeps the registers and every byte (R165). -/
theorem relWait_spec (s : State) : s.relWait.out = .waiting ∧ s.sameRegs s.relWait ∧ s.sameBytes s.relWait := by
  unfold relWait
  split
  · refine ⟨rfl, ?_, sameBytes_of rfl rfl⟩
    simp [sameRegs, me, wait, modMe, modWarp, warp]
  · exact ⟨rfl, ⟨rfl, rfl, rfl, rfl⟩, sameBytes_of rfl rfl⟩

theorem acqHolds_of_nil (h : s.before.acq = []) : s.acqHolds = false := by simp [acqHolds, h]

/-- With no engine failure that awaits the warp, a completed wait or test just ends. -/
theorem takeCause_of_nil (h : s.me.tcause = []) (core off : Nat) : s.takeCause core off = s.done := by
  unfold takeCause
  split
  · rfl
  · simp [h]

/-- Everything MBINIT, MBARR and MBARX do: wait for the release, stop with what the checks found, refuse with
BOUNDS, or store the updated object. -/
theorem mbUpdate_spec (hacq : s.before.acq = []) (cl : Bool) (a : Src) (rel : Bool) (g : MBar → Option MBar) :
    (rel = true → s.relReady (mbScope cl) = false → s.mbUpdate cl a rel g = s.relWait)
    ∧ ((rel = true → s.relReady (mbScope cl) = true) →
      (∀ st, s.mbObject cl a true = .error st → s.mbUpdate cl a rel g = s.raise st)
      ∧ (s.mbObject cl a true = .ok (core, off) → ∀ m, g (s.mbar core off) = some m → m.Fits →
        let t := s.mbUpdate cl a rel g
        t.out = .done ∧ t.warps = s.warps ∧ s.onlyObject t core off ∧ t.mbar core off = m)
      ∧ (s.mbObject cl a true = .ok (core, off) → g (s.mbar core off) = none →
        s.mbUpdate cl a rel g = s.raise { cause := .bounds })) := by
  have hold := acqHolds_of_nil hacq
  constructor
  · intro hrel hready
    simp [mbUpdate, hold, hrel, hready]
  · intro hready
    have hgo : (rel && !s.relReady (mbScope cl)) = false := by cases rel <;> simp_all
    refine ⟨fun st h => ?_, fun h m hg hm => ?_, fun h hg => ?_⟩
    · simp [mbUpdate, hold, hgo, h]
    · simp only [mbUpdate, hold, hgo, h, hg, Bool.false_eq_true, if_false]
      cases rel
      · exact ⟨rfl, rfl, s.setMbar_then_sameBytes core off hm (sameBytes_of rfl rfl)⟩
      · refine ⟨rfl, rfl, s.setMbar_then_sameBytes core off hm ?_⟩
        exact sameBytes_trans (sameBytes_mbTag _ _ _ _) (sameBytes_of rfl rfl)
    · simp [mbUpdate, hold, hgo, h, hg, fail]

end State

end Sys2Proof.Machine
end

section
/-!
PROOFS. The statement about the MB instructions, an instruction at a time.
-/

namespace Sys2Proof.Machine

namespace State

variable {s : State} {core off : Nat}

/-- An MB instruction whose meaning is an update of the object its checks find: what it comes to once it may
issue, `ok` saying when the update is one R229 allows and `f` what it makes of the object. -/
theorem exec_mbUpdate (hacq : s.before.acq = []) {i : Instr} {cl rel : Bool} {a : Src} {g : MBar → Option MBar}
    (hexec : exec i s = .next (s.issue i (s.mbUpdate cl a rel g))) (hgate : s.gate i = .go) (f : MBar → MBar) (ok : Bool)
    (hg : g (s.mbar core off) = if ok then some (f (s.mbar core off)) else none)
    (hfits : ok = true → (f (s.mbar core off)).Fits) :
    (rel = true → s.relReady (mbScope cl) = false →
      ∃ t, exec i s = .next t ∧ t.out = .waiting ∧ s.sameRegs t ∧ s.sameBytes t)
    ∧ ((rel = true → s.relReady (mbScope cl) = true) →
      (∀ st, s.mbObject cl a true = .error st → exec i s = .next (s.raise st))
      ∧ (s.mbObject cl a true = .ok (core, off) → ok = true →
        ∃ t, exec i s = .next t ∧ t.out = .done ∧ t.warps = s.warps ∧ s.onlyObject t core off
          ∧ t.mbar core off = f (s.mbar core off))
      ∧ (s.mbObject cl a true = .ok (core, off) → ok = false → exec i s = .next (s.raise { cause := .bounds }))) := by
  obtain ⟨hwait, hgo⟩ := mbUpdate_spec (core := core) (off := off) hacq cl a rel g
  rw [hexec, s.issue_go hgate]
  refine ⟨fun hrel hready => ⟨_, rfl, ?_⟩, fun hready => ?_⟩
  · rw [hwait hrel hready]
    exact s.relWait_spec
  · obtain ⟨herror, hdone, hbounds⟩ := hgo hready
    refine ⟨fun st h => by rw [herror st h], fun h hok => ?_, fun h hok => ?_⟩
    · exact ⟨_, rfl, hdone h _ (by rw [hg, if_pos hok]) (hfits hok)⟩
    · rw [hbounds h (by rw [hg, hok]; rfl)]

/-- MBWAIT once it may issue and has the object it waits at: it parks while the phase has the parity given, and
completes when it has not. -/
theorem exec_mbwait (hacq : s.before.acq = []) {l : BitVec 1} {p a : Src} (hgate : s.gate (.mbwait l p a) = .go)
    (hobject : (s.mbParked = false ∧ s.mbObject (l == 1) a false = .ok (core, off) ∧ (s.mbar core off).expect ≠ 0)
      ∨ (s.mbParked = true ∧ s.mbAwaited (l == 1) a = .ok (core, off))) :
    let par := (s.readScalar p).getLsbD 0
    exec (.mbwait l p a) s = .next
      (if (s.mbar core off).phase != par then
        ((s.mbAcquire core off s.myCore).modMe fun w => { w with wake := .none }).takeCause core off
      else
        (s.modMe fun w => { w with
          wake := if l = 1 then .mbwaitCl (s.readPair a 0) par else .mbwait (s.readScalar a).toNat par }).park) := by
  change execMbwait l p a s = _
  have hold := acqHolds_of_nil hacq
  rw [execMbwait, s.issue_go hgate]
  rcases hobject with ⟨hparked, hobj, hexpect⟩ | ⟨hparked, hobj⟩
  · simp only [hold, hparked, hobj, hexpect, decide_false, Bool.false_and, Bool.false_eq_true, if_false]
  · simp only [hold, hparked, hobj, Bool.not_true, Bool.and_false, Bool.false_eq_true, if_false, if_true]

/-- What a completed MBWAIT leaves, with no engine failure to report. -/
theorem mbwait_completed (s : State) (core off : Nat) (hcause : s.me.tcause = []) :
    let t := ((s.mbAcquire core off s.myCore).modMe fun w => { w with wake := .none }).takeCause core off
    t.out = .done ∧ s.sameBytes t ∧ s.sameRegs t ∧ t.me.wake = .none
      ∧ ((s.core core).mbTags.get off (0, 0)).1 ≤ (t.core s.myCore).lclk := by
  have hend := takeCause_of_nil (s := (s.mbAcquire core off s.myCore).modMe fun w => { w with wake := .none })
    (by simpa using hcause) core off
  simp only [hend]
  refine ⟨rfl, sameBytes_trans (s.sameBytes_mbAcquire core off s.myCore) (sameBytes_of rfl rfl), by simp [sameRegs],
    by simp, ?_⟩
  simpa using s.lclk_mbAcquire core off s.myCore

/-- What MBTEST leaves of the warp and of the bytes, whichever phase it finds. -/
theorem mbtest_spec (hacq : s.before.acq = []) {l : BitVec 1} {d : BitVec 6} {p a : Src}
    (hobject : s.mbObject (l == 1) a false = .ok (core, off)) (hexpect : (s.mbar core off).expect ≠ 0)
    (hgate : s.gate (.mbtest l d p a) = .go) (hcause : s.me.tcause = []) :
    ∃ t, exec (.mbtest l d p a) s = .next t ∧ t.out = .done ∧ s.sameBytes t
      ∧ t.me = { s.me with s := t.me.s, bad := t.me.bad }
      ∧ t.me.sreg d.toNat = Warp.slsAnd s.before.sls d.toNat
        (if (s.mbar core off).phase ≠ (s.readScalar p).getLsbD 0 then 1 else 0) := by
  change ∃ t, execMbtest l d p a s = _ ∧ _
  have hold := acqHolds_of_nil hacq
  rw [execMbtest, s.issue_go hgate]
  simp only [hold, hobject, hexpect, Bool.false_eq_true, if_false, bne_iff_ne]
  by_cases hphase : (s.mbar core off).phase ≠ (s.readScalar p).getLsbD 0
  · obtain ⟨hout, ⟨honly, hme, -⟩, hreg⟩ := (s.mbAcquire core off s.myCore).setS_spec d.isLt 1
    have hnone : ((s.mbAcquire core off s.myCore).setS d.toNat 1).me.tcause = [] := by
      rw [setS, me_modMe]
      exact hcause
    rw [if_pos hphase, if_pos hphase, takeCause_of_nil hnone]
    exact ⟨_, rfl, hout, sameBytes_trans (s.sameBytes_mbAcquire core off s.myCore) honly.2.2, hme, hreg⟩
  · obtain ⟨hout, ⟨honly, hme, -⟩, hreg⟩ := s.setS_spec d.isLt 0
    rw [if_neg hphase, if_neg hphase]
    exact ⟨_, rfl, hout, honly.2.2, hme, hreg⟩

/-- What an engine's countdown leaves of an object (R227). -/
theorem exec_countdown (s : State) (core off bytes : Nat) :
    ∃ t, exec (.barrierObjectCountdown core off bytes) s = .next t ∧ t.out = .done ∧ t.warps = s.warps
      ∧ s.onlyObject t core off ∧ t.mbar core off = (s.mbar core off).countdown bytes :=
  ⟨_, rfl, rfl, rfl, s.setMbar_then_sameBytes core off ((s.mbar_fits core off).countdown bytes)
    (sameBytes_trans (sameBytes_mbTag _ _ _ _) (sameBytes_of rfl rfl))⟩

end State

/-- MBWAIT of a warp that is parked raises what has become of its rows (R223). -/
theorem State.exec_mbwait_gone {s : State} (hacq : s.before.acq = []) {l : BitVec 1} {p a : Src}
    (hgate : s.gate (.mbwait l p a) = .go) (hparked : s.mbParked = true) {st : Stop}
    (hgone : s.mbAwaited (l == 1) a = .error st) : exec (.mbwait l p a) s = .next (s.raise st) := by
  change execMbwait l p a s = _
  rw [execMbwait, s.issue_go hgate]
  simp only [State.acqHolds_of_nil hacq, hparked, hgone, Bool.false_eq_true, if_false, if_true]

/-- Settles O35: MBINIT, MBARR and MBARX by what every update of an object comes to, the rest by what each does once
it may issue. Of the three, `grind` shows only that the update the statement allows is the one the model does not
refuse. -/
theorem barrierObjects : Obligations.BarrierObjects := by
  intro s n a p d l core off hacq
  dsimp only
  refine ⟨fun e he hgate => ?_, fun hgate hobject => ⟨fun hphase => ?_, fun hphase hcause => ?_⟩,
    fun st hgate hparked hgone => State.exec_mbwait_gone hacq hgate hparked hgone,
    fun hobject hexp hgate hcause => State.mbtest_spec hacq hobject hexp hgate hcause, s.exec_countdown core off⟩
  · simp only [List.mem_cons, List.not_mem_nil, or_false] at he
    obtain rfl | rfl | rfl := he
    · refine State.exec_mbUpdate hacq rfl hgate _ _ (by grind) fun hok => ?_
      simp only [Bool.and_eq_true, decide_eq_true_eq] at hok
      exact MBar.Fits.initial hok.2
    · exact State.exec_mbUpdate hacq rfl hgate _ _ (by grind [MBar.less]) fun _ => (s.mbar_fits core off).arrived _
    · refine State.exec_mbUpdate hacq rfl hgate _ _ (by grind [MBar.less]) fun hok => ?_
      simp only [Bool.and_eq_true, decide_eq_true_eq, bne_iff_ne] at hok
      obtain ⟨⟨-, hroom⟩, hbytes⟩ := hok
      exact (s.mbar_fits core off).awaiting hroom hbytes
  · rw [State.exec_mbwait hacq hgate hobject, if_neg (by simpa using hphase)]
    rfl
  · rw [State.exec_mbwait hacq hgate hobject, if_pos (by simpa using hphase)]
    exact ⟨_, rfl, s.mbwait_completed core off hcause⟩

end Sys2Proof.Machine
end

section
/-!
PROOFS. The state after reset (R7): its tables are empty, so that each die, slice and core holds what its kind starts
with.
-/

namespace Sys2Proof.Machine

namespace State

@[simp] theorem die_reset (die : Nat) : reset.die die = {} := rfl
@[simp] theorem slc_reset (die sc : Nat) : reset.slc die sc = {} := rfl
@[simp] theorem core_reset (core : Nat) : reset.core core = {} := rfl

theorem memoryWf_reset : reset.memoryWf := ⟨Memory.wf_nil, fun _ he => nomatch he⟩

/-- R70: domain 0 takes every slice and is enabled; domains 1 to 3 are off. -/
theorem domain_reset (die : Nat) {n : Nat} (h : n < 4) :
    reset.domain die n = if n = 0 then ⟨0xFFFFFFFF, 0, 0, false, false, true⟩ else ⟨0, 0, 0, false, false, false⟩ := by
  rw [domain, die_reset]
  match n, h with
  | 0, _ | 1, _ | 2, _ | 3, _ => rfl

end State

/-- Settles O60: the domains by their four numbers, every other register as the start of its die, slice or core. -/
theorem resetState : Obligations.ResetState := by
  refine ⟨State.memoryWf_reset, rfl, rfl, rfl, rfl, fun die sc core n hn => ?_⟩
  simp only [State.domain_reset die hn, State.die_reset, State.slc_reset, State.core_reset, and_self]

end Sys2Proof.Machine
end

section
/-!
PROOFS. An instruction word and its fields (R32, R33, R36, R40): a specifier and the operand it names, an instruction's
opcode, and, row by row of the opcode table, the words whose fields read a given instruction.
-/

namespace Sys2Proof

/-- The opcode of an instruction's word (R40), its bits 30 to 24; an event has 0x80, which no word has. -/
def Instr.opcode : Instr → Nat
  | .vadd .. | .vsub .. => 0x00
  | .vadds .. | .vsubs .. => 0x01
  | .vmul .. | .vmulh .. => 0x02
  | .vmulhu .. | .vmad .. => 0x03
  | .vand .. | .vandn .. => 0x04
  | .vor .. | .vxor .. => 0x05
  | .vshl .. | .vshr .. => 0x06
  | .vsar .. | .vrol .. => 0x07
  | .vmin .. | .vmax .. => 0x08
  | .vminu .. | .vmaxu .. => 0x09
  | .vicmp .. => 0x0A
  | .vfcmp .. => 0x0B
  | .vpopc .. | .vclz .. => 0x0C
  | .vbrev .. | .vctz .. => 0x0D
  | .vmov .. | .vnot .. => 0x0E
  | .vcvt .. => 0x0F
  | .vfadd .. | .vfsub .. => 0x10
  | .vfmul .. | .vfscl .. => 0x11
  | .vfma .. | .vfms .. => 0x12
  | .vfnma .. | .vfnms .. => 0x13
  | .vfmin .. | .vfmax .. => 0x14
  | .vfabs .. | .vfneg .. => 0x15
  | .vfrnd .. | .vffrc .. => 0x16
  | .vh2fma .. | .vb2fma .. => 0x17
  | .vrcp .. | .vrsq .. => 0x18
  | .vsqrt .. | .vlog2 .. => 0x19
  | .vex2 .. | .vtanh .. => 0x1A
  | .vex2s .. | .vhyp .. => 0x1B
  | .vshfl .. | .vshfx .. => 0x1C
  | .vmtov .. | .vvtom .. => 0x1D
  | .sadd .. | .ssub .. => 0x20
  | .smul .. | .smulhu .. => 0x21
  | .sand .. | .sandn .. => 0x22
  | .sor .. | .sxor .. => 0x23
  | .sshl .. | .sshr .. => 0x24
  | .ssar .. | .srol .. => 0x25
  | .smin .. | .smax .. => 0x26
  | .smov .. | .snot .. => 0x27
  | .scmp .. => 0x28
  | .spopc .. | .sclz .. => 0x29
  | .sadd64 .. | .ssub64 .. => 0x2A
  | .smcnt .. | .smfst .. => 0x2B
  | .sbfx .. | .sbfi .. => 0x2C
  | .srd .. | .swr .. => 0x2D
  | .sfadd .. | .sfmul .. => 0x2E
  | .put .. => 0x30
  | .xchg .. => 0x31
  | .bra .. => 0x38
  | .bdiv .. => 0x39
  | .join => 0x3A
  | .call .. | .calli .. => 0x3B
  | .ret | .bri .. => 0x3C
  | .exit => 0x3D
  | .nop | .yield => 0x3E
  | .barSync | .barArrive => 0x40
  | .cbar | .gbar => 0x41
  | .mbinit .. => 0x42
  | .mbarr .. | .mbarx .. => 0x43
  | .mbwait .. | .mbtest .. => 0x44
  | .waitc .. => 0x45
  | .fence .. => 0x46
  | .qwait .. => 0x47
  | .vld .. => 0x48
  | .vldo .. => 0x49
  | .vst .. => 0x4A
  | .vsto .. => 0x4B
  | .sld .. => 0x4C
  | .sst .. => 0x4D
  | .ldsp .. => 0x4E
  | .stsp .. => 0x4F
  | .vatom .. => 0x50
  | .vcas .. => 0x51
  | .satom .. => 0x52
  | .scas .. => 0x53
  | .ldcl .. => 0x54
  | .stcl .. => 0x55
  | .sptest .. | .spcast .. => 0x56
  | .cachePf .. | .cacheWb .. | .cacheInv .. | .cacheWbinv .. => 0x57
  | .ldlv .. | .cmst .. => 0x58
  | .bopen .. | .bclose .. => 0x59
  | .vstb .. => 0x5A
  | .vopen | .vclose .. => 0x5B
  | .vldv .. => 0x5C
  | .tcopy .. => 0x60
  | .tcopyo .. => 0x61
  | .tgather .. => 0x62
  | .tcow .. => 0x63
  | .cstep .. => 0x64
  | .spalloc .. | .spfree .. => 0x65
  | .sprenew .. | .spstat .. => 0x66
  | .crpush .. | .jdec .. => 0x67
  | .mma .. => 0x70
  | .mmasp .. => 0x71
  | .acld .. | .acst .. => 0x72
  | .acrd .. | .acwr .. => 0x73
  | .ftupd .. | .ftdnd .. => 0x74
  | .ftslvf .. | .ftslvb .. => 0x75
  | .ftld .. | .ftst .. => 0x76
  | .ftinit .. | .ftrow .. => 0x77
  | .trap .. | .brk => 0x78
  | .sret .. | .skill => 0x79
  | .xrd .. | .xwr .. => 0x7A
  | .csrr .. | .csrw .. => 0x7B
  | .tlbiAll | .tlbiRegion .. | .tlbiPage .. | .tlbiPageall .. => 0x7C
  | .vpfx .. => 0x7E
  | .dpair .. => 0x7F
  | _ => 0x80

/-- A specifier as the byte it is. -/
def Src.byte (a : Src) : BitVec 8 := BitVec.ofNat 8 a.code

theorem Src.toNat_byte (a : Src) : a.byte.toNat = a.code := Nat.mod_eq_of_lt a.code_lt

theorem Instr.isWord_eq (i : Instr) : i.isWord = decide (i.opcode < 0x80) := by
  cases i <;> rfl

theorem encodeBits_div {i : Instr} (h : i.opcode < 0x80) : encodeBits i / 2 ^ 24 = i.opcode := by
  delta Instr.opcode at h ⊢
  cases i
  all_goals simp only [Nat.reduceLT] at h
  all_goals
    delta encodeBits
    simp only [← Src.toNat_byte]
    omega

theorem fld_lt (w lo n : Nat) : fld w lo n < 2 ^ n := Nat.mod_lt _ (Nat.two_pow_pos n)

theorem ofNat_fld_eq_iff {n : Nat} (w lo : Nat) (d : BitVec n) :
    BitVec.ofNat n (fld w lo n) = d ↔ fld w lo n = d.toNat := by
  rw [← BitVec.toNat_inj, BitVec.toNat_ofNat, Nat.mod_eq_of_lt (fld_lt w lo n)]

/-- A source its own specifier names where the literal word is `lit` (R36). -/
structure Src.Stands (lit : Word) (a : Src) : Prop where
  ok : a.ok = true
  lit : ∀ l, a.literal = some l → lit = l

/-- The sixteenth constant, and no other, is not a specifier of its own. -/
theorem Src.ok_const_iff : ∀ n : BitVec 4, (Src.const n).ok = true ↔ n.toNat < 15 := by decide

theorem Src.ofCode_code {lit : Word} {a : Src} (h : a.Stands lit) : Src.ofCode a.code lit = a := by
  obtain ⟨hok, hlit⟩ := h
  cases a with
  | lit l => simp [code, ofCode, hlit l rfl]
  | const n =>
    have := (ok_const_iff n).mp hok
    simp (disch := omega) [code, ofCode, if_pos, if_neg]
  | _ n => simp (disch := omega) [code, ofCode, if_pos, if_neg]

theorem Src.code_ofCode {lit : Word} {c : Nat} (h : c < 256) : (Src.ofCode c lit).code = c := by
  unfold ofCode
  split_ifs <;> simp only [code, BitVec.toNat_ofNat] <;> omega

theorem Src.ok_ofCode (c : Nat) (lit : Word) : (Src.ofCode c lit).ok = true := by
  unfold ofCode
  split_ifs <;> simp only [ok]
  exact (ok_const_iff _).mpr (by simp only [BitVec.toNat_ofNat]; omega)

theorem Src.literal_ofCode {c : Nat} {lit l : Word} (h : (Src.ofCode c lit).literal = some l) : lit = l := by
  unfold ofCode at h
  split_ifs at h <;> simp only [literal, reduceCtorEq, Option.some.injEq] at h
  exact h

theorem Src.stands_ofCode (c : Nat) (lit : Word) : (Src.ofCode c lit).Stands lit :=
  ⟨ok_ofCode c lit, fun _ => literal_ofCode⟩

theorem Src.ofCode_eq_iff {lit : Word} {a : Src} (w lo : Nat) (h : a.Stands lit) :
    Src.ofCode (fld w lo 8) lit = a ↔ fld w lo 8 = a.byte.toNat :=
  ⟨fun h => by rw [← h, toNat_byte, code_ofCode (fld_lt w lo 8)],
    fun e => by rw [e, toNat_byte, ofCode_code h]⟩

/-! A word and the instruction its fields name, one theorem a row of the opcode table (R40). -/

section
variable {w : Nat} {lit : Word} {i : Instr} (hop : fld w 24 7 = i.opcode) (hs : ∀ a ∈ i.srcs, a.Stands lit)
  (hl : i.literal.getD lit = lit)
include hop hs hl

theorem parse_iff_00_07 (h : 0x00 ≤ i.opcode ∧ i.opcode ≤ 0x07) :
    parse w lit = some i ↔ w % 2 ^ 31 = encodeBits i := by
  delta Instr.opcode at h
  cases i
  all_goals simp only [Nat.reduceLeDiff, and_false] at h
  all_goals
    rw [parse, hop]
    refine ite_eq_iff.trans ?_
    delta encodeBits Instr.srcs Instr.literal Instr.opcode at *
    simp only [List.forall_mem_cons] at hs hl
    simp [ite_eq_iff, Src.ofCode_eq_iff, ofNat_fld_eq_iff, hs, ← Src.toNat_byte]
    simp only [fld, Nat.reducePow, Nat.div_one] at hop ⊢
    omega

theorem parse_iff_08_0F (h : 0x08 ≤ i.opcode ∧ i.opcode ≤ 0x0F) :
    parse w lit = some i ↔ w % 2 ^ 31 = encodeBits i := by
  delta Instr.opcode at h
  cases i
  all_goals simp only [Nat.reduceLeDiff, and_false, and_true] at h
  all_goals
    rw [parse, hop]
    try refine ite_eq_iff.trans ?_
    try refine Option.some_inj.trans ?_
    delta encodeBits Instr.srcs Instr.literal Instr.opcode at *
    simp only [List.forall_mem_cons] at hs hl
    simp [ite_eq_iff, Src.ofCode_eq_iff, ofNat_fld_eq_iff, hs, ← Src.toNat_byte]
    simp only [fld, Nat.reducePow, Nat.div_one] at hop ⊢
    omega

theorem parse_iff_10_17 (h : 0x10 ≤ i.opcode ∧ i.opcode ≤ 0x17) :
    parse w lit = some i ↔ w % 2 ^ 31 = encodeBits i := by
  delta Instr.opcode at h
  cases i
  all_goals simp only [Nat.reduceLeDiff, and_false, and_true] at h
  all_goals
    rw [parse, hop]
    refine ite_eq_iff.trans ?_
    delta encodeBits Instr.srcs Instr.literal Instr.opcode at *
    simp only [List.forall_mem_cons] at hs hl
    simp [ite_eq_iff, Src.ofCode_eq_iff, ofNat_fld_eq_iff, hs, ← Src.toNat_byte]
    simp only [fld, Nat.reducePow, Nat.div_one] at hop ⊢
    omega

theorem parse_iff_18_1F (h : 0x18 ≤ i.opcode ∧ i.opcode ≤ 0x1F) :
    parse w lit = some i ↔ w % 2 ^ 31 = encodeBits i := by
  delta Instr.opcode at h
  cases i
  all_goals simp only [Nat.reduceLeDiff, and_false, and_true] at h
  all_goals
    rw [parse, hop]
    refine ite_eq_iff.trans ?_
    delta encodeBits Instr.srcs Instr.literal Instr.opcode at *
    simp only [List.forall_mem_cons] at hs hl
    simp [ite_eq_iff, Src.ofCode_eq_iff, ofNat_fld_eq_iff, hs, ← Src.toNat_byte]
    simp only [fld, Nat.reducePow, Nat.div_one] at hop ⊢
    omega

theorem parse_iff_20_27 (h : 0x20 ≤ i.opcode ∧ i.opcode ≤ 0x27) :
    parse w lit = some i ↔ w % 2 ^ 31 = encodeBits i := by
  delta Instr.opcode at h
  cases i
  all_goals simp only [Nat.reduceLeDiff, and_false, and_true] at h
  all_goals
    rw [parse, hop]
    refine ite_eq_iff.trans ?_
    delta encodeBits Instr.srcs Instr.literal Instr.opcode at *
    simp only [List.forall_mem_cons] at hs hl
    simp [ite_eq_iff, Src.ofCode_eq_iff, ofNat_fld_eq_iff, hs, ← Src.toNat_byte]
    simp only [fld, Nat.reducePow, Nat.div_one] at hop ⊢
    omega

theorem parse_iff_28_2F (h : 0x28 ≤ i.opcode ∧ i.opcode ≤ 0x2F) :
    parse w lit = some i ↔ w % 2 ^ 31 = encodeBits i := by
  delta Instr.opcode at h
  cases i
  all_goals simp only [Nat.reduceLeDiff, and_false, and_true] at h
  all_goals
    rw [parse, hop]
    try refine ite_eq_iff.trans ?_
    try refine Option.some_inj.trans ?_
    delta encodeBits Instr.srcs Instr.literal Instr.opcode at *
    simp only [List.forall_mem_cons] at hs hl
    simp [ite_eq_iff, Src.ofCode_eq_iff, ofNat_fld_eq_iff, hs, ← Src.toNat_byte]
    simp only [fld, Nat.reducePow, Nat.div_one] at hop ⊢
    omega

theorem parse_iff_30_3F (h : 0x30 ≤ i.opcode ∧ i.opcode ≤ 0x3F) :
    parse w lit = some i ↔ w % 2 ^ 31 = encodeBits i := by
  delta Instr.opcode at h
  cases i
  all_goals simp only [Nat.reduceLeDiff, and_false, and_true] at h
  all_goals
    rw [parse, hop]
    try refine ite_eq_iff.trans ?_
    try refine Option.some_inj.trans ?_
    delta encodeBits Instr.srcs Instr.literal Instr.opcode at *
    simp only [List.forall_mem_cons, Option.getD_some] at hs hl
    simp [ite_eq_iff, Src.ofCode_eq_iff, ofNat_fld_eq_iff, hs, hl, ← Src.toNat_byte]
    simp only [fld, Nat.reducePow, Nat.div_one] at hop ⊢
    omega

theorem parse_iff_40_47 (h : 0x40 ≤ i.opcode ∧ i.opcode ≤ 0x47) :
    parse w lit = some i ↔ w % 2 ^ 31 = encodeBits i := by
  delta Instr.opcode at h
  cases i
  all_goals simp only [Nat.reduceLeDiff, and_false, and_true] at h
  all_goals
    rw [parse, hop]
    refine ite_eq_iff.trans ?_
    delta encodeBits Instr.srcs Instr.literal Instr.opcode at *
    simp only [List.forall_mem_cons] at hs hl
    simp [ite_eq_iff, Src.ofCode_eq_iff, ofNat_fld_eq_iff, hs, ← Src.toNat_byte]
    simp only [fld, Nat.reducePow, Nat.div_one] at hop ⊢
    omega

theorem parse_iff_48_4F (h : 0x48 ≤ i.opcode ∧ i.opcode ≤ 0x4F) :
    parse w lit = some i ↔ w % 2 ^ 31 = encodeBits i := by
  delta Instr.opcode at h
  cases i
  all_goals simp only [Nat.reduceLeDiff, and_false, and_true] at h
  all_goals
    rw [parse, hop]
    refine Option.some_inj.trans ?_
    delta encodeBits Instr.srcs Instr.literal Instr.opcode at *
    simp only [List.forall_mem_cons, Option.getD_some] at hs hl
    simp [Src.ofCode_eq_iff, ofNat_fld_eq_iff, hs, hl, ← Src.toNat_byte]
    simp only [fld, Nat.reducePow, Nat.div_one] at hop ⊢
    omega

theorem parse_iff_50_53 (h : 0x50 ≤ i.opcode ∧ i.opcode ≤ 0x53) :
    parse w lit = some i ↔ w % 2 ^ 31 = encodeBits i := by
  delta Instr.opcode at h
  cases i
  all_goals simp only [Nat.reduceLeDiff, and_false, and_true] at h
  all_goals
    rw [parse, hop]
    try refine ite_eq_iff.trans ?_
    try refine Option.some_inj.trans ?_
    delta encodeBits Instr.opcode at *
    simp [ofNat_fld_eq_iff]
    simp only [fld, Nat.reducePow, Nat.div_one] at hop ⊢
    omega

theorem parse_iff_54_58 (h : 0x54 ≤ i.opcode ∧ i.opcode ≤ 0x58) :
    parse w lit = some i ↔ w % 2 ^ 31 = encodeBits i := by
  delta Instr.opcode at h
  cases i
  all_goals simp only [Nat.reduceLeDiff, and_false, and_true] at h
  all_goals
    rw [parse, hop]
    try refine ite_eq_iff.trans ?_
    try refine Option.some_inj.trans ?_
    delta encodeBits Instr.srcs Instr.literal Instr.opcode at *
    simp only [List.forall_mem_cons] at hs hl
    simp [ite_eq_iff, Src.ofCode_eq_iff, ofNat_fld_eq_iff, hs, ← Src.toNat_byte]
    simp only [fld, Nat.reducePow, Nat.div_one] at hop ⊢
    omega

theorem parse_iff_59_63 (h : 0x59 ≤ i.opcode ∧ i.opcode ≤ 0x63) :
    parse w lit = some i ↔ w % 2 ^ 31 = encodeBits i := by
  delta Instr.opcode at h
  cases i
  all_goals simp only [Nat.reduceLeDiff, and_false, and_true] at h
  all_goals
    rw [parse, hop]
    try refine ite_eq_iff.trans ?_
    try refine Option.some_inj.trans ?_
    delta encodeBits Instr.srcs Instr.literal Instr.opcode at *
    simp only [List.forall_mem_cons] at hs hl
    simp [ite_eq_iff, Src.ofCode_eq_iff, ofNat_fld_eq_iff, hs, ← Src.toNat_byte]
    simp only [fld, Nat.reducePow, Nat.div_one] at hop ⊢
    omega

theorem parse_iff_64_6F (h : 0x64 ≤ i.opcode ∧ i.opcode ≤ 0x6F) :
    parse w lit = some i ↔ w % 2 ^ 31 = encodeBits i := by
  delta Instr.opcode at h
  cases i
  all_goals simp only [Nat.reduceLeDiff, and_false, and_true] at h
  all_goals
    rw [parse, hop]
    refine ite_eq_iff.trans ?_
    delta encodeBits Instr.opcode at *
    simp [ite_eq_iff, ofNat_fld_eq_iff]
    simp only [fld, Nat.reducePow, Nat.div_one] at hop ⊢
    omega

theorem parse_iff_70_73 (h : 0x70 ≤ i.opcode ∧ i.opcode ≤ 0x73) :
    parse w lit = some i ↔ w % 2 ^ 31 = encodeBits i := by
  delta Instr.opcode at h
  cases i
  all_goals simp only [Nat.reduceLeDiff, and_false, and_true] at h
  all_goals
    rw [parse, hop]
    refine ite_eq_iff.trans ?_
    delta encodeBits Instr.srcs Instr.literal Instr.opcode at *
    simp only [List.forall_mem_cons] at hs hl
    simp [ite_eq_iff, Src.ofCode_eq_iff, ofNat_fld_eq_iff, hs, ← Src.toNat_byte]
    simp only [fld, Nat.reducePow, Nat.div_one] at hop ⊢
    omega

theorem parse_iff_74_77 (h : 0x74 ≤ i.opcode ∧ i.opcode ≤ 0x77) :
    parse w lit = some i ↔ w % 2 ^ 31 = encodeBits i := by
  delta Instr.opcode at h
  cases i
  all_goals simp only [Nat.reduceLeDiff, and_false, and_true] at h
  all_goals
    rw [parse, hop]
    refine ite_eq_iff.trans ?_
    delta encodeBits Instr.srcs Instr.literal Instr.opcode at *
    simp only [List.forall_mem_cons] at hs hl
    simp [ite_eq_iff, Src.ofCode_eq_iff, ofNat_fld_eq_iff, hs, ← Src.toNat_byte]
    simp only [fld, Nat.reducePow, Nat.div_one] at hop ⊢
    omega

theorem parse_iff_78_7F (h : 0x78 ≤ i.opcode ∧ i.opcode ≤ 0x7F) :
    parse w lit = some i ↔ w % 2 ^ 31 = encodeBits i := by
  delta Instr.opcode at h
  cases i
  all_goals simp only [Nat.reduceLeDiff, and_false, and_true] at h
  all_goals
    rw [parse, hop]
    refine ite_eq_iff.trans ?_
    delta encodeBits Instr.srcs Instr.literal Instr.opcode at *
    simp only [List.forall_mem_cons] at hs hl
    simp [ite_eq_iff, Src.ofCode_eq_iff, ofNat_fld_eq_iff, hs, ← Src.toNat_byte]
    simp only [fld, Nat.reducePow, Nat.div_one] at hop ⊢
    omega

end

end Sys2Proof
end

section
/-!
PROOFS. Decoding and encoding (R25, R27, R32, R33): `parse`, `decodeWord` and `decode` each by what they answer, and from
that the two directions of the encoding.
-/

namespace Sys2Proof

theorem Instr.opcode_lt_iff {i : Instr} : i.opcode < 0x80 ↔ i.isWord = true := by
  rw [Instr.isWord_eq, decide_eq_true_iff]

theorem encodeBits_lt {i : Instr} (h : i.isWord = true) : encodeBits i < 2 ^ 31 := by
  have hlt := Instr.opcode_lt_iff.mpr h
  have hdiv := encodeBits_div hlt
  omega

/-- A word's fields read an instruction exactly when it is the instruction's encoding. -/
theorem parse_iff {w : Nat} {lit : Word} {i : Instr} (hop : fld w 24 7 = i.opcode)
    (hs : ∀ a ∈ i.srcs, a.Stands lit) (hl : i.literal.getD lit = lit) :
    parse w lit = some i ↔ w % 2 ^ 31 = encodeBits i := by
  have hlt : fld w 24 7 < 2 ^ 7 := fld_lt w 24 7
  rw [hop] at hlt
  rcases (by omega : i.opcode ≤ 0x07 ∨ (0x08 ≤ i.opcode ∧ i.opcode ≤ 0x0F) ∨ (0x10 ≤ i.opcode ∧ i.opcode ≤ 0x17)
    ∨ (0x18 ≤ i.opcode ∧ i.opcode ≤ 0x1F) ∨ (0x20 ≤ i.opcode ∧ i.opcode ≤ 0x27) ∨ (0x28 ≤ i.opcode ∧ i.opcode ≤ 0x2F)
    ∨ (0x30 ≤ i.opcode ∧ i.opcode ≤ 0x3F) ∨ (0x40 ≤ i.opcode ∧ i.opcode ≤ 0x47) ∨ (0x48 ≤ i.opcode ∧ i.opcode ≤ 0x4F)
    ∨ (0x50 ≤ i.opcode ∧ i.opcode ≤ 0x53) ∨ (0x54 ≤ i.opcode ∧ i.opcode ≤ 0x58) ∨ (0x59 ≤ i.opcode ∧ i.opcode ≤ 0x63)
    ∨ (0x64 ≤ i.opcode ∧ i.opcode ≤ 0x6F) ∨ (0x70 ≤ i.opcode ∧ i.opcode ≤ 0x73) ∨ (0x74 ≤ i.opcode ∧ i.opcode ≤ 0x77)
    ∨ (0x78 ≤ i.opcode ∧ i.opcode ≤ 0x7F)) with h | h | h | h | h | h | h | h | h | h | h | h | h | h | h | h
  exacts [parse_iff_00_07 hop hs hl ⟨Nat.zero_le _, h⟩, parse_iff_08_0F hop hs hl h, parse_iff_10_17 hop hs hl h,
    parse_iff_18_1F hop hs hl h, parse_iff_20_27 hop hs hl h, parse_iff_28_2F hop hs hl h, parse_iff_30_3F hop hs hl h,
    parse_iff_40_47 hop hs hl h, parse_iff_48_4F hop hs hl h, parse_iff_50_53 hop hs hl h, parse_iff_54_58 hop hs hl h,
    parse_iff_59_63 hop hs hl h, parse_iff_64_6F hop hs hl h, parse_iff_70_73 hop hs hl h, parse_iff_74_77 hop hs hl h,
    parse_iff_78_7F hop hs hl h]

theorem findSome?_literal_getD {lit : Word} {l : List Src} (h : ∀ a ∈ l, a.Stands lit) :
    (l.findSome? Src.literal).getD lit = lit := by
  cases hf : l.findSome? Src.literal with
  | none => rfl
  | some x =>
    obtain ⟨a, ha, hx⟩ := List.exists_of_findSome?_eq_some hf
    exact ((h a ha).lit x hx).symm

theorem parse_some {w : Nat} {lit : Word} {i : Instr} (h : parse w lit = some i) :
    fld w 24 7 = i.opcode ∧ (∀ a ∈ i.srcs, a.Stands lit) ∧
      (i.literal = some lit ∨ i.literal = i.srcs.findSome? Src.literal) := by
  unfold parse at h
  split at h
  all_goals try split_ifs at h
  all_goals cases h
  all_goals
    refine ⟨‹_›, ?_⟩
    delta Instr.srcs Instr.literal
    simp only [List.forall_mem_cons, List.not_mem_nil, false_implies, implies_true, Src.stands_ofCode, and_true,
      or_true, true_or]

/-- What the fields of a word read is the instruction whose encoding it is: a word's fields have one meaning, and every
instruction's encoding has its own (R33, R40). -/
theorem parse_eq_some_iff {w : Nat} {lit : Word} {i : Instr} :
    parse w lit = some i ↔ i.isWord = true ∧ (∀ a ∈ i.srcs, a.Stands lit) ∧ i.literal.getD lit = lit ∧
      w % 2 ^ 31 = encodeBits i := by
  constructor
  · intro h
    obtain ⟨hop, hs, hl⟩ := parse_some h
    have hlit : i.literal.getD lit = lit := by
      rcases hl with hl | hl <;> rw [hl]
      · rfl
      · exact findSome?_literal_getD hs
    exact ⟨Instr.opcode_lt_iff.mp (hop ▸ fld_lt w 24 7), hs, hlit, (parse_iff hop hs hlit).mp h⟩
  · rintro ⟨hw, hs, hlit, he⟩
    have hop : fld w 24 7 = i.opcode := by
      rw [← encodeBits_div (Instr.opcode_lt_iff.mpr hw), ← he]
      unfold fld
      omega
    exact (parse_iff hop hs hlit).mpr he

/-! Well-formed instructions. -/

theorem Instr.wf_iff {i : Instr} : i.wf = true ↔
    (∀ a ∈ i.srcs, a.ok = true) ∧ i.litAgree = true ∧ i.fieldsOk = true := by
  simp only [Instr.wf, Bool.and_eq_true, List.all_eq_true, and_assoc]

theorem Instr.litAgree_iff {i : Instr} : i.litAgree = true ↔
    ∀ a ∈ i.srcs, ∀ x l, a.literal = some x → i.literal = some l → x = l := by
  simp only [Instr.litAgree, List.all_eq_true]
  refine forall₂_congr fun a _ => ?_
  cases a.literal <;> cases i.literal <;> simp

/-- An instruction that takes no literal word has no literal operand. -/
theorem Instr.literal_of_mem_srcs {i : Instr} {a : Src} (h : i.literal = none) (ha : a ∈ i.srcs) : a.literal = none := by
  have hcase : i.literal.isSome ∨ i.literal = i.srcs.findSome? Src.literal := by
    delta Instr.literal
    split
    all_goals simp only [Option.isSome_some, true_or, or_true]
  rw [h] at hcase
  rcases hcase with hcase | hcase
  · cases hcase
  · exact List.findSome?_eq_none_iff.mp hcase.symm a ha

theorem Instr.stands_of_wf {i : Instr} {lit : Word} (h : i.wf = true) (hl : i.literal.getD lit = lit) :
    ∀ a ∈ i.srcs, a.Stands lit := by
  obtain ⟨hok, hagree, -⟩ := Instr.wf_iff.mp h
  refine fun a ha => ⟨hok a ha, fun x hx => ?_⟩
  cases hi : i.literal with
  | none => rw [Instr.literal_of_mem_srcs hi ha] at hx; cases hx
  | some l =>
    rw [hi] at hl
    exact hl.symm.trans (Instr.litAgree_iff.mp hagree a ha x l hx hi).symm

theorem decodeWord_eq_some_iff {w : Nat} {lit : Word} {i : Instr} :
    decodeWord w lit = some i ↔ i.isWord = true ∧ i.wf = true ∧ i.literal.getD lit = lit ∧ w % 2 ^ 31 = encodeBits i := by
  have hp : decodeWord w lit = some i ↔ parse w lit = some i ∧ i.wf = true := by
    unfold decodeWord
    cases hp : parse w lit with
    | none => simp
    | some j =>
      simp only [Option.ite_none_right_eq_some, Option.some.injEq]
      exact ⟨fun ⟨hj, e⟩ => ⟨e, e ▸ hj⟩, fun ⟨e, hi⟩ => ⟨e ▸ hi, e⟩⟩
  rw [hp, parse_eq_some_iff]
  exact ⟨fun ⟨⟨hw, _, hl, he⟩, hf⟩ => ⟨hw, hf, hl, he⟩,
    fun ⟨hw, hf, hl, he⟩ => ⟨⟨hw, Instr.stands_of_wf hf hl, hl, he⟩, hf⟩⟩

theorem decode_cons_eq_some_iff {w : Nat} {rest : List Nat} {c : Bool} {i : Instr} :
    decode (w :: rest) = some (c, i) ↔ decodeWord w (.ofNat 32 (rest.headD 0)) = some i ∧
      (i.isVpfx = true → fld w 31 1 ≠ 0) ∧ (i.literal.isSome = true → rest ≠ []) ∧ (fld w 31 1 == 1) = c := by
  cases hd : decodeWord w (.ofNat 32 (rest.headD 0)) with
  | none => simp only [decode, hd, reduceCtorEq, false_and]
  | some j =>
    simp only [decode, hd, Option.ite_none_left_eq_some, Option.some.injEq, Prod.mk.injEq, Bool.or_eq_true,
      Bool.and_eq_true, beq_iff_eq, List.isEmpty_iff, not_or, not_and]
    constructor
    · rintro ⟨⟨hv, hn⟩, hc, rfl⟩
      exact ⟨rfl, hv, hn, hc⟩
    · rintro ⟨rfl, hv, hn, hc⟩
      exact ⟨⟨hv, hn⟩, hc, rfl⟩

/-! The two directions of the encoding. -/

/-- The first word of an instruction's encoding (R32). -/
def headWord (c : Bool) (i : Instr) : Nat := encodeBits i + if c || i.isVpfx then 0x80000000 else 0

theorem encode_eq (c : Bool) (i : Instr) : encode c i = headWord c i :: (i.literal.map BitVec.toNat).toList := by
  unfold encode headWord
  cases i.literal <;> rfl

theorem headWord_mod {c : Bool} {i : Instr} (h : i.isWord = true) : headWord c i % 2 ^ 31 = encodeBits i := by
  have := encodeBits_lt h
  unfold headWord
  split_ifs <;> omega

theorem chain_headWord {c : Bool} {i : Instr} (h : i.isWord = true) :
    (fld (headWord c i) 31 1 == 1) = (c || i.isVpfx) := by
  have := encodeBits_lt h
  unfold headWord fld
  split_ifs with hc
  · rw [hc, beq_iff_eq]; omega
  · rw [Bool.not_eq_true] at hc
    rw [hc, beq_eq_false_iff_ne]; omega

/-- Settles O52: the word's fields name the instruction by `decodeWord_eq_some_iff`; what is left is its chain bit and its
literal. -/
theorem roundTrip : Obligations.RoundTrip := by
  intro i c hword hwf
  have hchain := chain_headWord (c := c) hword
  rw [encode_eq, decode_cons_eq_some_iff, decodeWord_eq_some_iff]
  refine ⟨⟨hword, hwf, ?_, headWord_mod hword⟩, fun hv hc => ?_, fun hl => ?_, hchain⟩
  · cases i.literal <;> simp
  · simp [hv, hc] at hchain
  · cases h : i.literal <;> simp_all

theorem chain_or_isVpfx {w : Nat} {c : Bool} {i : Instr} (hv : i.isVpfx = true → fld w 31 1 ≠ 0)
    (hc : (fld w 31 1 == 1) = c) : (c || i.isVpfx) = c := by
  have := fld_lt w 31 1
  cases hi : i.isVpfx with
  | false => exact Bool.or_false c
  | true =>
    have := hv hi
    rw [← hc, beq_iff_eq.mpr (by omega)]
    rfl

/-- Settles O53: by `decodeWord_eq_some_iff` the bits below the chain bit are the instruction's own, and `decode` has read
its chain bit and its literal. -/
theorem oneMeaning : Obligations.OneMeaning := by
  intro ws c i hws hd
  cases ws with
  | nil => cases hd
  | cons w rest =>
    obtain ⟨hword, hv, hl, hc⟩ := decode_cons_eq_some_iff.mp hd
    obtain ⟨hword, hwf, hlit, hbits⟩ := decodeWord_eq_some_iff.mp hword
    refine ⟨hword, hwf, ?_⟩
    have hw : w < 2 ^ 32 := hws w List.mem_cons_self
    have hhead : headWord c i = w := by
      unfold headWord
      rw [chain_or_isVpfx hv hc, ← hbits, ← hc]
      unfold fld
      split_ifs with hb <;> simp only [beq_iff_eq] at hb <;> omega
    rw [encode_eq, hhead, List.cons_prefix_cons]
    refine ⟨rfl, ?_⟩
    cases hi : i.literal with
    | none => exact List.nil_prefix
    | some l =>
      rw [hi] at hl hlit
      cases rest with
      | nil => exact absurd rfl (hl rfl)
      | cons x xs =>
        have hx : x < 2 ^ 32 := hws x (List.mem_cons_of_mem _ List.mem_cons_self)
        have hxl : l.toNat = x := by
          rw [show l = .ofNat 32 x from hlit, BitVec.toNat_ofNat, Nat.mod_eq_of_lt hx]
        simp [hxl]

end Sys2Proof
end

section
/-!
PROOFS. What stands before an instruction's own effect (R33 to R44, R142, R143, R249, R336): the opcodes that privilege and
roles refuse, the checks in their order, and that every word of a pipe makes them first.
-/

namespace Sys2Proof

theorem Instr.pipe_isSome (i : Instr) : i.pipe.isSome = decide (i.opcode < 0x7E) := by
  cases i <;> rfl

theorem Instr.privileged_eq (i : Instr) : i.privileged = decide (i.opcode ∈ [0x79, 0x7A, 0x7B, 0x7C]) := by
  cases i <;> rfl

theorem Instr.roleOk_general (i : Instr) : i.roleOk 0 = true := by
  cases i <;> rfl

theorem Instr.roleOk_copy (i : Instr) :
    i.roleOk 1 = decide (i.opcode ∉ [0x70, 0x71, 0x72, 0x73, 0x74, 0x75, 0x76, 0x77]) := by
  cases i <;> rfl

theorem Instr.roleOk_matrix (i : Instr) : i.roleOk 2 = decide (i.opcode ∉ [0x60, 0x61, 0x62, 0x63, 0x64]) := by
  cases i <;> rfl

theorem Instr.roleOk_epilogue (i : Instr) :
    i.roleOk 3 = decide (i.opcode ∉ [0x60, 0x61, 0x62, 0x63, 0x64, 0x70, 0x71]) := by
  cases i <;> rfl

/-- The words a role may be refused are the engine words. -/
theorem Instr.pipe_of_roleOk {i : Instr} {r : Nat} (h : i.roleOk r = false) : i.pipe.isSome = true := by
  delta Instr.roleOk at h
  cases i
  all_goals simp only [Bool.true_eq_false] at h
  all_goals rfl

namespace Machine

/-! What an instruction of a pipe does: its checks, then its effect. -/

/-- Every word of a pipe is its checks and then its effect, a lane-wise one only where a lane executes (R44, R247). -/
theorem exec_eq_issue {i : Instr} (h : i.pipe.isSome = true) (s : State) :
    ∃ k, exec i s = .next (bif i.byLane then s.issueVec i k else s.issue i k) := by
  rw [Instr.pipe_isSome, decide_eq_true_iff] at h
  delta Instr.opcode at h
  cases i
  all_goals simp only [Nat.reduceLT] at h
  all_goals exact ⟨_, rfl⟩

namespace State

variable {s : State} {i : Instr}

theorem gate_of_permitted {c : Cause} (h : s.permitted i = some c) : s.gate i = .stop { cause := c } := by
  unfold gate
  rw [h]

theorem gate_of_hazard (h : s.permitted i = none) : s.gate i = s.hazard i := by
  unfold gate
  rw [h]

/-- A refused word raises its cause and does nothing. -/
theorem exec_refused (hp : i.pipe.isSome = true) {c : Cause} (h : s.permitted i = some c) :
    exec i s = .next (s.raise { cause := c }) := by
  obtain ⟨k, hk⟩ := exec_eq_issue hp s
  rw [hk]
  cases i.byLane
  · exact congrArg _ (s.issue_stop (gate_of_permitted h) k)
  · simp only [issueVec, h, cond_true, fail]

/-- A word that is not refused, and of a lane-wise one with a lane to execute, issues. -/
theorem exec_issue (hp : i.pipe.isSome = true) (h : s.permitted i = none) (hx : i.byLane = true → s.execMask ≠ 0) :
    ∃ k, exec i s = .next (s.issue i k) := by
  obtain ⟨k, hk⟩ := exec_eq_issue hp s
  refine ⟨k, hk.trans ?_⟩
  cases hb : i.byLane
  · rfl
  · simp only [issueVec, h, if_neg (hx hb), cond_true]

theorem exec_stop (hp : i.pipe.isSome = true) (h : s.permitted i = none) (hx : i.byLane = true → s.execMask ≠ 0)
    {st : Stop} (hz : s.hazard i = .stop st) : exec i s = .next (s.raise st) := by
  obtain ⟨k, hk⟩ := exec_issue hp h hx
  rw [hk, s.issue_stop ((gate_of_hazard h).trans hz)]

theorem exec_wait (hp : i.pipe.isSome = true) (h : s.permitted i = none) (hx : i.byLane = true → s.execMask ≠ 0)
    (hz : s.hazard i = .wait) : exec i s = .next s.wait := by
  obtain ⟨k, hk⟩ := exec_issue hp h hx
  rw [hk, s.issue_wait ((gate_of_hazard h).trans hz)]

/-! The decode checks, in their order (R44). -/

/-- The checks on a word, its VPFX and the registers it names (R33 to R41). -/
def legal (s : State) (i : Instr) : Prop :=
  i.wf = true ∧ pfxOk s.pfx i = true ∧ ∀ k ∈ s.reads i ++ i.writes, 128 ≤ k ∨ k < s.me.budget

theorem legal_iff : s.legal i ↔ (!(i.wf && pfxOk s.pfx i)) = false
    ∧ ((s.reads i ++ i.writes).any fun k => k < 128 && s.me.budget ≤ k) = false := by
  simp only [legal, Bool.not_eq_false', Bool.and_eq_true, and_assoc, List.any_eq_false, decide_eq_true_eq, not_and,
    not_le]
  refine and_congr_right' (and_congr_right' (forall₂_congr fun k _ => ?_))
  omega

theorem permitted_illegal (h : ¬ s.legal i) : s.permitted i = some .illegal := by
  unfold permitted
  rw [legal_iff, not_and_or, Bool.not_eq_false, Bool.not_eq_false] at h
  split_ifs <;> simp_all

theorem permitted_priv (h : s.legal i) (hp : i.privileged = true) (hs : s.isPriv = false) :
    s.permitted i = some .priv := by
  obtain ⟨hw, hk⟩ := legal_iff.mp h
  unfold permitted
  simp only [hw, hk, hp, hs, Bool.false_eq_true, if_false, Bool.not_false, Bool.and_self, if_true]

theorem permitted_of_mode (h : s.legal i) (hp : i.privileged = false ∨ s.isPriv = true) :
    s.permitted i = if i.roleOk s.me.role then none else some .role := by
  obtain ⟨hw, hk⟩ := legal_iff.mp h
  have hpriv : (i.privileged && !s.isPriv) = false := by
    rcases hp with hp | hp <;> simp [hp]
  unfold permitted
  rw [hw, hk, hpriv]
  cases i.roleOk s.me.role <;> rfl

/-! The register checks, in their order (log entry 18). -/

theorem hazard_pending {k : Nat} (h : (s.reads i ++ i.writes).find? s.pending = some k) :
    s.hazard i = .stop { cause := .loadhaz, data := BitVec.ofNat 32 k } := by
  simp only [hazard, h]

theorem hazard_mark {m : Mark} (h : (s.reads i ++ i.writes).find? s.pending = none)
    (hm : s.markOn (s.reads i ++ i.writes) = some m) : s.hazard i = .stop m.stop := by
  simp only [hazard, h, hm]

theorem hazard_busy (h : (s.reads i ++ i.writes).find? s.pending = none) (hm : s.markOn (s.reads i ++ i.writes) = none)
    (hb : (s.sfuBusy (s.reads i ++ i.writes) || s.flagsBusy i) = true) : s.hazard i = .wait := by
  simp only [hazard, h, hm, hb, if_true]

theorem hazard_poison (h : (s.reads i ++ i.writes).find? s.pending = none) (hm : s.markOn (s.reads i ++ i.writes) = none)
    (hb : (s.sfuBusy (s.reads i ++ i.writes) || s.flagsBusy i) = false) {st : Stop} (hp : s.poisonOf i = some st) :
    s.hazard i = .stop st := by
  simp only [hazard, h, hm, hb, hp, Bool.false_eq_true, if_false]

end State

/-- Settles O54: the checks are those of `permitted`, then those of `hazard`, each in its order. -/
theorem issueChecks : Obligations.IssueChecks := by
  intro s i hp
  refine ⟨fun h => State.exec_refused hp (State.permitted_illegal h),
    fun h hpriv hs => State.exec_refused hp (State.permitted_priv h hpriv hs),
    fun h hmode hr => State.exec_refused hp (by rw [State.permitted_of_mode h hmode, hr]; rfl),
    fun h hmode hr hx => ?_⟩
  have hok : s.permitted i = none := by rw [State.permitted_of_mode h hmode, hr]; rfl
  exact ⟨fun k hk => State.exec_stop hp hok hx (State.hazard_pending hk),
    fun hn => ⟨fun m hm => State.exec_stop hp hok hx (State.hazard_mark hn hm),
      fun hm => ⟨fun hb => State.exec_wait hp hok hx (State.hazard_busy hn hm hb),
        fun hb => ⟨fun st hst => State.exec_stop hp hok hx (State.hazard_poison hn hm hb hst),
          fun hst => s.gate_go_iff.mpr ⟨hok, s.hazard_go_iff.mpr ⟨hn, hm, hb, hst⟩⟩⟩⟩⟩⟩

/-- A well-formed word with no VPFX is legal where the warp has all its v registers. -/
theorem State.legal_of_wf {s : State} {i : Instr} (h : i.wf = true) (hpfx : s.pfx = none) (hb : s.me.budget = 128) :
    s.legal i :=
  ⟨h, by rw [hpfx]; rfl, fun k _ => by rw [hb]; omega⟩

/-- Settles O55: the opcodes of the privileged and of the engine words, and the checks that refuse them. -/
theorem privilegeAndRoles : Obligations.PrivilegeAndRoles := by
  intro s i hword
  rw [encodeBits_div (Instr.opcode_lt_iff.mpr hword)]
  refine ⟨i.privileged_eq, i.roleOk_general, i.roleOk_copy, i.roleOk_matrix, i.roleOk_epilogue, ?_, ?_⟩
  · intro hwf hpriv htrap hblk hpfx hb
    have hpipe : i.pipe.isSome = true := by
      rw [i.privileged_eq, decide_eq_true_iff] at hpriv
      rw [i.pipe_isSome, decide_eq_true_iff]
      simp only [List.mem_cons, List.not_mem_nil, or_false] at hpriv
      omega
    have hmode : s.isPriv = false := by simp [State.isPriv, htrap, hblk]
    exact State.exec_refused hpipe (State.permitted_priv (State.legal_of_wf hwf hpfx hb) hpriv hmode)
  · intro hwf hmode hpfx hb hrole
    exact State.exec_refused (Instr.pipe_of_roleOk hrole) (by
      rw [State.permitted_of_mode (State.legal_of_wf hwf hpfx hb) hmode, hrole]; rfl)

theorem Instr.opcode_ne_reserved {o : Nat}
    (ho : o ∈ [0x1E, 0x1F, 0x2F, 0x32, 0x33, 0x34, 0x35, 0x36, 0x37, 0x3F, 0x5D, 0x5E, 0x5F, 0x68, 0x69, 0x6A, 0x6B, 0x6C,
      0x6D, 0x6E, 0x6F, 0x7D]) {w : Nat} (hw : fld w 24 7 = o) (lit : Word) : decodeWord w lit = none := by
  unfold decodeWord parse
  rw [hw]
  fin_cases ho <;> rfl

/-- Settles O51: the worked encodings are decoded one by one, and a reserved opcode has no row in `parse`. -/
theorem decodeWords : Obligations.DecodeWords :=
  ⟨by decide +kernel, fun _ ho _ lit hw => Instr.opcode_ne_reserved ho hw lit⟩

end Machine

end Sys2Proof
end

section
/-!
PROOFS. Dictionary pairs and prefixes (R27, R29).
-/

namespace Sys2Proof.Machine

theorem setC_low (w : Word) (c : Bool) : (setC w c).extractLsb' 0 31 = w.extractLsb' 0 31 := by
  unfold setC
  have hm : w.toNat &&& 0x7FFFFFFF = w.toNat % 2 ^ 31 := Nat.and_two_pow_sub_one_eq_mod _ 31
  apply BitVec.eq_of_toNat_eq
  have hor := Nat.or_mod_two_pow (a := w.toNat % 2 ^ 31) (b := 2 ^ 31) (n := 31)
  cases c
  · simp [hm]
  · simpa [hm] using hor

theorem setC_chain (w : Word) (c : Bool) : (setC w c).getLsbD 31 = c := by
  unfold setC
  cases c <;> simp

/-- The elements a pair stands for: the last has the pair's own chain bit, one before it has P (R29). -/
theorem entries_chain {ws : List Word} {p : Bool} {e : Elem} {xs : List Elem} (h : entries ws p e = some xs) :
    xs.getLast?.map (·.c) = some e.c ∧ ∀ y ∈ xs.dropLast, y.c = p := by
  unfold entries at h
  split at h
  · obtain ⟨i, -, rfl⟩ := Option.map_eq_some_iff.mp h
    simp
  · split at h
    · split at h
      · split at h
        · split at h
          · cases h
          · cases h
            simp
        · cases h
      · cases h
    · split at h
      · cases p <;> cases h <;> simp
      · cases h
  · cases h
namespace State
variable {s : State}

theorem dictionary_eq_some {d : DictRam} (ht : s.isTrap = false) (hd : s.myBlock.dict ≠ 0)
    (hf : (s.core s.myCore).dicts.toList.find? (·.tag == s.myBlock.dict) = some d) : s.dictionary = some d := by
  unfold dictionary
  rw [ht, if_neg (by simpa using hd), hf]

theorem dictionary_eq_none (h : s.isTrap = true ∨ s.myBlock.dict = 0) : s.dictionary = none := by
  unfold dictionary
  rw [if_pos (by simpa using h)]

/-- A pair of a loaded dictionary is expanded into its entries (R29). -/
theorem expand_loaded {p : Bool} {a b : Nat} {d : DictRam} (hd : s.dictionary = some d) (hl : d.loaded = true)
    (hf : d.fail = none) (ha : a ≠ 1023) (hb : p = true → b ≠ 1023) :
    s.expand p a b = { s with
      expansion := setC (d.data.getD a 0) p :: if b = 1023 then [] else [d.data.getD b 0], out := .done } := by
  have hc : (a = 1023 || (p && b == 1023)) = false := by
    cases p <;> simp [ha] at hb ⊢
    exact hb
  unfold expand
  rw [hc, if_neg Bool.false_ne_true, hd]
  simp only [hf, hl, Bool.not_true, Bool.false_eq_true, if_false]
  rfl

theorem expand_illegal {p : Bool} {a b : Nat} (h : a = 1023 ∨ (p = true ∧ b = 1023) ∨ s.dictionary = none) :
    s.expand p a b = s.raise { cause := .illegal } := by
  unfold expand
  split
  · rfl
  · rename_i hc
    rcases h with h | h | h
    · simp [h] at hc
    · simp [h] at hc
    · rw [h]; rfl
end State

/-- Settles O56: a pair by `expand_loaded` and `entries_chain`, a VPFX by its own fields. -/
theorem pairsAndPrefixes : Obligations.PairsAndPrefixes := by
  intro s p z a b m r o d
  have hp (q : BitVec 1) : (q == 1) = true ↔ q = 1 := beq_iff_eq
  refine ⟨fun ht hblk hfind hload hfail ha hb => ?_, fun h => ?_, fun hm hr ho => ?_⟩
  · have he := State.expand_loaded (p := p == 1) (State.dictionary_eq_some ht hblk hfind) hload hfail ha
      (fun h => hb ((hp p).mp h))
    refine ⟨_, _, congrArg Host.Outcome.next he, rfl, setC_low _ _, fun _ => setC_chain _ _, fun e xs hxs => entries_chain hxs⟩
  · refine congrArg Host.Outcome.next (State.expand_illegal ?_)
    rcases h with h | ⟨h, h'⟩ | h | h
    · exact .inl h
    · exact .inr (.inl ⟨(hp p).mpr h, h'⟩)
    · exact .inr (.inr (State.dictionary_eq_none (.inl h)))
    · exact .inr (.inr (State.dictionary_eq_none (.inr h)))
  · have hwf : (Instr.vpfx m z r o).wf = true := by
      refine Instr.wf_iff.mpr ⟨?_, ?_, ?_⟩
      · simpa [Instr.srcs] using ho
      · refine Instr.litAgree_iff.mpr fun a ha x l hx hl => ?_
        obtain rfl := List.mem_singleton.mp ha
        rw [show (Instr.vpfx m z r a).literal = [a].findSome? Src.literal from rfl, List.findSome?_singleton, hx] at hl
        exact Option.some.inj hl
      · simp [Instr.fieldsOk, hm, hr]
    refine ⟨{ s with pfx := pfxOf (.vpfx m z r o), out := .done }, ?_, rfl⟩
    show Host.Outcome.next _ = _
    rw [hwf]
    rfl
end Sys2Proof.Machine

end

section
/-!
PROOFS. Updates of the issuing warp, and how a split starts.
-/

namespace Sys2Proof.Machine

/-! Updates of the issuing warp. -/

theorem Tab.put_put {α : Type} (t : Tab α) (k : Nat) (a b : α) : (t.put k a).put k b = t.put k b := by
  induction t with
  | nil => simp [Tab.put]
  | cons e t ih =>
    obtain ⟨j, c⟩ := e
    by_cases hlt : k < j
    · simp [Tab.put, hlt]
    · by_cases heq : k = j
      · simp [Tab.put, heq]
      · simp [Tab.put, hlt, heq, ih]

namespace State
variable (s : State)

/-- The state with another issuing warp. -/
def withMe (w : Warp) : State := s.modMe fun _ => w

theorem modMe_eq (f : Warp → Warp) : s.modMe f = s.withMe (f s.me) := rfl

@[simp] theorem withMe_me (w : Warp) : (s.withMe w).me = w := s.me_modMe _

@[simp] theorem withMe_withMe (w w' : Warp) : (s.withMe w).withMe w' = s.withMe w' := by
  show { s with warps := (s.warps.put s.cur w).put s.cur w' } = { s with warps := s.warps.put s.cur w' }
  rw [Tab.put_put]

@[simp] theorem withMe_cur (w : Warp) : (s.withMe w).cur = s.cur := rfl
@[simp] theorem withMe_pos (w : Warp) : (s.withMe w).pos = s.pos := rfl

/-- The state with another issuing warp, and the instruction come out so. -/
def become (w : Warp) (o : Issue) : State := { s.withMe w with out := o }

@[simp] theorem become_me (w : Warp) (o : Issue) : (s.become w o).me = w := s.withMe_me w
@[simp] theorem become_mem (w : Warp) (o : Issue) : (s.become w o).mem = s.mem := rfl
@[simp] theorem become_out (w : Warp) (o : Issue) : (s.become w o).out = o := rfl
@[simp] theorem become_withMe (w w' : Warp) (o : Issue) : (s.withMe w).become w' o = s.become w' o := by
  rw [become, become, withMe_withMe]

theorem onlyMe_become (w : Warp) (o : Issue) : s.onlyMe (s.become w o) :=
  ⟨rfl, fun _ h => Tab.get?_put_other _ h _, fun _ => rfl, fun _ _ => rfl⟩

theorem done_withMe (w : Warp) : (s.withMe w).done = s.become w .done := rfl
theorem jump_eq (tgt : Nat) : s.jump tgt = s.become (s.me.goto (tgt, 0, false)) .moved := rfl

end State

/-! A split starts (R298, R303). -/

theorem maskOf_maskWord (m : LaneMask) : maskOf (maskWord m 0) (maskWord m 1) (maskWord m 2) = m := by
  apply BitVec.eq_of_getLsbD_eq
  intro i hi
  simp only [maskOf, maskWord, BitVec.getLsbD_append, BitVec.getLsbD_extractLsb']
  have h₁ : ¬ i < 32 → 32 + (i - 32) = i := by omega
  have h₂ : ¬ i - 32 < 32 → 64 + (i - 32 - 32) = i := by omega
  split_ifs with h h'
  · simp [h]
  · simp [h', h₁ h]
  · have : i - 32 - 32 < 32 := by omega
    simp [this, h₂ h']

namespace Warp
variable (w : Warp)

/-- The warp with another divergence stack. -/
def withStack (l : List StackEnt) : Warp := { w with stack := l }

@[simp] theorem withStack_stack (l : List StackEnt) : (w.withStack l).stack = l := rfl
@[simp] theorem withStack_spilled (l : List StackEnt) : (w.withStack l).spilled = w.spilled := rfl
@[simp] theorem withStack_blk (l : List StackEnt) : (w.withStack l).blk = w.blk := rfl
@[simp] theorem withStack_widx (l : List StackEnt) : (w.withStack l).widx = w.widx := rfl
@[simp] theorem withStack_withStack (l l' : List StackEnt) : (w.withStack l).withStack l' = w.withStack l' := rfl

/-- The warp as a split of it starts with lanes `m`. -/
def startSplit (m : LaneMask) : Warp := ({ w with sls := m, back := 0 } : Warp).setTriple 0 m

theorem startSplit_eq (m : LaneMask) :
    w.startSplit m = { w with sls := m, back := 0, s := (w.startSplit m).s, bad := (w.startSplit m).bad } := rfl

/-- A write of m0 keeps to the lanes of the split (R299). -/
theorem sreg_setTriple_zero {n : Nat} (h : n < 3) (m : LaneMask) :
    (w.setTriple 0 m).sreg n = maskWord m n &&& maskWord w.sls n := by
  unfold setTriple
  match n, h with
  | 0, _ =>
    rw [sreg_setS_other _ (by omega), sreg_setS_other _ (by omega), sreg_setS_same _ (by omega)]
    rfl
  | 1, _ =>
    rw [sreg_setS_other _ (by omega), sreg_setS_same _ (by omega)]
    rfl
  | 2, _ =>
    rw [sreg_setS_same _ (by omega)]
    rfl

@[simp] theorem exec_startSplit (m : LaneMask) : (w.startSplit m).exec = m := by
  unfold exec triple startSplit
  rw [sreg_setTriple_zero _ (by omega), sreg_setTriple_zero _ (by omega), sreg_setTriple_zero _ (by omega)]
  simp only [BitVec.and_self]
  exact maskOf_maskWord m

theorem sreg_startSplit {n : Nat} (h : 3 ≤ n) (m : LaneMask) : (w.startSplit m).sreg n = w.sreg n := by
  unfold startSplit setTriple
  rw [sreg_setS_other _ (by omega), sreg_setS_other _ (by omega), sreg_setS_other _ (by omega)]
  rfl

/-- What a split that takes over from another finds (R303, R304): its own lanes, at the packet of its entry. -/
theorem resume_spec (q : StackEnt) :
    let w' := (w.startSplit q.mask).goto (q.pc, 0, false)
    w'.stack = w.stack ∧ w'.sls = q.mask ∧ w'.exec = q.mask ∧ w'.back = 0 ∧ w'.position = (q.pc, 0, false) :=
  ⟨rfl, rfl, w.exec_startSplit q.mask, rfl, rfl⟩

end Warp

end Sys2Proof.Machine
end

section
/-!
PROOFS. Targets, transfers, and the outcomes of memory accesses.
-/

namespace Sys2Proof.Machine

namespace State
variable {s : State}

/-! Targets (R18, R301). -/

theorem target_align {t : Int} (h : t % 12 ≠ 0) : target t = some .align := by
  rw [target, if_pos h]

theorem target_bounds {t : Int} (h : t % 12 = 0) (hr : t < 0 ∨ 2 ^ 56 ≤ t) : target t = some .bounds := by
  rw [target, if_neg (not_not.mpr h), if_pos (by simpa using hr)]

theorem target_none {t : Int} (h : t % 12 = 0) (h₀ : 0 ≤ t) (hr : t < 2 ^ 56) : target t = none := by
  rw [target, if_neg (not_not.mpr h), if_neg (by simpa using And.intro h₀ hr)]

theorem packets_mod {pc : Nat} (h : pc % 12 = 0) (off : Int) : packets pc off % 12 = 0 := by
  unfold packets
  omega

/-! Effects that stop or wait. -/

@[simp] theorem run_ok (t : State) : s.run (.ok t) = t := rfl
@[simp] theorem run_stop (st : Stop) : s.run (.stop st) = s.raise st := rfl
@[simp] theorem run_fail (c : Cause) : s.run (Eff.fail c) = s.raise { cause := c } := rfl

@[simp] theorem run_wait_out (t : State) : (s.run (.wait t)).out = .waiting := rfl
@[simp] theorem run_wait_warps (t : State) : (s.run (.wait t)).warps = s.warps := rfl

@[simp] theorem wait_bind (t : State) (k : State → Eff) : Eff.bind (.wait t) k = .wait t := rfl
@[simp] theorem stop_bind (st : Stop) (k : State → Eff) : Eff.bind (.stop st) k = .stop st := rfl
@[simp] theorem ok_bind (t : State) (k : State → Eff) : Eff.bind (.ok t) k = k t := rfl

/-! Transfers. -/

theorem startSplit_eq (m : LaneMask) : s.startSplit m = s.withMe (s.me.startSplit m) := rfl

theorem enterAt_align {e : StackEnt} (h : e.pc % 12 ≠ 0) : s.enterAt e = Eff.fail .align := by
  rw [enterAt, if_pos h]

theorem enterAt_ok {e : StackEnt} (h : e.pc % 12 = 0) : s.enterAt e = .ok (s.jump e.pc) := by
  rw [enterAt, if_neg (not_not.mpr h)]

theorem topSplit_iff {e : StackEnt} {l : List StackEnt} (h : s.me.stack = e :: l) : s.topSplit = !e.reconv := by
  rw [topSplit, h]

theorem topSplit_eq_false (h : ∀ q ∈ s.me.stack.head?, q.reconv = true) : s.topSplit = false := by
  unfold topSplit
  cases hs : s.me.stack with
  | nil => rfl
  | cons e l =>
    rw [hs] at h
    have he : e.reconv = true := h e rfl
    simp only [he, Bool.not_true]

/-- The top entry exchanges with the running split (R305), unless its PC is no packet (R18). -/
theorem rotate_align {e : StackEnt} {l : List StackEnt} (h : s.me.stack = e :: l) (he : e.pc % 12 ≠ 0) (tgt : Nat) :
    s.rotate tgt = Eff.fail .align := by
  simp only [rotate, h, enterAt_align he]

theorem rotate_ok {e : StackEnt} {l : List StackEnt} (h : s.me.stack = e :: l) (he : e.pc % 12 = 0) (tgt : Nat) :
    s.rotate tgt = .ok (s.become (((s.me.withStack ({ e with pc := tgt, mask := s.me.sls } :: l)).startSplit e.mask).goto
      (e.pc, 0, false)) .moved) := by
  simp only [rotate, h, enterAt_ok he, jump_eq, startSplit_eq, modMe_eq, withMe_me, withMe_withMe, become_withMe]
  rfl

/-! A taken branch (R305). -/

theorem branch_forward {tgt : Nat} (h : s.pc < tgt) : s.branch tgt = s.jump tgt := by
  rw [branch, if_pos h]

theorem branch_counted {tgt : Nat} (h : tgt ≤ s.pc) (hb : s.me.back < 63) :
    s.branch tgt = s.become (({ s.me with back := s.me.back + 1 } : Warp).goto (tgt, 0, false)) .moved := by
  rw [branch, if_neg (by omega), if_pos hb, jump_eq, modMe_eq, withMe_me, become_withMe]

theorem branch_uncounted {tgt : Nat} (h : tgt ≤ s.pc) (hb : 63 ≤ s.me.back) (ht : s.topSplit = false) :
    s.branch tgt = s.jump tgt := by
  rw [branch, if_neg (by omega), if_neg (by omega), ht, if_neg Bool.false_ne_true]

theorem branch_exchange {tgt : Nat} (h : tgt ≤ s.pc) (hb : 63 ≤ s.me.back) (ht : s.topSplit = true) :
    s.branch tgt = s.run (s.rotate tgt) := by
  rw [branch, if_neg (by omega), if_neg (by omega), if_pos ht]

/-- Where a branch leaves the warp. -/
theorem branch_spec {tgt : Nat} (hal : 63 ≤ s.me.back → ∀ q ∈ s.me.stack.head?, q.pc % 12 = 0) :
    ∃ w, s.branch tgt = s.become w .moved
      ∧ (s.pc < tgt → w = { s.me with pc := tgt, slot := 0, exp := false })
      ∧ (tgt ≤ s.pc → s.me.back < 63 → w = { s.me with pc := tgt, slot := 0, exp := false, back := s.me.back + 1 })
      ∧ (tgt ≤ s.pc → 63 ≤ s.me.back → (∀ q ∈ s.me.stack.head?, q.reconv = true) →
        w = { s.me with pc := tgt, slot := 0, exp := false })
      ∧ (tgt ≤ s.pc → 63 ≤ s.me.back → ∀ q l, s.me.stack = q :: l → q.reconv = false →
        w.stack = { q with pc := tgt, mask := s.me.sls } :: l ∧ w.sls = q.mask ∧ w.exec = q.mask ∧ w.back = 0
          ∧ w.position = (q.pc, 0, false)) := by
  rcases Nat.lt_or_ge s.pc tgt with hf | hf
  · refine ⟨_, branch_forward hf, fun _ => rfl, ?_, ?_, ?_⟩ <;> intro h <;> omega
  rcases Nat.lt_or_ge s.me.back 63 with hb | hb
  · refine ⟨_, branch_counted hf hb, fun h => by omega, fun _ _ => rfl, ?_, ?_⟩ <;> intro _ h <;> omega
  cases ht : s.topSplit with
  | false =>
    refine ⟨_, branch_uncounted hf hb ht, fun h => by omega, fun _ h => by omega, fun _ _ _ => rfl, fun _ _ q l hs hq => ?_⟩
    rw [topSplit_iff hs, hq] at ht
    cases ht
  | true =>
    cases hs : s.me.stack with
    | nil => simp only [topSplit, hs, Bool.false_eq_true] at ht
    | cons q l =>
      have hq : q.reconv = false := by simpa only [topSplit_iff hs, Bool.not_eq_true'] using ht
      have hpc : q.pc % 12 = 0 := hal hb q (by rw [hs]; rfl)
      refine ⟨_, by rw [branch_exchange hf hb ht, rotate_ok hs hpc, run_ok], fun h => by omega, fun _ h => by omega,
        fun _ _ h => ?_, fun _ _ q' l' hs' _ => ?_⟩
      · rw [h q rfl] at hq
        cases hq
      · obtain ⟨rfl, rfl⟩ := List.cons.inj hs'
        exact Warp.resume_spec _ q

theorem branch_align {tgt : Nat} (h : tgt ≤ s.pc) (hb : 63 ≤ s.me.back) {q : StackEnt} {l : List StackEnt}
    (hs : s.me.stack = q :: l) (hq : q.reconv = false) (hpc : q.pc % 12 ≠ 0) :
    s.branch tgt = s.raise { cause := .align } := by
  rw [branch_exchange h hb (by rw [topSplit_iff hs, hq]; rfl), rotate_align hs hpc, run_fail]

end State

/-! BRA and BDIV (R302, R303). -/

section
variable {s : State} {r : BitVec 6} {o : BitVec 14} {lit : Word}

theorem exec_bra {k : BitVec 4} (h : s.gate (.bra k r o) = .go) (hp : s.pos.1 % 12 = 0)
    (h₀ : 0 ≤ packets s.pos.1 o.toInt) (ht : packets s.pos.1 o.toInt < 2 ^ 56) :
    exec (.bra k r o) s = .next (if s.braTaken k.toNat r.toNat then s.branch (packets s.pos.1 o.toInt).toNat else s.done) := by
  refine congrArg Host.Outcome.next ((s.issue_go h _).trans ?_)
  rw [State.pc, State.target_none (State.packets_mod hp _) h₀ ht]

theorem exec_bra_bounds (h : s.gate (.bra 0 r o) = .go) (hp : s.pos.1 % 12 = 0)
    (hr : packets s.pos.1 o.toInt < 0 ∨ 2 ^ 56 ≤ packets s.pos.1 o.toInt) :
    exec (.bra 0 r o) s = .next (s.raise { cause := .bounds }) := by
  refine congrArg Host.Outcome.next ((s.issue_go h _).trans ?_)
  rw [State.pc, State.target_bounds (State.packets_mod hp _) hr]
  rfl

theorem exec_bdiv (h : s.gate (.bdiv r o lit) = .go) (hp : s.pos.1 % 12 = 0)
    (hl : 0 ≤ packets s.pos.1 lit.toInt) (hl' : packets s.pos.1 lit.toInt < 2 ^ 56)
    (h₀ : 0 ≤ packets s.pos.1 o.toInt) (ht : packets s.pos.1 o.toInt < 2 ^ 56) :
    exec (.bdiv r o lit) s = .next
      (let e := s.execMask
       let m := s.before.triple r.toNat
       if e &&& m = 0 then s.done
       else if e &&& ~~~m = 0 then s.branch (packets s.pos.1 o.toInt).toNat
       else s.run ((s.stackPush ⟨(packets s.pos.1 lit.toInt).toNat, s.currentRpc, e, true⟩).bind fun t =>
         (t.stackPush ⟨(packets s.pos.1 o.toInt).toNat, (packets s.pos.1 lit.toInt).toNat, e &&& m, false⟩).bind fun t =>
           .ok (t.startSplit (e &&& ~~~m)).done)) := by
  refine congrArg Host.Outcome.next ((s.issue_go h _).trans ?_)
  simp only [State.pc, State.target_none (State.packets_mod hp _) hl hl', State.target_none (State.packets_mod hp _) h₀ ht]

end

end Sys2Proof.Machine
end

section
/-!
PROOFS. The divergence stack and its spill area.
-/

namespace Sys2Proof.Machine

namespace State
variable {s : State}

/-! The divergence stack and its spill area (R300). -/

theorem me_congr {t u : State} (hw : t.warps = u.warps) (hc : t.cur = u.cur) : t.me = u.me := by
  rw [me, me, warp, warp, hw, hc]

/-- The spill area is the warp's, whatever its stack holds. -/
theorem spillArea_withMe {w : Warp} (hb : w.blk = s.me.blk) (hx : w.widx = s.me.widx) :
    (s.withMe w).spillArea (s.withMe w).cur = s.spillArea s.cur := by
  show (let b := (s.withMe w).block (s.withMe w).me.blk; b.pbase + (s.withMe w).me.widx * 96 * b.psize + (b.psize - 80) / 4 * 384) = _
  rw [withMe_me, hb, hx]
  rfl

theorem myPsize_withMe {w : Warp} (ht : s.isTrap = false) (hb : w.blk = s.me.blk) :
    (s.withMe w).myPsize = s.myBlock.psize := by
  have ht' : (s.withMe w).isTrap = false := ht
  rw [myPsize, ht', if_neg Bool.false_ne_true, myBlock, myBlk, withMe_me, hb]
  rfl

section
variable {n m : Nat} {f : List Byte → List Byte} {k : State → List Byte → Eff} {x y : State} {va : Nat}
  (hva : s.spillArea s.cur = va)
include hva

theorem spill_read_stop {st : Stop} (hr : s.reach .r va (piecesFrom va (n + 2) (32 * n)) = .stop st) :
    s.spill n m f k = .stop st := by
  simp only [spill, hva, hr, Eff.bind]

theorem spill_read_wait (hr : s.reach .r va (piecesFrom va (n + 2) (32 * n)) = .wait x) : s.spill n m f k = .wait x := by
  simp only [spill, hva, hr, Eff.bind]

theorem spill_write_stop {st : Stop} (hr : s.reach .r va (piecesFrom va (n + 2) (32 * n)) = .ok x)
    (hw : x.reach .w va (piecesFrom va (m + 2) (32 * m)) = .stop st) : s.spill n m f k = .stop st := by
  simp only [spill, hva, hr, hw, Eff.bind]

theorem spill_write_wait (hr : s.reach .r va (piecesFrom va (n + 2) (32 * n)) = .ok x)
    (hw : x.reach .w va (piecesFrom va (m + 2) (32 * m)) = .wait y) : s.spill n m f k = .wait y := by
  simp only [spill, hva, hr, hw, Eff.bind]

/-- What a spill whose pieces are all reached goes on with. -/
theorem spill_done {z : State} {bs d : List Byte} {lend : Nat}
    (hr : s.reach .r va (piecesFrom va (n + 2) (32 * n)) = .ok x) (hw : x.reach .w va (piecesFrom va (m + 2) (32 * m)) = .ok y)
    (hb : y.readBytes y.agent va (32 * n) .r = (z, .bytes bs)) (hd : (z.writeBytes y.agent va (f bs)).2 = (.bytes d, lend)) :
    s.spill n m f k = k ((z.writeBytes y.agent va (f bs)).1.modCore y.myCore fun c =>
      { c with leasemax := max c.leasemax lend }) bs := by
  have hz : z.writeBytes y.agent va (f bs) = ((z.writeBytes y.agent va (f bs)).1, .bytes d, lend) := Prod.ext rfl hd
  simp only [spill, hva, hr, hw, Eff.bind, hb]
  rw [hz]

end

theorem reach_nil (need : Need) (va : Nat) : s.reach need va [] = .ok s := rfl

/-! Pushes. -/

theorem stackPush_held (h : s.me.stack.length < 256) (hh : s.me.stack.length - s.me.spilled < 16) (e : StackEnt) :
    s.stackPush e = .ok (s.withMe (s.me.withStack (e :: s.me.stack))) := by
  rw [stackPush, if_neg (by omega), if_pos hh]
  rfl

theorem stackPush_overflow (h : s.me.stack.length < 256) (hh : 16 ≤ s.me.stack.length - s.me.spilled)
    (hp : s.myPsize < 80) (e : StackEnt) : s.stackPush e = Eff.fail .stackovf := by
  rw [stackPush, if_neg (by omega), if_neg (by omega), if_pos hp]

theorem stackPush_spill (h : s.me.stack.length < 256) (hh : 16 ≤ s.me.stack.length - s.me.spilled)
    (hp : 80 ≤ s.myPsize) {old : StackEnt} (ho : s.me.stack[15]? = some old) (e : StackEnt) :
    s.stackPush e = s.spill s.me.spilled (s.me.spilled + 1) (old.bytes ++ ·) fun t _ =>
      .ok (t.withMe { t.me with stack := e :: t.me.stack, spilled := t.me.spilled + 1 }) := by
  simp only [stackPush]
  rw [if_neg (by omega), if_neg (by omega), if_neg (by omega), ho]
  rfl

end State

end Sys2Proof.Machine
end

section
/-!
PROOFS. BRA and BDIV.
-/

namespace Sys2Proof.Machine

/-! BRA and BDIV: the obligation. -/

section
variable {s : State} {r : BitVec 6} {o : BitVec 14} {lit : Word}

/-- Where a word of the list goes: BRA on its condition, BDIV when all its active lanes take it. -/
theorem exec_branch_word (hp : s.pos.1 % 12 = 0) (hl : 0 ≤ packets s.pos.1 lit.toInt)
    (hl' : packets s.pos.1 lit.toInt < 2 ^ 56) (h₀ : 0 ≤ packets s.pos.1 o.toInt) (ht : packets s.pos.1 o.toInt < 2 ^ 56)
    {c : Instr × Bool} (hgo : s.gate c.1 = .go)
    (hc : (∃ k, c = (.bra k r o, s.braTaken k.toNat r.toNat)) ∨ c = (.bdiv r o lit,
      s.execMask &&& s.before.triple r.toNat != 0 && s.execMask &&& ~~~s.before.triple r.toNat == 0)) :
    (c.2 = true → exec c.1 s = .next (s.branch (packets s.pos.1 o.toInt).toNat))
      ∧ (c.2 = false → (∀ i < 96, c.1 = .bdiv r o lit → (s.execMask &&& s.before.triple r.toNat).getLsbD i = false) →
        exec c.1 s = .next s.done) := by
  rcases hc with ⟨k, rfl⟩ | rfl
  · rw [exec_bra hgo hp h₀ ht]
    exact ⟨fun h => by rw [show s.braTaken k.toNat r.toNat = true from h]; rfl,
      fun h _ => by rw [show s.braTaken k.toNat r.toNat = false from h]; rfl⟩
  · rw [exec_bdiv hgo hp hl hl' h₀ ht]
    constructor
    · intro h
      obtain ⟨hm, hn⟩ : s.execMask &&& s.before.triple r.toNat ≠ 0 ∧ s.execMask &&& ~~~s.before.triple r.toNat = 0 := by
        simpa using h
      dsimp only
      rw [if_neg hm, if_pos hn]
    · intro _ hz
      have hm : s.execMask &&& s.before.triple r.toNat = 0 :=
        BitVec.eq_of_getLsbD_eq fun i hi => (hz i hi rfl).trans (BitVec.getLsbD_zero).symm
      dsimp only
      rw [if_pos hm]

/-- A BDIV that some active lanes take and some do not, up to its second push. -/
theorem exec_bdiv_partial {rpc tgt : Int} {e m : LaneMask} (hrpc : packets s.pos.1 lit.toInt = rpc)
    (htgt : packets s.pos.1 o.toInt = tgt) (he : s.execMask = e) (hmm : s.before.triple r.toNat = m)
    (h : s.gate (.bdiv r o lit) = .go) (hp : s.pos.1 % 12 = 0) (hl : 0 ≤ rpc) (hl' : rpc < 2 ^ 56) (h₀ : 0 ≤ tgt)
    (ht : tgt < 2 ^ 56) (hm : e &&& m ≠ 0) (hn : e &&& ~~~m ≠ 0)
    (hlen : s.me.stack.length < 255) (hheld : s.me.stack.length - s.me.spilled < 16) :
    exec (.bdiv r o lit) s = .next (s.run
      (((s.withMe (s.me.withStack (⟨rpc.toNat, s.currentRpc, e, true⟩ :: s.me.stack))).stackPush
        ⟨tgt.toNat, rpc.toNat, e &&& m, false⟩).bind fun t => .ok (t.startSplit (e &&& ~~~m)).done)) := by
  subst hrpc htgt he hmm
  rw [exec_bdiv h hp hl hl' h₀ ht]
  dsimp only
  rw [if_neg hm, if_neg hn, State.stackPush_held (by omega) hheld]
  rfl

/-- Both pushes fit among the held entries. -/
theorem run_push_held {first split : StackEnt} {k : LaneMask} (hlen : s.me.stack.length < 255)
    (hheld : s.me.stack.length - s.me.spilled < 15) :
    s.run (((s.withMe (s.me.withStack (first :: s.me.stack))).stackPush split).bind fun t => .ok (t.startSplit k).done)
      = s.become ((s.me.withStack (split :: first :: s.me.stack)).startSplit k) .done := by
  have hlen' : (s.withMe (s.me.withStack (first :: s.me.stack))).me.stack.length < 256 := by
    rw [State.withMe_me]
    exact Nat.succ_lt_succ hlen
  have hheld' : (s.withMe (s.me.withStack (first :: s.me.stack))).me.stack.length
      - (s.withMe (s.me.withStack (first :: s.me.stack))).me.spilled < 16 := by
    rw [State.withMe_me]
    show s.me.stack.length + 1 - s.me.spilled < 16
    omega
  rw [State.stackPush_held hlen' hheld', State.ok_bind, State.run_ok, State.startSplit_eq, State.withMe_me,
    State.withMe_withMe, State.withMe_me, State.withMe_withMe, State.done_withMe, Warp.withStack_withStack,
    Warp.withStack_stack]

end

/-- Settles O20: the transfers by `branch_spec`, the pushes by the lemmas on `stackPush` and `spill`. -/
theorem branches : Obligations.Branches := by
  refine ⟨?_, fun s o r hgo hp hr => exec_bra_bounds hgo hp hr, ?_⟩
  · intro s r o lit x e m tgt c hc hgo hp hl hl' h₀ ht
    have hword : (∃ k, c = (.bra k r o, s.braTaken k.toNat r.toNat)) ∨ c = (.bdiv r o lit, e &&& m != 0 && e &&& ~~~m == 0) := by
      simp only [List.mem_cons, List.not_mem_nil, or_false] at hc
      rcases hc with rfl | rfl | rfl | rfl | rfl | rfl | rfl | rfl
      exacts [.inl ⟨0, rfl⟩, .inl ⟨1, rfl⟩, .inl ⟨2, rfl⟩, .inl ⟨3, rfl⟩, .inl ⟨4, rfl⟩, .inl ⟨5, rfl⟩, .inl ⟨6, rfl⟩, .inr rfl]
    obtain ⟨htaken, hnot⟩ := exec_branch_word hp hl hl' h₀ ht hgo hword
    have hback : tgt ≤ s.pos.1 ↔ tgt.toNat ≤ s.pc := by unfold State.pc; omega
    have hfore : s.pos.1 < tgt ↔ s.pc < tgt.toNat := by unfold State.pc; omega
    refine ⟨hnot, fun h hal => ?_, fun h hb hlt q l hs hq hpc => ?_⟩
    · obtain ⟨w, hw, hf, hc, hu, hx⟩ := State.branch_spec (tgt := tgt.toNat) hal
      refine ⟨s.become w .moved, (htaken h).trans (congrArg _ hw), rfl, s.onlyMe_become _ _, ?_⟩
      rw [State.become_me, hfore, hback]
      exact ⟨hf, hc, hu, hx⟩
    · exact (htaken h).trans (congrArg _ (State.branch_align (hback.mp hb) hlt hs hq hpc))
  · intro s r o lit e m rpc tgt hgo hp hl hl' h₀ ht hm hn hlen hheld
    refine ⟨?_, fun s r o lit deep => ?_⟩
    · refine ⟨_, (exec_bdiv_partial rfl rfl rfl rfl hgo hp hl hl' h₀ ht hm hn hlen (by omega)).trans
        (congrArg _ (run_push_held hlen hheld)), rfl, s.onlyMe_become _ _, ?_⟩
      rw [State.become_me]
      exact ⟨Warp.startSplit_eq _ _, Warp.exec_startSplit _ _, fun n h => Warp.sreg_startSplit _ h _, rfl⟩
    · clear hgo hp hl hl' h₀ ht hm hn hlen hheld
      intro e m rpc tgt n first u va hgo hp hl hl' h₀ ht hm hn htrap hlen hdeep hlt
      have hexec := exec_bdiv_partial (rpc := rpc) (tgt := tgt) (e := e) (m := m) rfl rfl rfl rfl hgo hp hl hl' h₀ ht hm
        hn hlt (by omega)
      change exec _ s = .next (s.run ((u.stackPush _).bind _)) at hexec
      have hume : u.me = s.me.withStack (first :: s.me.stack) := s.withMe_me _
      have hlen' : u.me.stack.length = n + 16 := by rw [hume]; exact congrArg Nat.succ hlen
      have hsp : u.me.spilled = n := by rw [hume]; rfl
      have hva : u.spillArea u.cur = va := State.spillArea_withMe rfl rfl
      have hps : u.myPsize = s.myBlock.psize := State.myPsize_withMe htrap rfl
      refine ⟨fun hps' => ?_, fun hps' => ?_⟩
      · rw [hexec, State.stackPush_overflow (by omega) (by omega) (by omega)]
        rfl
      rw [State.stackPush_spill (by omega) (by omega) (by omega) (old := deep) (by rw [hume]; exact hdeep), hsp] at hexec
      refine ⟨fun st hst hn0 => ?_, fun x hx hn0 => ?_, fun x y z bs d lend hr hw hb hwarps hcur hd => ?_⟩
      · rw [hexec, hn0, State.spill_write_stop (n := 0) (m := 1) hva (State.reach_nil _ _) hst, State.stop_bind, State.run_stop]
      · rw [hexec, hn0, State.spill_write_wait (n := 0) (m := 1) hva (State.reach_nil _ _) hx, State.wait_bind]
        exact ⟨_, rfl, State.run_wait_out _, State.run_wait_warps _⟩
      · rw [State.spill_done hva hr hw hb hd] at hexec
        set v := (z.writeBytes y.agent va (deep.bytes ++ bs)).1
        have hvme : ∀ f, (v.modCore y.myCore f).me = u.me := fun f => State.me_congr hwarps hcur
        rw [State.ok_bind, State.run_ok, State.startSplit_eq, State.withMe_me, State.withMe_withMe, State.done_withMe] at hexec
        refine ⟨_, hexec, rfl, by rw [State.become_mem, State.modCore_mem], ?_⟩
        rw [State.become_me, hvme, hume]
        exact ⟨congrArg Nat.succ rfl, rfl, Warp.exec_startSplit _ _⟩

end Sys2Proof.Machine
end

section
/-!
PROOFS. JOIN, CALL, CALLI, RET and BRI.
-/

namespace Sys2Proof.Machine

/-- The warp whose topmost `k` spilled entries were filled back, where `es` stand (R300). -/
def Warp.filled (w : Warp) (es : List StackEnt) (k : Nat) : Warp :=
  { w with stack := es ++ w.stack.drop k, spilled := w.spilled - k }

namespace State
variable {s : State}

/-! Pops (R300). -/

theorem stackPop_eq {q : StackEnt} {l : List StackEnt} (h : s.me.stack = q :: l) :
    s.stackPop = (s.withMe (s.me.withStack l)).stackFill := by
  rw [stackPop, modMe_eq, h]
  rfl

/-- Nothing is filled back while an entry is held, or none is spilled. -/
theorem stackFill_held (h : s.me.spilled = 0 ∨ s.me.spilled < s.me.stack.length) : s.stackFill = .ok s := by
  rw [stackFill, if_pos (by simpa using h)]

/-- With none held, the topmost spilled entries are filled back. -/
theorem stackFill_spilled (h : s.me.spilled ≠ 0) (hl : s.me.stack.length ≤ s.me.spilled) :
    s.stackFill = s.spill s.me.spilled (s.me.spilled - min 16 s.me.spilled) (·.drop (32 * min 16 s.me.spilled)) fun t bs =>
      .ok (t.withMe (t.me.filled (entriesIn bs (min 16 s.me.spilled)) (min 16 s.me.spilled))) := by
  rw [stackFill, if_neg (by simpa using And.intro h hl)]
  rfl

theorem stackPop_held {q : StackEnt} {l : List StackEnt} (h : s.me.stack = q :: l)
    (hs : s.me.spilled = 0 ∨ s.me.spilled < l.length) : s.stackPop = .ok (s.withMe (s.me.withStack l)) := by
  rw [stackPop_eq h, stackFill_held (by rw [withMe_me]; exact hs)]

/-- The spill area after entries were pushed or popped. -/
theorem spillArea_withStack (s : State) (l : List StackEnt) :
    (s.withMe (s.me.withStack l)).spillArea s.cur = s.spillArea s.cur := spillArea_withMe rfl rfl

/-! JOIN's loop (R304). -/

theorem joinLoop_nil (h : s.me.stack = []) (n : Nat) : s.joinLoop (n + 1) = .ok s.done := by
  simp only [joinLoop, h]

theorem joinLoop_other {q : StackEnt} {l : List StackEnt} (h : s.me.stack = q :: l)
    (hq : (if q.reconv then q.pc else q.rpc) ≠ s.pos.1) (n : Nat) : s.joinLoop (n + 1) = .ok s.done := by
  simp only [joinLoop, h, pc]
  cases hr : q.reconv <;> simp_all

theorem joinLoop_split {q : StackEnt} {l : List StackEnt} (h : s.me.stack = q :: l) (hr : q.reconv = false)
    (hq : q.rpc = s.pos.1) (n : Nat) :
    s.joinLoop (n + 1) = s.stackPop.bind fun t => (t.startSplit q.mask).enterAt q := by
  simp [joinLoop, h, pc, hr, hq]

theorem joinLoop_reconv {q : StackEnt} {l : List StackEnt} (h : s.me.stack = q :: l) (hr : q.reconv = true)
    (hq : q.pc = s.pos.1) (n : Nat) :
    s.joinLoop (n + 1) = s.stackPop.bind fun t => (t.startSplit q.mask).joinLoop n := by
  simp [joinLoop, h, pc, hr, hq]

/-! Transfers that set BACK to 0 (R305, R309). -/

theorem transfer_eq (tgt : Nat) :
    s.transfer tgt = s.become (({ s.me with back := 0 } : Warp).goto (tgt, 0, false)) .moved := by
  rw [transfer, jump_eq, modMe_eq, withMe_me, become_withMe]

theorem sls_before_setS (n : Nat) (x : Word) : (s.setS n x).before.sls = s.before.sls := by
  have h : (s.setS n x).me.sls = s.me.sls := by rw [setS, me_modMe]; rfl
  have hs : (s.setS n x).src = s.src := rfl
  rw [before, before, hs]
  cases s.src with
  | none => exact h
  | some w => rfl

theorem setSpair_eq (n v : Nat) : s.setSpair n v
    = s.withMe ((s.me.setSAt s.before.sls n (lowWord v)).setSAt s.before.sls (n + 1) (highWord v)) := by
  have h : ∀ m : LaneMask, (s.setS n (lowWord v)).modMe (·.setSAt m (n + 1) (highWord v))
      = s.withMe ((s.me.setSAt s.before.sls n (lowWord v)).setSAt m (n + 1) (highWord v)) := fun m => by
    rw [setS, modMe_eq, modMe_eq, withMe_me, withMe_withMe]
  rw [setSpair, setS, sls_before_setS, h]

end State

/-- A value written to a pair of s registers beyond m0 reads back. -/
theorem Warp.spair_setSAt (w : Warp) (m : LaneMask) {n : Nat} (h : 3 ≤ n) (h' : n + 1 < 64) (v : Nat) :
    ((w.setSAt m n (lowWord v)).setSAt m (n + 1) (highWord v)).spair n = v % 2 ^ 64 := by
  have hn : slsAnd m n (lowWord v) = lowWord v := if_neg (by omega)
  have hn' : slsAnd m (n + 1) (highWord v) = highWord v := if_neg (by omega)
  rw [spair, sreg_setSAt_same _ _ h', sreg_setSAt_other _ _ (by omega), sreg_setSAt_same _ _ (by omega), hn, hn']
  simp only [lowWord, highWord, BitVec.toNat_ofNat]
  omega

/-! CALL, CALLI, RET and BRI (R309). -/

/-- A warp at a packet, with BACK at 0: what a transfer leaves (R305). -/
def Warp.sentTo (w : Warp) (tgt : Nat) : Warp := ({ w with back := 0 } : Warp).goto (tgt, 0, false)

theorem Warp.sentTo_eq (w : Warp) (tgt : Nat) :
    w.sentTo tgt = { w with pc := tgt, slot := 0, exp := false, back := 0, s := (w.sentTo tgt).s, bad := (w.sentTo tgt).bad } :=
  rfl

theorem Warp.sentTo_setSAt (w : Warp) (m : LaneMask) (n : Nat) (x : Word) (tgt : Nat) :
    (w.setSAt m n x).sentTo tgt = (w.sentTo tgt).setSAt m n x := rfl

/-- Register writes leave all but the registers and their poison. -/
theorem Warp.setSAt_setSAt_sentTo_eq (w : Warp) (tgt : Nat) (m : LaneMask) (n k : Nat) (x y : Word) :
    ((w.sentTo tgt).setSAt m n x).setSAt m k y = { w with
      pc := tgt, slot := 0, exp := false, back := 0
      s := (((w.sentTo tgt).setSAt m n x).setSAt m k y).s
      bad := (((w.sentTo tgt).setSAt m n x).setSAt m k y).bad } :=
  rfl

namespace State
variable {s : State}

/-- The warp after a transfer (R305). -/
theorem transfer_spec (tgt : Nat) :
    ∃ t, s.transfer tgt = t ∧ t.out = .moved ∧ s.onlyMe t
      ∧ t.me = { s.me with pc := tgt, slot := 0, exp := false, back := 0, s := t.me.s, bad := t.me.bad }
      ∧ ∀ r, t.me.sreg r = s.me.sreg r := by
  have h : s.transfer tgt = s.become (s.me.sentTo tgt) .moved := transfer_eq tgt
  refine ⟨_, h, rfl, s.onlyMe_become _ _, ?_⟩
  rw [become_me]
  exact ⟨s.me.sentTo_eq tgt, fun _ => rfl⟩

/-- The warp after a call: a transfer, with the return address in s60:s61 (R309). -/
theorem call_spec (tgt v : Nat) :
    ∃ t, (s.setSpair 60 v).transfer tgt = t ∧ t.out = .moved ∧ s.onlyMe t
      ∧ t.me = { s.me with pc := tgt, slot := 0, exp := false, back := 0, s := t.me.s, bad := t.me.bad }
      ∧ (∀ r, r ≠ 60 ∧ r ≠ 61 → t.me.sreg r = s.me.sreg r) ∧ t.me.spair 60 = v % 2 ^ 64 := by
  have h : (s.setSpair 60 v).transfer tgt = s.become (((s.me.sentTo tgt).setSAt s.before.sls 60 (lowWord v)).setSAt
      s.before.sls (60 + 1) (highWord v)) .moved := by
    rw [transfer_eq, setSpair_eq, withMe_me, become_withMe, ← Warp.sentTo_setSAt, ← Warp.sentTo_setSAt]
    rfl
  refine ⟨_, h, rfl, s.onlyMe_become _ _, ?_⟩
  rw [become_me]
  refine ⟨s.me.setSAt_setSAt_sentTo_eq tgt _ 60 61 _ _, fun r hr => ?_,
    (s.me.sentTo tgt).spair_setSAt _ (by omega) (by omega) v⟩
  exact (Warp.sreg_setSAt_other _ _ hr.2 _).trans (Warp.sreg_setSAt_other _ _ hr.1 _)

end State

/-! JOIN, CALL, CALLI, RET and BRI: the obligation. -/

section
variable {s : State} {q : StackEnt} {l : List StackEnt}

theorem exec_join (h : s.gate .join = .go) : exec .join s = .next (s.run (s.joinLoop (s.me.stack.length + 1))) :=
  congrArg Host.Outcome.next (s.issue_go h _)

/-- JOIN at the reconvergence address of the SPLIT on top: the entry is popped and its split runs (R304). -/
theorem exec_join_split (hgo : s.gate .join = .go) (hs : s.me.stack = q :: l) (hr : q.reconv = false) (hq : q.rpc = s.pos.1) :
    exec .join s = .next (s.run ((s.withMe (s.me.withStack l)).stackFill.bind fun t => (t.startSplit q.mask).enterAt q)) := by
  rw [exec_join hgo, State.joinLoop_split hs hr hq, State.stackPop_eq hs]

theorem exec_join_split_align (hgo : s.gate .join = .go) (hs : s.me.stack = q :: l) (h₀ : s.me.spilled = 0)
    (hr : q.reconv = false) (hq : q.rpc = s.pos.1) (hpc : q.pc % 12 ≠ 0) :
    exec .join s = .next (s.raise { cause := .align }) := by
  rw [exec_join hgo, State.joinLoop_split hs hr hq, State.stackPop_held hs (.inl h₀), State.ok_bind, State.enterAt_align hpc,
    State.run_fail]

theorem exec_join_split_held (hgo : s.gate .join = .go) (hs : s.me.stack = q :: l) (h₀ : s.me.spilled = 0)
    (hr : q.reconv = false) (hq : q.rpc = s.pos.1) (hpc : q.pc % 12 = 0) :
    exec .join s = .next (s.become (((s.me.withStack l).startSplit q.mask).goto (q.pc, 0, false)) .moved) := by
  rw [exec_join hgo, State.joinLoop_split hs hr hq, State.stackPop_held hs (.inl h₀), State.ok_bind, State.enterAt_ok hpc,
    State.run_ok, State.startSplit_eq, State.withMe_me, State.withMe_withMe, State.jump_eq, State.withMe_me, State.become_withMe]

/-- JOIN at the address of the RECONV on top takes up its lanes, and ends where no entry below reconverges here (R304). -/
theorem exec_join_reconv (hgo : s.gate .join = .go) (hs : s.me.stack = q :: l) (h₀ : s.me.spilled = 0) (hr : q.reconv = true)
    (hq : q.pc = s.pos.1) (hl : ∀ x ∈ l.head?, (if x.reconv then x.pc else x.rpc) ≠ s.pos.1) :
    exec .join s = .next (s.become ((s.me.withStack l).startSplit q.mask) .done) := by
  rw [exec_join hgo, State.joinLoop_reconv hs hr hq, State.stackPop_held hs (.inl h₀), State.ok_bind, State.startSplit_eq,
    State.withMe_me, State.withMe_withMe, hs, List.length_cons]
  have hu : (s.withMe ((s.me.withStack l).startSplit q.mask)).me.stack = l := by rw [State.withMe_me]; rfl
  cases l with
  | nil => rw [State.joinLoop_nil hu, State.run_ok, State.done_withMe]
  | cons x xs =>
    rw [State.joinLoop_other hu (hl x rfl), State.run_ok, State.done_withMe]

/-- JOIN's pop that leaves no entry held (R300, R304): the topmost spilled entries are filled back. -/
theorem exec_join_fill (hgo : s.gate .join = .go) (hs : s.me.stack = q :: l) (hn : s.me.spilled = l.length)
    (h₀ : s.me.spilled ≠ 0) (hr : q.reconv = false) (hq : q.rpc = s.pos.1) :
    exec .join s = .next (s.run (((s.withMe (s.me.withStack l)).spill s.me.spilled (s.me.spilled - min 16 s.me.spilled)
      (·.drop (32 * min 16 s.me.spilled)) fun t bs => .ok (t.withMe (t.me.filled
        (State.entriesIn bs (min 16 s.me.spilled)) (min 16 s.me.spilled)))).bind fun t => (t.startSplit q.mask).enterAt q)) := by
  have hu : (s.withMe (s.me.withStack l)).me = s.me.withStack l := s.withMe_me _
  rw [exec_join_split hgo hs hr hq, State.stackFill_spilled (by rw [hu]; exact h₀) (by rw [hu]; exact hn.ge), hu,
    Warp.withStack_spilled]

end

section
variable {s : State}

/-- Where a call, RET or BRI goes: its checked target (R309). -/
theorem exec_transfer_word {i : Instr} {tgt : Int} {t : State} (hgo : s.gate i = .go)
    (hi : exec i s = .next (s.issue i (match State.target tgt with | some c => s.fail c | none => t))) :
    (tgt % 12 = 0 → 0 ≤ tgt → tgt < 2 ^ 56 → exec i s = .next t)
      ∧ (tgt % 12 ≠ 0 → exec i s = .next (s.raise { cause := .align }))
      ∧ (tgt % 12 = 0 → tgt < 0 ∨ 2 ^ 56 ≤ tgt → exec i s = .next (s.raise { cause := .bounds })) := by
  rw [hi, s.issue_go hgo]
  refine ⟨fun h h₀ hlt => ?_, fun h => ?_, fun h hr => ?_⟩
  · rw [State.target_none h h₀ hlt]
  · rw [State.target_align h]; rfl
  · rw [State.target_bounds h hr]; rfl

end

section
variable (w : Warp) (l : List StackEnt) (q : StackEnt)

/-- The warp after a SPLIT's entry was popped (R304). -/
theorem Warp.popped_split :
    let w' := ((w.withStack l).startSplit q.mask).goto (q.pc, 0, false)
    w'.stack = l ∧ w'.sls = q.mask ∧ w'.exec = q.mask ∧ w'.back = 0 ∧ w'.position = (q.pc, 0, false) ∧ w'.v = w.v :=
  ⟨rfl, rfl, (w.withStack l).exec_startSplit q.mask, rfl, rfl, rfl⟩

/-- The warp after a RECONV was popped (R304). -/
theorem Warp.popped_reconv :
    let w' := (w.withStack l).startSplit q.mask
    w'.stack = l ∧ w'.sls = q.mask ∧ w'.exec = q.mask ∧ w'.back = 0 ∧ w'.position = w.position ∧ w'.v = w.v :=
  ⟨rfl, rfl, (w.withStack l).exec_startSplit q.mask, rfl, rfl, rfl⟩

/-- The warp after a SPLIT's entry was popped and others filled back (R300, R304). -/
theorem Warp.popped_filled (es : List StackEnt) (k : Nat) :
    let w' := (((w.withStack l).filled es k).startSplit q.mask).goto (q.pc, 0, false)
    w'.spilled = w.spilled - k ∧ w'.stack = es ++ l.drop k ∧ w'.exec = q.mask ∧ w'.position = (q.pc, 0, false) :=
  ⟨rfl, rfl, ((w.withStack l).filled es k).exec_startSplit q.mask, rfl⟩

end

/-- What the fill of a JOIN's pop reads, writes and leaves (R300, R304). -/
theorem join_fill {s : State} {q : StackEnt} {l : List StackEnt} (hgo : s.gate .join = .go) (hs : s.me.stack = q :: l)
    (hn : s.me.spilled = l.length) (h₀ : s.me.spilled ≠ 0) (hr : q.reconv = false) (hq : q.rpc = s.pos.1)
    (hpc : q.pc % 12 = 0) {x y z : State} {bs d : List Byte} {lend : Nat}
    (hread : (s.withMe (s.me.withStack l)).reach .r (s.spillArea s.cur)
      (State.piecesFrom (s.spillArea s.cur) (s.me.spilled + 2) (32 * s.me.spilled)) = .ok x)
    (hwrite : x.reach .w (s.spillArea s.cur) (State.piecesFrom (s.spillArea s.cur)
      (s.me.spilled - min 16 s.me.spilled + 2) (32 * (s.me.spilled - min 16 s.me.spilled))) = .ok y)
    (hb : y.readBytes y.agent (s.spillArea s.cur) (32 * s.me.spilled) .r = (z, .bytes bs))
    (hme : (z.writeBytes y.agent (s.spillArea s.cur) (bs.drop (32 * min 16 s.me.spilled))).1.me = s.me.withStack l)
    (hd : (z.writeBytes y.agent (s.spillArea s.cur) (bs.drop (32 * min 16 s.me.spilled))).2 = (.bytes d, lend)) :
    ∃ t, exec .join s = .next t ∧ t.out = .moved
      ∧ t.mem = (z.writeBytes y.agent (s.spillArea s.cur) (bs.drop (32 * min 16 s.me.spilled))).1.mem
      ∧ t.me = (((s.me.withStack l).filled (State.entriesIn bs (min 16 s.me.spilled)) (min 16 s.me.spilled)).startSplit
        q.mask).goto (q.pc, 0, false) := by
  have hexec := exec_join_fill hgo hs hn h₀ hr hq
  rw [State.spill_done (s.spillArea_withStack l) hread hwrite hb hd] at hexec
  set v := (z.writeBytes y.agent (s.spillArea s.cur) (bs.drop (32 * min 16 s.me.spilled))).1
  have hvme : ∀ f, (v.modCore y.myCore f).me = s.me.withStack l := fun f => (State.me_congr rfl rfl).trans hme
  rw [State.ok_bind, State.enterAt_ok hpc, State.run_ok, State.startSplit_eq, State.withMe_me, State.withMe_withMe,
    State.jump_eq, State.withMe_me, State.become_withMe, hvme] at hexec
  exact ⟨_, hexec, rfl, by rw [State.become_mem, State.modCore_mem], State.become_me _ _ _⟩

/-- A word goes to its checked target with BACK at 0, and a call leaves the next packet's address (R305, R309). -/
def State.goesTo (s : State) (i : Instr) (call : Bool) (tgt : Int) : Prop :=
  (tgt % 12 = 0 → 0 ≤ tgt → tgt < 2 ^ 56 → ∃ t, exec i s = .next t ∧ t.out = .moved ∧ s.onlyMe t
    ∧ t.me = { s.me with pc := tgt.toNat, slot := 0, exp := false, back := 0, s := t.me.s, bad := t.me.bad }
    ∧ (∀ r, (r = 60 ∨ r = 61 → call = false) → t.me.sreg r = s.me.sreg r)
    ∧ (call = true → t.me.spair 60 = (s.pos.1 + 12) % 2 ^ 64))
  ∧ (tgt % 12 ≠ 0 → exec i s = .next (s.raise { cause := .align }))
  ∧ (tgt % 12 = 0 → tgt < 0 ∨ 2 ^ 56 ≤ tgt → exec i s = .next (s.raise { cause := .bounds }))

section
variable {s : State} {i : Instr} {tgt : Int} (hgo : s.gate i = .go)
include hgo

theorem call_goesTo {v : Nat} (hv : v = s.pos.1 + 12) (hi : exec i s = .next (s.issue i (match State.target tgt with
    | some c => s.fail c | none => (s.setSpair 60 v).transfer tgt.toNat))) : s.goesTo i true tgt := by
  subst hv
  obtain ⟨t, ht, hout, honly, hme, hreg, hpair⟩ := State.call_spec (s := s) tgt.toNat (s.pos.1 + 12)
  obtain ⟨hgoes, hfail⟩ := exec_transfer_word hgo hi
  exact ⟨fun h h₀ hlt => ⟨t, (hgoes h h₀ hlt).trans (congrArg _ ht), hout, honly, hme,
    fun r hr => hreg r (by simpa using hr), fun _ => hpair⟩, hfail⟩

theorem transfer_goesTo (hi : exec i s = .next (s.issue i (match State.target tgt with
    | some c => s.fail c | none => s.transfer tgt.toNat))) : s.goesTo i false tgt := by
  obtain ⟨t, ht, hout, honly, hme, hreg⟩ := State.transfer_spec (s := s) tgt.toNat
  obtain ⟨hgoes, hfail⟩ := exec_transfer_word hgo hi
  exact ⟨fun h h₀ hlt => ⟨t, (hgoes h h₀ hlt).trans (congrArg _ ht), hout, honly, hme, fun r _ => hreg r,
    fun h => Bool.noConfusion h⟩, hfail⟩

end

/-- CALL, CALLI, RET and BRI (R309). -/
theorem transfer_words (s : State) (o : BitVec 22) (a : Src) :
    ∀ c ∈ ([(.call o, true, (s.pos.1 : Int) + 12 * o.toInt), (.calli a, true, s.readPair a 0), (.ret, false, s.before.spair 60),
      (.bri a, false, s.readPair a 0)] : List (Instr × Bool × Int)),
    s.gate c.1 = .go → s.goesTo c.1 c.2.1 c.2.2 := by
  intro c hc hgo
  simp only [List.mem_cons, List.not_mem_nil, or_false] at hc
  rcases hc with rfl | rfl | rfl | rfl
  · exact call_goesTo hgo rfl rfl
  · exact call_goesTo hgo rfl rfl
  · exact transfer_goesTo hgo rfl
  · exact transfer_goesTo hgo rfl

/-- Settles O21: JOIN by the lemmas on its loop and on pops, the transfers by `transfer_spec` and `call_spec`. -/
theorem joins : Obligations.Joins := by
  refine ⟨fun s q l hgo => ⟨fun hs => ?_, fun hs hne => ?_,
    fun hs h₀ hr hq hpc => exec_join_split_align hgo hs h₀ hr hq hpc, fun hs h₀ hr hq hpc => ?_, fun hs h₀ hr hq hl => ?_,
    fun hs hn h₀ hr hq hpc => ⟨fun st hst => ?_, fun x hx => ?_, fun x y z bs d lend hread hwrite hb hwarps hcur hd => ?_⟩⟩,
    transfer_words⟩
  · rw [exec_join hgo, State.joinLoop_nil hs]; rfl
  · rw [exec_join hgo, State.joinLoop_other hs hne]; rfl
  · refine ⟨_, exec_join_split_held hgo hs h₀ hr hq hpc, rfl, s.onlyMe_become _ _, ?_⟩
    rw [State.become_me]
    exact s.me.popped_split l q
  · refine ⟨_, exec_join_reconv hgo hs h₀ hr hq hl, rfl, s.onlyMe_become _ _, ?_⟩
    rw [State.become_me]
    exact s.me.popped_reconv l q
  · rw [exec_join_fill hgo hs hn h₀ hr hq, State.spill_read_stop (s.spillArea_withStack l) hst, State.stop_bind,
      State.run_stop]
  · rw [exec_join_fill hgo hs hn h₀ hr hq, State.spill_read_wait (s.spillArea_withStack l) hx, State.wait_bind]
    exact ⟨_, rfl, State.run_wait_out _, State.run_wait_warps _⟩
  · obtain ⟨t, ht, hout, hmem, hme⟩ := join_fill hgo hs hn h₀ hr hq hpc hread hwrite hb
      ((State.me_congr hwarps hcur).trans (s.withMe_me _)) hd
    refine ⟨t, ht, hout, hmem, ?_⟩
    rw [hme]
    exact s.me.popped_filled l q _ _

end Sys2Proof.Machine
end

section
/-!
PROOFS. EXIT, the end of a warp, NOP and YIELD.
-/

namespace Sys2Proof.Machine

/-- An entry that some lanes left (R310). -/
def StackEnt.without (e : StackEnt) (x : LaneMask) : StackEnt := { e with mask := e.mask &&& ~~~x }

/-- A warp that some lanes left: its running split and its held entries (R310). -/
def Warp.without (w : Warp) (x : LaneMask) : Warp :=
  { w with sls := w.sls &&& ~~~x, stack := w.stack.map (·.without x) }

/-- The warp stops issuing at its EXIT, by the enables from before the chain (R269, R310). -/
def Warp.leaveAt (w : Warp) (p : Nat × Nat × Bool) (ten : BitVec 5) : Warp := { w.goto p with run := .exiting, exTen := ten }

namespace State
variable {s : State}

/-! Lanes that leave (R310). -/

theorem removeLanes_held (h : s.me.spilled = 0) (x : LaneMask) : s.removeLanes x = .ok (s.withMe (s.me.without x)) := by
  rw [removeLanes, if_pos h]
  rfl

theorem removeLanes_spilled (h : s.me.spilled ≠ 0) (x : LaneMask) :
    s.removeLanes x = s.spill s.me.spilled s.me.spilled
      (fun bs => (entriesIn bs s.me.spilled).flatMap fun e => (e.without x).bytes)
      fun t _ => .ok (t.withMe (t.me.without x)) := by
  rw [removeLanes, if_neg h]
  rfl

/-! EXIT's loop (R310). -/

variable {go : State → Eff}

theorem exitLoop_nil (h : s.me.stack = []) (n : Nat) : s.exitLoop go (n + 1) = go s := by
  simp only [exitLoop, h]

theorem exitLoop_empty {e : StackEnt} {l : List StackEnt} (h : s.me.stack = e :: l) (he : e.mask = 0) (n : Nat) :
    s.exitLoop go (n + 1) = s.stackPop.bind fun t => t.exitLoop go n := by
  simp only [exitLoop, h, he, if_true]

theorem exitLoop_resume {e : StackEnt} {l : List StackEnt} (h : s.me.stack = e :: l) (he : e.mask ≠ 0) (n : Nat) :
    s.exitLoop go (n + 1) = s.stackPop.bind fun t => (t.startSplit e.mask).enterAt e := by
  simp only [exitLoop, h, he, if_false]

/-- Entries that keep no lane are popped (R310). -/
theorem exitLoop_skip {l : List StackEnt} (n : Nat) (es : List StackEnt) : ∀ w : Warp, w.stack = es ++ l → w.spilled = 0 →
    (∀ e ∈ es, e.mask = 0) →
    (s.withMe w).exitLoop go (n + es.length) = (s.withMe (w.withStack l)).exitLoop go n := by
  induction es with
  | nil =>
    rintro w rfl - -
    rfl
  | cons e es ih =>
    intro w hw h₀ he
    have hme : (s.withMe w).me = w := s.withMe_me w
    have hs : (s.withMe w).me.stack = e :: (es ++ l) := by rw [hme]; exact hw
    rw [List.length_cons, ← Nat.add_assoc, exitLoop_empty hs (he e (.head _)), stackPop_held hs (.inl (by rw [hme]; exact h₀)),
      ok_bind, hme, withMe_withMe, ih (w.withStack (es ++ l)) rfl h₀ fun e' h => he e' (.tail _ h), Warp.withStack_withStack]

/-- The topmost entry that keeps a lane resumes, others below it being held (R310). -/
theorem exitLoop_resume_held {e : StackEnt} {l : List StackEnt} {w : Warp} (h : w.stack = e :: l)
    (hheld : w.spilled = 0 ∨ w.spilled < l.length) (he : e.mask ≠ 0) (hpc : e.pc % 12 = 0) (n : Nat) :
    (s.withMe w).exitLoop go (n + 1)
      = .ok (s.become (((w.withStack l).startSplit e.mask).goto (e.pc, 0, false)) .moved) := by
  have hme : (s.withMe w).me = w := s.withMe_me w
  have hs : (s.withMe w).me.stack = e :: l := by rw [hme]; exact h
  rw [exitLoop_resume hs he, stackPop_held hs (by rw [hme]; exact hheld), ok_bind, enterAt_ok hpc, startSplit_eq, withMe_me,
    withMe_withMe, jump_eq, withMe_me, become_withMe, become_withMe,
    withMe_me]

/-- What EXIT does once no lane is left, for the state before it (R269, R310). -/
def leave (s t : State) : Eff :=
  if !loadsBack s.before then .wait s
  else match oldestMark s.before, s.arithNow with
    | some m, _ => .stop m.stop
    | _, some st => .stop st
    | none, none => .ok t.retire

theorem leave_waits (h : loadsBack s.before = false) (t : State) : s.leave t = .wait s := by
  rw [leave, h]
  rfl

theorem leave_retires (h : loadsBack s.before = true) (hm : s.before.marks = []) (ha : s.arithNow = none) (t : State) :
    s.leave t = .ok t.retire := by
  have hold : oldestMark s.before = none := by rw [oldestMark, hm]; rfl
  simp only [leave, h, hold, ha, Bool.not_true, Bool.false_eq_true, if_false]

theorem retire_eq (h : s.isTrap = false) :
    s.retire = (s.become (s.me.leaveAt s.pos s.before.ten) .moved).push [.warpRetire s.myCore s.mySlot] := by
  rw [retire, h]
  rfl

theorem before_ten_withMe {w : Warp} (h : w.ten = s.me.ten) : (s.withMe w).before.ten = s.before.ten := by
  have hsrc : (s.withMe w).src = s.src := rfl
  rw [before, before, hsrc]
  cases s.src with
  | none => exact (congrArg Warp.ten (s.withMe_me w)).trans h
  | some => rfl

/-- The last lane's EXIT, whatever the state's issuing warp became in it. -/
theorem retire_withMe {w : Warp} (h : s.isTrap = false) (hten : w.ten = s.me.ten) :
    (s.withMe w).retire = (s.become (w.leaveAt s.pos s.before.ten) .moved).push [.warpRetire s.myCore s.mySlot] := by
  have ht : (s.withMe w).isTrap = false := h
  rw [retire_eq ht, before_ten_withMe hten, withMe_me, become_withMe]
  rfl

end State

section
variable {s : State}

theorem exec_exit (h : s.gate .exit = .go) : exec .exit s = .next (if s.me.stack = [] then s.run (s.leave s)
    else s.run ((s.removeLanes s.execMask).bind fun t => t.exitLoop s.leave (t.me.stack.length + 1))) :=
  congrArg Host.Outcome.next (s.issue_go h _)

/-- Entries that X's lanes leave empty (R310). -/
theorem mask_without {es : List StackEnt} {x : LaneMask} (h : ∀ e ∈ es, e.mask &&& ~~~x = 0) :
    ∀ e ∈ es.map (·.without x), e.mask = 0 := by
  intro e he
  obtain ⟨e', he', rfl⟩ := List.mem_map.mp he
  exact h e' he'

/-- EXIT of the last lanes, over entries that keep none. -/
theorem exec_exit_last (h : s.gate .exit = .go) (hs : s.me.stack ≠ []) (h₀ : s.me.spilled = 0)
    (he : ∀ e ∈ s.me.stack, e.mask &&& ~~~s.execMask = 0) :
    exec .exit s = .next (s.run (s.leave (s.withMe ((s.me.without s.execMask).withStack [])))) := by
  have hstack : (s.me.without s.execMask).stack = s.me.stack.map (·.without s.execMask) ++ [] := (List.append_nil _).symm
  have hlen : ((s.me.without s.execMask).stack).length = (s.me.stack.map (·.without s.execMask)).length := rfl
  rw [exec_exit h, if_neg hs, State.removeLanes_held h₀, State.ok_bind, State.withMe_me, hlen, Nat.add_comm _ 1,
    State.exitLoop_skip 1 _ _ hstack h₀ (mask_without he), State.exitLoop_nil (by rw [State.withMe_me]; rfl)]

/-- EXIT where an entry keeps a lane: those above it are popped, and it resumes (R310). -/
theorem exec_exit_resume {es l : List StackEnt} {q : StackEnt} (h : s.gate .exit = .go) (hs : s.me.stack = es ++ q :: l)
    (h₀ : s.me.spilled = 0) (he : ∀ e ∈ es, e.mask &&& ~~~s.execMask = 0) (hq : q.mask &&& ~~~s.execMask ≠ 0) :
    exec .exit s = .next (s.run (((s.withMe ((s.me.without s.execMask).withStack (l.map (·.without s.execMask)))).startSplit
      (q.mask &&& ~~~s.execMask)).enterAt (q.without s.execMask))) := by
  set x := s.execMask
  set w := (s.me.without x).withStack ((q :: l).map (·.without x))
  have hstack : (s.me.without x).stack = es.map (·.without x) ++ (q :: l).map (·.without x) := by
    rw [← List.map_append, ← hs]
    rfl
  have hw : (s.withMe w).me.stack = q.without x :: l.map (·.without x) := by rw [State.withMe_me]; rfl
  rw [exec_exit h, if_neg (by rw [hs]; simp), State.removeLanes_held h₀, State.ok_bind, State.withMe_me, hstack, List.length_append,
    show (es.map (·.without x)).length + ((q :: l).map (·.without x)).length + 1
      = (((q :: l).map (·.without x)).length + 1) + (es.map (·.without x)).length by omega,
    State.exitLoop_skip _ _ _ hstack h₀ (mask_without he), State.exitLoop_resume hw hq,
    State.stackPop_held hw (.inl (by rw [State.withMe_me]; exact h₀)), State.ok_bind, State.withMe_me, State.withMe_withMe,
    Warp.withStack_withStack]
  rfl

/-- EXIT with entries spilled (R300, R310): the lanes leave those where they stand, and the topmost held one resumes. -/
theorem exec_exit_spilled {q : StackEnt} {l : List StackEnt} {a b z : State} {bs d : List Byte} {lend : Nat} {x : LaneMask}
    (hx : s.execMask = x) (h : s.gate .exit = .go) (hs : s.me.stack = q :: l) (h₀ : s.me.spilled ≠ 0)
    (hl : s.me.spilled < l.length) (hq : q.mask &&& ~~~x ≠ 0) (hpc : q.pc % 12 = 0)
    (hread : s.reach .r (s.spillArea s.cur) (State.piecesFrom (s.spillArea s.cur) (s.me.spilled + 2) (32 * s.me.spilled)) = .ok a)
    (hwrite : a.reach .w (s.spillArea s.cur) (State.piecesFrom (s.spillArea s.cur) (s.me.spilled + 2) (32 * s.me.spilled)) = .ok b)
    (hb : b.readBytes b.agent (s.spillArea s.cur) (32 * s.me.spilled) .r = (z, .bytes bs))
    (hme : (z.writeBytes b.agent (s.spillArea s.cur)
      ((State.entriesIn bs s.me.spilled).flatMap fun e => (e.without x).bytes)).1.me = s.me)
    (hd : (z.writeBytes b.agent (s.spillArea s.cur)
      ((State.entriesIn bs s.me.spilled).flatMap fun e => (e.without x).bytes)).2 = (.bytes d, lend)) :
    ∃ t, exec .exit s = .next t ∧ t.out = .moved
      ∧ t.mem = (z.writeBytes b.agent (s.spillArea s.cur)
        ((State.entriesIn bs s.me.spilled).flatMap fun e => (e.without x).bytes)).1.mem
      ∧ t.me = ((((s.me.without x).withStack (l.map (·.without x))).startSplit (q.mask &&& ~~~x)).goto (q.pc, 0, false)) := by
  subst hx
  have hexec := exec_exit h
  rw [if_neg (by rw [hs]; exact List.cons_ne_nil _ _), State.removeLanes_spilled h₀, State.spill_done rfl hread hwrite hb hd,
    State.ok_bind] at hexec
  have hvme : ∀ f, ((z.writeBytes b.agent (s.spillArea s.cur) ((State.entriesIn bs s.me.spilled).flatMap
      fun e => (e.without s.execMask).bytes)).1.modCore b.myCore f).me = s.me := fun f => (State.me_congr rfl rfl).trans hme
  have hstack : (s.me.without s.execMask).stack = q.without s.execMask :: l.map (·.without s.execMask) := by
    show s.me.stack.map _ = _
    rw [hs, List.map_cons]
  have hheld : s.me.spilled < (l.map (·.without s.execMask)).length := by rw [List.length_map]; exact hl
  rw [hvme, State.exitLoop_resume_held (e := q.without s.execMask) hstack (.inr hheld) hq hpc, State.run_ok] at hexec
  exact ⟨_, hexec, rfl, by rw [State.become_mem, State.modCore_mem], State.become_me _ _ _⟩

end

/-! The end of a warp (R310). -/

/-- A block that a warp has left for good (R310). -/
def Block.leftBy (n : Nat) (b : Block) : Block := { b with gone := n :: b.gone }

/-- A warp that has left for good (R124, R130, R310). -/
def Warp.exited (w : Warp) : Warp :=
  { w with run := .exited, wake := .none, asks := [], replies := [], inBar := none, vopen := false, seen := [] }

theorem Warp.exited_spec (w : Warp) : w.exited.run = .exited ∧ w.exited.vopen = false := ⟨rfl, rfl⟩

namespace State
variable {s : State}

theorem warp_push (is : List Instr) (k : Nat) : (s.push is).warp k = s.warp k := rfl

/-- The state a warp without a bundle leaves, before its arrival is counted. -/
theorem endWarp_eq {k : Nat} (h : (s.warp k).bid = 0) :
    s.endWarp k = ((({ s with xreqs := s.xreqs.filter fun e => warpKey e.2.core e.2.slot != k } : State).modWarp k
      Warp.exited).modBlock (s.warp k).blk (Block.leftBy (s.warp k).widx)).push
        [.barrierArrival (keyCore k) (keySlot k)] := by
  have hdrop : s.dropBundle k = s := by rw [dropBundle, if_pos h]
  have hw : (({ s with xreqs := s.xreqs.filter fun e => warpKey e.2.core e.2.slot != k } : State).modWarp k
      Warp.exited).warp k = (s.warp k).exited := warp_modWarp _ _ _
  rw [endWarp, hdrop]
  generalize ({ s with xreqs := s.xreqs.filter fun e => warpKey e.2.core e.2.slot != k } : State) = u at hw ⊢
  change ((u.modWarp k Warp.exited).modBlock ((u.modWarp k Warp.exited).warp k).blk
    (Block.leftBy ((u.modWarp k Warp.exited).warp k).widx)).push _ = _
  rw [hw]
  rfl

theorem warp_endWarp {k : Nat} (h : (s.warp k).bid = 0) : (s.endWarp k).warp k = (s.warp k).exited := by
  rw [endWarp_eq h]
  exact warp_modWarp _ _ _

theorem block_endWarp {k : Nat} (h : (s.warp k).bid = 0) :
    ((s.endWarp k).block (s.warp k).blk).gone = (s.warp k).widx :: (s.block (s.warp k).blk).gone := by
  rw [endWarp_eq h]
  exact congrArg Block.gone (block_modBlock _ _ _)

theorem agenda_endWarp {k : Nat} (h : (s.warp k).bid = 0) :
    (s.endWarp k).agenda = s.agenda ++ [.barrierArrival (keyCore k) (keySlot k)] := by
  rw [endWarp_eq h]
  rfl

theorem sameBytes_endWarp {k : Nat} (h : (s.warp k).bid = 0) : s.sameBytes (s.endWarp k) := by
  rw [endWarp_eq h]
  exact sameBytes_of rfl rfl

end State

theorem keyCore_warpKey {core slot : Nat} (h : slot < 65) : keyCore (warpKey core slot) = core := by
  unfold keyCore warpKey
  omega

theorem keySlot_warpKey {core slot : Nat} (h : slot < 65) : keySlot (warpKey core slot) = slot := by
  unfold keySlot warpKey
  omega

section
variable {s : State} {core slot : Nat}

/-- An exiting warp that something of its own chain keeps (R310). -/
theorem exec_warpRetire_waits (hrun : (s.warp (warpKey core slot)).run = .exiting)
    (h : State.loadsBack (s.warp (warpKey core slot)) = false ∨ ∃ r ∈ s.sfu, r.core = core ∧ r.slot = slot) :
    exec (.warpRetire core slot) s = .next (s.push [.warpRetire core slot]).done := by
  have hwait : (!State.loadsBack (s.warp (warpKey core slot)) || s.sfu.any fun r => r.core == core && r.slot == slot) = true := by
    rcases h with h | ⟨r, hr, hc⟩
    · rw [h]; rfl
    · rw [Bool.or_eq_true]
      exact .inr (List.any_eq_true.mpr ⟨r, hr, by simpa using hc⟩)
  show execWarpRetire core slot s = _
  rw [execWarpRetire]
  dsimp only
  rw [hrun, hwait]
  rfl

/-- An exiting warp that nothing keeps ends, or reports the flags of its last chain (R269, R310). -/
theorem exec_warpRetire_ends (hrun : (s.warp (warpKey core slot)).run = .exiting)
    (hback : State.loadsBack (s.warp (warpKey core slot)) = true) (hsfu : ∀ r ∈ s.sfu, r.core ≠ core ∨ r.slot ≠ slot)
    (hmarks : (s.warp (warpKey core slot)).marks = []) :
    exec (.warpRetire core slot) s = .next
      (match State.arithStop { s.warp (warpKey core slot) with ten := (s.warp (warpKey core slot)).exTen } with
      | some st => (s.deliver (warpKey core slot) st).done
      | none => ((s.endWarp (warpKey core slot)).push [.blockRetire (s.warp (warpKey core slot)).blk]).done) := by
  have hany : (s.sfu.any fun r => r.core == core && r.slot == slot) = false :=
    List.any_eq_false.mpr fun r hr => by
      rcases hsfu r hr with h | h <;> simp [h]
  have hold : State.oldestMark (s.warp (warpKey core slot)) = none := by rw [State.oldestMark, hmarks]; rfl
  show execWarpRetire core slot s = _
  rw [execWarpRetire]
  dsimp only
  rw [hrun, hback, hany, hold]
  generalize State.arithStop _ = r
  cases r <;> rfl

end

/-! NOP and YIELD (R307). -/

/-- A warp with another age. -/
def Warp.aged (w : Warp) (n : Nat) : Warp := { w with age := n }

section
variable {s : State}

theorem exec_yield (h : s.gate .yield = .go) : exec .yield s = .next (s.run (if s.topSplit
    then (s.withMe (s.me.aged (s.turnOf s.cur))).rotate (s.pos.1 + 12) else .ok (s.withMe (s.me.aged (s.turnOf s.cur))).done)) :=
  congrArg Host.Outcome.next (s.issue_go h _)

variable {q : StackEnt} {l : List StackEnt}

theorem exec_yield_align (h : s.gate .yield = .go) (hs : s.me.stack = q :: l) (hr : q.reconv = false) (hpc : q.pc % 12 ≠ 0) :
    exec .yield s = .next (s.raise { cause := .align }) := by
  have hs' : (s.withMe (s.me.aged (s.turnOf s.cur))).me.stack = q :: l := by rw [State.withMe_me]; exact hs
  rw [exec_yield h, State.topSplit_iff hs, hr, State.rotate_align hs' hpc]
  rfl

theorem exec_yield_split (h : s.gate .yield = .go) (hs : s.me.stack = q :: l) (hr : q.reconv = false) (hpc : q.pc % 12 = 0) :
    exec .yield s = .next (s.become ((((s.me.aged (s.turnOf s.cur)).withStack
      ({ q with pc := s.pos.1 + 12, mask := s.me.sls } :: l)).startSplit q.mask).goto (q.pc, 0, false)) .moved) := by
  have hs' : (s.withMe (s.me.aged (s.turnOf s.cur))).me.stack = q :: l := by rw [State.withMe_me]; exact hs
  have htop : s.topSplit = true := by rw [State.topSplit_iff hs, hr]; rfl
  rw [exec_yield h, htop, if_pos rfl, State.rotate_ok hs' hpc, State.withMe_me, State.become_withMe]
  rfl

end

section
variable (w : Warp) (l : List StackEnt) (m : LaneMask) (pc : Nat)

theorem Warp.yielded (n : Nat) :
    let w' := ((((w.aged n).withStack l).startSplit m).goto (pc, 0, false))
    w'.age = n ∧ w'.stack = l ∧ w'.sls = m ∧ w'.exec = m ∧ w'.back = 0 ∧ w'.position = (pc, 0, false) :=
  ⟨rfl, rfl, rfl, ((w.aged n).withStack l).exec_startSplit m, rfl, rfl⟩

theorem Warp.startSplit_goto :
    let w' := (w.startSplit m).goto (pc, 0, false)
    w'.spilled = w.spilled ∧ w'.stack = w.stack ∧ w'.sls = m ∧ w'.exec = m ∧ w'.back = 0 ∧ w'.position = (pc, 0, false) :=
  ⟨rfl, rfl, rfl, w.exec_startSplit m, rfl, rfl⟩

theorem Warp.without_withStack (x : LaneMask) :
    ((w.without x).withStack l).spilled = w.spilled ∧ ((w.without x).withStack l).stack = l := ⟨rfl, rfl⟩

/-- The warp that resumes after an EXIT (R310). -/
theorem Warp.resumed_exit (x : LaneMask) :
    let w' := (((w.without x).withStack l).startSplit m).goto (pc, 0, false)
    w'.spilled = w.spilled ∧ w'.stack = l ∧ w'.sls = m ∧ w'.exec = m ∧ w'.back = 0 ∧ w'.position = (pc, 0, false) := by
  obtain ⟨hspilled, hstack⟩ := w.without_withStack l x
  have h := ((w.without x).withStack l).startSplit_goto m pc
  rw [hspilled, hstack] at h
  exact h

end

/-! EXIT, WARP_RETIRE, NOP and YIELD: the obligation. -/

/-- The warp as the obligation writes it, once its stack is unwound or it had none. -/
def Warp.retiring (w : Warp) (x : LaneMask) (p : Nat × Nat × Bool) (ten : BitVec 5) : Warp :=
  { w.goto p with run := .exiting, exTen := ten, sls := if w.stack = [] then w.sls else w.sls &&& ~~~x, stack := [] }

theorem State.become_retiring (s : State) (x : LaneMask) (p : Nat × Nat × Bool) (ten : BitVec 5) (is : List Instr) :
    (s.become (s.me.retiring x p ten) .moved).push is = { s.modMe fun w => { w.goto p with
      run := .exiting, exTen := ten, sls := if w.stack = [] then w.sls else w.sls &&& ~~~x, stack := [] } with
        agenda := s.agenda ++ is, out := .moved } := rfl

theorem Warp.retiring_empty {w : Warp} (h : w.stack = []) (x : LaneMask) (p : Nat × Nat × Bool) (ten : BitVec 5) :
    w.leaveAt p ten = w.retiring x p ten := by
  rw [retiring, if_pos h, ← h]
  rfl

theorem Warp.retiring_stacked {w : Warp} (h : w.stack ≠ []) (x : LaneMask) (p : Nat × Nat × Bool) (ten : BitVec 5) :
    ((w.without x).withStack []).leaveAt p ten = w.retiring x p ten := by
  rw [retiring, if_neg h]
  rfl

section
variable {s : State}

theorem exit_waits (hgo : s.gate .exit = .go) (h₀ : s.me.spilled = 0) (he : ∀ e ∈ s.me.stack, e.mask &&& ~~~s.execMask = 0)
    (hback : State.loadsBack s.before = false) : exec .exit s = .next { s with out := .waiting } := by
  by_cases hs : s.me.stack = []
  · rw [exec_exit hgo, if_pos hs, State.leave_waits hback]
    rfl
  · rw [exec_exit_last hgo hs h₀ he, State.leave_waits hback]
    rfl

/-- EXIT of the last lanes retires the warp (R310). -/
theorem exit_retires (hgo : s.gate .exit = .go) (htrap : s.isTrap = false) (h₀ : s.me.spilled = 0)
    (he : ∀ e ∈ s.me.stack, e.mask &&& ~~~s.execMask = 0) (hback : State.loadsBack s.before = true)
    (hmarks : s.before.marks = []) (harith : s.arithNow = none) :
    exec .exit s = .next ((s.become (s.me.retiring s.execMask s.pos s.before.ten) .moved).push
      [.warpRetire s.myCore s.mySlot]) := by
  by_cases hs : s.me.stack = []
  · rw [exec_exit hgo, if_pos hs, State.leave_retires hback hmarks harith, State.run_ok, State.retire_eq htrap,
      Warp.retiring_empty hs]
  · rw [exec_exit_last hgo hs h₀ he, State.leave_retires hback hmarks harith, State.run_ok,
      State.retire_withMe (w := (s.me.without s.execMask).withStack []) htrap rfl,
      Warp.retiring_stacked hs]

/-- EXIT where an entry keeps a lane (R18, R310). -/
theorem exit_resumes {es l : List StackEnt} {q : StackEnt} (hgo : s.gate .exit = .go) (hs : s.me.stack = es ++ q :: l)
    (h₀ : s.me.spilled = 0) (he : ∀ e ∈ es, e.mask &&& ~~~s.execMask = 0) (hq : q.mask &&& ~~~s.execMask ≠ 0) :
    (q.pc % 12 ≠ 0 → exec .exit s = .next (s.raise { cause := .align }))
      ∧ (q.pc % 12 = 0 → exec .exit s = .next (s.become ((((s.me.without s.execMask).withStack
        (l.map (·.without s.execMask))).startSplit (q.mask &&& ~~~s.execMask)).goto (q.pc, 0, false)) .moved)) := by
  have hexec := exec_exit_resume hgo hs h₀ he hq
  refine ⟨fun hpc => ?_, fun hpc => ?_⟩
  · rw [hexec, State.enterAt_align (e := q.without s.execMask) hpc, State.run_fail]
  · rw [hexec, State.enterAt_ok (e := q.without s.execMask) hpc, State.run_ok, State.startSplit_eq, State.withMe_me,
      State.withMe_withMe, State.jump_eq, State.withMe_me, State.become_withMe]
    rfl

/-- A warp without a bundle that ends (R310). -/
theorem warpRetire_ends {core slot : Nat} (hslot : slot < 65) (hrun : (s.warp (warpKey core slot)).run = .exiting)
    (hback : State.loadsBack (s.warp (warpKey core slot)) = true) (hsfu : ∀ r ∈ s.sfu, r.core ≠ core ∨ r.slot ≠ slot)
    (hmarks : (s.warp (warpKey core slot)).marks = [])
    (harith : State.arithStop { s.warp (warpKey core slot) with ten := (s.warp (warpKey core slot)).exTen } = none)
    (hbid : (s.warp (warpKey core slot)).bid = 0) :
    ∃ t, exec (.warpRetire core slot) s = .next t ∧ t.out = .done ∧ s.sameBytes t ∧ (t.warp (warpKey core slot)).run = .exited
      ∧ (t.warp (warpKey core slot)).vopen = false
      ∧ (t.block (s.warp (warpKey core slot)).blk).gone
        = (s.warp (warpKey core slot)).widx :: (s.block (s.warp (warpKey core slot)).blk).gone
      ∧ t.agenda = s.agenda ++ [.barrierArrival core slot, .blockRetire (s.warp (warpKey core slot)).blk] := by
  have hexec := exec_warpRetire_ends hrun hback hsfu hmarks
  rw [harith] at hexec
  generalize hk : warpKey core slot = k at *
  obtain ⟨hexited, hvopen⟩ := (s.warp k).exited_spec
  refine ⟨_, hexec, rfl, State.sameBytes_endWarp hbid, ?_, ?_, State.block_endWarp hbid, ?_⟩
  · rw [State.warp_done, State.warp_push, State.warp_endWarp hbid, hexited]
  · rw [State.warp_done, State.warp_push, State.warp_endWarp hbid, hvopen]
  · show (s.endWarp k).agenda ++ _ = _
    rw [State.agenda_endWarp hbid, ← hk, keyCore_warpKey hslot, keySlot_warpKey hslot, List.append_assoc]
    rfl

end

/-- Settles O22: EXIT by the lemmas on its loop and on retirement, YIELD by those on `rotate`. -/
theorem exitsAndYields : Obligations.ExitsAndYields := by
  refine ⟨fun s core slot => ⟨fun hgo htrap h₀ he => ⟨exit_waits hgo h₀ he, fun hback hmarks harith => ?_⟩,
    fun es q l hgo hs h₀ he hq => ⟨(exit_resumes hgo hs h₀ he hq).1, fun hpc => ?_⟩,
    fun q l a b z bs d lend hgo hs h₀ hl hq hpc hread hwrite hb hwarps hcur hd => ?_,
    fun hslot hrun => ⟨exec_warpRetire_waits hrun, fun hback hsfu hmarks => ⟨fun st harith => ?_,
      warpRetire_ends hslot hrun hback hsfu hmarks⟩⟩⟩,
    fun s => ⟨fun hgo => congrArg Host.Outcome.next (s.issue_go hgo _), fun hgo hq => ?_,
      fun q l hgo hs hr => ⟨exec_yield_align hgo hs hr, fun hpc => ?_⟩⟩⟩
  · rw [exit_retires hgo htrap h₀ he hback hmarks harith, State.become_retiring]
  · refine ⟨_, (exit_resumes hgo hs h₀ he hq).2 hpc, rfl, s.onlyMe_become _ _, ?_⟩
    rw [State.become_me]
    exact (s.me.resumed_exit (l.map (·.without s.execMask)) (q.mask &&& ~~~s.execMask) q.pc s.execMask).2
  · obtain ⟨t, ht, hout, hmem, hme⟩ := exec_exit_spilled rfl hgo hs h₀ hl hq hpc hread hwrite hb
      (State.me_congr hwarps hcur) hd
    obtain ⟨hspilled, hstack, -, hmask, -, hposn⟩ :=
      s.me.resumed_exit (l.map (·.without s.execMask)) (q.mask &&& ~~~s.execMask) q.pc s.execMask
    refine ⟨t, ht, hout, hmem, ?_⟩
    rw [hme]
    exact ⟨hspilled, hstack, hmask, hposn⟩
  · rw [exec_warpRetire_ends hrun hback hsfu hmarks, harith]
    rfl
  · rw [exec_yield hgo, State.topSplit_eq_false hq]
    rfl
  · refine ⟨_, exec_yield_split hgo hs hr hpc, rfl, s.onlyMe_become _ _, ?_⟩
    rw [State.become_me]
    exact s.me.yielded _ q.mask q.pc _

end Sys2Proof.Machine
end

section
/-!
PROOFS. What an access to memory cannot reach.
-/

namespace Sys2Proof.Machine

/-- What of the state an access to memory cannot reach: the warps and blocks, the cores with their scratchpads, the
queues' regions, and what waits at engines. -/
structure Beyond where
  cores : Tab Core
  warps : Tab Warp
  blocks : Tab Block
  clusters : Tab Cluster
  grids : Tab Grid
  regions : List Region
  pushes : Tab Push
  xreqs : Tab Xreq
  cur : Nat

namespace State
variable (s : State)

def beyond : Beyond where
  cores := s.cores
  warps := s.warps
  blocks := s.blocks
  clusters := s.clusters
  grids := s.grids
  regions := s.regions
  pushes := s.pushes
  xreqs := s.xreqs
  cur := s.cur

theorem beyond_foldl {α : Type} {f : State → α → State} (h : ∀ s a, (f s a).beyond = s.beyond) (l : List α) :
    (l.foldl f s).beyond = s.beyond := by
  induction l generalizing s with
  | nil => rfl
  | cons a l ih => rw [List.foldl_cons, ih, h]

/-! Lines, slices and directories (R68 to R84). -/

@[simp] theorem beyond_push (is : List Instr) : (s.push is).beyond = s.beyond := rfl
@[simp] theorem beyond_pushNew (i : Instr) : (s.pushNew i).beyond = s.beyond := by unfold pushNew; split <;> rfl
@[simp] theorem beyond_log (w : String) (a : List Nat) : (s.log w a).beyond = s.beyond := rfl
@[simp] theorem beyond_modDie (d : Nat) (f : Die → Die) : (s.modDie d f).beyond = s.beyond := rfl
@[simp] theorem beyond_modSlice (d sc : Nat) (f : Slice → Slice) : (s.modSlice d sc f).beyond = s.beyond := rfl
@[simp] theorem beyond_count (line : Nat) (w : Bool) : (s.count line w).beyond = s.beyond := rfl

@[simp] theorem beyond_cleanSlice (line : Nat) : (s.cleanSlice line).beyond = s.beyond := by
  unfold cleanSlice
  split
  · split <;> rfl
  · rfl

@[simp] theorem beyond_dropSlice (line : Nat) : (s.dropSlice line).beyond = s.beyond := by
  unfold dropSlice; split <;> rfl
@[simp] theorem beyond_evictSlice (line : Nat) : (s.evictSlice line).beyond = s.beyond := by simp [evictSlice]
@[simp] theorem beyond_touchSlice (line : Nat) : (s.touchSlice line).beyond = s.beyond := by
  unfold touchSlice; split <;> rfl

/-- A slice that takes a line in is the only part of the state that changes with it. -/
theorem beyond_slices (t : State) (l : List SliceLine) : ({ t with slices := l } : State).beyond = t.beyond := rfl
theorem beyond_dir (t : State) (l : List DirEnt) : ({ t with dir := l } : State).beyond = t.beyond := rfl

@[simp] theorem beyond_fillSlice (line part : Nat) (ns stream : Bool) : (s.fillSlice line part ns stream).beyond = s.beyond := by
  unfold fillSlice
  split
  · simp
  · rw [beyond_slices, beyond_count]
    split
    · split
      · simp
      · rfl
    · rfl

@[simp] theorem beyond_bumpVer (line part : Nat) : (s.bumpVer line part).beyond = s.beyond := by
  unfold bumpVer; split <;> rfl
@[simp] theorem beyond_restage (line : Nat) (g : List Byte → List Byte) : (s.restage line g).beyond = s.beyond := by
  unfold restage; split <;> rfl

@[simp] theorem beyond_setHomeData (line : Nat) (g : List Byte → List Byte) : (s.setHomeData line g).beyond = s.beyond := by
  unfold setHomeData
  dsimp only
  split
  · exact s.beyond_restage line g
  · exact s.beyond_restage line g

@[simp] theorem beyond_notify (line : Nat) : (s.notify line).beyond = s.beyond := by
  refine beyond_foldl s (fun t r => beyond_foldl t (fun u e => ?_) _) _
  split
  · simp
  · rfl

@[simp] theorem beyond_homeWrite (line part : Nat) (g : List Byte → List Byte) (whole : Bool) :
    (s.homeWrite line part g whole).beyond = s.beyond := by
  unfold homeWrite
  rw [beyond_notify]
  split
  · exact (beyond_bumpVer _ _ _).trans (s.beyond_setHomeData line g)
  · simp

@[simp] theorem beyond_setHomeTag (line part : Nat) (t : Tag) : (s.setHomeTag line part t).beyond = s.beyond := by
  unfold setHomeTag; split <;> rfl
@[simp] theorem beyond_putDir (line : Nat) (e : DirEnt) : (s.putDir line e).beyond = s.beyond := rfl
@[simp] theorem beyond_keepOld (line : Nat) : (s.keepOld line).beyond = s.beyond := rfl
@[simp] theorem beyond_dropOld (line : Nat) : (s.dropOld line).beyond = s.beyond := rfl
@[simp] theorem beyond_splitDir (line k : Nat) : (s.splitDir line k).beyond = s.beyond := by
  unfold splitDir; split <;> rfl
@[simp] theorem beyond_dropL1 (core line : Nat) : (s.dropL1 core line).beyond = s.beyond := rfl
@[simp] theorem beyond_dropRdc (die line : Nat) : (s.dropRdc die line).beyond = s.beyond := rfl
@[simp] theorem beyond_dropDieL1 (die line : Nat) : (s.dropDieL1 die line).beyond = s.beyond := rfl
@[simp] theorem beyond_setWriter (line core : Nat) : (s.setWriter line core).beyond = s.beyond := rfl

/-! Copies that come home (R79 to R82, R99). -/

@[simp] theorem beyond_mergeCarry (line part : Nat) (op : CarryOp) (d : List Byte) : (s.mergeCarry line part op d).beyond = s.beyond := by
  unfold mergeCarry
  rw [beyond_homeWrite]
  split <;> simp

@[simp] theorem beyond_mergeResv (line part : Nat) : (s.mergeResv line part).beyond = s.beyond := by
  have h := beyond_foldl s (f := fun t (r : Resv) => t.mergeCarry line part r.op r.data)
    (fun t r => t.beyond_mergeCarry line part r.op r.data) (s.resv.filter (·.line == line))
  rw [mergeResv, ← h]
  rfl

@[simp] theorem beyond_takeBack (line part : Nat) (op : Option CarryOp) (d : List Byte) (ns : Bool) (t : Tag) (stream : Bool) :
    (s.takeBack line part op d ns t stream).beyond = s.beyond := by
  unfold takeBack
  split <;> simp

@[simp] theorem beyond_coreForgets (core line : Nat) : (s.coreForgets core line).beyond = s.beyond := by
  unfold coreForgets
  dsimp only
  split <;> simp

@[simp] theorem beyond_dieForgets (die line : Nat) : (s.dieForgets die line).beyond = s.beyond := by
  unfold dieForgets
  dsimp only
  split <;> simp

@[simp] theorem beyond_arrive (w : Wb) : (s.arrive w).beyond = s.beyond := by
  unfold arrive
  split
  · simp
  · dsimp only
    split <;> simp

@[simp] theorem beyond_settle (p : Wb → Bool) : (s.settle p).beyond = s.beyond :=
  (beyond_foldl _ (fun t w => t.beyond_arrive w) _).trans rfl
@[simp] theorem beyond_settleFrom (die : Bool) (agent line : Nat) : (s.settleFrom die agent line).beyond = s.beyond := s.beyond_settle _
@[simp] theorem beyond_settleLine (line : Nat) : (s.settleLine line).beyond = s.beyond := s.beyond_settle _

@[simp] theorem beyond_coreLeaves (core line : Nat) : (s.coreLeaves core line).beyond = s.beyond := by
  unfold coreLeaves
  dsimp only
  rw [beyond_coreForgets]
  split
  · split <;> simp
  · simp

@[simp] theorem beyond_dieLeaves (die line : Nat) : (s.dieLeaves die line).beyond = s.beyond := by
  unfold dieLeaves
  dsimp only
  rw [beyond_dropDieL1]
  split
  · split <;> simp
  · simp

@[simp] theorem beyond_collect (line part : Nat) : (s.collect line part).beyond = s.beyond := by
  unfold collect
  dsimp only
  rw [beyond_dropOld, beyond_mergeResv]
  split
  · simp
  · simp
  · rw [beyond_foldl _ (fun t d => by simp), beyond_foldl _ fun t c => by simp]
    simp
  · simp

@[simp] theorem beyond_collectForWrite (line part : Nat) : (s.collectForWrite line part).beyond = s.beyond := by
  unfold collectForWrite
  dsimp only
  rw [beyond_dropOld]
  split
  · rw [beyond_foldl _ fun t c => by simp]
    simp
  · simp

@[simp] theorem beyond_revokeAll (line part : Nat) : (s.revokeAll line part).beyond = s.beyond := by
  unfold revokeAll
  dsimp only
  rw [beyond_dropOld, beyond_foldl _ (fun t d => t.beyond_dieForgets d line), beyond_foldl _ fun t d => by split <;> simp]
  simp

/-! A request at its line's home (R58, R81 to R85). -/

@[simp] theorem beyond_homeEnter (line part : Nat) (ns shared : Bool) : (s.homeEnter line part ns shared).beyond = s.beyond := by
  have h : ∀ t : State, t.beyond = s.beyond → (if shared then t else { t with
      slices := t.slices.map fun (x : SliceLine) => if x.line = line then { x with part := part } else x
      dir := t.dir.map fun (x : DirEnt) => if x.covers line && x.idle then { x with part := part } else x }).beyond
        = s.beyond := by
    intro t ht
    split
    · exact ht
    · exact ht
  unfold homeEnter
  refine h _ ?_
  split
  · split
    · rw [beyond_slices, beyond_cleanSlice, beyond_revokeAll]
    · rfl
  · rfl

@[simp] theorem beyond_enterLineq (who : Nat × Nat) (cls part line : Nat) : (s.enterLineq who cls part line).beyond = s.beyond := by
  unfold enterLineq; split <;> rfl
@[simp] theorem beyond_leaveLineq (who : Nat × Nat) (line : Nat) : (s.leaveLineq who line).beyond = s.beyond := rfl
@[simp] theorem beyond_keepPlace (line part cls key : Nat) : (s.keepPlace line part cls key).beyond = s.beyond := by
  unfold keepPlace; split <;> simp

@[simp] theorem beyond_evictDir (e : DirEnt) : (s.evictDir e).beyond = s.beyond :=
  beyond_foldl s (fun t l => t.beyond_revokeAll l e.part) _

@[simp] theorem beyond_dirEvict (set : Nat × Nat × Nat) (line fuel : Nat) : (s.dirEvict set line fuel).beyond = s.beyond := by
  induction fuel generalizing s with
  | zero => rfl
  | succ n ih =>
    unfold dirEvict
    dsimp only
    split
    · rfl
    · split
      · rw [ih, beyond_evictDir]
      · rfl

@[simp] theorem beyond_dirRoom (line : Nat) : (s.dirRoom line).beyond = s.beyond := by
  unfold dirRoom; split <;> simp

@[simp] theorem beyond_readLine (line part : Nat) (ns : Bool) (p : Policy) (cls key : Nat) :
    (s.readLine line part ns p cls key).1.beyond = s.beyond := by
  unfold readLine
  split
  · rfl
  split
  · simp
  split
  · simp
  · dsimp only
    rw [beyond_dirRoom]
    split
    · split <;> simp
    · have h : ∀ t : State, t.beyond = s.beyond →
          (if (t.sliceLine line).isSome then t else t.count line false).beyond = s.beyond := by
        intro t ht
        split
        · exact ht
        · exact ht
      refine h _ ?_
      split <;> simp

@[simp] theorem beyond_writeLine (line part : Nat) (ns : Bool) (p : Policy) (who : Option Nat) (off : Nat) (bs : List Byte)
    (cls key : Nat) : (s.writeLine line part ns p who off bs cls key).1.beyond = s.beyond := by
  unfold writeLine
  split
  · rfl
  split
  · simp
  split
  · simp
  · dsimp only
    have h : ∀ t : State, t.beyond = s.beyond → (match who with | some c => t.setWriter line c | none => t).beyond = s.beyond := by
      intro t ht
      split
      · exact ht
      · exact ht
    rw [beyond_dirRoom]
    refine h _ ?_
    rw [beyond_homeWrite]
    split
    · rw [beyond_fillSlice]
      split <;> simp
    · split <;> simp

@[simp] theorem beyond_ackClears (die line : Nat) : (s.ackClears die line).beyond = s.beyond := by
  unfold ackClears
  split
  · rfl
  · dsimp only
    rw [beyond_dropDieL1]
    split
    · split <;> simp
    · rfl

/-! Walks and translation (R52 to R61). -/

@[simp] theorem beyond_readEntry (a part : Nat) (ns : Bool) : (s.readEntry a part ns).1.beyond = s.beyond := by
  unfold readEntry
  dsimp only
  have h := s.beyond_readLine (resolveAlias a / 128) part ns .cached 1 0
  split <;> simp_all

@[simp] theorem beyond_walkFrom (va part : Nat) (ns : Bool) (level table : Nat) :
    (s.walkFrom va part ns level table).1.beyond = s.beyond := by
  induction level generalizing s table with
  | zero => rfl
  | succ level ih =>
    have h := s.beyond_readEntry (table + 8 * bits va (16 + 10 * level) 10) part ns
    unfold walkFrom
    split
    next t c _ _ ht => rw [ht] at h; exact h
    next t ht => rw [ht] at h; exact h
    next t bs ht =>
      rw [ht] at h
      dsimp only
      split
      · split <;> exact h
      · split
        · split
          · exact h
          · split <;> exact h
        · split
          · exact h
          · exact (ih t _).trans h

@[simp] theorem beyond_setWalk (id : Nat) (f : Walk → Walk) : (s.setWalk id f).beyond = s.beyond := rfl
@[simp] theorem beyond_tlbFill (core region va : Nat) (l : Leaf) : (s.tlbFill core region va l).beyond = s.beyond := rfl

@[simp] theorem beyond_walkOnce (a : Agent) (va : Nat) (w : Option Walk) : (s.walkOnce a va w).1.beyond = s.beyond := by
  have h : (s.walk a.root va a.part a.ns).1.beyond = s.beyond := s.beyond_walkFrom va a.part a.ns 4 a.root
  unfold walkOnce
  dsimp only
  split
  · split
    · exact h
    · exact h
  · split
    · split
      · exact h
      · exact h
    · exact h

@[simp] theorem beyond_queueFor (a : Agent) (va : Nat) : (s.queueFor a va).beyond = s.beyond := by
  unfold queueFor
  split
  · rfl
  · dsimp only
    split <;> rfl

@[simp] theorem beyond_joinFor (a : Agent) (va : Nat) (w : Walk) : (s.joinFor a va w).beyond = s.beyond := by
  unfold joinFor
  split
  · rfl
  split
  · rfl
  split <;> simp

@[simp] theorem beyond_walkFor (a : Agent) (va : Nat) : (s.walkFor a va).1.beyond = s.beyond := by
  unfold walkFor
  split
  · split
    · simp
    · split <;> simp
  · split <;> simp

@[simp] theorem beyond_translate (a : Agent) (va : Nat) (need : Need) : (s.translate a va need).1.beyond = s.beyond := by
  have h : ∀ r : State × WalkRes, r.1.beyond = s.beyond → (match r.2 with
      | .leaf l => match placeOf (l.phys va) with
        | .reserved => (r.1, WalkRes.fail .xlate 0 l.tier)
        | _ => if l.permits need a.ns then (r.1, r.2) else (r.1, .fail .prot 0 l.tier)
      | .wait => (r.1, .held)
      | _ => (r.1, r.2)).1.beyond = s.beyond := by
    rintro ⟨t, r⟩ ht
    cases r with
    | leaf l =>
      dsimp only
      split
      · exact ht
      · split <;> exact ht
    | _ => exact ht
  unfold translate
  split
  · rfl
  · refine h _ ?_
    split
    · rfl
    · dsimp only
      split
      · rw [beyond_tlbFill, beyond_walkFor]
      · exact s.beyond_walkFor a va

/-! Reads and writes through a translation. -/

theorem beyond_fabricSend (die who : Nat) (kind : Myder) (pa : Nat) (bs : List Byte) (n : Nat) :
    (s.fabricSend die who kind pa bs n).1.beyond = s.beyond := by
  unfold fabricSend; split <;> rfl

@[simp] theorem beyond_readVa (a : Agent) (va n : Nat) (need : Need) : (s.readVa a va n need).1.beyond = s.beyond := by
  have h := s.beyond_translate a va need
  unfold readVa
  split
  next t l ht =>
    rw [ht] at h
    dsimp only
    split
    · have h' := t.beyond_readLine (l.phys va / 128) a.part l.ns l.policy a.cls a.key
      split
      next u d hu => rw [hu] at h'; exact h'.trans h
      next u g _ hu => rw [hu] at h'; exact h'.trans h
    · exact (t.beyond_fabricSend _ _ _ _ _ _).trans h
    · exact h
  next t c l tier ht => rw [ht] at h; exact h
  next t r _ _ ht => rw [ht] at h; exact h

@[simp] theorem beyond_writeVa (a : Agent) (va : Nat) (bs : List Byte) : (s.writeVa a va bs).1.beyond = s.beyond := by
  have h := s.beyond_translate a va .w
  unfold writeVa
  split
  next t l ht =>
    rw [ht] at h
    dsimp only
    split
    · have h' := t.beyond_writeLine (l.phys va / 128) a.part l.ns l.policy a.core (l.phys va % 128) bs a.cls a.key
      split
      next u d hu => rw [hu] at h'; exact (u.beyond_ackClears _ _).trans (h'.trans h)
      next u g _ hu => rw [hu] at h'; exact h'.trans h
    · exact (t.beyond_fabricSend _ _ _ _ _ _).trans h
    · exact h
  next t c l tier ht => rw [ht] at h; exact h
  next t r _ _ ht => rw [ht] at h; exact h

theorem beyond_readSpan (a : Agent) (need : Need) (ns : List Nat) :
    ∀ (s : State) (va : Nat), (s.readSpan a va need ns).1.beyond = s.beyond := by
  induction ns with
  | nil => exact fun _ _ => rfl
  | cons n ns ih =>
    intro s va
    have h := s.beyond_readVa a va n need
    unfold readSpan
    split
    next t bs ht =>
      rw [ht] at h
      have h' := (ih t (va + n)).trans h
      split
      next u more hu => rw [hu] at h'; exact h'
      next => exact h'
    next => exact h

/-- A read in one step reaches nothing but memory and what stands before it. -/
theorem beyond_readBytes (a : Agent) (va n : Nat) (need : Need) : (s.readBytes a va n need).1.beyond = s.beyond :=
  beyond_readSpan a need _ s va

end State

end Sys2Proof.Machine
end

section
/-!
PROOFS. Fetched chunks and dictionary images (R17, R31).
-/

namespace Sys2Proof.Machine

/-! Chunks (R17). -/

theorem fetchChunk_spec {s z : State} {a : Agent} {core va : Nat} {bs : List Byte}
    (hlen : (s.chunkLines a (va / 384 * 384)).length = 3) (hmem : (s.chunkLines a (va / 384 * 384)).all isMemory = true)
    (hb : s.readBytes a (va / 384 * 384) 384 .x = (z, .bytes bs)) :
    ∃ (c : Chunk) (cs : List Chunk), s.fetchChunk a core va = { z with chunks := c :: cs } ∧ c.core = core
      ∧ c.va = va / 384 * 384 ∧ c.bytes = bs ∧ c.lines = s.chunkLines a (va / 384 * 384) := by
  rw [State.fetchChunk]
  dsimp only
  rw [hlen, hmem, if_neg (by decide), hb]
  exact ⟨_, _, rfl, rfl, rfl, rfl, rfl⟩

/-! Dictionaries (R31). -/

/-- The RAM a load ends in: it takes the place of each one of its core that still waits for the image (R31). -/
def State.putDict (s : State) (core : Nat) (d : DictRam) : State :=
  s.modCore core fun c => { c with dicts := c.dicts.map fun (y : DictRam) => if y.tag = d.tag && !y.loaded then d else y }

theorem State.dicts_putDict {s : State} {core j : Nat} {d y : DictRam} (h : (s.core core).dicts[j]? = some y)
    (ht : y.tag = d.tag) (hl : y.loaded = false) : ((s.putDict core d).done.core core).dicts[j]? = some d := by
  rw [core_done, putDict, core_modCore]
  show ((s.core core).dicts.map _)[j]? = _
  rw [Vector.getElem?_map, h, Option.map_some, ht, hl]
  simp

/-- The RAM with an image that was loaded (R31). -/
def State.imageRam (n dict : Nat) (bs : List Byte) (lines : List Nat) : DictRam :=
  { tag := dict, loaded := true, data := wordsOf n bs, lines := lines }

theorem State.imageRam_spec (n dict : Nat) (bs : List Byte) (lines : List Nat) :
    let y := imageRam n dict bs lines
    y.tag = dict ∧ y.loaded = true ∧ y.fail = none
      ∧ y.data = (List.range n).map fun i => BitVec.ofNat 32 (fieldAt bs (4 * i) 4) :=
  ⟨rfl, rfl, rfl, rfl⟩

/-- The load of an image that some RAM of the core waits for (R31). -/
theorem exec_dictionaryLoad {s : State} {blk j : Nat} {x : Block} {d : DictRam} (hblk : s.blocks.get? blk = some x)
    (hdict : x.dict ≠ 0) (he : x.state ≠ .evicted) (hr : x.state ≠ .retired)
    (hd : (s.core x.core).dicts[j]? = some d) (ht : d.tag = x.dict) (hl : d.loaded = false) :
    exec (.dictionaryLoad blk) s = .next (match s.readBytes (s.blockAgent blk) x.dict 4096 .x with
      | (z, .held) => (z.push [.dictionaryLoad blk]).done
      | (z, .fail c level tier) => (z.putDict x.core
          { tag := x.dict, loaded := true, fail := some { cause := c, level := level, tier := tier, addr := x.dict } }).done
      | (z, .bytes bs) => (z.putDict x.core
          (State.imageRam 1024 x.dict bs (z.dictLines (s.blockAgent blk) x.dict))).done) := by
  have hx : s.block blk = x := by rw [State.block, Tab.get, hblk]; rfl
  have hwaits : ((s.core x.core).dicts.toList.any fun (d : DictRam) => d.tag == x.dict && !d.loaded) = true := by
    refine List.any_eq_true.mpr ⟨d, Vector.mem_toList_iff.mpr (Vector.mem_of_getElem? hd), ?_⟩
    rw [ht, hl]
    simp
  show execDictionaryLoad blk s = _
  rw [execDictionaryLoad]
  dsimp only
  have he' : (x.state != .evicted) = true := bne_iff_ne.mpr he
  have hr' : (x.state != .retired) = true := bne_iff_ne.mpr hr
  rw [hx, hwaits, hblk, he', hr', if_neg (by simpa using hdict)]
  generalize s.readBytes (s.blockAgent blk) x.dict 4096 .x = r
  obtain ⟨z, g⟩ := r
  cases g <;> rfl

/-- Settles O48: a chunk by `fetchChunk_spec`, an image by `exec_dictionaryLoad` and what a read cannot reach. -/
theorem fetchedCode : Obligations.FetchedCode := by
  refine fun s core slot blk => ⟨fun z bs hw hlen hmem hb => ?_, fun x d j hblk hdict he hr hd ht hl => ?_⟩
  · obtain ⟨c, cs, hcs, hc⟩ := fetchChunk_spec (core := core) hlen hmem hb
    refine ⟨{ z with chunks := c :: cs, cur := s.cur, out := .done }, ?_, rfl, rfl, rfl, c, .head _, hc⟩
    show execInstructionFetch core slot s = _
    rw [execInstructionFetch, hw]
    exact congrArg (fun t : State => Host.Outcome.next ({ t with cur := s.cur } : State).done) hcs
  · have hexec := exec_dictionaryLoad hblk hdict he hr hd ht hl
    have hkept : ∀ z g, s.readBytes (s.blockAgent blk) x.dict 4096 .x = (z, g) → (z.core x.core).dicts[j]? = some d := by
      intro z g h
      have hz := s.beyond_readBytes (s.blockAgent blk) x.dict 4096 .x
      rw [h] at hz
      rw [State.core, show z.cores = s.cores from congrArg Beyond.cores hz]
      exact hd
    refine ⟨fun z bs h => ?_, fun z c n m h => ?_, fun z h => ?_⟩
    · rw [h] at hexec
      have hy := State.dicts_putDict (s := z) (d := State.imageRam 1024 x.dict bs (z.dictLines (s.blockAgent blk) x.dict))
        (hkept z _ h) ht hl
      exact ⟨_, _, hexec, rfl, hy, State.imageRam_spec 1024 _ _ _⟩
    · rw [h] at hexec
      exact ⟨_, _, hexec, rfl, State.dicts_putDict (hkept z _ h) ht hl, rfl, rfl, rfl⟩
    · rw [h] at hexec
      exact hexec

end Sys2Proof.Machine
end

section
/-!
PROOFS. Requests at engines and homes, and their answers (R326, R327).
-/

namespace Sys2Proof.Machine

/-! Requests of waiting instructions, and their answers. -/

/-- A warp whose request of a kind is answered, and the answer used up. -/
def Warp.answered (w : Warp) (k : Nat) : Warp :=
  { w with asks := w.asks.del k, replies := w.replies.del k, wake := .none }

/-- A warp that has asked. -/
def Warp.asking (w : Warp) (k : Nat) (a : Ask) : Warp := { w with asks := w.asks.put k a }

/-- A warp that has asked at a queue, and parks (R327). -/
def Warp.atQueue (w : Warp) (region q n : Nat) : Warp :=
  { w.asking 1 (.qwait region q n) with wake := .qwait region q }

namespace Warp
variable (w : Warp)

theorem answered_spec (k : Nat) :
    (w.answered k).asks.get? k = none ∧ (w.answered k).wake = .none ∧ ∀ r, (w.answered k).sreg r = w.sreg r :=
  ⟨Tab.get?_del_same _ _, rfl, fun _ => rfl⟩

theorem asking_spec (k : Nat) (a : Ask) : (w.asking k a).asks.get? k = some a ∧ (w.asking k a).s = w.s
    ∧ (w.asking k a).v = w.v ∧ (w.asking k a).q = w.q ∧ (w.asking k a).cause = w.cause :=
  ⟨Tab.get?_put_same _ _ _, rfl, rfl, rfl, rfl⟩

end Warp

namespace State
variable {s : State}

theorem clearAsk_eq (k : Nat) : s.clearAsk k = s.withMe (s.me.answered k) := rfl
theorem sendAsk_eq (k : Nat) (a : Ask) (ev : Instr) : s.sendAsk k a ev = (s.withMe (s.me.asking k a)).push [ev] := rfl

theorem me_park : s.park.me = s.me := rfl

theorem setS_eq (n : Nat) (x : Word) : s.setS n x = s.withMe (s.me.setSAt s.before.sls n x) := rfl

/-- An answer in one register (R226, R327). -/
theorem answer_setS (n k : Nat) (x : Word) :
    ((s.setS n x).clearAsk k).done = s.become ((s.me.setSAt s.before.sls n x).answered k) .done := by
  rw [clearAsk_eq, setS_eq, withMe_me, withMe_withMe, done_withMe]

/-- An answer in a pair of registers (R327). -/
theorem answer_setSpair (n k v : Nat) : ((s.setSpair n v).clearAsk k).done
    = s.become (((s.me.setSAt s.before.sls n (lowWord v)).setSAt s.before.sls (n + 1) (highWord v)).answered k) .done := by
  rw [clearAsk_eq, setSpair_eq, withMe_me, withMe_withMe, done_withMe]

/-- What an answer in one register leaves. -/
theorem answered_setS {i : Instr} {n k : Nat} {x : Word} (hn : n < 64)
    (h : exec i s = .next ((s.setS n x).clearAsk k).done) :
    ∃ t, exec i s = .next t ∧ t.out = .done ∧ s.onlyMe t ∧ (∀ r, r ≠ n → t.me.sreg r = s.me.sreg r)
      ∧ t.me.sreg n = Warp.slsAnd s.before.sls n x ∧ t.me.asks.get? k = none := by
  rw [answer_setS] at h
  obtain ⟨hasks, -, hreg⟩ := (s.me.setSAt s.before.sls n x).answered_spec k
  refine ⟨_, h, rfl, s.onlyMe_become _ _, ?_⟩
  rw [become_me]
  exact ⟨fun r hr => (hreg r).trans (Warp.sreg_setSAt_other _ _ hr _), (hreg n).trans (Warp.sreg_setSAt_same _ _ hn _), hasks⟩

/-- What an answer in a pair of registers leaves. -/
theorem answered_setSpair {i : Instr} {n k v : Nat} (hn : n + 1 < 64)
    (h : exec i s = .next ((s.setSpair n v).clearAsk k).done) :
    ∃ t, exec i s = .next t ∧ t.out = .done ∧ s.onlyMe t ∧ (∀ r, r ≠ n → r ≠ n + 1 → t.me.sreg r = s.me.sreg r)
      ∧ t.me.sreg n = Warp.slsAnd s.before.sls n (lowWord v) ∧ t.me.sreg (n + 1) = Warp.slsAnd s.before.sls (n + 1) (highWord v)
      ∧ t.me.asks.get? k = none ∧ t.me.wake = .none := by
  rw [answer_setSpair] at h
  set w := s.me.setSAt s.before.sls n (lowWord v)
  obtain ⟨hasks, hwake, hreg⟩ := (w.setSAt s.before.sls (n + 1) (highWord v)).answered_spec k
  refine ⟨_, h, rfl, s.onlyMe_become _ _, ?_⟩
  rw [become_me]
  refine ⟨fun r hr hr' => ?_, ?_, (hreg _).trans (Warp.sreg_setSAt_same _ _ hn _), hasks, hwake⟩
  · exact (hreg r).trans ((Warp.sreg_setSAt_other _ _ hr' _).trans (Warp.sreg_setSAt_other _ _ hr _))
  · exact (hreg n).trans ((Warp.sreg_setSAt_other _ _ (by omega) _).trans (Warp.sreg_setSAt_same _ _ (by omega) _))

/-- A request is sent, and the instruction waits (R326). -/
theorem asked_waits {i : Instr} {k : Nat} {a : Ask} {ev : Instr} (h : exec i s = .next (s.sendAsk k a ev).wait) :
    ∃ t, exec i s = .next t ∧ t.out = .waiting ∧ s.sameRegs t ∧ t.agenda = s.agenda ++ [ev] ∧ t.me.asks.get? k = some a := by
  have hme : (s.sendAsk k a ev).wait.me = s.me.asking k a := s.withMe_me _
  obtain ⟨hasks, hs, hv, hq, hc⟩ := s.me.asking_spec k a
  refine ⟨_, h, rfl, ?_, rfl, ?_⟩
  · rw [sameRegs, hme]
    exact ⟨hs, hv, hq, hc⟩
  · rw [hme]
    exact hasks

theorem wf_of_go {i : Instr} (h : s.gate i = .go) : i.wf = true := by
  by_contra hwf
  have hl : ¬ s.legal i := fun hl => by
    have h' := legal_iff.mp hl
    simp [hwf] at h'
  rw [gate_of_permitted (permitted_illegal hl)] at h
  exact absurd h (by simp)

end State

/-! QWAIT (R327). -/

section
variable {s : State} {d : BitVec 6} {x : Src}

theorem qwait_answered {v : Nat} (hgo : s.gate (.qwait d x) = .go) (hv : s.me.replies.get? 1 = some (.value v)) :
    exec (.qwait d x) s = .next ((s.setSpair d.toNat v).clearAsk 1).done := by
  refine congrArg Host.Outcome.next ((s.issue_go hgo _).trans ?_)
  simp only [hv]

/-- QWAIT's pair starts at an even register (R36). -/
theorem qwait_even (hgo : s.gate (.qwait d x) = .go) : d.toNat + 1 < 64 := by
  have hwf := State.wf_of_go hgo
  rw [Instr.wf, Bool.and_eq_true] at hwf
  have hf : (d.toNat % 2 == 0 && x.isScl) = true := hwf.2
  simp only [Bool.and_eq_true, beq_iff_eq] at hf
  omega

/-- A QWAIT that has not asked yet (R327). -/
theorem qwait_asks (hgo : s.gate (.qwait d x) = .go) (hr : s.me.replies.get? 1 = none) (ha : s.me.asks.get? 1 = none)
    (hacq : s.acqHolds = false) {me num : Nat} (hme : (if s.isTrap then s.ctxRegion else s.myBlock.region) = me)
    (hnum : (s.readScalar x).toNat = num) :
    exec (.qwait d x) s = .next
      (if 7 < num then s.fail .bounds
      else if !(match s.queueInfo me num with | some d => d.en && d.cons | none => false) then s.fail .bounds
      else ((s.fresh.2.sendAsk 1 (.qwait me num s.nextId) (.qwaitServe s.myCore s.mySlot)).modMe fun w =>
        { w with wake := .qwait me num }).park) := by
  subst hme hnum
  refine congrArg Host.Outcome.next ((s.issue_go hgo _).trans ?_)
  simp only [hr, ha, hacq]
  rfl

end

/-- The parts of O42 about QWAIT (R327). -/
theorem qwait_word {s : State} {d : BitVec 6} {x : Src} (hgo : s.gate (.qwait d x) = .go) :
    let me := if s.isTrap then s.ctxRegion else s.myBlock.region
    let num := (s.readScalar x).toNat
    s.me.replies.get? 1 = none → s.me.asks.get? 1 = none → s.acqHolds = false →
      (∀ e, num ≤ 7 → s.queueInfo me num = some e → e.en = true → e.cons = true →
        ∃ t, exec (.qwait d x) s = .next t ∧ t.out = .parked ∧ s.sameRegs t ∧ t.me.asks.get? 1 = some (.qwait me num s.nextId)
          ∧ t.me.wake = .qwait me num ∧ t.agenda = s.agenda ++ [.qwaitServe s.myCore s.mySlot])
      ∧ (7 < num ∨ (∀ e, s.queueInfo me num = some e → e.en = false ∨ e.cons = false) →
        exec (.qwait d x) s = .next (s.fail .bounds)) := by
  intro me num hr ha hacq
  have h := qwait_asks hgo hr ha hacq (me := me) (num := num) rfl rfl
  refine ⟨fun e hnum he hen hcons => ?_, fun hbad => ?_⟩
  · rw [if_neg (by omega), he, if_neg (by simp [hen, hcons])] at h
    have hsent : (s.fresh.2.sendAsk 1 (.qwait me num s.nextId) (.qwaitServe s.myCore s.mySlot)).me
        = s.me.asking 1 (.qwait me num s.nextId) := s.fresh.2.withMe_me _
    have hme : ((s.fresh.2.sendAsk 1 (.qwait me num s.nextId) (.qwaitServe s.myCore s.mySlot)).modMe fun w =>
        { w with wake := .qwait me num }).park.me = s.me.atQueue me num s.nextId := by
      rw [State.me_park, State.me_modMe, hsent]
      rfl
    refine ⟨_, h, rfl, ?_, ?_, ?_, rfl⟩
    · rw [State.sameRegs, hme]
      exact ⟨rfl, rfl, rfl, rfl⟩
    · rw [hme]
      exact Tab.get?_put_same _ _ _
    · rw [hme]
      rfl
  · rcases hbad with hlt | hno
    · rw [h, if_pos hlt]
    · have hok : (match s.queueInfo me num with | some d => d.en && d.cons | none => false) = false := by
        cases he : s.queueInfo me num with
        | none => rfl
        | some e => rcases hno e he with hen | hcons <;> simp_all
      rw [h, hok]
      split <;> rfl

/-! QWAIT_SERVE (R327). -/

section
variable {s z : State} {core slot region k m j : Nat} {r : Region}
  (hask : (s.warp (warpKey core slot)).asks.get? 1 = some (.qwait region k m)) (hfirst : s.firstWaiter region k = some j)
  (hat : s.queueAt region k = some r) (hen : (r.queue k).en = true) (hcons : (r.queue k).cons = true) (hactive : r.active = true)

/-- The warp that is served finds the record's address (R327). -/
theorem warp_serveWaiter : ((z.serveWaiter r k j).warp j).replies.get? 1 = some (.value ((r.queue k).slot (r.queue k).cidx)) := by
  rw [State.serveWaiter]
  split
  · rw [State.warp_push, State.warp_modWarp]
    exact Tab.get?_put_same _ _ _
  · rw [State.warp_modWarp]
    exact Tab.get?_put_same _ _ _

include hask hfirst hat hen hcons hactive

theorem exec_qwaitServe : exec (.qwaitServe core slot) s = .next (match s.pidxRead r k with
    | (z, .held) => (z.push [.qwaitServe core slot]).done
    | (z, .fail ..) => z.done
    | (z, .bytes bs) => if leNat bs = (r.queue k).cidx then z.done else (z.serveWaiter r k j).done) := by
  show execQwaitServe core slot s = _
  simp only [execQwaitServe, hask, hat, hfirst, hen, hcons, hactive, Bool.not_true, Bool.or_self, Bool.false_eq_true, if_false]
    <;> rfl

/-- The engine serves the warp that has waited longest, once the queue holds a record (R327). -/
theorem qwait_served :
    (∀ z bs, s.pidxRead r k = (z, .bytes bs) →
      (leNat bs ≠ (r.queue k).cidx → ∃ t, exec (.qwaitServe core slot) s = .next t ∧ t.out = .done
        ∧ (t.warp j).replies.get? 1 = some (.value ((r.queue k).ring + (r.queue k).cidx % 2 ^ (r.queue k).log2 * 64)))
      ∧ (leNat bs = (r.queue k).cidx → exec (.qwaitServe core slot) s = .next { z with out := .done }))
    ∧ ∀ z, s.pidxRead r k = (z, .held) →
      exec (.qwaitServe core slot) s = .next { z with agenda := z.agenda ++ [.qwaitServe core slot], out := .done } := by
  have h := exec_qwaitServe hask hfirst hat hen hcons hactive
  refine ⟨fun z bs hz => ?_, fun z hz => ?_⟩
  · rw [hz] at h
    refine ⟨fun hne => ⟨_, h.trans (congrArg _ (if_neg hne)), rfl, warp_serveWaiter⟩, fun he => h.trans (congrArg _ (if_pos he))⟩
  · rw [h, hz]
    rfl

end

/-! CRPUSH and JDEC at issue (R327). -/

section
variable {s : State} {o q st p n : BitVec 6}

theorem crpush_answered {v : Nat} (hgo : s.gate (.crpush o q st) = .go) (hv : s.me.replies.get? 2 = some (.value v)) :
    exec (.crpush o q st) s = .next ((s.setS st.toNat (BitVec.ofNat 32 v)).clearAsk 2).done := by
  refine congrArg Host.Outcome.next ((s.issue_go hgo _).trans ?_)
  simp only [hv]

theorem crpush_asks {off sel : Nat} (hoff : (s.before.sreg o.toNat).toNat = off) (hsel : (s.before.sreg q.toNat).toNat = sel)
    (hgo : s.gate (.crpush o q st) = .go) (hr : s.me.replies.get? 2 = none)
    (ha : s.me.asks.get? 2 = none) (hacq : s.acqHolds = false) (htrap : s.isTrap = false) (hal : off % 64 = 0)
    (hpad : s.padReadCheck off 64 = none) (hlt : sel < 2 ^ 15) (hrel : s.relReady 4 = true) :
    exec (.crpush o q st) s = .next (s.sendAsk 2
      (.crpush off (sel % 4096) (sel / 4096 % 8) ((s.core s.myCore).pad.readN off 64)) (.crpushAtEngine s.myCore s.mySlot)).wait := by
  subst hoff hsel
  refine congrArg Host.Outcome.next ((s.issue_go hgo _).trans ?_)
  have hbits : bits (s.before.sreg q.toNat).toNat 0 12 = (s.before.sreg q.toNat).toNat % 4096 := by
    simp [bits]
  simp only [hr, ha, hacq, htrap, hal, hpad, hrel, not_le.mpr hlt, hbits, Bool.false_eq_true, if_false, ne_eq,
    not_true_eq_false, Bool.not_true]
  rfl

theorem jdec_answered {v : Nat} (hgo : s.gate (.jdec p n st) = .go) (hv : s.me.replies.get? 3 = some (.value v)) :
    exec (.jdec p n st) s = .next ((s.setS st.toNat (BitVec.ofNat 32 v)).clearAsk 3).done := by
  refine congrArg Host.Outcome.next ((s.issue_go hgo _).trans ?_)
  simp only [hv]

theorem jdec_asks {a : Nat} (hat : s.before.spair p.toNat = a) (hgo : s.gate (.jdec p n st) = .go)
    (hr : s.me.replies.get? 3 = none) (ha : s.me.asks.get? 3 = none) (hacq : s.acqHolds = false) (hal : a % 32 = 0)
    (hlt : a < 2 ^ 56) (hrel : s.relReady 4 = true) :
    exec (.jdec p n st) s = .next (s.sendAsk 3 (.jdec a (s.before.sreg n.toNat).toNat) (.jdecAtHome s.myCore s.mySlot)).wait := by
  subst hat
  refine congrArg Host.Outcome.next ((s.issue_go hgo _).trans ?_)
  have hva : ¬ vaTop ≤ s.before.spair p.toNat := not_le.mpr hlt
  simp only [hr, ha, hacq, hal, hva, hrel, Bool.false_eq_true, if_false, ne_eq, not_true_eq_false, Bool.not_true]

end

/-! CRPUSH_AT_ENGINE (R327). -/

/-- What an engine's answer to a CRPUSH leaves. -/
theorem told_of {s z : State} {core slot v : Nat} {i : Instr} (h : exec i s = .next (z.crpushAnswer (warpKey core slot) v).done) :
    ∃ t, exec i s = .next t ∧ t.out = .done ∧ (t.warp (warpKey core slot)).replies.get? 2 = some (.value v) := by
  refine ⟨_, h, rfl, ?_⟩
  rw [State.warp_done, State.crpushAnswer, State.warp_modWarp]
  exact Tab.get?_put_same _ _ _

section
variable {s : State} {core slot off region k : Nat} {bs : List Byte}
  (hask : (s.warp (warpKey core slot)).asks.get? 2 = some (.crpush off region k bs))
  (hnone : (s.warp (warpKey core slot)).replies.get? 2 = none)
include hask hnone

/-- A region that is not the block's or a descendant, or one whose PROD is EXTERNAL (R327). -/
theorem crpush_foreign (h : s.descends 4 region (s.block (s.warp (warpKey core slot)).blk).region = false
    ∨ ((s.queueInfo region k).map (·.prod)).getD false = false) :
    exec (.crpushAtEngine core slot) s = .next (s.crpushAnswer (warpKey core slot) 3).done := by
  show execCrpushAtEngine core slot s = _
  rcases h with h | h <;>
    simp only [execCrpushAtEngine, hask, hnone, h, Bool.not_false, Bool.or_true, Bool.true_or, if_true]

section
variable (hmine : s.descends 4 region (s.block (s.warp (warpKey core slot)).blk).region = true)
  (hprod : ((s.queueInfo region k).map (·.prod)).getD false = true)
include hmine hprod

/-- A region or a queue that is not active (R327). -/
theorem crpush_inactive (h : ∀ r, s.queueAt region k = some r → r.active = false ∨ (r.queue k).en = false) :
    exec (.crpushAtEngine core slot) s = .next (s.crpushAnswer (warpKey core slot) 2).done := by
  show execCrpushAtEngine core slot s = _
  simp only [execCrpushAtEngine, hask, hnone, hmine, hprod, Bool.not_true, Bool.or_self, Bool.false_eq_true, if_false]
  cases hat : s.queueAt region k with
  | none => rfl
  | some r => rcases h r hat with h | h <;> simp only [h, Bool.not_false, Bool.or_true, Bool.true_or, if_true]

/-- A push that reaches an active queue: behind others it waits while the ring has room, else its record goes in (R327). -/
theorem crpush_reaches {r : Region} (hat : s.queueAt region k = some r) (hactive : r.active = true)
    (hen : (r.queue k).en = true) :
    exec (.crpushAtEngine core slot) s = .next
      (if s.pushBehind region k (((s.pushes.find? fun e => e.2.warp == some (warpKey core slot)).map (·.2.at')).getD s.nextId) then
        match s.crpushFull r k with
        | (z, true) => (z.crpushAnswer (warpKey core slot) 1).done
        | (z, false) => (z.crpushWaits (warpKey core slot) region k).done
      else match s.pushRecord r k bs ⟨(s.core core).lclk, (s.core core).leasemax⟩ with
        | (z, .full) => (z.crpushAnswer (warpKey core slot) 1).done
        | (z, .held) => (z.crpushWaits (warpKey core slot) region k).done
        | (z, .failed) => (z.crpushAnswer (warpKey core slot) 4).done
        | (z, .done) => (z.crpushAnswer (warpKey core slot) 0).done) := by
  show execCrpushAtEngine core slot s = _
  simp only [execCrpushAtEngine, hask, hnone, hmine, hprod, hat, hactive, hen, Bool.not_true, Bool.or_self, Bool.false_eq_true,
    if_false] <;> rfl

end

end

/-! JDEC_AT_HOME (R23, R327). -/

section
variable {s : State} {core slot va m : Nat}

/-- The context a JDEC of a warp acts in (R327, R332). -/
theorem joinAgent_warpKey (h : slot ≤ 64) : s.joinAgent (warpKey core slot) = if slot = 64 then
    { core := some core, die := dieOf core, region := (s.core core).region, root := (s.core core).xroot
      part := (s.core core).part, ns := (s.core core).world }
    else s.blockAgent (s.warp (warpKey core slot)).blk := by
  rw [State.joinAgent, keyCore_warpKey (by omega), keySlot_warpKey (by omega)]

/-- A JDEC's answer at its object's home (R327). -/
def State.jdecAnswer (s : State) (k : Nat) (r : Reply) : State := s.modWarp k fun w => { w with replies := w.replies.put 3 r }

section
variable {k : Nat} (hask : (s.warp k).asks.get? 3 = some (.jdec va m)) (hnone : (s.warp k).replies.get? 3 = none)
include hask hnone

theorem jdecNow_of_bytes {ag : Agent} {z : State} {b : List Byte} (hag : s.joinAgent k = ag)
    (h : s.joinDec ag va m ⟨(s.core (keyCore k)).lclk, (s.core (keyCore k)).leasemax⟩ = (z, .bytes b)) :
    s.jdecNow k = (z.jdecAnswer k (.value (leNat b)), .done) := by
  subst hag
  simp only [State.jdecNow, hask, hnone, h]
  rfl

end

theorem putNow_of_none {k : Nat} (h : (s.warp k).asks.get? 0 = none) : s.putNow k = (s, .done) := by
  simp only [State.putNow, h]

/-- A JDEC with no PUT in its chain acts alone. -/
theorem sendAll_alone {t : State} {k : Nat} (h : s.jdecNow k = (t, .done)) (hput : (t.warp k).asks.get? 0 = none) :
    s.sendAll k = (t, .done) := by
  simp only [State.sendAll, h, putNow_of_none hput]

/-- Where the PUT of its chain fails, a JDEC leaves and the answer of the PUT alone stands (R23). -/
theorem sendAll_put_failed {t u : State} {k : Nat} (h : s.jdecNow k = (t, .done)) (hput : t.putNow k = (u, .failed)) :
    s.sendAll k = ((s.putNow k).1.modWarp k fun w => { w with asks := w.asks.del 3 }, .failed) := by
  simp only [State.sendAll, h, hput]

theorem exec_jdecAtHome {t : State} {r : Sent} (hask : (s.warp (warpKey core slot)).asks.get? 3 = some (.jdec va m))
    (hnone : (s.warp (warpKey core slot)).replies.get? 3 = none) (h : s.sendAll (warpKey core slot) = (t, r))
    (hr : r ≠ .waits) : exec (.jdecAtHome core slot) s = .next t.done := by
  show execJdecAtHome core slot s = _
  cases r with
  | waits => exact absurd rfl hr
  | done => simp only [execJdecAtHome, hask, hnone, h]
  | failed => simp only [execJdecAtHome, hask, hnone, h]

end

/-! The join object at its home (R327). -/

/-- The successor that the last JDEC of an object sends, by the object's bytes (R327). -/
def joinPush (b : List Byte) (va : Nat) (t : Tag) : Push :=
  { region := bits (fieldAt b 4 4) 0 12, queue := bits (fieldAt b 4 4) 12 3, succ := fieldAt b 8 8, from' := va, tag := t }

theorem joinPush_spec (b : List Byte) (va : Nat) (t : Tag) :
    (joinPush b va t).region = fieldAt b 4 4 % 4096 ∧ (joinPush b va t).queue = fieldAt b 4 4 / 4096 % 8
      ∧ (joinPush b va t).succ = fieldAt b 8 8 ∧ (joinPush b va t).from' = va :=
  ⟨by simp [joinPush, bits], rfl, rfl, rfl⟩

/-- A push that enters an engine's list. -/
def State.sends (s : State) (p : Push) : State :=
  ({ s.fresh.2 with pushes := s.pushes.put s.nextId p } : State).push [.successorPush s.nextId]

section
variable {s z z' : State} {ag : Agent} {va m off : Nat} {l : Leaf} {b : List Byte} {tag : Tag}
  (htr : s.translate ag va .rw = (z, .leaf l)) (hread : z.readVa ag va 32 .r = (z', .bytes b))
include htr hread

/-- What a read and a translation cannot reach, over both. -/
theorem beyond_joinRead : z'.beyond = s.beyond := by
  have h₁ := s.beyond_translate ag va .rw
  have h₂ := z.beyond_readVa ag va 32 .r
  rw [htr] at h₁
  rw [hread] at h₂
  exact h₂.trans h₁

variable (hplace : placeOf (l.phys va) = .memory off)
include hplace

theorem joinDec_short (h : fieldAt b 0 4 < m) : s.joinDec ag va m tag = (z', .bytes (leBytes 4 0xFFFFFFFF)) := by
  simp only [State.joinDec, htr, hplace, hread, h, if_true]

/-- A count that goes down (R327): the object is written, the release merges with its line's tag, and the last one
sends the successor. -/
theorem joinDec_down {u : State} {c : List Byte} {y : Nat} (h : m ≤ fieldAt b 0 4)
    (hw : z'.writeVa ag va (leBytes 4 (fieldAt b 0 4 - m)) = (u, .bytes c, y)) :
    ∃ v : State, v.beyond = u.beyond ∧ s.joinDec ag va m tag =
      if fieldAt b 0 4 - m = 0 && 0 < m && fieldAt b 8 8 ≠ 0 then
        (v.sends (joinPush b va (v.homeTag (l.phys va / 128) ag.part)), .bytes (leBytes 4 0))
      else (v, .bytes (leBytes 4 (fieldAt b 0 4 - m))) := by
  refine ⟨_, State.beyond_setHomeTag u (l.phys va / 128) ag.part ((u.homeTag (l.phys va / 128) ag.part).max tag), ?_⟩
  simp only [State.joinDec, htr, hplace, hread, not_lt.mpr h, if_false, hw]
  rfl

end

end Sys2Proof.Machine
end

section
/-!
PROOFS. QWAIT, CRPUSH and JDEC.
-/

namespace Sys2Proof.Machine

/-! JDEC at its object's home: the obligation's parts. -/

theorem putFile_congr {s t : State} (hb : t.blocks = s.blocks) (hc : t.clusters = s.clusters) (hg : t.grids = s.grids) (b d : Nat) :
    t.putFile b d = s.putFile b d := by
  simp only [State.putFile, State.block, State.cluster, State.grid, hb, hc, hg]

/-- A PUT whose slot holds one of another mode (R235). -/
theorem putNow_scopemix {s : State} {k j mode sp : Nat} {v : Word} {num : Int} {nz : Bool} {o : Slot}
    (hask : (s.warp k).asks.get? 0 = some (.put j mode v num sp nz)) (hnone : (s.warp k).replies.get? 0 = none)
    (hslot : (s.putFile (s.warp k).blk j).slots.get? j = some o) (hmode : o.mode ≠ mode) :
    s.putNow k = ((s.modFile (s.warp k).blk j fun f => { f with slots := f.slots.put j o }).modWarp k fun w =>
      { w with asks := w.asks.del 0, replies := w.replies.put 0 (.cause .scopemix) }, .failed) := by
  have hfold : slotFold ((s.putFile (s.warp k).blk j).slots.get? j) ⟨mode, v, num, sp, nz⟩ = (o, .cause .scopemix) := by
    rw [hslot]
    exact if_pos hmode
  simp only [State.putNow, hask, hnone, hfold]
  rfl

theorem warp_modFile (s : State) (b d k : Nat) (f : ScopeFile → ScopeFile) : (s.modFile b d f).warp k = s.warp k := by
  unfold State.modFile
  split
  · rfl
  · split <;> rfl

theorem sameBytes_modFile (s : State) (b d : Nat) (f : ScopeFile → ScopeFile) : s.sameBytes (s.modFile b d f) := by
  unfold State.modFile
  split
  · exact State.sameBytes_of rfl rfl
  · split <;> exact State.sameBytes_of rfl rfl

theorem warp_jdecAnswer (s : State) (k : Nat) (r : Reply) :
    (s.jdecAnswer k r).warp k = { s.warp k with replies := (s.warp k).replies.put 3 r } := s.warp_modWarp k _

section
variable {s : State} {core slot va m : Nat} {ag : Agent}
  (hask : (s.warp (warpKey core slot)).asks.get? 3 = some (.jdec va m))
  (hnone : (s.warp (warpKey core slot)).replies.get? 3 = none) (hag : s.joinAgent (warpKey core slot) = ag)
include hask hnone hag

/-- A JDEC alone in its chain: its answer is what its object's home said (R327). -/
theorem jdec_alone {u : State} {b : List Byte} (halone : (s.warp (warpKey core slot)).asks.get? 0 = none)
    (h : s.joinDec ag va m ⟨(s.core (keyCore (warpKey core slot))).lclk, (s.core (keyCore (warpKey core slot))).leasemax⟩ = (u, .bytes b))
    (hu : u.warps = s.warps) :
    exec (.jdecAtHome core slot) s = .next (u.jdecAnswer (warpKey core slot) (.value (leNat b))).done
      ∧ ((u.jdecAnswer (warpKey core slot) (.value (leNat b))).done.warp (warpKey core slot)).replies.get? 3
        = some (.value (leNat b)) := by
  have hput : ((u.jdecAnswer (warpKey core slot) (.value (leNat b))).warp (warpKey core slot)).asks.get? 0 = none := by
    rw [warp_jdecAnswer, State.warp, hu]
    exact halone
  refine ⟨exec_jdecAtHome hask hnone (sendAll_alone (jdecNow_of_bytes hask hnone hag h) hput) (by decide), ?_⟩
  rw [State.warp_done, warp_jdecAnswer]
  exact Tab.get?_put_same _ _ _

section
variable {z z' : State} {off : Nat} {l : Leaf} {b : List Byte} (htr : s.translate ag va .rw = (z, .leaf l))
  (hplace : placeOf (l.phys va) = .memory off) (hread : z.readVa ag va 32 .r = (z', .bytes b))
include htr hplace hread

theorem jdec_short (h : fieldAt b 0 4 < m) (halone : (s.warp (warpKey core slot)).asks.get? 0 = none) :
    ∃ t, exec (.jdecAtHome core slot) s = .next t ∧ t.out = .done
      ∧ (t.warp (warpKey core slot)).replies.get? 3 = some (.value 0xFFFFFFFF) := by
  obtain ⟨hexec, hreply⟩ := jdec_alone hask hnone hag halone (joinDec_short htr hread hplace h)
    (congrArg Beyond.warps (beyond_joinRead htr hread))
  rw [leNat_leBytes 4 0xFFFFFFFF (by decide)] at hexec hreply
  exact ⟨_, hexec, rfl, hreply⟩

/-- A PUT of the JDEC's chain that fails: its answer alone stands (R23). -/
theorem jdec_put_fails (h : fieldAt b 0 4 < m) {j mode sp : Nat} {v : Word} {num : Int} {nz : Bool} {o : Slot}
    (hput : (s.warp (warpKey core slot)).asks.get? 0 = some (.put j mode v num sp nz))
    (hputNone : (s.warp (warpKey core slot)).replies.get? 0 = none)
    (hslot : (s.putFile (s.warp (warpKey core slot)).blk j).slots.get? j = some o) (hmode : o.mode ≠ mode) :
    ∃ t, exec (.jdecAtHome core slot) s = .next t ∧ t.out = .done ∧ s.sameBytes t
      ∧ (t.warp (warpKey core slot)).replies.get? 0 = some (.cause .scopemix)
      ∧ (t.warp (warpKey core slot)).replies.get? 3 = none ∧ (t.warp (warpKey core slot)).asks.get? 3 = none := by
  set k := warpKey core slot
  have hz := beyond_joinRead htr hread
  have hnow := jdecNow_of_bytes hask hnone hag (joinDec_short htr hread hplace h)
  set t := z'.jdecAnswer k (.value (leNat (leBytes 4 0xFFFFFFFF)))
  have hw : t.warp k = { s.warp k with replies := (s.warp k).replies.put 3 (.value (leNat (leBytes 4 0xFFFFFFFF))) } := by
    rw [warp_jdecAnswer, show z'.warp k = s.warp k from congrArg (fun w : Tab Warp => w.get k {}) (congrArg Beyond.warps hz)]
  have hfile : ∀ b d, t.putFile b d = s.putFile b d :=
    putFile_congr (congrArg Beyond.blocks hz) (congrArg Beyond.clusters hz) (congrArg Beyond.grids hz)
  have htput := putNow_scopemix (s := t) (k := k) (o := o) (by rw [hw]; exact hput)
    (by rw [hw]; exact (Tab.get?_put_other _ (by decide) _).trans hputNone)
    (by rw [hw, hfile]; exact hslot) hmode
  refine ⟨_, exec_jdecAtHome hask hnone (sendAll_put_failed hnow htput) (by decide), rfl, ?_, ?_⟩
  · rw [putNow_scopemix hput hputNone hslot hmode]
    exact State.sameBytes_trans (sameBytes_modFile _ _ _ _) (State.sameBytes_of rfl rfl)
  · rw [putNow_scopemix hput hputNone hslot hmode, State.warp_done, State.warp_modWarp, State.warp_modWarp, warp_modFile]
    exact ⟨Tab.get?_put_same _ _ _, (Tab.get?_put_other _ (by decide) _).trans hnone, Tab.get?_del_same _ _⟩

theorem jdec_down (h : m ≤ fieldAt b 0 4) (halone : (s.warp (warpKey core slot)).asks.get? 0 = none) {u : State} {c : List Byte}
    {y : Nat} (hwrite : z'.writeVa ag va (leBytes 4 (fieldAt b 0 4 - m)) = (u, .bytes c, y)) :
    ∃ t, exec (.jdecAtHome core slot) s = .next t ∧ t.out = .done
      ∧ (t.warp (warpKey core slot)).replies.get? 3 = some (.value (fieldAt b 0 4 - m))
      ∧ (fieldAt b 0 4 = m → 0 < m → fieldAt b 8 8 ≠ 0 → ∃ id u, .successorPush id ∈ t.agenda ∧ t.pushes.get? id = some u
        ∧ u.region = fieldAt b 4 4 % 4096 ∧ u.queue = fieldAt b 4 4 / 4096 % 8 ∧ u.succ = fieldAt b 8 8 ∧ u.from' = va) := by
  obtain ⟨v, hv, hjoin⟩ := joinDec_down (tag := ⟨(s.core (keyCore (warpKey core slot))).lclk,
    (s.core (keyCore (warpKey core slot))).leasemax⟩) htr hread hplace h hwrite
  have hvw : v.warps = s.warps := by
    have hz := beyond_joinRead htr hread
    have hu := z'.beyond_writeVa ag va (leBytes 4 (fieldAt b 0 4 - m))
    rw [hwrite] at hu
    exact congrArg Beyond.warps (hv.trans (hu.trans hz))
  have hlt : fieldAt b 0 4 < 256 ^ 4 := by
    have hlen : (slice b 0 4).length ≤ 4 := by simp [slice]
    exact (leNat_lt _).trans_le (Nat.pow_le_pow_right (by decide) hlen)
  by_cases hlast : (fieldAt b 0 4 - m = 0 && 0 < m && fieldAt b 8 8 ≠ 0) = true
  · rw [if_pos hlast] at hjoin
    obtain ⟨hexec, hreply⟩ := jdec_alone hask hnone hag halone hjoin hvw
    have hzero : fieldAt b 0 4 - m = 0 := by
      simp only [Bool.and_eq_true, decide_eq_true_eq] at hlast
      exact hlast.1.1
    rw [hzero]
    refine ⟨_, hexec, rfl, hreply, fun _ _ _ => ⟨v.nextId, _, ?_, Tab.get?_put_same _ _ _, joinPush_spec b va _⟩⟩
    exact List.mem_append_right _ (.head _)
  · rw [if_neg hlast] at hjoin
    obtain ⟨hexec, hreply⟩ := jdec_alone hask hnone hag halone hjoin hvw
    rw [leNat_leBytes 4 _ (by omega)] at hexec hreply
    refine ⟨_, hexec, rfl, hreply, fun h₀ hm hs => absurd ?_ hlast⟩
    simp only [Bool.and_eq_true, decide_eq_true_eq]
    exact ⟨⟨by omega, hm⟩, hs⟩

end

end

/-- Settles O42: what each word does at issue, and what its engine or home does with its request. -/
theorem queueWords : Obligations.QueueWords := by
  refine fun s d o q st p n x => ⟨fun hgo => ⟨fun v hv => ?_, qwait_word hgo⟩,
    fun core slot region k r m j hask hfirst hat hen hcons hactive => qwait_served hask hfirst hat hen hcons hactive,
    fun hgo => ⟨fun v hv => State.answered_setS st.isLt (crpush_answered hgo hv),
      fun hr ha hacq htrap hal hpad hlt hrel => State.asked_waits (crpush_asks rfl rfl hgo hr ha hacq htrap hal hpad hlt hrel)⟩,
    fun core slot off region k bs => ?_,
    fun hgo => ⟨fun v hv => State.answered_setS st.isLt (jdec_answered hgo hv),
      fun hr ha hacq hal hlt hrel => State.asked_waits (jdec_asks rfl hgo hr ha hacq hal hlt hrel)⟩,
    fun core slot va m hslot hask hnone => ?_⟩
  · exact State.answered_setSpair (qwait_even hgo) (qwait_answered hgo hv)
  · intro key hask hnone mine prod told waits
    refine ⟨fun h => told_of (crpush_foreign hask hnone h), fun hmine hprod =>
      ⟨fun h => told_of (crpush_inactive hask hnone hmine hprod h), fun r hat hactive hen => ?_⟩⟩
    have hexec := crpush_reaches hask hnone hmine hprod hat hactive hen
    refine ⟨fun hbehind z full hz => ?_, fun hbehind z p hz => ?_⟩
    · rw [if_pos hbehind, hz] at hexec
      cases full with
      | true => exact told_of hexec
      | false => exact hexec
    · rw [if_neg (by rw [hbehind]; decide), hz] at hexec
      cases p with
      | full => exact told_of hexec
      | held => exact hexec
      | failed => exact told_of hexec
      | done => exact told_of hexec
  · intro c ag z l off z' b htr hplace hread
    have hag : s.joinAgent (warpKey core slot) = ag := joinAgent_warpKey hslot
    exact ⟨fun h halone => jdec_short hask hnone hag htr hplace hread h halone,
      fun h j mode v num sp nz o hput hputNone hslot hmode _ _ _ _ =>
        jdec_put_fails hask hnone hag htr hplace hread h hput hputNone hslot hmode,
      fun h halone z'' c y hwrite => jdec_down hask hnone hag htr hplace hread h halone hwrite⟩

end Sys2Proof.Machine
end

section
/-!
PROOFS. XCHG (R23, R245, R246).
-/

namespace Sys2Proof.Machine

/-! Requests of XCHG (R245). -/

/-- A key beyond a table's own goes last. -/
theorem Tab.put_last {α : Type} (t : Tab α) {k : Nat} (h : ∀ e ∈ t, e.1 < k) (a : α) : t.put k a = t ++ [(k, a)] := by
  induction t with
  | nil => rfl
  | cons e t ih =>
    have he : e.1 < k := h e (.head _)
    rw [Tab.put, if_neg (by omega), if_neg (by omega), ih fun e' h' => h e' (.tail _ h')]
    rfl

/-- A warp that offers its words (R245). -/
def Warp.offering (w : Warp) : Warp := { w with asks := w.asks.put 4 .xchg, wake := .xchg }

namespace State
variable (s : State)

/-- The request of an XCHG (R245, R246). -/
def offer (a : Src) (p : Nat) : Xreq :=
  { core := s.myCore, slot := s.mySlot, widx := s.me.widx, grid := s.myBlock.grid
    peerCore := bits p 0 10, peerWarp := bits p 10 6, tag := bits p 16 8
    mask := s.execMask, vals := lanesOf fun l => s.readLane a l, since := s.nowCore s.myCore }

/-- The message that pairs a request with its mate, if it has one. -/
def mateMsg (mate : Option (Nat × Xreq)) (id : Nat) : List Instr :=
  match mate with
  | some e => [.xchgMatch e.1 id]
  | none => []

theorem findMate_eq {id : Nat} {x : Xreq} (h : s.xreqs.get? id = some x) :
    s.findMate id = s.push (mateMsg (s.xreqs.find? fun e => e.1 != id && Xreq.matches e.2 x && !s.claimed e.1) id) := by
  simp only [findMate, h]
  cases s.xreqs.find? fun e => e.1 != id && Xreq.matches e.2 x && !s.claimed e.1 with
  | some e => rfl
  | none =>
    show s = { s with agenda := s.agenda ++ [] }
    rw [List.append_nil]

theorem findMate_frame (id : Nat) : ∃ is, s.findMate id = s.push is := by
  cases h : s.xreqs.get? id with
  | some x => exact ⟨_, s.findMate_eq h⟩
  | none =>
    refine ⟨[], ?_⟩
    simp only [findMate, h]
    show s = { s with agenda := s.agenda ++ [] }
    rw [List.append_nil]

end State

section
variable {s : State} {d : BitVec 7} {a b : Src}

/-- An XCHG that may offer its words enters a request (R245, R246). -/
theorem xchg_offers {p : Nat} (hp : (s.readScalar b).toNat = p) (hgo : s.gate (.xchg d a b) = .go)
    (hr : s.me.replies.get? 4 = none) (ha : s.me.asks.get? 4 = none) (htrap : s.isTrap = false) (hlt : p < 2 ^ 24)
    (hcore : bits p 0 10 ≤ 767) (hwarp : bits p 10 6 ≤ 31) (hself : bits p 0 10 ≠ s.myCore ∨ bits p 10 6 ≠ s.me.widx) :
    exec (.xchg d a b) s = .next ((({ s.fresh.2 with xreqs := s.xreqs.put s.nextId (s.offer a p) } : State).withMe
      s.me.offering).findMate s.nextId).wait := by
  subst hp
  have hhigh : bits (s.readScalar b).toNat 24 8 = 0 := by
    rw [bits, Nat.div_eq_of_lt hlt, Nat.zero_mod]
  have hselfb : (decide (bits (s.readScalar b).toNat 0 10 = s.myCore) && decide (bits (s.readScalar b).toNat 10 6 = s.me.widx)) = false := by
    rcases hself with h | h <;> simp [h]
  refine congrArg Host.Outcome.next ((s.issue_go hgo _).trans ?_)
  simp only [hr, ha, htrap, hhigh, not_lt.mpr hcore, not_lt.mpr hwarp, hselfb, ne_eq, not_true_eq_false, decide_false,
    Bool.or_self, Bool.false_eq_true, if_false]
  rfl

theorem xchg_swaps {m : LaneMask} {v : Lanes} (hgo : s.gate (.xchg d a b) = .go) (hr : s.me.replies.get? 4 = some (.swap m v)) :
    exec (.xchg d a b) s = .next (s.become ((s.me.setV d.toNat m v).answered 4) .done) := by
  refine congrArg Host.Outcome.next ((s.issue_go hgo _).trans ?_)
  simp only [hr]
  rw [State.setV, State.modMe_eq, State.modMe_eq, State.withMe_me, State.withMe_withMe, State.done_withMe]
  rfl

theorem xchg_fails {c : Cause} (hgo : s.gate (.xchg d a b) = .go) (hr : s.me.replies.get? 4 = some (.cause c)) :
    exec (.xchg d a b) s = .next (s.raise { cause := c }) := by
  refine congrArg Host.Outcome.next ((s.issue_go hgo _).trans ?_)
  simp only [hr]
  rfl

end

/-! What an XCHG leaves (R246). -/

theorem Warp.offering_spec (w : Warp) : w.offering.s = w.s ∧ w.offering.v = w.v ∧ w.offering.q = w.q ∧ w.offering.cause = w.cause :=
  ⟨rfl, rfl, rfl, rfl⟩

theorem Warp.swapped_spec (w : Warp) (n : Nat) (m : LaneMask) (v : Lanes) :
    ((w.setV n m v).answered 4).s = w.s ∧ ((w.setV n m v).answered 4).replies.get? 4 = none
      ∧ (∀ r, r ≠ n → ((w.setV n m v).answered 4).vreg r = w.vreg r)
      ∧ ∀ l < 96, lane (((w.setV n m v).answered 4).vreg n) l = if m.getLsbD l then lane v l else lane (w.vreg n) l :=
  ⟨rfl, Tab.get?_del_same _ _, fun _ hr => w.vreg_setV_other hr m v, fun _ hl => w.lane_setV n m v hl⟩

section
variable {s : State}

/-- The state an offer leaves: the request is in, and the first to arrive of those that match it is its mate (R245). -/
theorem offer_spec {x : Xreq} :
    ∃ t, ((({ s.fresh.2 with xreqs := s.xreqs.put s.nextId x } : State).withMe s.me.offering).findMate s.nextId).wait = t
      ∧ t.out = .waiting ∧ s.sameRegs t ∧ s.sameBytes t ∧ t.xreqs.get? s.nextId = some x
      ∧ ((∀ e ∈ s.xreqs, e.1 < s.nextId) → t.agenda = s.agenda ++
        State.mateMsg (s.xreqs.find? fun e => e.2.matches x && !s.claimed e.1) s.nextId) := by
  set u := ({ s.fresh.2 with xreqs := s.xreqs.put s.nextId x } : State).withMe s.me.offering
  have hx : u.xreqs.get? s.nextId = some x := Tab.get?_put_same _ _ _
  have hme : ∀ is, (u.push is).wait.me = s.me.offering := fun _ => State.withMe_me _ _
  refine ⟨_, rfl, rfl, ?_, ?_, ?_, fun hkeys => ?_⟩
  · obtain ⟨is, h⟩ := u.findMate_frame s.nextId
    rw [h, State.sameRegs, hme]
    exact s.me.offering_spec
  · obtain ⟨is, h⟩ := u.findMate_frame s.nextId
    rw [h]
    exact State.sameBytes_of rfl rfl
  · obtain ⟨is, h⟩ := u.findMate_frame s.nextId
    rw [h]
    exact hx
  · rw [u.findMate_eq hx]
    have hfind : (u.xreqs.find? fun e => e.1 != s.nextId && Xreq.matches e.2 x && !u.claimed e.1)
        = s.xreqs.find? fun e => e.2.matches x && !s.claimed e.1 := by
      show ((s.xreqs.put s.nextId x).find? fun e => e.1 != s.nextId && Xreq.matches e.2 x && !s.claimed e.1) = _
      rw [Tab.put_last _ hkeys, List.find?_append, List.find?_singleton]
      have hne : ∀ e ∈ s.xreqs, (e.1 != s.nextId && Xreq.matches e.2 x && !s.claimed e.1) = (e.2.matches x && !s.claimed e.1) := by
        intro e he
        have : (e.1 != s.nextId) = true := bne_iff_ne.mpr (hkeys e he).ne
        rw [this, Bool.true_and]
      rw [List.find?_congr hne]
      simp
    rw [hfind]
    rfl

/-! XCHG_MATCH (R23, R245, R246). -/

/-- A warp with no other request in its chain. -/
theorem sendAll_quiet {k : Nat} (h₀ : (s.warp k).asks.get? 0 = none) (h₃ : (s.warp k).asks.get? 3 = none) :
    s.sendAll k = (s, .done) :=
  sendAll_alone (by simp only [State.jdecNow, h₃]) h₀

section
variable {x y : Nat} {q r : Xreq} (hq : s.xreqs.get? x = some q) (hr : s.xreqs.get? y = some r) (hmatch : q.matches r = true)
include hq hr hmatch

theorem xchgMatch_swaps (hquiet : s.sendAll (warpKey q.core q.slot) = (s, .done))
    (hquiet' : s.sendAll (warpKey r.core r.slot) = (s, .done)) :
    exec (.xchgMatch x y) s = .next ((({ s with xreqs := (s.xreqs.del x).del y } : State).modWarp (warpKey q.core q.slot) fun w =>
      { w with replies := w.replies.put 4 (.swap (q.mask &&& r.mask) r.vals) }).modWarp (warpKey r.core r.slot) fun w =>
        { w with replies := w.replies.put 4 (.swap (q.mask &&& r.mask) q.vals) }).done := by
  show execXchgMatch x y s = _
  simp only [execXchgMatch, hq, hr, hmatch, if_true, hquiet, hquiet']

theorem xchgMatch_fails {t : State} (hsend : s.sendAll (warpKey q.core q.slot) = (t, .failed)) :
    exec (.xchgMatch x y) s = .next ((t.dropXchg x (warpKey q.core q.slot)).findMate y).done := by
  show execXchgMatch x y s = _
  simp only [execXchgMatch, hq, hr, hmatch, if_true, hsend]

end

theorem xchgMatch_withdrawn {x y : Nat} {q : Xreq} (hq : s.xreqs.get? x = some q) (hy : s.xreqs.get? y = none) :
    exec (.xchgMatch x y) s = .next (s.findMate x).done := by
  show execXchgMatch x y s = _
  simp only [execXchgMatch, hq, hy]

/-- Two requests that left, and their warps' answers. -/
theorem swap_spec {x y ka kb : Nat} {a b : Reply} (hk : ka ≠ kb) :
    let t := ((({ s with xreqs := (s.xreqs.del x).del y } : State).modWarp ka fun w =>
      { w with replies := w.replies.put 4 a }).modWarp kb fun w => { w with replies := w.replies.put 4 b }).done
    t = { s with warps := t.warps, xreqs := t.xreqs, out := .done } ∧ (t.warp ka).replies.get? 4 = some a
      ∧ (t.warp kb).replies.get? 4 = some b ∧ (∀ k, k ≠ ka → k ≠ kb → t.warps.get? k = s.warps.get? k)
      ∧ t.xreqs.get? x = none ∧ t.xreqs.get? y = none := by
  refine ⟨rfl, ?_, ?_, fun k hka hkb => ?_, ?_, Tab.get?_del_same _ _⟩
  · rw [State.warp_done, State.warp_modWarp_other _ hk, State.warp_modWarp]
    exact Tab.get?_put_same _ _ _
  · rw [State.warp_done, State.warp_modWarp]
    exact Tab.get?_put_same _ _ _
  · exact (Tab.get?_put_other _ hkb _).trans (Tab.get?_put_other _ hka _)
  · show ((s.xreqs.del x).del y).get? x = none
    by_cases hxy : x = y
    · rw [hxy]
      exact Tab.get?_del_same _ _
    · rw [Tab.get?_del_other _ hxy]
      exact Tab.get?_del_same _ _

/-! A chain whose PUT fails (R23, R235). -/

theorem putFile_modFile (b d : Nat) (f : ScopeFile → ScopeFile) : (s.modFile b d f).putFile b d = f (s.putFile b d) := by
  unfold State.modFile State.putFile
  split
  · rw [State.block_modBlock]
  · split
    · exact congrArg Cluster.file (Tab.get_put_same _ _ _ _)
    · exact congrArg Grid.file (Tab.get_put_same _ _ _ _)

theorem putFile_modWarp (k b d : Nat) (f : Warp → Warp) : (s.modWarp k f).putFile b d = s.putFile b d := rfl

theorem xreqs_modFile (b d : Nat) (f : ScopeFile → ScopeFile) : (s.modFile b d f).xreqs = s.xreqs := by
  unfold State.modFile
  split
  · rfl
  · split <;> rfl

/-- A request of XCHG that leaves takes its warp's ask with it, and nothing else. -/
theorem dropXchg_spec (x k : Nat) :
    (s.dropXchg x k).xreqs = s.xreqs.del x ∧ ((s.dropXchg x k).warp k).replies = (s.warp k).replies
      ∧ (∀ j, j ≠ k → (s.dropXchg x k).warp j = s.warp j) ∧ ∀ b d, (s.dropXchg x k).putFile b d = s.putFile b d := by
  refine ⟨rfl, ?_, fun j hj => ?_, fun _ _ => rfl⟩
  · rw [State.dropXchg, State.warp_modWarp]
    rfl
  · rw [State.dropXchg, State.warp_modWarp_other _ hj]
    rfl

/-- The state in which a warp's PUT was answered that its slot refuses (R235). -/
def State.putRefused (s : State) (k b n : Nat) (o : Slot) : State :=
  ((s.modFile b n fun f => { f with slots := f.slots.put n o }).modWarp k fun w =>
    { w with asks := w.asks.del 0, replies := w.replies.put 0 (.cause .scopemix) }).modWarp k fun w =>
      { w with asks := w.asks.del 3 }

theorem putRefused_spec (k b n : Nat) (o : Slot) :
    (s.putRefused k b n o).xreqs = s.xreqs ∧ ((s.putRefused k b n o).warp k).replies.get? 0 = some (.cause .scopemix)
      ∧ (∀ j, j ≠ k → (s.putRefused k b n o).warp j = s.warp j) ∧ ((s.putRefused k b n o).putFile b n).slots.get? n = some o := by
  refine ⟨xreqs_modFile _ _ _, ?_, fun j hj => ?_, ?_⟩
  · rw [State.putRefused, State.warp_modWarp, State.warp_modWarp]
    exact Tab.get?_put_same _ _ _
  · rw [State.putRefused, State.warp_modWarp_other _ hj, State.warp_modWarp_other _ hj, warp_modFile]
  · rw [State.putRefused, putFile_modWarp, putFile_modWarp, putFile_modFile]
    exact Tab.get?_put_same _ _ _

end

/-! XCHG_TIMEOUT (R245). -/

section
variable {s : State} {x : Nat} {q : Xreq} (hq : s.xreqs.get? x = some q)
include hq

theorem xchgTimeout_raises (hdue : q.since + xchgLimit ≤ s.nowCore q.core) (hclaim : s.claimed x = false) :
    exec (.xchgTimeout x) s = .next (({ s with xreqs := s.xreqs.del x } : State).modWarp (warpKey q.core q.slot) fun w =>
      { w with replies := w.replies.put 4 (.cause .timeout) }).done := by
  show execXchgTimeout x s = _
  simp only [execXchgTimeout, hq, hclaim, not_lt.mpr hdue, decide_false, Bool.or_self, Bool.false_eq_true, if_false]

theorem xchgTimeout_claimed (hclaim : s.claimed x = true) : exec (.xchgTimeout x) s = .next s.done := by
  show execXchgTimeout x s = _
  simp only [execXchgTimeout, hq, hclaim, Bool.or_true, if_true]

end

/-- Where the PUT of a chain fails, its XCHG leaves, nothing is swapped, and the partner waits on (R23). -/
theorem xchg_put_fails {s : State} {x y n mode sp : Nat} {q r : Xreq} {v : Word} {num : Int} {nz : Bool} {o : Slot}
    (hq : s.xreqs.get? x = some q) (hr : s.xreqs.get? y = some r) (hmatch : q.matches r = true)
    (hk : warpKey q.core q.slot ≠ warpKey r.core r.slot) (h₃ : (s.warp (warpKey q.core q.slot)).asks.get? 3 = none)
    (hput : (s.warp (warpKey q.core q.slot)).asks.get? 0 = some (.put n mode v num sp nz))
    (hnone : (s.warp (warpKey q.core q.slot)).replies.get? 0 = none)
    (hslot : (s.putFile (s.warp (warpKey q.core q.slot)).blk n).slots.get? n = some o) (hmode : o.mode ≠ mode) :
    ∃ t, exec (.xchgMatch x y) s = .next t ∧ t.out = .done
      ∧ (t.warp (warpKey q.core q.slot)).replies.get? 0 = some (.cause .scopemix) ∧ t.xreqs.get? x = none
      ∧ t.xreqs.get? y = some r ∧ t.warp (warpKey r.core r.slot) = s.warp (warpKey r.core r.slot)
      ∧ (t.putFile (s.warp (warpKey q.core q.slot)).blk n).slots.get? n = some o := by
  have hxy : y ≠ x := by
    rintro rfl
    rw [hq] at hr
    exact hk (by rw [Option.some.inj hr])
  have hsend := sendAll_put_failed (s := s) (k := warpKey q.core q.slot) (t := s)
    (by simp only [State.jdecNow, h₃]) (putNow_scopemix hput hnone hslot hmode)
  rw [putNow_scopemix hput hnone hslot hmode] at hsend
  have hexec := xchgMatch_fails hq hr hmatch hsend
  generalize warpKey q.core q.slot = kq at *
  generalize (s.warp kq).blk = b at *
  obtain ⟨hxreqs, hreply, hother, hfile⟩ := putRefused_spec (s := s) kq b n o
  obtain ⟨hxreqs', hreply', hother', hfile'⟩ := dropXchg_spec (s := s.putRefused kq b n o) x kq
  obtain ⟨is, his⟩ := ((s.putRefused kq b n o).dropXchg x kq).findMate_frame y
  have hexec' : exec (.xchgMatch x y) s = .next (((s.putRefused kq b n o).dropXchg x kq).push is).done := hexec.trans (his ▸ rfl)
  generalize (s.putRefused kq b n o).dropXchg x kq = t at *
  refine ⟨_, hexec', rfl, ?_, ?_, ?_, ?_, ?_⟩
  · rw [State.warp_done, State.warp_push, hreply']
    exact hreply
  · show t.xreqs.get? x = none
    rw [hxreqs', hxreqs]
    exact Tab.get?_del_same _ _
  · show t.xreqs.get? y = some r
    rw [hxreqs', hxreqs, Tab.get?_del_other _ hxy]
    exact hr
  · rw [State.warp_done, State.warp_push, hother' _ hk.symm, hother _ hk.symm]
  · show (t.putFile b n).slots.get? n = some o
    rw [hfile']
    exact hfile

/-- Settles O19: the offer by `xchg_offers`, matches by `sendAll` of the two chains, and the time-out. -/
theorem exchange : Obligations.Exchange := by
  refine fun s d a b x y => ⟨fun hgo hr ha htrap hlt hcore hwarp hself => ?_, fun m v hgo hr => ?_, fun c hgo hr => xchg_fails hgo hr,
    fun q r hq hr hmatch hk hquiet hquiet' => ?_,
    fun q r n mode v num sp nz o hq hr hmatch hk h₃ hput hnone hslot hmode =>
      xchg_put_fails hq hr hmatch hk h₃ hput hnone hslot hmode,
    fun q hq hy => ?_, fun q hq hdue => ⟨fun hclaim => ?_, xchgTimeout_claimed hq⟩⟩
  · obtain ⟨t, ht, hout, hregs, hbytes, hreq, hmate⟩ := offer_spec (s := s) (x := s.offer a (s.readScalar b).toNat)
    refine ⟨t, s.offer a (s.readScalar b).toNat, ?_, hout, hregs, hbytes, hreq, rfl, rfl, rfl, rfl, rfl, rfl, rfl, rfl, rfl,
      fun l hl => lane_lanesOf _ hl, hmate⟩
    rw [xchg_offers rfl hgo hr ha htrap hlt hcore hwarp hself, ht]
  · refine ⟨_, xchg_swaps hgo hr, rfl, s.onlyMe_become _ _, ?_⟩
    rw [State.become_me]
    exact s.me.swapped_spec d.toNat m v
  · exact ⟨_, xchgMatch_swaps hq hr hmatch (sendAll_quiet hquiet.1 hquiet.2) (sendAll_quiet hquiet'.1 hquiet'.2), swap_spec hk⟩
  · rw [xchgMatch_withdrawn hq hy, s.findMate_eq hq]
    rfl
  · refine ⟨_, xchgTimeout_raises hq hdue hclaim, rfl, ?_, Tab.get?_del_same _ _⟩
    rw [State.warp_done, State.warp_modWarp]
    exact Tab.get?_put_same _ _ _

end Sys2Proof.Machine
end

section
/-!
PROOFS. The steps of the machine: what a scheduler's turn, an event and an input run.
-/

namespace Sys2Proof.Machine

/-! The elements of a packet (R25, R27, R44). -/

theorem opcode_of_decodeWord {w : Nat} {lit : Word} {i : Instr} (h : decodeWord w lit = some i) : fld w 24 7 = i.opcode := by
  obtain ⟨hw, -, -, hbits⟩ := decodeWord_eq_some_iff.mp h
  have hdiv := encodeBits_div (Instr.opcode_lt_iff.mpr hw)
  rw [← hbits] at hdiv
  rw [fld, ← hdiv]
  omega

/-- The element of a word that is no VPFX. -/
theorem elemAt_word {ws : List Word} {j : Nat} {e : Elem} (h : elemAt ws j = some e)
    (hp : fld (ws.getD j 0).toNat 24 7 ≠ 0x7E) :
    decodeWord (ws.getD j 0).toNat (ws.getD (j + 1) 0) = some e.i ∧ e.pfx = none
      ∧ e.c = decide (fld (ws.getD j 0).toNat 31 1 = 1) ∧ e.place = (j, false) := by
  unfold elemAt at h
  dsimp only at h
  rw [if_neg hp] at h
  cases hd : decodeWord (ws.getD j 0).toNat (ws.getD (j + 1) 0) with
  | none =>
    simp only [hd, Option.map_none] at h
    exact absurd h (by simp)
  | some i =>
    simp only [hd, Option.map_some] at h
    split at h
    · cases h
    · obtain rfl := Option.some.inj h
      exact ⟨rfl, rfl, rfl, rfl⟩

/-- The bit that joins an element to the next (R20). -/
theorem chain_getLsbD (w : Word) : decide (fld w.toNat 31 1 = 1) = w.getLsbD 31 := by
  rw [BitVec.getLsbD, Nat.testBit_eq_decide_div_mod_eq]
  rfl

/-- The first element of a packet from a slot on. -/
theorem elemsFrom_succ {ws : List Word} {n j : Nat} {es : List Elem} (h : elemsFrom ws (n + 1) j = some es) :
    es = [] ∨ ∃ e xs, es = e :: xs ∧ elemAt ws j = some e := by
  unfold elemsFrom at h
  split at h
  · exact .inl (Option.some.inj h).symm
  · cases he : elemAt ws j with
    | none => simp [he] at h
    | some e =>
      simp only [he, Option.map_eq_some_iff] at h
      obtain ⟨xs, -, rfl⟩ := h
      exact .inr ⟨e, xs, rfl, rfl⟩

namespace State
variable {s : State}

/-- An element that is no dictionary pair stands for itself (R29). -/
theorem expandAll_cons {x : Bool} {e : Elem} {es zs : List Elem} (hd : ∀ p a b, e.i ≠ .dpair p a b)
    (h : s.expandAll x (e :: es) = .got zs) : ∃ ys, zs = e :: ys := by
  unfold expandAll at h
  dsimp only at h
  split at h
  next p a b hi => exact absurd hi (hd p a b)
  next =>
    split at h
    next ys _ =>
      obtain rfl := Fetched.got.inj h
      exact ⟨ys, rfl⟩
    next r hr => exact absurd h (hr _)

theorem permitted_cases (i : Instr) : s.permitted i = some .illegal ∨ s.permitted i = some .priv ∨ s.permitted i = some .role
    ∨ s.permitted i = none := by
  unfold permitted
  split
  · exact .inl rfl
  split
  · exact .inl rfl
  split
  · exact .inr (.inl rfl)
  split
  · exact .inr (.inr (.inl rfl))
  · exact .inr (.inr (.inr rfl))

/-- Elements that decode finds nothing against are permitted, each with its own VPFX (R44). -/
theorem permitted_of_refused {es : List Elem} (h : s.refused es = none) {e : Elem} (he : e ∈ es) :
    ({ s with pfx := e.pfx } : State).permitted e.i = none := by
  have hmem : ({ s with pfx := e.pfx } : State).permitted e.i ∈ es.map fun e => ({ s with pfx := e.pfx } : State).permitted e.i :=
    List.mem_map.mpr ⟨e, he, rfl⟩
  unfold refused at h
  dsimp only at h
  split at h
  next => cases h
  next hill =>
    split at h
    next => cases h
    next hpriv =>
      split at h
      next => cases h
      next hrole =>
        rw [Bool.or_eq_true, not_or, List.contains_iff_mem] at hill
        rw [List.contains_iff_mem] at hpriv hrole
        rcases ({ s with pfx := e.pfx } : State).permitted_cases e.i with hc | hc | hc | hc
        · exact absurd (hc ▸ hmem) hill.1
        · exact absurd (hc ▸ hmem) hpriv
        · exact absurd (hc ▸ hmem) hrole
        · exact hc

/-- What a packet's first word decodes to, where it is neither a VPFX nor a dictionary pair (R25, R44). -/
theorem decodePacket_word {ws : List Word} {j : Nat} {e : Elem} {es : List Elem} (h : s.decodePacket ws j false = .got (e :: es))
    (hp : fld (ws.getD j 0).toNat 24 7 ≠ 0x7E) (hd : fld (ws.getD j 0).toNat 24 7 ≠ 0x7F) :
    decodeWord (ws.getD j 0).toNat (ws.getD (j + 1) 0) = some e.i ∧ e.pfx = none ∧ e.c = (ws.getD j 0).getLsbD 31
      ∧ e.place = (j, false) ∧ ({ s with pfx := none } : State).permitted e.i = none := by
  unfold decodePacket at h
  split at h
  next => cases h
  next es₀ hes =>
    rw [Bool.false_and, if_neg Bool.false_ne_true] at h
    split at h
    next zs hexp =>
      split at h
      next => cases h
      next href =>
        obtain rfl := Fetched.got.inj h
        rcases elemsFrom_succ hes with rfl | ⟨e₀, xs, rfl, hat⟩
        · cases hexp
        obtain ⟨hword, hpfx, hc, hplace⟩ := elemAt_word hat hp
        have hpair : ∀ p a b, e₀.i ≠ .dpair p a b := fun p a b hi => by
          rw [hi] at hword
          exact hd (opcode_of_decodeWord hword)
        obtain ⟨ys, hys⟩ := expandAll_cons hpair hexp
        obtain ⟨rfl, -⟩ := List.cons.inj hys
        have hperm := permitted_of_refused href (List.mem_cons_self (a := e) (l := es))
        rw [hpfx] at hperm
        exact ⟨hword, hpfx, hc.trans (chain_getLsbD _), hplace, hperm⟩
    next r hr =>
      exact absurd h (hr _)

/-! A chain of one element (R20 to R24). -/

theorem chainOf_alone {e : Elem} (h : e.c = false) (es : List Elem) : chainOf (e :: es) = ([e], es) := by
  rw [chainOf, if_neg (by rw [h]; decide)]

theorem inOrder_alone (e : Elem) : s.inOrder [e] = [e] := by
  unfold inOrder
  dsimp only
  cases hp : e.i.pipe with
  | none => simp [hp]
  | some p => cases p <;> simp [hp]

/-- The state a chain issues in, before its operands are read (R22, R329). -/
def chainAt (s : State) (p n : Nat × Nat × Bool) : State := { s with pos := p, npos := n, srcId := s.nextId, src := none, out := .done }

/-- The state in which an element of a chain issues, with the warp's registers from before the chain (R22). -/
def elemState (s : State) (p n : Nat × Nat × Bool) (e : Elem) : State :=
  { s.chainAt p n with pfx := e.pfx, expansion := [], pos := (p.1, e.place), src := some s.me }

/-- The state a chain's elements issue in, with the warp's registers from before it (R22). -/
def chainIn (s : State) (p n : Nat × Nat × Bool) : State := { s.chainAt p n with src := some s.me }

theorem enter_chainIn (p n : Nat × Nat × Bool) (e : Elem) : (s.chainIn p n).enter' p.1 e = s.elemState p n e := rfl

/-- A warp whose chain has issued (R324). -/
def issuedBy (t : State) (w : Warp) : Warp := { w with age := t.turnOf t.cur, noBkpt := false, solo := none, leaseAt := none }

section
variable {p : Nat × Nat × Bool} {e : Elem} {es : List Elem} {t : State}

/-- What is left of the packet stands in the warp, unless it stopped (R44). -/
def leftover (t : State) (n : Nat × Nat × Bool) (es : List Elem) : State :=
  if es = [] ∨ t.me.run = .stopped then t else t.hold n es

theorem leftover_eq {n : Nat × Nat × Bool} (h : t.hasWarp t.cur = true) :
    (if es = [] || !t.hasWarp t.cur || t.me.run == .stopped then t else t.hold n es) = t.leftover n es := by
  rw [leftover, h]
  simp

theorem hasWarp_withMe (w : Warp) : (s.withMe w).hasWarp (s.withMe w).cur = true := by
  show (Tab.get? (s.warps.put s.cur w) s.cur).isSome = true
  rw [Tab.get?_put_same]
  rfl

theorem leftover_cases (n : Nat × Nat × Bool) : t.leftover n es = t ∨ t.leftover n es = t.withMe { t.me with held := some (n, es) } := by
  unfold leftover
  split
  · exact .inl rfl
  · exact .inr rfl

theorem issued_eq (p : Nat × Nat × Bool) : t.issued p false = t.modMe t.issuedBy := rfl

theorem modMe_issuedBy (f : Warp → Warp) : (t.modMe f).modMe (t.modMe f).issuedBy = t.modMe fun w => t.issuedBy (f w) := by
  rw [modMe_eq, modMe_eq, withMe_me, withMe_withMe]
  rfl

/-- The elements of a chain of one (R20, R23), by how it comes out. -/
theorem runElems_alone {solo : Option Solo} (h : exec e.i (s.enter' p.1 e) = .next t) :
    (t.out = .done → s.runElems p solo .done [e] = .all t)
      ∧ (t.out = .moved → s.runElems p solo .done [e] = .all { t with npos := t.me.position })
      ∧ ∀ st, t.out = .raised st → st.after = false → st.precise = true → s.runElems p solo .done [e] = .stop st := by
  have hrun : s.runElems p solo .done [e] = (match t.out with
      | .waiting => .waits [e]
      | .raised st => if st.after || !st.precise then .all { t with out := both .done t.out } else .stop st
      | .parked => .all { t.modMe fun w => { w with solo := solo } with out := both .done t.out }
      | .moved => .all { t with npos := t.me.position, out := both .done t.out }
      | .done => .all { t with out := both .done t.out }) := by
    rw [runElems, h]
    rfl
  rw [hrun]
  refine ⟨fun ho => ?_, fun ho => ?_, fun st ho ha hp => ?_⟩
  · have hall : ({ t with out := .done } : State) = t := by rw [← ho]
    rw [ho]
    exact congrArg Ran.all hall
  · rw [ho]
    rfl
  · rw [ho]
    dsimp only
    rw [ha, hp]
    rfl

/-- A chain of one element, before what is left of its packet. -/
theorem issueChain_alone (e : Elem) (es : List Elem) : s.issueChain p [e] es =
    match (s.chainIn p (follows p.1 e)).runElems p
      (soloOf p (follows p.1 e) s.me.s [e]) .done [e] with
    | .all t => .next ((if es = [] || !t.hasWarp t.cur || t.me.run == .stopped then t else t.hold (follows p.1 e) es).commit p
        (follows p.1 e) s.me.stepping).idle
    | .waits ws => .next ((s.chainIn p (follows p.1 e)).waitAll p.1 ws).idle
    | .stop st => .next ((s.chainAt p (follows p.1 e)).raise st).idle
    | .other r => r := by
  rw [issueChain]
  dsimp only
  rw [inOrder_alone]
  rfl

section
variable (h : exec e.i (s.elemState p (follows p.1 e) e) = .next t)
include h

theorem exec_enter_chainIn : exec e.i ((s.chainIn p (follows p.1 e)).enter' p.1 e) = .next t := by
  rw [enter_chainIn]
  exact h

/-- A chain of one element that took effect (R20, R22). -/
theorem issueChain_done (ho : t.out = .done) (hw : t.hasWarp t.cur = true) :
    s.issueChain p [e] es = .next ((t.leftover (follows p.1 e) es).commit p (follows p.1 e) s.me.stepping).idle := by
  rw [issueChain_alone, (runElems_alone (exec_enter_chainIn h)).1 ho]
  dsimp only
  rw [leftover_eq hw]

/-- A chain of one element that sent the warp elsewhere (R16). -/
theorem issueChain_moved (ho : t.out = .moved) (hw : t.hasWarp t.cur = true) :
    s.issueChain p [e] es = .next ((({ t with npos := t.me.position } : State).leftover (follows p.1 e) es).commit p
      (follows p.1 e) s.me.stepping).idle := by
  rw [issueChain_alone, (runElems_alone (exec_enter_chainIn h)).2.1 ho]
  dsimp only
  rw [leftover_eq (t := { t with npos := t.me.position }) hw]

/-- A precise cause leaves no effect but its own (R23). -/
theorem issueChain_raised {st : Stop} (ho : t.out = .raised st) (ha : st.after = false) (hp : st.precise = true) :
    s.issueChain p [e] es = .next ((s.chainAt p (follows p.1 e)).raise st).idle := by
  rw [issueChain_alone, (runElems_alone (exec_enter_chainIn h)).2.2 st ho ha hp]

end

/-- A chain that took effect leaves the warp at what follows it (R16, R324). -/
theorem commit_done {n : Nat × Nat × Bool} (ho : t.out = .done) (hw : t.hasWarp t.cur = true) :
    (t.leftover n es).commit p n false = (t.leftover n es).modMe fun w => t.issuedBy (w.goto n) := by
  have hcore : ∀ f w, ((t.leftover n es).modMe f).issuedBy w = t.issuedBy w := by
    intro f w
    rcases leftover_cases (t := t) (es := es) n with h | h <;> rw [h] <;> rfl
  have hlast : (t.leftover n es).out = .done ∧ (t.leftover n es).hasWarp (t.leftover n es).cur = true := by
    rcases leftover_cases (t := t) (es := es) n with h | h <;> rw [h]
    · exact ⟨ho, hw⟩
    · exact ⟨ho, hasWarp_withMe _⟩
  rw [commit, hlast.2, hlast.1]
  show ((t.leftover n es).modMe (·.goto n)).issued p false = _
  rw [issued_eq, funext (hcore _), modMe_eq, modMe_eq, withMe_me, withMe_withMe]
  rfl

/-- A chain that sent the warp elsewhere leaves nothing of its packet (R16). -/
theorem commit_moved {n : Nat × Nat × Bool} (ho : t.out = .moved) (hw : t.hasWarp t.cur = true) :
    (t.leftover n es).commit p n false = t.modMe fun w => t.issuedBy { w with held := none } := by
  have hcore : ∀ f w, ((t.leftover n es).modMe f).issuedBy w = t.issuedBy w := by
    intro f w
    rcases leftover_cases (t := t) (es := es) n with h | h <;> rw [h] <;> rfl
  have hlast : (t.leftover n es).out = .moved ∧ (t.leftover n es).hasWarp (t.leftover n es).cur = true := by
    rcases leftover_cases (t := t) (es := es) n with h | h <;> rw [h]
    · exact ⟨ho, hw⟩
    · exact ⟨ho, hasWarp_withMe _⟩
  rw [commit, hlast.2, hlast.1]
  show ((t.leftover n es).modMe ({ · with held := none })).issued p false = _
  rw [issued_eq, funext (hcore _), modMe_eq, modMe_eq, withMe_me, withMe_withMe]
  rcases leftover_cases (t := t) (es := es) n with h | h <;> rw [h]
  · rfl
  · rw [withMe_me, withMe_withMe]
    rfl

end
theorem out_leftover (t : State) (n : Nat × Nat × Bool) (es : List Elem) : (t.leftover n es).out = t.out := by
  rcases leftover_cases (t := t) (es := es) n with h | h
  · rw [h]
  · rw [h]
    rfl

/-! A scheduler's turn (R324). -/

section
variable {sch k : Nat} {rest : List Choice}

/-- A warp that no solo element holds issues the first chain of what it stands at (R16, R44). -/
theorem issueWarp_alone {z : State} {e : Elem} {es : List Elem} {p : Nat × Nat × Bool}
    (hp : stands ({ s with cur := k } : State).idle.me = p) (hsolo : ({ s with cur := k } : State).idle.me.solo = none)
    (helems : ({ ({ s with cur := k } : State).idle with pos := p, npos := p } : State).elemsAt p = (z, .got (e :: es)))
    (hc : e.c = false) (hbreak : z.breakpointAt k = none) :
    s.issueWarp k = (z.hold p (e :: es)).issueChain p [e] es := by
  subst hp
  simp only [issueWarp, hsolo, helems, hbreak, chainOf_alone hc]

/-- The first warp picked issues, where its pipes are granted and it need not wait. -/
theorem issueFirst_issues {m : Nat} {ks : List Nat} {t : State} (hg : (s.pipesOf k).all (s.granted k m) = true)
    (hi : s.issueWarp k = .next t) (ho : t.out = .done ∨ t.out = .moved ∨ ∃ st, t.out = .raised st) :
    s.issueFirst m (k :: ks) = .next (t.useGrants k m (s.pipesOf k)) := by
  rw [issueFirst, hg, hi]
  dsimp only [onNext]
  rw [if_neg (by decide)]
  rcases ho with ho | ho | ⟨st, ho⟩ <;> rw [ho]

/-- A step in which a scheduler has its turn (R324). -/
theorem step_issue {a t : State} {m : Nat} {ks : List Nat} (hsched : s.sched = .issue sch :: rest) (hsch : sch < 3072)
    (ha : ({ s.background with sched := rest } : State).cycle sch = a) (hm : a.turnAt sch = m)
    (hduty : a.onDuty (sch / 4) m = true) (hpicks : a.picks sch = k :: ks)
    (hfirst : a.issueFirst m (k :: ks) = .next t) : step s = .next t.tick := by
  have hturn : s.turn = ({ s.background with sched := rest } : State).serve sch := by
    rw [turn, hsched]
    rfl
  rw [step, hturn, serve, if_neg (not_le.mpr hsch)]
  dsimp only
  rw [ha, hm, if_pos hduty, hpicks, hfirst]
  rfl

end

/-! Events and inputs (R355). -/

section
variable {rest : List Choice} {i : Instr} {t : State}

theorem runKept_next (h : s.runEvent i = .next t) :
    s.runKept i = .next (if t.out = .waiting then { t.keptBack i with out := .done } else t) := by
  rw [runKept, h]
  dsimp only [onNext]
  cases ho : t.out <;> rfl

theorem step_input (hsched : s.sched = .input i :: rest) (hi : isInput i = true) :
    step s = onNext (({ s.background with sched := rest } : State).arriveInput i) fun t => .next t.tick := by
  rw [step, turn, hsched]
  dsimp only [take]
  rw [if_pos hi]

theorem step_event {j : Nat} (hsched : s.sched = .event j :: rest)
    (hrun : ({ s.background with sched := rest } : State).mayRun j = true) :
    step s = onNext (({ s.background with sched := rest } : State).runAgenda j) fun t => .next t.tick := by
  rw [step, turn, hsched]
  dsimp only [take]
  rw [if_pos hrun]

end
end State

section
variable {s b t : State} {rest : List Choice} {i : Instr} (hb : ({ s.background with sched := rest } : State) = b)
include hb

theorem step_input_runs (hsched : s.sched = .input i :: rest) (hi : State.isInput i = true)
    (hflow : b.agenda.any (State.sameFlow i) = false) (hexec : b.runEvent i = .next t) :
    step s = .next (if t.out = .waiting then { t.keptBack i with out := .done } else t).tick := by
  rw [State.step_input hsched hi, hb, State.arriveInput, if_neg (by rw [hflow]; decide), State.runKept_next hexec]
  rfl

theorem step_input_waits (hsched : s.sched = .input i :: rest) (hi : State.isInput i = true)
    (hflow : b.agenda.any (State.sameFlow i) = true) : step s = .next (b.push [i]).done.tick := by
  rw [State.step_input hsched hi, hb, State.arriveInput, if_pos hflow]
  rfl

theorem step_event_runs {j : Nat} (hsched : s.sched = .event j :: rest) (hrun : b.mayRun j = true)
    (hat : b.agenda[j]? = some i) (hexec : ({ b with agenda := b.agenda.eraseIdx j } : State).runEvent i = .next t) :
    step s = .next (if t.out = .waiting then { t.keptBack i with out := .done } else t).tick := by
  rw [State.step_event hsched (hb.symm ▸ hrun), hb, State.runAgenda, hat]
  dsimp only
  rw [State.runKept_next hexec]
  rfl

end

/-- What a scheduler's turn runs, by how the instruction comes out (R16, R20 to R24, R324). -/
theorem step_runs {s a z t : State} {sch k m : Nat} {ks : List Nat} {rest : List Choice} {e : Elem} {es : List Elem}
    {p : Nat × Nat × Bool} (hsched : s.sched = .issue sch :: rest) (hsch : sch < 3072)
    (ha : ({ s.background with sched := rest } : State).cycle sch = a) (hm : a.turnAt sch = m)
    (hduty : a.onDuty (sch / 4) m = true) (hpicks : a.picks sch = k :: ks) (hg : (a.pipesOf k).all (a.granted k m) = true)
    (hp : State.stands ({ a with cur := k } : State).idle.me = p) (hsolo : ({ a with cur := k } : State).idle.me.solo = none)
    (helems : ({ ({ a with cur := k } : State).idle with pos := p, npos := p } : State).elemsAt p = (z, .got (e :: es)))
    (hc : e.c = false) (hbreak : z.breakpointAt k = none) (hstep : z.me.stepping = false)
    (hexec : exec e.i ((z.hold p (e :: es)).elemState p (State.follows p.1 e) e) = .next t) :
    (t.out = .done → t.hasWarp t.cur = true → step s = .next ((((t.leftover (State.follows p.1 e) es).modMe fun w =>
        t.issuedBy (w.goto (State.follows p.1 e))).idle).useGrants k m (a.pipesOf k)).tick)
      ∧ (t.out = .moved → t.hasWarp t.cur = true → step s = .next
        ((({ t with npos := t.me.position } : State).modMe fun w => t.issuedBy { w with held := none }).idle.useGrants k m
          (a.pipesOf k)).tick)
      ∧ ∀ st, t.out = .raised st → st.after = false → st.precise = true →
        step s = .next ((((z.hold p (e :: es)).chainAt p (State.follows p.1 e)).raise st).idle.useGrants k m (a.pipesOf k)).tick := by
  have hissue := State.issueWarp_alone hp hsolo helems hc hbreak
  have hstep' : (z.hold p (e :: es)).me.stepping = false := by
    rw [State.hold, State.me_modMe]
    exact hstep
  refine ⟨fun ho hw => ?_, fun ho hw => ?_, fun st ho hafter hprec => ?_⟩
  · rw [State.issueChain_done hexec ho hw, hstep', State.commit_done ho hw] at hissue
    exact State.step_issue hsched hsch ha hm hduty hpicks
      (State.issueFirst_issues hg hissue (.inl ((State.out_leftover _ _ _).trans ho)))
  · rw [State.issueChain_moved hexec ho hw, hstep', State.commit_moved (t := { t with npos := t.me.position }) ho hw] at hissue
    exact State.step_issue hsched hsch ha hm hduty hpicks (State.issueFirst_issues hg hissue (.inr (.inl ho)))
  · rw [State.issueChain_raised hexec ho hafter hprec] at hissue
    exact State.step_issue hsched hsch ha hm hduty hpicks (State.issueFirst_issues hg hissue (.inr (.inr ⟨st, rfl⟩)))

/-- Settles O57: a scheduler's turn by `step_runs`, and events and inputs by what `runKept` does. -/
theorem stepRunsDecoded : Obligations.StepRunsDecoded := by
  intro s z t sch k ks rest e es b a m pipes s0 p n h s2 s1 still later fresh
  have hb : ({ s.background with sched := rest } : State) = b := rfl
  have ha : b.cycle sch = a := rfl
  have hs1 : s1 = h.elemState p n e := rfl
  clear_value a b
  refine ⟨fun hsched hsch hduty hpicks hg hsolo helems hc hbreak hstep hexec => ?_,
    fun q => ⟨fun hheld => ?_, fun xs hheld => ?_⟩, fun pc ws j x hfetch => ?_,
    fun ws j hdec hp hd => State.decodePacket_word hdec hp hd,
    fun i hsched hi hflow hexec => step_input_runs hb hsched hi hflow hexec,
    fun i hsched hi hflow => step_input_waits hb hsched hi hflow,
    fun i j hsched hrun hat hexec => step_event_runs hb hsched hrun hat hexec⟩
  · rw [hs1] at hexec
    obtain ⟨hdone, hmoved, hraised⟩ := step_runs (a := a) (m := m) (p := p) hsched hsch (hb ▸ ha) rfl hduty hpicks hg rfl hsolo
      helems hc hbreak hstep hexec
    exact ⟨hdone, hmoved, hraised⟩
  · rw [State.elemsAt, hheld]
  · rw [State.elemsAt, hheld]
    exact if_pos rfl
  · rw [State.packetAt, hfetch]

end Sys2Proof.Machine
end

section
/-!
PROOFS. A memory instruction enters its counters and is in flight (R140, R141, R144), and CACHE and TLBI as they issue
(R64, R87).
-/

namespace Sys2Proof.Machine

namespace State

variable {s : State}

/-- A flight of at most one request that is not SC finds room where its warp has it (R141, R144, R168). -/
theorem mustWait_of_roomy (h : s.roomy) {f : Flight} (hcore : f.core = s.myCore) (hord : f.ord = 0)
    (hreqs : f.reqs.length ≤ 1) : s.mustWait f = false := by
  obtain ⟨-, -, hG, hS, hW, hV, hstores, hout⟩ := h
  have hlines : ¬ 2048 < s.outstanding s.myCore + f.reqs.length := by omega
  simp only [mustWait, hcore, hord, Nat.not_le.mpr hG, Nat.not_le.mpr hS, Nat.not_le.mpr hW, Nat.not_le.mpr hV,
    Nat.not_le.mpr hstores, hlines, decide_false, Bool.and_false, Bool.or_false, Nat.reduceBEq, Bool.false_and]

/-- Instructions that come to the same state come out the same. -/
theorem next_done_congr {t u : State} (h : t = u) : (.next t.done : Result) = .next u.done := by rw [h]

theorem acqHolds_of_roomy (h : s.roomy) : s.acqHolds = false := acqHolds_of_nil h.1

/-- What the entry of a flight does: it is counted on its paths and in flight, and nothing else is seen of it (R140,
R141). -/
theorem enter_spec (s : State) (f : Flight) :
    s.sameRegs (s.enter f).2 ∧ s.sameBytes (s.enter f).2 ∧ s.countedOn (s.enter f).2 f.paths
      ∧ ∃ order tagged, (s.enter f).2.flights.get? s.nextId = some { f with order := order, tagged := tagged } := by
  have hme : (s.enter f).2.me = _ := Tab.get_put_same _ _ _ _
  refine ⟨?_, sameBytes_of rfl rfl, ?_, _, _, Tab.get?_put_same _ _ _⟩
  · rw [sameRegs, hme]
    exact ⟨rfl, rfl, rfl, rfl⟩
  · rw [countedOn, hme]
    exact ⟨rfl, rfl, rfl, rfl⟩

/-! CACHE (R87, R88). -/

/-- The flight of a CACHE over `n` bytes from `va`: it stands at its first line. -/
def cacheFlight (s : State) (fn va n : Nat) : Flight :=
  { s.mkFlight (.cache fn) (if fn = 0 then 0 else 4) with
    x := va / 128 * 128, y := va + n, reqs := [{ win := .global, vline := va / 128 }] }

theorem cacheOp_empty {fn : Nat} {l a : Src} (hroom : s.roomy) (hva : s.readPair a 0 < 2 ^ 56)
    (hn : (s.readScalar l).toNat = 0) : s.cacheOp fn l a = s.done := by
  have hbounds : (vaTop ≤ s.readPair a 0 || vaTop < s.readPair a 0 + 0) = false := by
    rw [vaTop, Bool.or_eq_false_iff, decide_eq_false_iff_not, decide_eq_false_iff_not]
    omega
  simp only [cacheOp, acqHolds_of_roomy hroom, hn, hbounds, Bool.false_eq_true, if_false, if_true]

theorem cacheOp_enters {fn : Nat} {l a : Src} (hroom : s.roomy) (hva : s.readPair a 0 < 2 ^ 56)
    (htop : s.readPair a 0 + (s.readScalar l).toNat ≤ 2 ^ 56) (hn : (s.readScalar l).toNat ≠ 0) :
    s.cacheOp fn l a = ((s.enter (s.cacheFlight fn (s.readPair a 0) (s.readScalar l).toNat)).2.requeue s.nextId 0).done := by
  have hbounds : (vaTop ≤ s.readPair a 0 || vaTop < s.readPair a 0 + (s.readScalar l).toNat) = false := by
    rw [vaTop, Bool.or_eq_false_iff, decide_eq_false_iff_not, decide_eq_false_iff_not]
    omega
  have hwait : s.mustWait (s.cacheFlight fn (s.readPair a 0) (s.readScalar l).toNat) = false :=
    mustWait_of_roomy hroom rfl rfl (le_refl 1)
  rw [cacheOp, acqHolds_of_roomy hroom, hbounds, if_neg Bool.false_ne_true, if_neg Bool.false_ne_true, if_neg hn]
  exact if_neg (ne_true_of_eq_false hwait)

/-- CACHE at issue, over no byte and over some (R87, R88). -/
theorem cacheOp_spec {fn : Nat} {l a : Src} (hroom : s.roomy) (htop : s.readPair a 0 + (s.readScalar l).toNat ≤ 2 ^ 56)
    (hva : s.readPair a 0 < 2 ^ 56) :
    let t := s.cacheOp fn l a
    t.out = .done ∧ s.sameRegs t ∧ s.sameBytes t
      ∧ ((s.readScalar l).toNat = 0 → t = { s with out := .done })
      ∧ ((s.readScalar l).toNat ≠ 0 → s.countedOn t (if fn = 0 then 0 else 4) ∧ ∃ f, t.flights.get? s.nextId = some f
        ∧ f.kind = .cache fn ∧ f.x = s.readPair a 0 / 128 * 128 ∧ f.y = s.readPair a 0 + (s.readScalar l).toNat
        ∧ t.agenda = s.agenda ++ [.tlbMissWalk s.nextId 0]) := by
  intro t
  by_cases hn : (s.readScalar l).toNat = 0
  · have ht : t = s.done := cacheOp_empty hroom hva hn
    exact ht ▸ ⟨rfl, ⟨rfl, rfl, rfl, rfl⟩, s.sameBytes_refl, fun _ => rfl, fun h => absurd hn h⟩
  · have ht : t = _ := cacheOp_enters hroom hva htop hn
    obtain ⟨hregs, hbytes, hcount, order, tagged, hflight⟩ :=
      s.enter_spec (s.cacheFlight fn (s.readPair a 0) (s.readScalar l).toNat)
    exact ht ▸ ⟨rfl, hregs, hbytes, fun h => absurd h hn, fun _ => ⟨hcount, _, hflight, rfl, rfl, rfl, rfl⟩⟩

/-! TLBI (R64). -/

/-- The region and the address a TLBI names; 0 where its kind names none. -/
def tlbiRegionOf (s : State) (r : Option Src) : Nat := (r.map fun r => (s.readScalar r).toNat % 2 ^ 12).getD 0
def tlbiAddrOf (s : State) (a : Option Src) : Nat := (a.map fun a => s.readPair a 0).getD 0

/-- The flight of a TLBI: a release at DEV, behind what its warp has on W (R64, R65). -/
def tlbiFlight (s : State) (kind sz reg va : Nat) : Flight :=
  { s.mkFlight (.tlbi kind sz) 4 with
    scp := 4, x := reg, y := va, released := false
    before := (s.myFlights.filter fun e => e.2.paths.testBit 2 && (match e.2.kind with
      | .tlbi .. => false
      | _ => true)).map (·.1) }

theorem tlbi_enters {kind sz : Nat} {r a : Option Src} (hroom : s.roomy) (hva : s.tlbiAddrOf a < 2 ^ 56) :
    s.tlbi kind sz r a =
      ((s.enter (s.tlbiFlight kind sz (s.tlbiRegionOf r) (s.tlbiAddrOf a))).2.push [.tlbiAck s.nextId]).done := by
  have hhigh : bits (s.tlbiAddrOf a) 56 8 = 0 := by rw [bits, Nat.div_eq_of_lt hva, Nat.zero_mod]
  have hwait : s.mustWait (s.tlbiFlight kind sz (s.tlbiRegionOf r) (s.tlbiAddrOf a)) = false :=
    mustWait_of_roomy hroom rfl rfl (Nat.zero_le 1)
  have hbounds : ¬ (decide (2 ≤ kind) && decide (bits (s.tlbiAddrOf a) 56 8 ≠ 0)) = true := by simp [hhigh]
  rw [tlbi, acqHolds_of_roomy hroom, if_neg Bool.false_ne_true]
  exact (if_neg hbounds).trans (if_neg (ne_true_of_eq_false hwait))

/-- TLBI at issue (R64). -/
theorem tlbi_spec {kind sz : Nat} {r a : Option Src} (hroom : s.roomy) (hva : s.tlbiAddrOf a < 2 ^ 56) :
    let t := s.tlbi kind sz r a
    t.out = .done ∧ s.sameRegs t ∧ s.sameBytes t ∧ s.countedOn t 4
      ∧ t.agenda = s.agenda ++ [.tlbiAck s.nextId] ∧ ∃ f, t.flights.get? s.nextId = some f ∧ f.kind = .tlbi kind sz
        ∧ f.x = s.tlbiRegionOf r ∧ f.y = s.tlbiAddrOf a ∧ f.released = false := by
  intro t
  have ht : t = _ := tlbi_enters hroom hva
  obtain ⟨hregs, hbytes, hcount, order, tagged, hflight⟩ :=
    s.enter_spec (s.tlbiFlight kind sz (s.tlbiRegionOf r) (s.tlbiAddrOf a))
  exact ht ▸ ⟨rfl, hregs, hbytes, hcount, rfl, _, hflight, rfl, rfl, rfl, rfl⟩

/-- TLBI of a page whose address is no address of a page (R64). -/
theorem tlbi_bounds {kind sz : Nat} {r a : Option Src} (hroom : s.roomy) (hkind : 2 ≤ kind) (hva : 2 ^ 56 ≤ s.tlbiAddrOf a)
    (htop : s.tlbiAddrOf a < 2 ^ 64) : s.tlbi kind sz r a = s.raise { cause := .bounds, addr := s.tlbiAddrOf a } := by
  have hhigh : bits (s.tlbiAddrOf a) 56 8 ≠ 0 := by rw [bits]; omega
  rw [tlbi, acqHolds_of_roomy hroom, if_neg Bool.false_ne_true]
  exact if_pos (Bool.and_eq_true_iff.mpr ⟨decide_eq_true hkind, decide_eq_true hhigh⟩)

end State

/-- Settles O13: the four CACHE words are `cacheOp`, the four TLBI words `tlbi`, at their operands. -/
theorem cacheAndTlbi : Obligations.CacheAndTlbi := by
  refine ⟨fun s l a e he hgo hroom htop hva => ?_, fun s r a z e he hgo hroom => ?_⟩
  · have hexec : exec e.1 s = .next (s.issue e.1 (s.cacheOp e.2 l a)) := by
      simp only [List.mem_cons, List.not_mem_nil, or_false] at he
      rcases he with rfl | rfl | rfl | rfl <;> rfl
    exact ⟨_, hexec.trans (congrArg _ (s.issue_go hgo _)), State.cacheOp_spec hroom htop hva⟩
  · obtain ⟨ro, ao, hexec, hreg, haddr⟩ : ∃ ro ao, exec e.1 s = .next (s.issue e.1 (s.tlbi e.2.1 e.2.2.1 ro ao))
        ∧ s.tlbiRegionOf ro = e.2.2.2.1 ∧ s.tlbiAddrOf ao = e.2.2.2.2 := by
      simp only [List.mem_cons, List.not_mem_nil, or_false] at he
      rcases he with rfl | rfl | rfl | rfl
      · exact ⟨none, none, rfl, rfl, rfl⟩
      · exact ⟨some r, none, rfl, rfl, rfl⟩
      · exact ⟨some r, some a, rfl, rfl, rfl⟩
      · exact ⟨none, some a, rfl, rfl, rfl⟩
    rw [hexec, s.issue_go hgo, ← hreg, ← haddr]
    exact ⟨fun hva => ⟨_, rfl, State.tlbi_spec hroom hva⟩,
      fun hkind hva htop => congrArg _ (State.tlbi_bounds hroom hkind hva htop)⟩

end Sys2Proof.Machine
end

section
/-!
PROOFS. Releases that wait for what stands before them (R98, R165), the acknowledgment of a TLBI (R64) and the timer of a
WAITC (R146).
-/

namespace Sys2Proof.Machine

/-- What a look-up finds stands in the table. -/
theorem Tab.mem_of_get? {α : Type} {t : Tab α} {k : Nat} {a : α} (h : t.get? k = some a) : (k, a) ∈ t := by
  induction t with
  | nil => cases h
  | cons e t ih =>
    obtain ⟨j, b⟩ := e
    by_cases hj : j = k
    · rw [Tab.get?, if_pos hj, Option.some.injEq] at h
      exact hj ▸ h ▸ List.mem_cons_self
    · rw [Tab.get?, if_neg hj] at h
      exact List.mem_cons_of_mem _ (ih h)

namespace State

variable {s : State} {id : Nat} {f : Flight}

/-! A flight under way, put in its place again. -/

def putFlight (s : State) (id : Nat) (f : Flight) : State := { s with flights := s.flights.put id f }

theorem modFlight_of_get? (h : s.flights.get? id = some f) (g : Flight → Flight) : s.modFlight id g = s.putFlight id (g f) := by
  rw [modFlight, h]
  rfl

@[simp] theorem get?_putFlight (s : State) (id : Nat) (f : Flight) : (s.putFlight id f).flights.get? id = some f :=
  Tab.get?_put_same _ _ _

theorem get?_putFlight_other (s : State) {i id : Nat} (h : i ≠ id) (f : Flight) :
    (s.putFlight id f).flights.get? i = s.flights.get? i :=
  Tab.get?_put_other _ h f

@[simp] theorem modFlight_putFlight (s : State) (id : Nat) (f : Flight) (g : Flight → Flight) :
    (s.putFlight id f).modFlight id g = s.putFlight id (g f) := by
  rw [modFlight_of_get? (s.get?_putFlight id f), putFlight, putFlight, putFlight, Tab.put_put]

theorem get?_putFlight_eq_none (h : s.flights.get? id = some f) (g : Flight) (i : Nat) :
    (s.putFlight id g).flights.get? i = none ↔ s.flights.get? i = none := by
  by_cases hi : i = id
  · rw [hi, get?_putFlight, h]
    exact iff_of_false (Option.some_ne_none _) (Option.some_ne_none _)
  · rw [get?_putFlight_other _ hi]

/-! Releases (R98, R165). -/

/-- What a release waits for is acknowledged, and is over altogether (R98, R165). -/
def acked (s : State) (f : Flight) : Prop := ∀ i ∈ f.before, s.flights.get? i = none
def leasesOver (s : State) (f : Flight) : Prop :=
  f.scp < 4 ∨ f.leaseAt.getD (s.core f.core).leasemax < s.nowCore f.core

theorem releaseAcked_iff : s.releaseAcked f = true ↔ s.acked f := by
  simp only [releaseAcked, acked, List.all_eq_true, Option.isNone_iff_eq_none]

/-- A release with LEASEMAX as it stands, once what it waits for is acknowledged (R98). -/
def leased (s : State) (f : Flight) : Flight :=
  { f with leaseAt := if (∀ i ∈ f.before, s.flights.get? i = none) then some (f.leaseAt.getD (s.core f.core).leasemax)
      else f.leaseAt }

theorem leased_of_acked (h : s.acked f) :
    s.leased f = { f with leaseAt := some (f.leaseAt.getD (s.core f.core).leasemax) } := by
  rw [leased, if_pos (show ∀ i ∈ f.before, s.flights.get? i = none from h)]

theorem leased_of_not_acked (h : ¬ s.acked f) : s.leased f = f := by
  rw [leased, if_neg (show ¬ ∀ i ∈ f.before, s.flights.get? i = none from h)]

theorem leased_of_leaseAt (h : f.leaseAt ≠ none) : s.leased f = f := by
  obtain ⟨n, hn⟩ := Option.ne_none_iff_exists'.mp h
  rw [leased, hn, Option.getD_some, ite_self, ← hn]

theorem latchLease_eq (h : s.flights.get? id = some f) : s.latchLease id = s.putFlight id (s.leased f) := by
  rw [latchLease, modFlight_of_get? h]
  congr 1
  by_cases hacked : s.acked f
  · rw [releaseAcked_iff.mpr hacked]
    cases hlease : f.leaseAt with
    | none =>
      rw [leased_of_acked hacked, hlease]
      rfl
    | some n => exact (leased_of_leaseAt (by simp [hlease])).symm
  · rw [leased_of_not_acked hacked, Bool.eq_false_iff.mpr (mt releaseAcked_iff.mp hacked)]
    rfl

/-- A latched release is ready once its acknowledgments are in and, at DEV or SYS, its leases are over (R98, R165). -/
theorem releaseReady_leased (h : s.flights.get? id = some f) :
    (s.putFlight id (s.leased f)).releaseReady (s.leased f) = true ↔ s.acked f ∧ s.leasesOver f := by
  have hacked : (s.putFlight id (s.leased f)).releaseAcked (s.leased f) = true ↔ s.acked f :=
    releaseAcked_iff.trans (forall₂_congr fun i _ => get?_putFlight_eq_none h _ i)
  have hlease : (s.leased f).leaseAt.getD (s.core f.core).leasemax = f.leaseAt.getD (s.core f.core).leasemax := by
    rw [leased]
    split <;> rfl
  rw [releaseReady, Bool.and_eq_true, hacked, Bool.or_eq_true, decide_eq_true_iff, decide_eq_true_iff, leasesOver, ← hlease]
  rfl

/-- RELEASE_PROCEED of a release that is ready: its requests set out, with its core's LCLK (R165, R168). -/
theorem tryRelease_ready (h : s.flights.get? id = some f) (hrel : f.released = false)
    (hready : s.acked f ∧ s.leasesOver f) :
    s.tryRelease id = (s.putFlight id { s.leased f with released := true, lclk := (s.core f.core).lclk }).push
      ((List.range f.reqs.length).map fun k => .tlbMissWalk id k) := by
  have hrel' : ¬ (s.leased f).released = true := ne_true_of_eq_false hrel
  simp only [tryRelease, latchLease_eq h, get?_putFlight, (releaseReady_leased h).mpr hready, if_neg hrel', if_true, sendReqs,
    modFlight_putFlight]
  rfl

/-- RELEASE_PROCEED of one that is not: it is looked at again. -/
theorem tryRelease_waits (h : s.flights.get? id = some f) (hrel : f.released = false)
    (hready : ¬ (s.acked f ∧ s.leasesOver f)) :
    s.tryRelease id = (s.putFlight id (s.leased f)).push [.releaseProceed id] := by
  have hrel' : ¬ (s.leased f).released = true := ne_true_of_eq_false hrel
  simp only [tryRelease, latchLease_eq h, get?_putFlight, mt (releaseReady_leased h).mp hready, if_neg hrel']
  rfl

/-! TLBI_ACK (R64). -/

/-- What a TLBI finds in use as it proceeds: the accesses that hold a leaf it selects, and the walks that may read it. -/
def tlbiUsers (s : State) (kind sz : Nat) (f : Flight) : List (Nat × Nat × Nat) :=
  s.flights.flatMap fun e => (List.range e.2.reqs.length).filterMap fun k =>
    match (e.2.req k).leaf with
    | some l =>
      if tlbiSelects kind sz f.x f.y e.2.region (128 * (e.2.req k).vline) l then some (e.1, k, (e.2.req k).vline) else none
    | none => none
def tlbiWalks (s : State) (kind : Nat) (f : Flight) : List Nat :=
  (s.walks.filter fun w => !w.held && tlbiWalk kind f.x f.y w).map (·.id)

/-- The TLBs without the entries a TLBI selects (R64). -/
def tlbiDrop (s : State) (kind sz : Nat) (f : Flight) : State :=
  { s with tlb := s.tlb.filter fun t => !tlbiSelects kind sz f.x f.y t.region t.va t.leaf }

/-- A TLBI that has dropped its entries, with what it found in use (R64). -/
def dropping (s : State) (id kind sz : Nat) (f : Flight) : Flight :=
  { s.leased f with
    released := true
    users := (s.putFlight id (s.leased f)).tlbiUsers kind sz f
    lines := s.tlbiWalks kind f }

theorem tlbiAck_proceeds {kind sz : Nat} (h : s.flights.get? id = some f) (hkind : f.kind = .tlbi kind sz)
    (hrel : f.released = false) (hready : s.acked f ∧ s.leasesOver f) :
    exec (.tlbiAck id) s =
      .next (((s.tlbiDrop kind sz f).putFlight id (s.dropping id kind sz f)).push [.tlbiAck id]).done := by
  have hkind' : (s.leased f).kind = .tlbi kind sz := hkind
  have hrel' : (s.leased f).released = false := hrel
  show execTlbiAck id s = _
  simp only [execTlbiAck, latchLease_eq h, get?_putFlight, hkind', hrel', (releaseReady_leased h).mpr hready, Bool.not_false,
    if_true]
  exact congrArg (fun t : State => Host.Outcome.next (t.push [.tlbiAck id]).done)
    ((s.tlbiDrop kind sz f).modFlight_putFlight id (s.leased f) fun g => { g with
      released := true, users := (s.putFlight id (s.leased f)).tlbiUsers kind sz f, lines := s.tlbiWalks kind f })

/-- Whether nothing uses any longer what a TLBI found in use (R64). -/
def tlbiOver (s : State) (f : Flight) : Bool :=
  f.users.all (fun u => !s.stillUses u) && f.lines.all fun i => !s.walks.any fun w => w.id == i && !w.held

theorem tlbiOver_iff : s.tlbiOver f = true
    ↔ (∀ u ∈ f.users, s.stillUses u = false) ∧ ∀ i ∈ f.lines, ∀ w ∈ s.walks, w.id = i → w.held = true := by
  simp [tlbiOver]

/-- A TLBI that has dropped its entries is acknowledged, or looked at again (R64). -/
theorem tlbiAck_released {kind sz : Nat} (h : s.flights.get? id = some f) (hkind : f.kind = .tlbi kind sz)
    (hrel : f.released = true) (hlease : f.leaseAt ≠ none) :
    exec (.tlbiAck id) s = .next ((s.putFlight id f).push [if s.tlbiOver f then .storeAck id else .tlbiAck id]).done := by
  have huses : ∀ u, (s.putFlight id f).stillUses u = s.stillUses u := by
    intro u
    by_cases hu : u.1 = id
    · rw [stillUses, stillUses, hu, h, get?_putFlight]
    · rw [stillUses, stillUses, get?_putFlight_other _ hu]
  show execTlbiAck id s = _
  simp only [execTlbiAck, latchLease_eq h, leased_of_leaseAt hlease, get?_putFlight, hkind, hrel, huses, Bool.not_true,
    Bool.false_eq_true, if_false]
  show Host.Outcome.next (if s.tlbiOver f then _ else _) = _
  cases s.tlbiOver f <;> rfl

/-! WAITC_BLOCKING_TIMER (R146). -/

/-- Whether a flight has to leave a named counter for a WAITC of its warp to end. -/
def waitcAwaits (w : Warp) (key paths n : Nat) (f : Flight) : Bool :=
  f.key == key && [0, 1, 3].any fun i =>
    paths.testBit i && f.paths.testBit i && !f.landed.testBit i && n + (f.order[i]?.getD 0) + 1 ≤ w.counted[i]?.getD 0

/-- Whether a request of a flight goes to a line homed elsewhere, or waits on a held leaf. -/
def waitsFar (s : State) (core id : Nat) (r : Req) : Bool :=
  !r.done && ((match r.leaf with
    | some _ => (match placeOf r.pa with
      | .memory d => d != dieOf core
      | .fabric => true
      | _ => false)
    | none => false) || s.walks.any fun x => x.held && x.waiters.any fun y => y.1 == id)

theorem exec_waitcTimer {core slot paths n : Nat} (hwake : (s.warp (warpKey core slot)).wake = .waitc paths n) :
    exec (.waitcBlockingTimer core slot) s = .next (
      if (s.warp (warpKey core slot)).wakeAt + 2000 < s.nowCore core && s.flights.any fun e =>
          waitcAwaits (s.warp (warpKey core slot)) (warpKey core slot) paths n e.2 && e.2.reqs.any (s.waitsFar core e.1) then
        (s.modWarp (warpKey core slot) fun w => { w with wakeOk := true }).done
      else s.done) := by
  show execWaitcBlockingTimer core slot s = _
  rw [execWaitcBlockingTimer]
  dsimp only
  rw [hwake]
  rfl

theorem waitsFar_of_remote {core d : Nat} {r : Req} {l : Leaf} (hopen : r.done = false) (hleaf : r.leaf = some l)
    (hpa : placeOf r.pa = .memory d) (hd : d ≠ dieOf core) : s.waitsFar core id r = true := by
  simp [waitsFar, hopen, hleaf, hpa, hd]

theorem waitsFar_of_held {core : Nat} {r : Req} (hopen : r.done = false)
    (h : ∃ x ∈ s.walks, x.held = true ∧ ∃ y ∈ x.waiters, y.1 = id) : s.waitsFar core id r = true := by
  have hheld : (s.walks.any fun x => x.held && x.waiters.any fun y => y.1 == id) = true := by simpa using h
  rw [waitsFar, hopen, hheld, Bool.or_true]
  rfl

end State

/-- Settles O29: a release by `tryRelease_ready` and `tryRelease_waits`, TLBI_ACK by what it finds of its release, and the
timer of a WAITC by a flight it awaits that is far. -/
theorem releasesAndTimers : Obligations.ReleasesAndTimers := by
  refine fun s id core slot f h => ⟨fun hrel hready => ?_, fun hrel hready => ?_, fun kind sz hkind => ⟨fun hrel hready => ?_,
    fun hrel hlease huses => ?_, fun hrel hlease huses hwalks => ?_⟩,
    fun paths n k i r l d hwake htime hkey hi hpi hfi hli hn hr hopen hfar => ?_⟩
  · exact ⟨_, State.next_done_congr (State.tryRelease_ready h hrel hready), rfl,
      State.get?_putFlight _ _ _, fun i hi => State.get?_putFlight_other _ hi _⟩
  · exact ⟨_, State.next_done_congr (State.tryRelease_waits h hrel hready), rfl,
      State.get?_putFlight _ _ _, fun i hi => State.get?_putFlight_other _ hi _⟩
  · have hkept : ∀ x, x ∈ (s.tlbiDrop kind sz f).tlb
        ↔ x ∈ s.tlb ∧ State.tlbiSelects kind sz f.x f.y x.region x.va x.leaf = false := by
      simp [State.tlbiDrop, List.mem_filter]
    refine ⟨_, _, State.tlbiAck_proceeds h hkind hrel hready, rfl, rfl, State.sameBytes_of rfl rfl,
      State.get?_putFlight _ _ _, rfl, rfl, hkept, ?_, ?_⟩
    · rintro rfl
      exact List.eq_nil_iff_forall_not_mem.mpr fun x hx => Bool.false_ne_true ((hkept x).mp hx).2.symm
    · rintro x hx rfl hne
      exact (hkept x).mpr ⟨hx, beq_false_of_ne hne⟩
  · have hover : s.tlbiOver f = false := by
      obtain ⟨u, hu, huse⟩ := huses
      exact Bool.eq_false_iff.mpr fun ho => Bool.eq_false_iff.mp ((State.tlbiOver_iff.mp ho).1 u hu) huse
    rw [State.tlbiAck_released h hkind hrel hlease, hover]
    rfl
  · rw [State.tlbiAck_released h hkind hrel hlease, State.tlbiOver_iff.mpr ⟨huses, hwalks⟩]
    exact ⟨_, rfl, rfl, State.get?_putFlight _ _ _⟩
  · have hawaits : State.waitcAwaits (s.warp (warpKey core slot)) (warpKey core slot) paths n f = true := by
      rw [State.waitcAwaits, hkey, beq_self_eq_true, Bool.true_and]
      refine List.any_eq_true.mpr ⟨i, hi, ?_⟩
      rw [hpi, hfi, hli, decide_eq_true (Nat.succ_le_of_lt hn)]
      rfl
    have hreq : s.waitsFar core id r = true := by
      rcases hfar with ⟨hleaf, hpa, hd⟩ | hheld
      · exact State.waitsFar_of_remote hopen hleaf hpa hd
      · exact State.waitsFar_of_held hopen hheld
    rw [State.exec_waitcTimer hwake, if_pos]
    · rfl
    · rw [decide_eq_true htime, Bool.true_and]
      refine List.any_eq_true.mpr ⟨(id, f), Tab.mem_of_get? h, ?_⟩
      rw [hawaits, Bool.true_and]
      exact List.any_eq_true.mpr ⟨r, List.mem_of_getElem? hr, hreq⟩

end Sys2Proof.Machine
end

section
/-!
PROOFS. Page walks (R55, R61): where a miss waits, what a walk's end does for its waiters, and which misses then go on.
-/

namespace Sys2Proof.Machine

namespace Flight

/-- A flight with one of its requests replaced. -/
def withReq (f : Flight) (k : Nat) (r : Req) : Flight := { f with reqs := f.reqs.set k r }

theorem req_withReq {f : Flight} {k : Nat} (hk : k < f.reqs.length) (r : Req) : (f.withReq k r).req k = r := by
  rw [withReq, req, List.getElem?_set_self hk, Option.getD_some]

end Flight

namespace State

variable {s : State} {id k : Nat} {f : Flight}

/-! A request of a page in no TLB (R61). -/

/-- A request of global memory that is in no TLB looks for a walk of its page. -/
theorem advance_misses (h : s.flights.get? id = some f) (hk : k < f.reqs.length) (hopen : (f.req k).done = false)
    (hrel : f.released = true) (hkind : f.kind ≠ .vldv) (hwin : (f.req k).win = .global) (hleaf : (f.req k).leaf = none)
    (htlb : s.tlbLookup f.core f.region (128 * (f.req k).vline) = none) :
    s.advance id k = s.joinWalk id k f (128 * (f.req k).vline) := by
  have hlooked : ¬ ((f.req k).done || !f.released || decide (f.reqs.length ≤ k)) = true := by
    rw [hopen, hrel, decide_eq_false (Nat.not_le.mpr hk)]
    exact Bool.false_ne_true
  simp only [advance, h, if_neg hlooked, beq_false_of_ne hkind, Bool.false_and, Bool.false_eq_true, if_false, hwin, hleaf, htlb]

/-- The walk that a miss starts. -/
def newWalk (s : State) (id k : Nat) (f : Flight) (page : Nat) : Walk :=
  { id := s.nextId, die := f.die, region := f.region, root := f.root, part := f.part, ns := f.ns, page := page
    waiters := [(id, k)] }

variable {va : Nat}

/-- There is room on the walk of a request's page, or for a new one. -/
theorem walkRoom_of_none (h : s.pageWalk f.die f.region f.root (va / 65536) = none) :
    s.walkRoom f va = decide (s.walksOf f.die < 64) := by
  rw [walkRoom, h]

theorem walkRoom_of_some {x : Walk} (h : s.pageWalk f.die f.region f.root (va / 65536) = some x) :
    s.walkRoom f va = decide (x.waiters.length < 256) := by
  rw [walkRoom, h]

theorem joinWalk_starts (hpage : s.pageWalk f.die f.region f.root (va / 65536) = none) (hroom : s.walksOf f.die < 64) :
    s.joinWalk id k f va = { s with
      nextId := s.nextId + 1, agenda := s.agenda ++ [.walkComplete s.nextId]
      walks := s.walks ++ [s.newWalk id k f (va / 65536)] } := by
  simp only [joinWalk, (walkRoom_of_none hpage).trans (decide_eq_true hroom), Bool.not_true, Bool.false_eq_true, if_false, hpage]
  rfl

theorem joinWalk_joins {x : Walk} (hpage : s.pageWalk f.die f.region f.root (va / 65536) = some x)
    (hroom : x.waiters.length < 256) :
    s.joinWalk id k f va = s.setWalk x.id fun y => { y with waiters := y.waiters ++ [(id, k)] } := by
  simp only [joinWalk, (walkRoom_of_some hpage).trans (decide_eq_true hroom), Bool.not_true, Bool.false_eq_true, if_false, hpage]

theorem walkRoom_eq_false (h : (s.pageWalk f.die f.region f.root (va / 65536) = none ∧ 64 ≤ s.walksOf f.die)
      ∨ ∃ x, s.pageWalk f.die f.region f.root (va / 65536) = some x ∧ 256 ≤ x.waiters.length) :
    s.walkRoom f va = false := by
  rcases h with ⟨hpage, hfull⟩ | ⟨x, hpage, hfull⟩
  · exact (walkRoom_of_none hpage).trans (decide_eq_false (Nat.not_lt.mpr hfull))
  · exact (walkRoom_of_some hpage).trans (decide_eq_false (Nat.not_lt.mpr hfull))

theorem joinWalk_queues (h : s.walkRoom f va = false) : s.joinWalk id k f va = s.queueMiss id k := by
  simp only [joinWalk, h, Bool.not_false, if_true]

theorem queueMiss_eq (s : State) (id k : Nat) :
    s.queueMiss id k = { s with missq := if (id, k) ∈ s.missq then s.missq else s.missq ++ [(id, k)] } := by
  unfold queueMiss
  by_cases h : (id, k) ∈ s.missq
  · simp [h]
  · simp [h]

/-! The miss queues (R61): what serving them leaves as it is. -/

/-- From `s`, misses have gone on to `t`: no flight and no TLB has changed, messages were only sent, and a walk is new or
was there before. -/
structure Onward (s t : State) : Prop where
  flights : t.flights = s.flights
  tlb : t.tlb = s.tlb
  agenda : ∃ more, t.agenda = s.agenda ++ more
  nextId : s.nextId ≤ t.nextId
  walks : ∀ n < s.nextId, (∀ x ∈ s.walks, x.id ≠ n) → ∀ x ∈ t.walks, x.id ≠ n

theorem Onward.refl (s : State) : Onward s s := ⟨rfl, rfl, ⟨[], (List.append_nil _).symm⟩, le_rfl, fun _ _ h => h⟩

theorem Onward.trans {s t u : State} (h : Onward s t) (g : Onward t u) : Onward s u where
  flights := g.flights.trans h.flights
  tlb := g.tlb.trans h.tlb
  agenda := by
    obtain ⟨a, ha⟩ := h.agenda
    obtain ⟨b, hb⟩ := g.agenda
    exact ⟨a ++ b, by rw [hb, ha, List.append_assoc]⟩
  nextId := h.nextId.trans g.nextId
  walks n hn hs := g.walks n (hn.trans_le h.nextId) (h.walks n hn hs)

theorem Onward.foldl {α : Type} {g : State → α → State} (h : ∀ s a, Onward s (g s a)) (l : List α) (s : State) :
    Onward s (l.foldl g s) := by
  induction l generalizing s with
  | nil => exact .refl s
  | cons a l ih => exact (h s a).trans (ih _)

theorem onward_push (s : State) (is : List Instr) : Onward s (s.push is) :=
  ⟨rfl, rfl, ⟨is, rfl⟩, le_rfl, fun _ _ h => h⟩

theorem onward_missq (s : State) (q : List (Nat × Nat)) : Onward s { s with missq := q } :=
  ⟨rfl, rfl, ⟨[], (List.append_nil _).symm⟩, le_rfl, fun _ _ h => h⟩

theorem onward_filter (s : State) (p : Walk → Bool) (q : List (Nat × Nat)) :
    Onward s { s with walks := s.walks.filter p, missq := q } :=
  ⟨rfl, rfl, ⟨[], (List.append_nil _).symm⟩, le_rfl, fun _ _ h x hx => h x (List.mem_of_mem_filter hx)⟩

/-- An update of a walk that keeps its number. -/
theorem onward_setWalk (s : State) (i : Nat) {g : Walk → Walk} (hg : ∀ x, (g x).id = x.id) : Onward s (s.setWalk i g) := by
  refine ⟨rfl, rfl, ⟨[], (List.append_nil _).symm⟩, le_rfl, fun n _ h x hx => ?_⟩
  obtain ⟨y, hy, rfl⟩ := List.mem_map.mp hx
  have := h y hy
  split
  · rwa [hg]
  · exact this

theorem onward_queueMiss (s : State) (id k : Nat) : Onward s (s.queueMiss id k) := by
  rw [queueMiss_eq]
  exact s.onward_missq _

theorem onward_joinWalk (s : State) (id k : Nat) (f : Flight) (va : Nat) : Onward s (s.joinWalk id k f va) := by
  cases hroom : s.walkRoom f va with
  | false =>
    rw [joinWalk_queues hroom]
    exact s.onward_queueMiss id k
  | true =>
    cases hpage : s.pageWalk f.die f.region f.root (va / 65536) with
    | some x =>
      rw [joinWalk_joins hpage (of_decide_eq_true ((walkRoom_of_some hpage).symm.trans hroom))]
      exact s.onward_setWalk _ fun _ => rfl
    | none =>
      rw [joinWalk_starts hpage (of_decide_eq_true ((walkRoom_of_none hpage).symm.trans hroom))]
      refine ⟨rfl, rfl, ⟨_, rfl⟩, Nat.le_succ _, fun n hn h x hx => ?_⟩
      rcases List.mem_append.mp hx with hx | hx
      · exact h x hx
      · rw [List.mem_singleton.mp hx]
        exact hn.ne'

theorem onward_serveWalk (s : State) (w : Walk) : Onward s (s.serveWalk w) := by
  unfold serveWalk
  split
  next x _ =>
    split
    · exact .refl s
    · exact (s.onward_setWalk x.id (g := fun x => { x with waiters := x.waiters ++ w.waiters }) fun _ => rfl).trans
        (onward_filter _ _ _)
  next =>
    split
    · exact .refl s
    · exact ((s.onward_setWalk w.id (g := fun x => { x with queued := false }) fun _ => rfl).trans
        (onward_missq _ (s.missq.filter (· != (0, w.id))))).trans (onward_push _ _)

theorem onward_serveMiss (s : State) (e : Nat × Nat) : Onward s (s.serveMiss e) := by
  unfold serveMiss
  split
  · split
    · exact s.onward_serveWalk _
    · exact .refl s
  · split
    · exact .refl s
    · dsimp only
      split
      · exact (s.onward_missq _).trans (onward_push _ _)
      · split
        · exact (s.onward_missq _).trans (onward_joinWalk _ _ _ _ _)
        · exact .refl s

theorem onward_serveMisses (s : State) (die : Nat) : Onward s (s.serveMisses die) := Onward.foldl onward_serveMiss _ s

/-! A walk's end for a waiter (R59, R61). -/

theorem head_keepFirst {α : Type} {p : α → Bool} {n : Nat} (hn : 0 < n) {e : α} (he : p e = true) (l : List α) :
    (keepFirst p n (e :: l)).head? = some e := by
  obtain ⟨m, rfl⟩ := Nat.exists_eq_succ_of_ne_zero hn.ne'
  rw [keepFirst, if_pos he]
  rfl

theorem TlbEnt.ways_pos (e : TlbEnt) : 0 < TlbEnt.ways e := by
  unfold TlbEnt.ways
  split
  · split <;> decide
  · decide

/-- The entry a TLB takes stands first. -/
theorem head_tlbPut (t : List TlbEnt) (e : TlbEnt) : (tlbPut t e).head? = some e := by
  unfold tlbPut
  exact head_keepFirst (TlbEnt.ways_pos e) (by simp) _

theorem tlbLookup_congr {s t : State} (h : t.tlb = s.tlb) (core region va : Nat) :
    t.tlbLookup core region va = s.tlbLookup core region va := by
  rw [tlbLookup, tlbLookup, h]

/-- A fill is found again at once. -/
theorem tlbLookup_tlbFill (s : State) (core region va : Nat) (l : Leaf) :
    (s.tlbFill core region va l).tlbLookup core region va = some l := by
  let e : TlbEnt := { core := core, rod := none, region := region, va := va, leaf := l }
  obtain ⟨rest, hrest⟩ := List.head?_eq_some_iff.mp (head_tlbPut (tlbPut s.tlb { e with rod := some (rodOf core) }) e)
  have htlb : (s.tlbFill core region va l).tlb = e :: rest := hrest
  have hhits : (e.core == core && e.rod == none && TlbEnt.hits e region va) = true := by simp [e, TlbEnt.hits]
  rw [tlbLookup, htlb, List.find?_cons, hhits]

theorem modReq_of_get? (h : s.flights.get? id = some f) (g : Req → Req) :
    s.modReq id k g = s.putFlight id (f.withReq k (g (f.req k))) := modFlight_of_get? h _

/-- A message that is sent at most once goes on. -/
theorem onward_pushNew (s : State) (i : Instr) : Onward s (s.pushNew i) := by
  unfold pushNew
  split
  · exact .refl s
  · exact s.onward_push _

/-- A finished request stands in its flight, and a message may go on. -/
theorem finishReq_spec (h : s.flights.get? id = some f) (g : Req → Req) :
    Onward (s.putFlight id (f.withReq k { g (f.req k) with done := true, sent := false })) (s.finishReq id k g) := by
  rw [finishReq, modReq_of_get? h]
  dsimp only
  rw [get?_putFlight]
  dsimp only
  split
  · exact .refl _
  · exact onward_pushNew _ _

theorem endWait_leaf {w : Walk} {l : Leaf} (hid : id ≠ 0) (h : s.flights.get? id = some f) :
    s.endWait w (id, k) (.leaf l) = ((s.tlbFill f.core f.region (128 * (f.req k).vline) l).putFlight id
      (f.withReq k { f.req k with leaf := some l, pa := l.phys (128 * (f.req k).vline) })).push [.tlbMissWalk id k] := by
  have hfill : (s.tlbFill f.core f.region (128 * (f.req k).vline) l).flights.get? id = some f := h
  rw [← modReq_of_get? hfill fun r => { r with leaf := some l, pa := l.phys (128 * (f.req k).vline) }, endWait, if_neg hid]
  dsimp only
  rw [h]
  rfl

theorem endWait_fail {w : Walk} {c : Cause} {level tier : Nat} (hid : id ≠ 0) (h : s.flights.get? id = some f)
    (hkind : f.kind = .load) :
    s.endWait w (id, k) (.fail c level tier) = s.finishReq id k fun r => { r with fail := some (c, level), tier := tier } := by
  have hvstb : ¬ (f.kind == FKind.vstb) = true := by rw [hkind]; decide
  unfold endWait
  rw [if_neg hid]
  dsimp only
  rw [h]
  dsimp only
  rw [hkind]
  dsimp only
  rw [failReq, h]
  dsimp only
  rw [if_neg hvstb]

/-! A walk's end (R55, R61). -/

variable {walk : Nat} {w : Walk} {s' : State}

/-- A walk at a held leaf: it is walked again 1 µs later (R55). -/
def holdWalk (s : State) (walk : Nat) : State := s.setWalk walk fun x => { x with held := true, at' := s.now x.die + 1000 }

/-- The walks without one that has ended. -/
def dropWalk (s : State) (walk : Nat) : State := { s with walks := s.walks.filter (·.id != walk) }

theorem dropWalk_ne (s : State) (walk : Nat) : ∀ x ∈ (s.dropWalk walk).walks, x.id ≠ walk :=
  fun _ hx => bne_iff_ne.mp (List.mem_filter.mp hx).2

theorem heldLeafRewalk_restarts (hfind : s.walks.find? (fun x => x.id == walk && x.held && x.at' ≤ s.now x.die) = some w)
    (hroom : s.walksOf w.die < 64) : exec (.heldLeafRewalk walk) s = .next
      ((s.setWalk walk fun x => { x with held := false }).push [.walkComplete walk]).done := by
  show execHeldLeafRewalk walk s = _
  rw [execHeldLeafRewalk, hfind]
  dsimp only
  rw [if_neg (Nat.not_le.mpr hroom)]

/-! Who gets a slot (R61). -/

theorem missOf_flight (hid : id ≠ 0) (h : s.flights.get? id = some f) : s.missOf (id, k) = some (f.die, f.cls) := by
  rw [missOf, if_neg hid, h]
  rfl

/-- A miss of a page that is in no TLB by now goes on if its walk has room for it, or there is a slot for a new one. -/
theorem serveMiss_flight (hid : id ≠ 0) (h : s.flights.get? id = some f)
    (htlb : s.tlbLookup f.core f.region (128 * (f.req k).vline) = none) :
    s.serveMiss (id, k) = if s.walkRoom f (128 * (f.req k).vline) then
      ({ s with missq := s.missq.filter (· != (id, k)) } : State).joinWalk id k f (128 * (f.req k).vline) else s := by
  have hmiss : ¬ (s.tlbLookup f.core f.region (128 * (f.req k).vline)).isSome = true := by simp [htlb]
  rw [serveMiss, if_neg hid]
  dsimp only
  rw [h]
  exact if_neg hmiss

theorem serveMiss_starts (hid : id ≠ 0) (h : s.flights.get? id = some f)
    (htlb : s.tlbLookup f.core f.region (128 * (f.req k).vline) = none)
    (hpage : s.pageWalk f.die f.region f.root (128 * (f.req k).vline / 65536) = none) (hroom : s.walksOf f.die < 64) :
    s.serveMiss (id, k) = { s with
      missq := s.missq.filter (· != (id, k)), nextId := s.nextId + 1, agenda := s.agenda ++ [.walkComplete s.nextId]
      walks := s.walks ++ [s.newWalk id k f (128 * (f.req k).vline / 65536)] } := by
  rw [serveMiss_flight hid h htlb, if_pos ((walkRoom_of_none hpage).trans (decide_eq_true hroom))]
  exact joinWalk_starts (s := { s with missq := s.missq.filter (· != (id, k)) }) hpage hroom

theorem serveMiss_stays (hid : id ≠ 0) (h : s.flights.get? id = some f)
    (htlb : s.tlbLookup f.core f.region (128 * (f.req k).vline) = none)
    (hfull : s.walkRoom f (128 * (f.req k).vline) = false) : s.serveMiss (id, k) = s := by
  rw [serveMiss_flight hid h htlb, if_neg (ne_true_of_eq_false hfull)]

theorem serveMisses_nil (h : s.missq = []) (die : Nat) : s.serveMisses die = s := by
  rw [serveMisses, h]
  rfl

/-- The last slot goes to the miss of class 0, though another came earlier. -/
theorem serveMisses_class0 {i a j b die : Nat} {g h : Flight} (hq : s.missq = [(i, a), (j, b)]) (hi : i ≠ 0) (hj : j ≠ 0)
    (hg : s.flights.get? i = some g) (hh : s.flights.get? j = some h) (hgd : g.die = die) (hhd : h.die = die)
    (hgc : g.cls ≠ 0) (hhc : h.cls = 0) (hslots : s.walksOf die = 63)
    (hpages : 128 * (g.req a).vline / 65536 ≠ 128 * (h.req b).vline / 65536)
    (hgp : s.pageWalk g.die g.region g.root (128 * (g.req a).vline / 65536) = none)
    (hhp : s.pageWalk h.die h.region h.root (128 * (h.req b).vline / 65536) = none)
    (hgt : s.tlbLookup g.core g.region (128 * (g.req a).vline) = none)
    (hht : s.tlbLookup h.core h.region (128 * (h.req b).vline) = none) :
    s.serveMisses die = { s with
      missq := [(i, a)], nextId := s.nextId + 1, agenda := s.agenda ++ [.walkComplete s.nextId]
      walks := s.walks ++ [s.newWalk j b h (128 * (h.req b).vline / 65536)] } := by
  have hne : (i, a) ≠ (j, b) := fun he => hgc (by
    obtain ⟨rfl, rfl⟩ := Prod.mk.inj he
    rw [hg] at hh
    exact Option.some.inj hh ▸ hhc)
  have horder : s.serveMisses die = (s.serveMiss (j, b)).serveMiss (i, a) := by
    rw [serveMisses]
    simp [hq, missOf_flight hi hg, missOf_flight hj hh, hgd, hhd, hgc, hhc]
  have hleft : s.missq.filter (· != (j, b)) = [(i, a)] := by simp [hq, hne]
  rw [horder, serveMiss_starts hj hh hht hhp (by rw [hhd, hslots]; decide), hleft]
  refine serveMiss_stays hi hg hgt (walkRoom_eq_false (.inl ⟨?_, ?_⟩))
  · show List.find? _ (s.walks ++ _) = none
    rw [List.find?_append, show s.walks.find? _ = none from hgp]
    simp [newWalk, hpages.symm]
  · show 64 ≤ (List.filter _ (s.walks ++ _)).length
    rw [List.filter_append, List.length_append, show (s.walks.filter _).length = 63 from hgd ▸ hslots]
    simp [newWalk, hgd, hhd]

/-- A page without a walk is still without one when a walk is held. -/
theorem pageWalk_holdWalk_eq_none {die region root page : Nat} (h : s.pageWalk die region root page = none) :
    (s.holdWalk walk).pageWalk die region root page = none := by
  refine List.find?_eq_none.mpr fun x hx => ?_
  obtain ⟨y, hy, rfl⟩ := List.mem_map.mp hx
  have hnot := List.find?_eq_none.mp h y hy
  split
  · exact hnot
  · exact hnot

/-! A walk that is under way ends (R55, R59, R61). -/

section
variable (hfind : s.walks.find? (fun x => x.id == walk && !x.held && !x.queued) = some w)
include hfind

theorem walkComplete_waits (hwalk : s.walk w.root (65536 * w.page) w.part w.ns = (s', .wait)) :
    exec (.walkComplete walk) s = .next (s'.push [.walkComplete walk]).done := by
  show execWalkComplete walk s = _
  rw [execWalkComplete, hfind]
  dsimp only
  rw [hwalk]

theorem walkComplete_held (hwalk : s.walk w.root (65536 * w.page) w.part w.ns = (s', .held)) :
    exec (.walkComplete walk) s = .next ((s'.holdWalk walk).serveMisses w.die).done := by
  show execWalkComplete walk s = _
  rw [execWalkComplete, hfind]
  dsimp only
  rw [hwalk]
  rfl

/-- A walk that reaches a leaf, or fails, ends for its one waiter, and its slot serves the miss queues. -/
theorem walkComplete_ends {r : WalkRes} (hwaiter : w.waiters = [(id, k)])
    (hwalk : s.walk w.root (65536 * w.page) w.part w.ns = (s', r)) (hwait : r ≠ .wait) (hheld : r ≠ .held) :
    exec (.walkComplete walk) s = .next (((s'.dropWalk walk).endWait w (id, k) r).serveMisses w.die).done := by
  show execWalkComplete walk s = _
  rw [execWalkComplete, hfind]
  dsimp only
  rw [hwalk, hwaiter]
  cases r with
  | leaf l => rfl
  | fail c level tier => rfl
  | held => exact absurd rfl hheld
  | wait => exact absurd rfl hwait

/-- Everything a walk that reaches its leaf does for its one waiter (R61). -/
theorem walkComplete_leaf_spec {l : Leaf} (hwaiter : w.waiters = [(id, k)]) (hid : id ≠ 0)
    (hwalk : s.walk w.root (65536 * w.page) w.part w.ns = (s', .leaf l)) (h : s'.flights.get? id = some f)
    (hk : k < f.reqs.length) (hfresh : walk < s'.nextId) :
    ∃ t g more, exec (.walkComplete walk) s = .next t ∧ t.out = .done ∧ (∀ x ∈ t.walks, x.id ≠ walk)
      ∧ t.agenda = s'.agenda ++ .tlbMissWalk id k :: more ∧ t.flights.get? id = some g ∧ (g.req k).leaf = some l
      ∧ (g.req k).pa = l.phys (128 * (f.req k).vline)
      ∧ t.tlbLookup f.core f.region (128 * (f.req k).vline) = some l := by
  let g := f.withReq k { f.req k with leaf := some l, pa := l.phys (128 * (f.req k).vline) }
  have hreq : g.req k = _ := Flight.req_withReq hk _
  have hend : (s'.dropWalk walk).endWait w (id, k) (.leaf l) = _ := endWait_leaf hid h
  have hon := onward_serveMisses ((s'.dropWalk walk).endWait w (id, k) (.leaf l)) w.die
  have hflight : ((s'.dropWalk walk).endWait w (id, k) (.leaf l)).flights.get? id = some g := by
    rw [hend]
    exact get?_putFlight _ _ _
  obtain ⟨more, hmore⟩ := hon.agenda
  refine ⟨_, g, more, walkComplete_ends hfind hwaiter hwalk nofun nofun, rfl, hon.walks walk ?_ ?_, hmore.trans ?_,
    (congrArg (·.get? id) hon.flights).trans hflight, congrArg Req.leaf hreq, congrArg Req.pa hreq,
    (tlbLookup_congr hon.tlb _ _ _).trans ?_⟩
  · rw [hend]
    exact hfresh
  · rw [hend]
    exact s'.dropWalk_ne walk
  · rw [hend]
    exact List.append_assoc _ _ _
  · rw [hend]
    exact tlbLookup_tlbFill (s'.dropWalk walk) _ _ _ _

/-- Everything a walk that fails does to the load that waits for it (R59, R61). -/
theorem walkComplete_fail_spec {c : Cause} {level tier : Nat} (hwaiter : w.waiters = [(id, k)]) (hid : id ≠ 0)
    (hwalk : s.walk w.root (65536 * w.page) w.part w.ns = (s', .fail c level tier)) (h : s'.flights.get? id = some f)
    (hk : k < f.reqs.length) (hkind : f.kind = .load) (hfresh : walk < s'.nextId) :
    ∃ t g, exec (.walkComplete walk) s = .next t ∧ t.out = .done ∧ (∀ x ∈ t.walks, x.id ≠ walk)
      ∧ t.flights.get? id = some g ∧ (g.req k).fail = some (c, level) ∧ (g.req k).tier = tier ∧ (g.req k).done = true := by
  let g := f.withReq k { f.req k with fail := some (c, level), tier := tier, done := true, sent := false }
  have hreq : g.req k = _ := Flight.req_withReq hk _
  have hend : (s'.dropWalk walk).endWait w (id, k) (.fail c level tier) = _ := endWait_fail hid h hkind
  have hon : Onward ((s'.dropWalk walk).putFlight id g)
      (((s'.dropWalk walk).endWait w (id, k) (.fail c level tier)).serveMisses w.die) := by
    rw [hend]
    exact (finishReq_spec (s := s'.dropWalk walk) h fun r => { r with fail := some (c, level), tier := tier }).trans
      (onward_serveMisses _ _)
  exact ⟨_, g, walkComplete_ends hfind hwaiter hwalk nofun nofun, rfl, hon.walks walk hfresh (s'.dropWalk_ne walk),
    (congrArg (·.get? id) hon.flights).trans (get?_putFlight _ _ _), congrArg Req.fail hreq, congrArg Req.tier hreq,
    congrArg Req.done hreq⟩

end

end State

/-- Settles O24: a miss by `advance_misses` and what `joinWalk` does, a walk's end by how it ends, and the slot it gives up by
`serveMisses_class0`. -/
theorem walks : Obligations.Walks := by
  refine fun s id k walk f w => ⟨fun h hk hopen hrel hkind hwin hleaf htlb => ?_,
    fun hfind hwaiter hid s' => ⟨fun l hwalk h hk hfresh => ?_, fun c n tier hwalk h hk hkind hfresh => ?_, fun hwalk => ?_,
      fun hwalk => ⟨fun hq => ?_, fun i a g j b h hq hi hj hg hh hgd hhd hgc hhc hslots hpages hgp hhp hgt hht => ?_⟩⟩,
    fun hfind hroom => ?_⟩
  · have hadv : exec (.tlbMissWalk id k) s = .next (s.joinWalk id k f (128 * (f.req k).vline)).done :=
      State.next_done_congr (State.advance_misses h hk hopen hrel (by rw [hkind]; decide) hwin hleaf htlb)
    refine ⟨fun hpage hroom => ?_, fun x hpage hroom => ?_, fun hfull => ?_⟩
    · rw [hadv, State.joinWalk_starts hpage hroom]
      rfl
    · rw [hadv, State.joinWalk_joins hpage hroom]
      rfl
    · rw [hadv, State.joinWalk_queues (State.walkRoom_eq_false hfull), State.queueMiss_eq]
      rfl
  · exact State.walkComplete_leaf_spec hfind hwaiter hid hwalk h hk hfresh
  · exact State.walkComplete_fail_spec hfind hwaiter hid hwalk h hk hkind hfresh
  · exact State.walkComplete_waits hfind hwalk
  · rw [State.walkComplete_held hfind hwalk, State.serveMisses_nil (s := s'.holdWalk walk) hq]
    rfl
  · rw [State.walkComplete_held hfind hwalk, State.serveMisses_class0 (s := s'.holdWalk walk) hq hi hj hg hh hgd hhd hgc hhc
      hslots hpages (State.pageWalk_holdWalk_eq_none hgp) (State.pageWalk_holdWalk_eq_none hhp) hgt hht]
    rfl
  · exact State.heldLeafRewalk_restarts hfind hroom

end Sys2Proof.Machine
end

section
/-!
PROOFS. The configuration window (R49, R50): which register a write reaches, and what the registers' writes start (R102, R115,
R314, R344, R345, R399).
-/

namespace Sys2Proof.Machine

/-! The register at an address (R49, R50). -/

/-- Every register lies in the first 4 GiB of its die's part. -/
theorem cfgRegAt_lt {off : Nat} {r : CfgReg} (h : cfgRegAt off = some r) : off < 2 ^ 32 := by
  by_contra hbig
  have hlt : ∀ n ≤ 2 ^ 32, ¬ off < n := by omega
  have hne : ∀ n < 2 ^ 32, ¬ off = n := by omega
  simp [cfgRegAt, hlt, hne] at h

/-- A register is reached at its address on its die, by an access of its width alone. -/
theorem cfgTarget_of_cfgRegAt {die off : Nat} {r : CfgReg} (hdie : die < 24) (h : cfgRegAt off = some r) (w64 : Bool) :
    cfgTarget (die * 2 ^ 32 + off) w64 = if r.w64 == w64 then some (die, r) else none := by
  have hoff := cfgRegAt_lt h
  have hd : bits (die * 2 ^ 32 + off) 32 8 = die := by rw [bits]; omega
  have htop : bits (die * 2 ^ 32 + off) 40 8 = 0 := by rw [bits]; omega
  have hlow : (die * 2 ^ 32 + off) % 2 ^ 32 = off := by omega
  rw [cfgTarget, hd, htop, hlow, if_neg (by simpa using hdie), h]

namespace State

variable {s : State} {die off : Nat} {r : CfgReg}

theorem cfgWrite_register (hdie : die < 24) (h : cfgRegAt off = some r) (v : Nat) :
    exec (.configRegisterWrite (die * 2 ^ 32 + off) r.w64 v) s = .next (s.cfgSet die r v).done := by
  show execConfigRegisterWrite _ _ _ _ = _
  rw [execConfigRegisterWrite, cfgWrite, cfgTarget_of_cfgRegAt hdie h, beq_self_eq_true]
  rfl

theorem cfgWrite_none {pa : Nat} {w64 : Bool} (h : cfgTarget pa w64 = none) (v : Nat) :
    exec (.configRegisterWrite pa w64 v) s = .next s.done := by
  show execConfigRegisterWrite _ _ _ _ = _
  rw [execConfigRegisterWrite, cfgWrite, h]

theorem cfgWrite_otherWidth (hdie : die < 24) (h : cfgRegAt off = some r) (v : Nat) :
    exec (.configRegisterWrite (die * 2 ^ 32 + off) (!r.w64) v) s = .next s.done :=
  cfgWrite_none (by rw [cfgTarget_of_cfgRegAt hdie h, if_neg (by simp)]) v

/-! Fields of dies, slices and cores after an update. -/

@[simp] theorem die_done (s : State) (d : Nat) : s.done.die d = s.die d := rfl
@[simp] theorem die_push (s : State) (is : List Instr) (d : Nat) : (s.push is).die d = s.die d := rfl
@[simp] theorem slc_push (s : State) (is : List Instr) (d sc : Nat) : (s.push is).slc d sc = s.slc d sc := rfl
@[simp] theorem core_push (s : State) (is : List Instr) (c : Nat) : (s.push is).core c = s.core c := rfl
@[simp] theorem core_modDie (s : State) (d : Nat) (f : Die → Die) (c : Nat) : (s.modDie d f).core c = s.core c := rfl

/-- An update of a die that keeps a field keeps it on every die. -/
theorem die_modDie_kept {α : Type} (s : State) (p : Die → α) (d k : Nat) {f : Die → Die} (hf : ∀ x, p (f x) = p x) :
    p ((s.modDie d f).die k) = p (s.die k) := by
  by_cases h : k = d
  · rw [h, die_modDie, hf]
  · rw [die_modDie_other _ h]

theorem slc_modDie_kept (s : State) (d k sc : Nat) {f : Die → Die} (hf : ∀ x, (f x).slices = x.slices) :
    (s.modDie d f).slc k sc = s.slc k sc :=
  congrArg (·.get sc {}) (s.die_modDie_kept (·.slices) d k hf)

@[simp] theorem slc_modSlice (s : State) (die sc : Nat) (f : Slice → Slice) :
    (s.modSlice die sc f).slc die sc = f (s.slc die sc) := by
  rw [modSlice, slc, die_modDie]
  exact Tab.get_put_same _ _ _ _

@[simp] theorem preempt_endPreempt (s : State) (c n : Nat) : ((s.endPreempt c n).core c).preempt
    = { (s.core c).preempt with busy := false, saving := false, blks := [], result := n } := by
  rw [endPreempt, core_modCore]

/-! Dead agents (R101, R102). -/

/-- DEAD_CTL names an agent. -/
def nameDead (s : State) (die kind agent : Nat) : State := s.modDie die ({ · with deadKind := kind, deadAgent := agent })

/-- The scrub of an agent begins. -/
def startScrub (s : State) (die kind agent : Nat) : State :=
  (s.modDie die ({ · with deadBusy := true, scrubKind := kind, scrubAgent := agent })).push [.scrubComplete die]

theorem startScrub_spec (s : State) (die kind agent : Nat) :
    ((s.startScrub die kind agent).die die).deadBusy = true
      ∧ (s.startScrub die kind agent).agenda = s.agenda ++ [.scrubComplete die] := by
  rw [startScrub, die_push, die_modDie]
  exact ⟨rfl, rfl⟩

/-- A die that is declared dead. -/
def markDead (s : State) (agent : Nat) : State := s.modDie agent ({ · with dead := true })

theorem slc_nameDead (s : State) (die kind agent d sc : Nat) : (s.nameDead die kind agent).slc d sc = s.slc d sc :=
  s.slc_modDie_kept die d sc fun _ => rfl
theorem incs_nameDead (s : State) (die kind agent d : Nat) : ((s.nameDead die kind agent).die d).incs = (s.die d).incs :=
  s.die_modDie_kept (·.incs) die d fun _ => rfl
theorem incs_markDead (s : State) (agent d : Nat) : ((s.markDead agent).die d).incs = (s.die d).incs :=
  s.die_modDie_kept (·.incs) agent d fun _ => rfl
theorem slc_startScrub (s : State) (die kind agent d sc : Nat) : (s.startScrub die kind agent).slc d sc = s.slc d sc := by
  rw [startScrub, slc_push]
  exact s.slc_modDie_kept die d sc fun _ => rfl
theorem dead_startScrub (s : State) (die kind agent d : Nat) : ((s.startScrub die kind agent).die d).dead = (s.die d).dead := by
  rw [startScrub, die_push]
  exact s.die_modDie_kept (·.dead) die d fun _ => rfl
theorem incs_startScrub (s : State) (die kind agent d : Nat) : ((s.startScrub die kind agent).die d).incs = (s.die d).incs := by
  rw [startScrub, die_push]
  exact s.die_modDie_kept (·.incs) die d fun _ => rfl

/-- DEAD_CTL accepts an agent there is, while no scrub is under way. -/
theorem declareDead_accepted {agent : Nat} (hbusy : (s.die die).deadBusy = false) (hagent : agent < 32) (kind : Nat)
    (hkind : kind < 3) (hdie : kind = 2 → agent < 24) :
    ¬ (decide (3 ≤ kind) || decide (32 ≤ agent) || (decide (kind = 2) && decide (24 ≤ agent))
      || ((s.nameDead die kind agent).die die).deadBusy) = true := by
  have hnamed : ((s.nameDead die kind agent).die die).deadBusy = false := by
    rw [nameDead, die_modDie]
    exact hbusy
  simp only [hnamed, Bool.or_false, Bool.or_eq_true, Bool.and_eq_true, decide_eq_true_iff]
  omega

/-- The incarnation of an agent declared dead rises (R101, R102). -/
def raiseInc (s : State) (die kind agent : Nat) : State :=
  match kind with
  | 0 => s.modCore (32 * die + agent) fun c => { c with inc := (c.inc + 1) % 256 }
  | 1 => s.modSlice die agent fun x => { x with inc := (x.inc + 1) % 256, dead := true }
  | _ => (s.modDie die fun d => { d with incs := d.incs.put agent ((d.incs.get agent 0 + 1) % 256) }).markDead agent

theorem declareDead_eq {agent : Nat} (hbusy : (s.die die).deadBusy = false) (hagent : agent < 32) (kind : Nat)
    (hkind : kind < 3) (hdie : kind = 2 → agent < 24) :
    s.declareDead die kind agent = ((s.nameDead die kind agent).raiseInc die kind agent).startScrub die kind agent := by
  have haccepted := declareDead_accepted hbusy hagent kind hkind hdie
  unfold declareDead
  rw [← nameDead]
  dsimp only
  rw [if_neg haccepted]
  rfl

theorem deadCore_spec {agent : Nat} (hbusy : (s.die die).deadBusy = false) (hagent : agent < 32) :
    ∃ t, exec (.deadCore die agent) s = .next t ∧ t.out = .done
      ∧ (t.core (32 * die + agent)).inc = ((s.core (32 * die + agent)).inc + 1) % 256
      ∧ (t.die die).deadBusy = true ∧ t.agenda = s.agenda ++ [.scrubComplete die] := by
  refine ⟨_, next_done_congr (declareDead_eq hbusy hagent 0 (by decide) nofun), rfl, ?_, startScrub_spec _ _ _ _⟩
  rw [core_done, startScrub, core_push, core_modDie, raiseInc, core_modCore, nameDead, core_modDie]

theorem deadSlice_spec {agent : Nat} (hbusy : (s.die die).deadBusy = false) (hagent : agent < 32) :
    ∃ t, exec (.deadSlice die agent) s = .next t ∧ t.out = .done
      ∧ (t.slc die agent).inc = ((s.slc die agent).inc + 1) % 256 ∧ (t.slc die agent).dead = true
      ∧ (t.die die).deadBusy = true ∧ t.agenda = s.agenda ++ [.scrubComplete die] := by
  have hslc : (((s.nameDead die 1 agent).raiseInc die 1 agent).startScrub die 1 agent).slc die agent
      = { s.slc die agent with inc := ((s.slc die agent).inc + 1) % 256, dead := true } := by
    rw [slc_startScrub, raiseInc, slc_modSlice, slc_nameDead]
  exact ⟨_, next_done_congr (declareDead_eq hbusy hagent 1 (by decide) nofun), rfl,
    congrArg Slice.inc hslc, congrArg Slice.dead hslc, startScrub_spec _ _ _ _⟩

theorem deadDie_spec {agent : Nat} (hbusy : (s.die die).deadBusy = false) (hagent : agent < 24) :
    ∃ t, exec (.deadDie die agent) s = .next t ∧ t.out = .done ∧ (t.die agent).dead = true
      ∧ (t.die die).incs.get agent 0 = ((s.die die).incs.get agent 0 + 1) % 256
      ∧ (t.die die).deadBusy = true ∧ t.agenda = s.agenda ++ [.scrubComplete die] := by
  refine ⟨_, next_done_congr (declareDead_eq hbusy (by omega) 2 (by decide) fun _ => hagent), rfl, ?_, ?_,
    startScrub_spec _ _ _ _⟩
  · rw [die_done, dead_startScrub, raiseInc, markDead, die_modDie]
    · exact nofun
    · exact nofun
  · rw [die_done, incs_startScrub, raiseInc, incs_markDead, die_modDie, incs_nameDead, Tab.get_put_same]
    · exact nofun
    · exact nofun

/-! Bundle tables and the device id (R115, R399). -/

theorem bundlesLive_iff : s.bundlesLive die = true ↔ ∃ r ∈ s.brecs, r.die = die ∧ r.st ≠ 0 := by
  simp [bundlesLive]

theorem bundleWrites_held (hlive : s.bundlesLive die = true) (versions : Bool) (v : Nat) :
    s.bundleBase die versions v = s ∧ s.devIdSet die v = s := ⟨if_pos hlive, if_pos hlive⟩

theorem bundleWrites_taken (hlive : s.bundlesLive die = false) (versions : Bool) (v : Nat) :
    (s.bundleBase die versions v).die die = (if versions then { s.die die with vbase := some (v / 2 ^ 25 % 2 ^ 27 * 2 ^ 25) }
        else { s.die die with bbase := some (v / 2 ^ 22 % 2 ^ 30 * 2 ^ 22) })
      ∧ (s.devIdSet die v).die die = { s.die die with devId := v % 4096 } := by
  rw [bundleBase, devIdSet, hlive, if_neg Bool.false_ne_true, if_neg Bool.false_ne_true, die_modDie, die_modDie]
  exact ⟨rfl, rfl⟩

/-! Pre-emption requests (R344, R345). -/

section
variable {core bslot : Nat} {park : Bool}

/-- PREEMPT_REQ takes PARK and BSLOT. -/
def askPreempt (s : State) (core bslot : Nat) (park : Bool) : State :=
  s.modCore core fun c => { c with preempt := { c.preempt with park := park, bslot := bslot } }

theorem askPreempt_busy (hbusy : (s.core core).preempt.busy = false) :
    ¬ ((s.askPreempt core bslot park).core core).preempt.busy = true := by
  rw [askPreempt, core_modCore]
  exact ne_true_of_eq_false hbusy

/-- GO for a slot with no block ends at once (R344). -/
theorem preemptStart_missing (hbusy : (s.core core).preempt.busy = false) (hat : s.blockAt core bslot = none) :
    s.preemptStart core bslot park = (s.askPreempt core bslot park).endPreempt core 6 := by
  have hat' : (s.askPreempt core bslot park).blockAt core bslot = none := hat
  unfold preemptStart
  rw [← askPreempt]
  dsimp only
  rw [if_neg (askPreempt_busy hbusy), hat']

/-- The blocks a request is for: those of the block's cluster that have not retired. -/
def preemptBlks (s : State) (b : Nat) : List Nat :=
  let bs := (s.clusterBlks b).filter fun x => (s.block x).state != .retired
  if bs = [] then [b] else bs

theorem mem_preemptBlks {b x : Nat} (h : x ∈ s.preemptBlks b) : x ∈ b :: s.clusterBlks b := by
  unfold preemptBlks at h
  dsimp only at h
  split at h
  · rw [List.mem_singleton.mp h]
    exact List.mem_cons_self
  · exact List.mem_cons_of_mem _ (List.mem_of_mem_filter h)

/-- GO for a block whose cluster runs begins the eviction (R344, R345). -/
theorem preemptStart_begins {b : Nat} (hbusy : (s.core core).preempt.busy = false) (hat : s.blockAt core bslot = some b)
    (hrun : ∀ x ∈ b :: s.clusterBlks b, (s.block x).state = .running) :
    s.preemptStart core bslot park = ((s.askPreempt core bslot park).modCore core fun c =>
      { c with preempt := { c.preempt with
        busy := true, parking := park, saving := false, result := 0, blks := s.preemptBlks b } }).push
          [.evictionProceed core] := by
  have hat' : (s.askPreempt core bslot park).blockAt core bslot = some b := hat
  have hnone : ((s.preemptBlks b).any fun x => (s.block x).state == .halted) = false :=
    List.any_eq_false.mpr fun x hx => by rw [hrun x (mem_preemptBlks hx)]; decide
  unfold preemptStart
  rw [← askPreempt]
  dsimp only
  rw [if_neg (askPreempt_busy hbusy), hat']
  exact if_neg (ne_true_of_eq_false hnone)

theorem preemptGo_spec (hbusy : (s.core core).preempt.busy = false) :
    ∃ t, exec (.preemptGo core bslot park) s = .next t ∧ t.out = .done
      ∧ (s.blockAt core bslot = none →
        (t.core core).preempt.result = 6 ∧ (t.core core).preempt.busy = false ∧ t.agenda = s.agenda)
      ∧ ∀ b, s.blockAt core bslot = some b → (∀ x ∈ b :: s.clusterBlks b, (s.block x).state = .running) →
        (t.core core).preempt.busy = true ∧ (t.core core).preempt.saving = false ∧ (t.core core).preempt.parking = park
          ∧ (t.core core).preempt.result = 0 ∧ t.agenda = s.agenda ++ [.evictionProceed core] := by
  refine ⟨_, rfl, rfl, fun hat => ?_, fun b hat hrun => ?_⟩
  · rw [preemptStart_missing hbusy hat, core_done, preempt_endPreempt]
    exact ⟨rfl, rfl, rfl⟩
  · rw [preemptStart_begins hbusy hat hrun, core_done, core_push, core_modCore]
    exact ⟨rfl, rfl, rfl, rfl, rfl⟩

theorem preemptCancel_spec (s : State) (core : Nat) :
    ∃ t, exec (.preemptCancel core) s = .next t ∧ t.out = .done
      ∧ ((s.core core).preempt.busy = true → (s.core core).preempt.saving = false →
        (t.core core).preempt.busy = false ∧ (t.core core).preempt.result = 3)
      ∧ ((s.core core).preempt.busy = false ∨ (s.core core).preempt.saving = true → t = { s with out := .done }) := by
  refine ⟨_, rfl, rfl, fun hbusy hsaving => ?_, fun h => congrArg State.done (if_neg ?_)⟩
  · rw [preemptStop, hbusy, hsaving, core_done, if_pos (by decide), preempt_endPreempt]
    exact ⟨rfl, rfl⟩
  · rcases h with h | h
    · rw [h]
      exact Bool.false_ne_true
    · rw [h, Bool.not_true, Bool.and_false]
      exact Bool.false_ne_true

end

/-! Regions (R314). -/

theorem regionGo_spec {region : Nat} (h : region ∉ (s.die die).regBusy) :
    ∃ t, exec (.regionGo die region) s = .next t ∧ t.out = .done ∧ region ∈ (t.die die).regBusy
      ∧ t.agenda = s.agenda ++ [.regionActivationDone die region] := by
  have hstart : s.regionStart die region
      = (s.modDie die fun d => { d with regBusy := region :: d.regBusy }).push [.regionActivationDone die region] :=
    if_neg (by simpa using h)
  refine ⟨_, next_done_congr hstart, rfl, ?_, rfl⟩
  rw [die_done, die_push, die_modDie]
  exact List.mem_cons_self

/-- A region that has been stopped is active no longer. -/
theorem regionActive_regionEnd (s : State) (die region : Nat) : (s.regionEnd die region).regionActive die region = false := by
  rw [regionActive]
  cases hfind : (s.regionEnd die region).regionOf die region with
  | none => rfl
  | some x =>
    obtain ⟨r, hr, rfl⟩ := List.mem_map.mp (List.mem_of_find?_eq_some hfind)
    have hx := List.find?_some hfind
    by_cases hit : (r.die = die && r.id = region) = true
    · rw [if_pos hit]
      rfl
    · rw [if_neg hit] at hx
      exact absurd (by simpa using hx) hit

/-! What the writes of the registers do (R50). -/

theorem bits_zero (v n : Nat) : bits v 0 n = v % 2 ^ n := by rw [bits, Nat.pow_zero, Nat.div_one]

/-- How an instruction came out means nothing to a domain. -/
theorem domStart_done (s : State) (die n : Nat) : (s.done.domStart die n).done = (s.domStart die n).done := by
  unfold domStart
  rw [show s.done.domain die n = s.domain die n from rfl]
  split <;> rfl

theorem domGo_done (s : State) (die n : Nat) : (s.done.domGo die n).done = (s.domGo die n).done := by
  unfold domGo
  rw [show s.done.domain die n = s.domain die n from rfl]
  split <;> rfl

/-- DOMn_CTL is its two events, one after the other (R71, R73). -/
theorem domCtl_events {n : Nat} {t : State} (v : Nat) (h : exec (.domEnable die n (v.testBit 0)) s = .next t) :
    .next (s.domCtl die n v).done = exec (if v.testBit 1 then .domQuiesce die n else .domRelease die n) t := by
  have ht : t = (s.domEn die n (v.testBit 0)).done := (Host.Outcome.next.inj h).symm
  rw [ht, domCtl]
  cases v.testBit 1 with
  | true => exact congrArg _ (domStart_done _ die n).symm
  | false => exact congrArg _ (domGo_done _ die n).symm

/-- DEAD_CTL with GO declares the agent it names, unless a scrub is under way (R101, R102). -/
theorem deadCtl_go {v : Nat} (hgo : v.testBit 31 = true) (hbusy : (s.die die).deadBusy = false) :
    s.deadCtl die v = s.declareDead die (v / 2 ^ 28 % 4) (v % 32) := by
  rw [deadCtl, bits_zero, hgo, hbusy]
  rfl

theorem deadCtl_busy {v : Nat} (hgo : v.testBit 31 = true) (hbusy : (s.die die).deadBusy = true) : s.deadCtl die v = s := by
  rw [deadCtl, hgo, hbusy]
  rfl

theorem deadCtl_names {v : Nat} (hgo : v.testBit 31 = false) :
    s.deadCtl die v = s.nameDead die (v / 2 ^ 28 % 4) (v % 32) := by
  rw [deadCtl, bits_zero, hgo]
  rfl

/-- PREEMPT_REQ is its fields, and CANCEL or GO (R344). -/
theorem preemptWrite_events (s : State) (core v : Nat) :
    let u := s.askPreempt core (v / 2 ^ 16 % 64) (v.testBit 28)
    (.next (s.preemptWrite core v).done : Result) = if v.testBit 30 then exec (.preemptCancel core) u
      else if v.testBit 31 then exec (.preemptGo core (v / 2 ^ 16 % 64) (v.testBit 28)) u
      else .next u.done := by
  show Host.Outcome.next (State.done (if v.testBit 30 then _ else if v.testBit 31 then _ else _)) = _
  cases v.testBit 30
  · cases v.testBit 31
    · rfl
    · rfl
  · rfl

/-- REGn_CTL is GO, or STOP, or neither where both are set (R314). -/
theorem regionCtl_events (s : State) (die id v : Nat) :
    (.next (s.regionCtl die id v).done : Result) = if v.testBit 31 && !v.testBit 30 then exec (.regionGo die id) s
      else if v.testBit 30 && !v.testBit 31 then exec (.regionStop die id) s else .next s.done := by
  rw [regionCtl]
  cases v.testBit 31
  · cases v.testBit 30
    · rfl
    · rfl
  · cases v.testBit 30
    · rfl
    · rfl

end State

theorem fwinCtlBits_eq (v : Nat) : fwinCtlBits v = v / 2 ^ 61 % 8 * 2 ^ 61 + v / 2 ^ 48 % 4096 * 2 ^ 48
    + (if 12 ≤ v / 2 ^ 44 % 16 then 15 else v / 2 ^ 44 % 16) * 2 ^ 44 + v / 2 ^ 38 % 64 * 2 ^ 38 + v % 2 ^ 23 := by
  rw [fwinCtlBits, State.bits_zero]
  rfl

theorem ingCtlBits_eq (v : Nat) : ingCtlBits v = v / 2 ^ 61 % 8 * 2 ^ 61 + v / 2 ^ 49 % 64 * 2 ^ 49 + v % 2 ^ 36 := by
  rw [ingCtlBits, State.bits_zero]
  rfl

/-- Settles O44: a write reaches `cfgSet` of its register by `cfgWrite_register`, one register at a time; the agents, requests
and regions by the lemmas on what their registers start. -/
theorem windowWrites : Obligations.WindowWrites := by
  refine fun s die v agent core bslot region pa versions park w64 => ⟨fun hbusy hagent =>
    ⟨State.deadCore_spec hbusy hagent, State.deadSlice_spec hbusy hagent, fun hdie => State.deadDie_spec hbusy hdie⟩,
    ?_, fun htarget => State.cfgWrite_none htarget v, fun off r hdie hreg => ⟨State.cfgWrite_otherWidth hdie hreg v, ?_⟩,
    fun hdie => ⟨?_, ?_, ?_, ?_⟩, ⟨State.preemptGo_spec, State.preemptCancel_spec s core⟩, State.regionGo_spec,
    ⟨_, rfl, rfl, State.regionActive_regionEnd s die region, rfl⟩⟩
  · refine ⟨_, _, rfl, rfl, rfl, rfl, fun hfree => ?_, fun r hr hrdie hst => ?_⟩
    · have hlive : s.bundlesLive die = false := Bool.eq_false_iff.mpr fun h => by
        obtain ⟨r, hr, hrdie, hst⟩ := State.bundlesLive_iff.mp h
        exact hst (hfree r hr hrdie)
      obtain ⟨hbase, hdev⟩ := State.bundleWrites_taken hlive versions v
      rw [State.die_done, State.die_done, hbase, hdev]
      cases versions
      · exact ⟨rfl, rfl, rfl⟩
      · exact ⟨rfl, rfl, rfl⟩
    · obtain ⟨hbase, hdev⟩ := State.bundleWrites_held (State.bundlesLive_iff.mpr ⟨r, hr, hrdie, hst⟩) versions v
      exact ⟨congrArg State.done hbase, congrArg State.done hdev⟩
  · have hwrite := State.cfgWrite_register (s := s) hdie hreg v
    cases r with
    | domMask n => exact hwrite
    | domBase n => exact hwrite
    | domLimit n => exact hwrite
    | domCtl n => exact fun t ht => hwrite.trans (State.domCtl_events v ht)
    | partShare p => exact hwrite
    | deadCtl =>
      dsimp only
      split
      next hgo =>
        refine ⟨fun hbusy => hwrite.trans (State.next_done_congr (State.deadCtl_busy hgo hbusy)),
          fun hbusy e he hkind => hwrite.trans ?_⟩
        rw [State.cfgSet, State.deadCtl_go hgo hbusy, hkind]
        simp only [List.mem_cons, List.not_mem_nil, or_false] at he
        rcases he with rfl | rfl | rfl
        · rfl
        · rfl
        · rfl
      next hgo =>
        exact hwrite.trans (State.next_done_congr (State.deadCtl_names (Bool.eq_false_iff.mpr hgo)))
    | bndlDiag => exact hwrite
    | bndlHorizon =>
      dsimp only
      split
      next hlow => exact hwrite.trans (State.next_done_congr (if_pos hlow))
      next hlow => exact hwrite.trans (State.next_done_congr (if_neg hlow))
    | bndlBase => exact hwrite
    | bndlVbase => exact hwrite
    | preempt c => exact hwrite.trans (State.preemptWrite_events s _ v)
    | ctxBase => exact hwrite
    | ctxN => exact hwrite
    | fwinCtl n =>
      refine hwrite.trans (State.next_done_congr ?_)
      rw [State.cfgSet, fwinCtlBits_eq]
    | fwinBase n => exact hwrite
    | ingCtl k =>
      refine hwrite.trans (State.next_done_congr ?_)
      rw [State.cfgSet, ingCtlBits_eq]
    | ingBase k => exact hwrite
    | pwrStat => exact hwrite
    | devId => exact hwrite
    | sliceCtl k =>
      refine hwrite.trans ?_
      rw [State.cfgSet]
      cases v.testBit 0
      · rfl
      · rfl
    | regPtr id => exact hwrite
    | regCtl id => exact hwrite.trans (State.regionCtl_events s die id v)
    | counter i => exact hwrite
  · exact State.cfgWrite_register hdie (r := .pwrStat) rfl v
  · exact State.cfgWrite_otherWidth hdie (r := .ctxBase) rfl v
  · refine ⟨_, State.cfgWrite_register hdie (r := .ctxBase) rfl v, rfl, ?_⟩
    rw [State.die_done, State.cfgSet, State.die_modDie]
    rfl
  · refine ⟨_, State.cfgWrite_register hdie (r := .bndlHorizon) rfl v, rfl, ?_⟩
    rw [State.die_done, State.cfgSet]
    split
    · rfl
    · rw [State.die_modDie]

end Sys2Proof.Machine
end

section
/-!
PROOFS. Coherence domains, shares and power (R70 to R77).
-/

namespace Sys2Proof.Machine

namespace State

variable {s : State} {die n v : Nat}

/-! A domain's registers (R70 to R73). -/

theorem domain_done (s : State) (die n : Nat) : s.done.domain die n = s.domain die n := rfl
theorem domain_push (s : State) (is : List Instr) (die n : Nat) : (s.push is).domain die n = s.domain die n := rfl

/-- A write of a domain's registers reads back. -/
theorem domain_modDomain (hn : n < 4) (f : Domain → Domain) : (s.modDomain die n f).domain die n = f (s.domain die n) := by
  rw [modDomain, domain, die_modDie, Vector.getElem?_setIfInBounds_self_of_lt hn]
  rfl

/-- Whether a mask names a slice of a die that is off (R72). -/
def namesOff (s : State) (die m : Nat) : Bool := (List.range 32).any fun k => m.testBit k && !(s.slc die k).on

/-- DOMn_MASK takes a mask where the domain is quiesced and empty and the mask is not zero and names no slice that is
off. -/
theorem domMask_eq (s : State) (die n v : Nat) : s.domMask die n v
    = if (s.domain die n).quiesce = true ∧ (s.domain die n).busy = false ∧ v % 2 ^ 32 ≠ 0 ∧ s.namesOff die (v % 2 ^ 32) = false
      then s.modDomain die n ({ · with mask := v % 2 ^ 32 }) else s := by
  simp only [domMask, namesOff, Bool.and_eq_true, bne_iff_ne, Bool.not_eq_true', and_assoc]
  rfl

theorem domMaskWrite_spec (hn : n < 4) : ∃ t, exec (.domMaskWrite die n v) s = .next t ∧ t.out = .done
    ∧ ((s.domain die n).quiesce = true → (s.domain die n).busy = false → v % 2 ^ 32 ≠ 0 → s.namesOff die (v % 2 ^ 32) = false →
      t.domain die n = { s.domain die n with mask := v % 2 ^ 32 })
    ∧ ((s.domain die n).quiesce = false ∨ (s.domain die n).busy = true ∨ v % 2 ^ 32 = 0 ∨ s.namesOff die (v % 2 ^ 32) = true →
      t = s.done) := by
  refine ⟨_, rfl, rfl, fun hq hb hv ho => ?_, fun h => ?_⟩
  · rw [domain_done, domMask_eq, if_pos ⟨hq, hb, hv, ho⟩, domain_modDomain hn]
  · rw [domMask_eq, if_neg]
    rintro ⟨hq, hb, hv, ho⟩
    rcases h with h | h | h | h
    · exact Bool.false_ne_true (h.symm.trans hq)
    · exact Bool.false_ne_true (hb.symm.trans h)
    · exact hv h
    · exact Bool.false_ne_true (ho.symm.trans h)

theorem domRangeWrite_spec (hn : n < 4) (limit : Bool) : ∃ t, exec (.domRangeWrite die n limit v) s = .next t ∧ t.out = .done
    ∧ ((s.domain die n).en = false ∨ (s.domain die n).quiesce = true →
      t.domain die n = if limit then { s.domain die n with limit := v / 2 ^ 16 % 2 ^ 36 }
        else { s.domain die n with base := v / 2 ^ 16 % 2 ^ 36 })
    ∧ ((s.domain die n).en = true → (s.domain die n).quiesce = false → t = s.done) := by
  refine ⟨_, rfl, rfl, fun h => ?_, fun he hq => ?_⟩
  · have hopen : ¬ ((s.domain die n).en && !(s.domain die n).quiesce) = true := by rcases h with h | h <;> simp [h]
    rw [domain_done, domRange, if_neg hopen, domain_modDomain hn]
    rfl
  · rw [domRange, if_pos (by rw [he, hq]; rfl)]

theorem domQuiesce_spec (hn : n < 4) (h : (s.domain die n).quiesce = false) :
    ∃ t, exec (.domQuiesce die n) s = .next t ∧ t.out = .done
      ∧ t.domain die n = { s.domain die n with quiesce := true, busy := true }
      ∧ t.agenda = s.agenda ++ [.domDrainComplete die n] := by
  have hstart : s.domStart die n = (s.modDomain die n ({ · with quiesce := true, busy := true })).push [.domDrainComplete die n] := by
    rw [domStart, if_neg (by rw [h]; decide)]
  refine ⟨(s.domStart die n).done, rfl, rfl, ?_, by rw [hstart]; rfl⟩
  rw [domain_done, hstart, domain_push, domain_modDomain hn]

theorem domRelease_spec (hn : n < 4) : ∃ t, exec (.domRelease die n) s = .next t ∧ t.out = .done
    ∧ t.domain die n = { s.domain die n with quiesce := false, busy := false } := by
  refine ⟨_, rfl, rfl, ?_⟩
  rw [domain_done, domGo, domain_modDomain hn]
  split <;> rfl

theorem domEnable_spec (hn : n < 4) (en : Bool) : ∃ t, exec (.domEnable die n en) s = .next t ∧ t.out = .done
    ∧ (n = 0 → t = s.done) ∧ (n ≠ 0 → t.domain die n = { s.domain die n with en := en }) := by
  refine ⟨_, rfl, rfl, fun h => ?_, fun h => ?_⟩
  · rw [domEn, if_pos h]
  · rw [domain_done, domEn, if_neg h, domain_modDomain hn]

/-! A domain that empties (R73, R102). -/

/-- The lines of a domain of a die whose slice is not dead: those its emptying drains. -/
def drains (s : State) (die n l : Nat) : Bool :=
  isMemory l && homeDie l == die && s.domainOf l == n && !(s.slc die (s.sliceOf l)).dead

/-- Lines come home, and leave their slices for memory. -/
def emptyLines (s : State) (lines : List Nat) (part : State → Nat → Nat) : State :=
  lines.foldl (fun (s : State) l => (s.revokeAll l (part s l)).evictSlice l) s

theorem domDrainComplete_eq (s : State) (die n : Nat) : exec (.domDrainComplete die n) s = .next (
    if !(s.domain die n).busy then s.done
    else if s.txns.any (s.drains die n) || (s.linesHeld.filter (s.drains die n)).any s.silent then
      (s.push [.domDrainComplete die n]).done
    else
      let t := s.emptyLines (s.linesHeld.filter (s.drains die n)) fun s l => ((s.sliceLine l).map (·.part)).getD 0
      (({ t with dir := t.dir.filter fun e => !s.drains die n e.base } : State).modDomain die n ({ · with busy := false })).done) := rfl

/-- Nothing of the lines is under way, and none of their holders fails to answer. -/
theorem not_held_of {p : Nat → Bool} (htxn : ∀ l ∈ s.txns, p l = false) (hheld : ∀ l ∈ s.linesHeld, p l = true → s.silent l = false) :
    ¬ (s.txns.any p || (s.linesHeld.filter p).any s.silent) = true := by
  simp only [Bool.or_eq_true, List.any_eq_true, List.mem_filter, not_or, not_exists, not_and, and_imp, Bool.not_eq_true]
  exact ⟨htxn, hheld⟩

theorem domDrainComplete_drains (hn : n < 4) (hbusy : (s.domain die n).busy = true) (htxn : ∀ l ∈ s.txns, s.drains die n l = false)
    (hheld : ∀ l ∈ s.linesHeld, s.drains die n l = true → s.silent l = false) :
    ∃ t, exec (.domDrainComplete die n) s = .next t ∧ t.out = .done ∧ (t.domain die n).busy = false
      ∧ ∀ e ∈ t.dir, s.drains die n e.base = false := by
  rw [domDrainComplete_eq, if_neg (by rw [hbusy]; decide), if_neg (not_held_of htxn hheld)]
  refine ⟨_, rfl, rfl, ?_, fun e he => ?_⟩
  · rw [domain_done, domain_modDomain hn]
  · exact Bool.not_eq_true' _ ▸ (List.mem_filter.mp he).2

theorem domDrainComplete_waits (hbusy : (s.domain die n).busy = true) (htxn : ∃ l ∈ s.txns, s.drains die n l = true) :
    exec (.domDrainComplete die n) s = .next (s.push [.domDrainComplete die n]).done := by
  rw [domDrainComplete_eq, if_neg (by rw [hbusy]; decide), if_pos]
  rw [List.any_eq_true.mpr htxn]
  rfl

/-! Shares (R75). -/

theorem share_modDie (s : State) (die part : Nat) (f : Die → Die) : (s.modDie die f).share die part = (f (s.die die)).shares.get part 0 := by
  rw [share, die_modDie]

theorem share_done (s : State) (die part : Nat) : s.done.share die part = s.share die part := rfl
theorem share_push (s : State) (is : List Instr) (die part : Nat) : (s.push is).share die part = s.share die part := rfl

theorem partShareWrite_spec (s : State) (die part v : Nat) : ∃ t, exec (.partShareWrite die part v) s = .next t ∧ t.out = .done
    ∧ (v % 8 ≤ 4 → (s.die die).shareNew.get? part = none → v % 8 ≠ s.share die part →
      (t.die die).shareNew.get? part = some (v % 8) ∧ t.share die part = s.share die part ∧ t.agenda = s.agenda ++ [.partShareDone die part])
    ∧ (4 < v % 8 → t = s.done) := by
  refine ⟨_, rfl, rfl, fun hv hnew hne => ?_, fun hv => ?_⟩
  · have htaken : s.partShare die part v = (s.modDie die fun d => { d with shareNew := d.shareNew.put part (v % 8) }).push
        [.partShareDone die part] := by
      simp [partShare, hnew, hne, Nat.not_lt.mpr hv]
    rw [htaken]
    refine ⟨?_, ?_, rfl⟩
    · rw [die_done, die_push, die_modDie]
      exact Tab.get?_put_same _ _ _
    · rw [share_done, share_push, share_modDie]
      rfl
  · have hrefused : s.partShare die part v = s := by simp [partShare, hv]
    rw [hrefused]

/-- The lines of a partition on a die. -/
def inShare (s : State) (die part l : Nat) : Bool :=
  isMemory l && homeDie l == die && (((s.sliceLine l).map (·.part)) == some part || ((s.dirEnt l).map (·.part)) == some part)

theorem partShareDone_eq {part m : Nat} (hnew : (s.die die).shareNew.get? part = some m) : exec (.partShareDone die part) s = .next (
    if s.txns.any (s.inShare die part) || (s.linesHeld.filter (s.inShare die part)).any s.silent then
      (s.push [.partShareDone die part]).done
    else ((s.emptyLines (s.linesHeld.filter (s.inShare die part)) fun _ _ => part).modDie die fun d =>
      { d with shares := d.shares.put part m, shareNew := d.shareNew.del part }).done) := by
  show execPartShareDone die part s = _
  unfold execPartShareDone
  rw [hnew]
  rfl

theorem partShareDone_spec {part m : Nat} (hnew : (s.die die).shareNew.get? part = some m) (htxn : ∀ l ∈ s.txns, s.inShare die part l = false)
    (hheld : ∀ l ∈ s.linesHeld, s.inShare die part l = true → s.silent l = false) :
    ∃ t, exec (.partShareDone die part) s = .next t ∧ t.out = .done ∧ t.share die part = m
      ∧ (t.die die).shareNew.get? part = none := by
  rw [partShareDone_eq hnew, if_neg (not_held_of htxn hheld)]
  refine ⟨_, rfl, rfl, ?_, ?_⟩
  · rw [share_done, share_modDie]
    exact Tab.get_put_same _ _ _ _
  · rw [die_done, die_modDie]
    exact Tab.get?_del_same _ _

/-! Power (R76, R77, R105). -/

theorem slc_done (s : State) (die sc : Nat) : s.done.slc die sc = s.slc die sc := rfl

theorem slicePowerOff_spec {sc : Nat} (h : ∀ k < 4, (s.domain die k).mask.testBit sc = false) :
    ∃ t, exec (.slicePowerOff die sc) s = .next t ∧ t.out = .done ∧ (t.slc die sc).pwr = false
      ∧ (t.slc die sc).on = (s.slc die sc).on := by
  have hnamed : ((List.range 4).any fun n => (s.domain die n).mask.testBit sc) = false := by
    simpa only [List.any_eq_false, List.mem_range, Bool.not_eq_true] using h
  refine ⟨(s.sliceOff die sc).done, rfl, rfl, ?_⟩
  cases hpwr : (s.slc die sc).pwr <;> simp [sliceOff, hnamed, hpwr, slc_done]

theorem sliceOffComplete_spec {sc : Nat} (h : (s.slc die sc).pwr = false) :
    ∃ t, exec (.sliceOffComplete die sc) s = .next t ∧ t.out = .done ∧ (t.slc die sc).on = false
      ∧ t.mem = s.mem ∧ ∀ x ∈ t.slices, x.die ≠ die ∨ x.slice ≠ sc := by
  have hoff : exec (.sliceOffComplete die sc) s = .next
      ((({ s with slices := s.slices.filter fun l => !(l.die == die && l.slice == sc) } : State).modSlice die sc
        ({ · with on := false })).done) := by
    simp [exec, execSliceOffComplete, h]
  refine ⟨_, hoff, rfl, ?_, rfl, fun x hx => ?_⟩
  · rw [slc_done, slc_modSlice]
  · simpa [imp_iff_not_or] using (List.mem_filter.mp hx).2

theorem slicePowerOn_spec (s : State) (die sc : Nat) : ∃ t, exec (.slicePowerOn die sc) s = .next t ∧ t.out = .done
    ∧ (t.slc die sc).on = true ∧ (t.slc die sc).pwr = true ∧ (t.slc die sc).mclk = (s.slc die sc).mclk
    ∧ ((s.slc die sc).on = false → (t.slc die sc).floor0 = (s.slc die sc).mclk) := by
  refine ⟨(s.sliceOn die sc).done, rfl, rfl, ?_⟩
  cases hon : (s.slc die sc).on <;> simp [sliceOn, hon, slc_done]

theorem corePowerOff_spec (s : State) (core : Nat) : ∃ t, exec (.corePowerOff core) s = .next t ∧ t.out = .done
    ∧ (s.blocksOn core ≠ [] → t = s.done)
    ∧ (s.blocksOn core = [] → (t.core core).powered = false ∧ (∀ c ∈ t.chunks, c.core ≠ core)
      ∧ (t.core core).dicts = Vector.replicate 2 {}) := by
  refine ⟨(s.coreOff core).done, rfl, rfl, fun h => ?_, fun h => ?_⟩
  · rw [coreOff, if_pos (bne_iff_ne.mpr h)]
  · rw [coreOff, if_neg (by simp [h]), core_done, core_modCore]
    exact ⟨rfl, fun c hc => bne_iff_ne.mp (List.mem_filter.mp hc).2, rfl⟩

theorem corePowerOn_spec (s : State) (core : Nat) : ∃ t, exec (.corePowerOn core) s = .next t ∧ t.out = .done
    ∧ (t.core core).powered = true ∧ s.sameBytes t := by
  refine ⟨(s.modCore core ({ · with powered := true })).done, rfl, rfl, ?_, fun _ => rfl, fun c a => ?_⟩
  · rw [core_done, core_modCore]
  · by_cases hc : c = core
    · rw [hc, core_done, core_modCore]
    · rw [core_done, core_modCore_other _ hc]

end State

/-- Settles O43: each register's write by the lemma on its event. -/
theorem domainsAndPower : Obligations.DomainsAndPower := by
  unfold Obligations.DomainsAndPower
  intro s die n v part sc core limit en hn
  exact ⟨State.domMaskWrite_spec hn, State.domRangeWrite_spec hn limit, State.domQuiesce_spec hn, State.domRelease_spec hn,
    State.domEnable_spec hn en, State.domDrainComplete_drains hn, State.domDrainComplete_waits, s.partShareWrite_spec die part v,
    fun m => State.partShareDone_spec, State.slicePowerOff_spec, State.sliceOffComplete_spec, s.slicePowerOn_spec die sc,
    s.corePowerOff_spec core, s.corePowerOn_spec core⟩

end Sys2Proof.Machine
end

section
/-!
PROOFS. A line's copy in its home slice (R68, R105, R164): what the operations on it change of it, and what they cannot
reach.
-/

namespace Sys2Proof.Machine

/-- A die's registers, apart from the clocks of its slices and the access counters. -/
def Die.regs (d : Die) : Die := { d with slices := [], counts := [] }

/-- What of the state the operations on a home slice cannot reach: the copies that cores and dies hold and what is on
its way between them and the home, the directory, the flights, and the dies' registers. -/
structure Copies where
  time : Nat
  poison : List Nat
  dir : List DirEnt
  txns : List Nat
  l1 : List L1Line
  rdc : List RdcLine
  wbs : List Wb
  resv : List Resv
  ras : List RasEnt
  flights : Tab Flight
  regs : Nat → Die

namespace State
variable (s : State)

def copies : Copies where
  time := s.time
  poison := s.poison
  dir := s.dir
  txns := s.txns
  l1 := s.l1
  rdc := s.rdc
  wbs := s.wbs
  resv := s.resv
  ras := s.ras
  flights := s.flights
  regs := fun d => (s.die d).regs

theorem copies_slices (t : State) (l : List SliceLine) : ({ t with slices := l } : State).copies = t.copies := rfl
@[simp] theorem copies_push (is : List Instr) : (s.push is).copies = s.copies := rfl
@[simp] theorem copies_pushNew (i : Instr) : (s.pushNew i).copies = s.copies := by unfold pushNew; split <;> rfl

theorem copies_modDie (d : Nat) {f : Die → Die} (hf : ∀ x, (f x).regs = x.regs) : (s.modDie d f).copies = s.copies :=
  congrArg (fun r => { s.copies with regs := r }) (funext fun k => s.die_modDie_kept Die.regs d k hf)

@[simp] theorem copies_modSlice (d sc : Nat) (f : Slice → Slice) : (s.modSlice d sc f).copies = s.copies :=
  s.copies_modDie d fun _ => rfl
@[simp] theorem copies_count (line : Nat) (w : Bool) : (s.count line w).copies = s.copies :=
  s.copies_modDie _ fun _ => rfl

@[simp] theorem copies_cleanSlice (line : Nat) : (s.cleanSlice line).copies = s.copies := by
  unfold cleanSlice
  split
  · split
    · exact copies_count _ _ _
    · rfl
  · rfl

@[simp] theorem copies_dropSlice (line : Nat) : (s.dropSlice line).copies = s.copies := by
  unfold dropSlice
  split
  · exact copies_modSlice _ _ _ _
  · rfl
@[simp] theorem copies_evictSlice (line : Nat) : (s.evictSlice line).copies = s.copies := by simp [evictSlice]
@[simp] theorem copies_touchSlice (line : Nat) : (s.touchSlice line).copies = s.copies := by
  unfold touchSlice; split <;> rfl

@[simp] theorem copies_fillSlice (line part : Nat) (ns stream : Bool) : (s.fillSlice line part ns stream).copies = s.copies := by
  unfold fillSlice
  split
  · exact s.copies_touchSlice line
  · rw [copies_slices, copies_count]
    split
    · split
      · exact s.copies_evictSlice _
      · rfl
    · rfl

@[simp] theorem copies_bumpVer (line part : Nat) : (s.bumpVer line part).copies = s.copies := by
  unfold bumpVer
  split
  next l _ => exact (copies_slices _ _).trans (s.copies_modSlice l.die l.slice _)
  next => exact copies_modSlice _ _ _ _

@[simp] theorem copies_restage (line : Nat) (g : List Byte → List Byte) : (s.restage line g).copies = s.copies := by
  unfold restage; split <;> rfl

@[simp] theorem copies_setHomeData (line : Nat) (g : List Byte → List Byte) : (s.setHomeData line g).copies = s.copies := by
  unfold setHomeData
  dsimp only
  split
  · exact s.copies_restage line g
  · exact (copies_count _ _ _).trans (s.copies_restage line g)

theorem copies_foldl {α : Type} {f : State → α → State} (h : ∀ s a, (f s a).copies = s.copies) (l : List α) :
    (l.foldl f s).copies = s.copies := by
  induction l generalizing s with
  | nil => rfl
  | cons a l ih => rw [List.foldl_cons, ih, h]

@[simp] theorem copies_notify (line : Nat) : (s.notify line).copies = s.copies := by
  refine copies_foldl s (fun t r => copies_foldl t (fun u e => ?_) _) _
  split
  · exact u.copies_pushNew _
  · rfl

@[simp] theorem copies_homeWrite (line part : Nat) (g : List Byte → List Byte) (whole : Bool) :
    (s.homeWrite line part g whole).copies
      = { s.copies with poison := if whole then s.poison.filter (· != line) else s.poison } := by
  have hwrite : ((s.setHomeData line g).bumpVer line part).copies = s.copies := by simp
  unfold homeWrite
  rw [copies_notify]
  cases whole with
  | true => exact congrArg (fun c : Copies => { c with poison := c.poison.filter (· != line) }) hwrite
  | false => exact hwrite

theorem copies_mergeCarry (line part : Nat) (op : CarryOp) (d : List Byte) :
    (s.mergeCarry line part op d).copies = s.copies := by
  unfold mergeCarry
  rw [copies_homeWrite]
  split
  · rfl
  · exact s.copies_count line false

@[simp] theorem copies_setHomeTag (line part : Nat) (t : Tag) : (s.setHomeTag line part t).copies = s.copies := by
  unfold setHomeTag
  split
  · rfl
  · exact copies_modSlice _ _ _ _

/-! What is read of the copies alone. -/

variable {s} {t : State}

theorem regs_congr (h : t.copies.regs = s.copies.regs) (die : Nat) : (t.die die).regs = (s.die die).regs :=
  congrFun h die

theorem domain_congr (h : t.copies.regs = s.copies.regs) (die n : Nat) : t.domain die n = s.domain die n :=
  have hdoms : (t.die die).doms = (s.die die).doms := (congrArg Die.doms (regs_congr h die) :)
  congrArg (fun doms : Vector Domain 4 => (doms[n]?).getD ⟨0, 0, 0, false, false, false⟩) hdoms

theorem sliceOf_congr (h : t.copies.regs = s.copies.regs) (line : Nat) : t.sliceOf line = s.sliceOf line := by
  have hdom : t.domain (homeDie line) = s.domain (homeDie line) := funext (domain_congr h _)
  rw [sliceOf, sliceOf, domainOf, domainOf, hdom]

theorem dirSet_congr (h : t.copies.regs = s.copies.regs) (line : Nat) : t.dirSet line = s.dirSet line := by
  rw [dirSet, dirSet, sliceOf_congr h]

theorem now_congr (h : t.copies = s.copies) (die : Nat) : t.now die = s.now die := by
  have hskew : (t.die die).skew = (s.die die).skew := (congrArg Die.skew (regs_congr (congrArg Copies.regs h) die) :)
  have htime : t.time = s.time := congrArg Copies.time h
  rw [now, now, hskew, htime]

theorem dirEnt_congr (h : t.copies = s.copies) (line : Nat) : t.dirEnt line = s.dirEnt line := by
  have hdir : t.dir = s.dir := congrArg Copies.dir h
  rw [dirEnt, dirEnt, hdir]
theorem dirState_congr (h : t.copies = s.copies) (line : Nat) : t.dirState line = s.dirState line := by
  rw [dirState, dirState, dirEnt_congr h]
theorem dirDies_congr (h : t.copies = s.copies) (line : Nat) : t.dirDies line = s.dirDies line := by
  rw [dirDies, dirDies, dirEnt_congr h]
theorem l1Line_congr (h : t.copies = s.copies) (core line : Nat) : t.l1Line core line = s.l1Line core line := by
  have hl1 : t.l1 = s.l1 := congrArg Copies.l1 h
  rw [l1Line, l1Line, hl1]
theorem rdcLine_congr (h : t.copies = s.copies) (die line : Nat) : t.rdcLine die line = s.rdcLine die line := by
  have hrdc : t.rdc = s.rdc := congrArg Copies.rdc h
  rw [rdcLine, rdcLine, hrdc]

theorem freeLog_congr (h : t.copies = s.copies) (line n : Nat) : t.freeLog line n = s.freeLog line n := by
  have hdir : t.dir = s.dir := congrArg Copies.dir h
  induction n with
  | zero => rfl
  | succ n ih => rw [freeLog, freeLog, hdir, ih]

theorem dirFor_congr (h : t.copies = s.copies) (line part : Nat) : t.dirFor line part = s.dirFor line part := by
  rw [dirFor, dirFor, dirEnt_congr h, newDir, newDir, freeLog_congr h, now_congr h]

theorem ownerCopy_congr (h : t.copies = s.copies) (line : Nat) : t.ownerCopy line = s.ownerCopy line := by
  have hwbs : t.wbs = s.wbs := congrArg Copies.wbs h
  rw [ownerCopy, ownerCopy, dirState_congr h, hwbs]
  split <;> simp only [l1Line_congr h]

theorem isPoisoned_congr (h : t.copies = s.copies) (line : Nat) : t.isPoisoned line = s.isPoisoned line :=
  congrArg (fun c : Copies => c.poison.contains line) h

/-! The slice's copy of the line. -/

theorem homeData_of_sliceLine {line : Nat} {x : SliceLine} (h : s.sliceLine line = some x) : s.homeData line = x.data := by
  rw [homeData, h]
theorem homeTag_of_sliceLine {line : Nat} {x : SliceLine} (h : s.sliceLine line = some x) (part : Nat) : s.homeTag line part = x.tag := by
  rw [homeTag, h]
theorem tokenOf_of_sliceLine {line : Nat} {x : SliceLine} (h : s.sliceLine line = some x) (part : Nat) : s.tokenOf line part = x.ver := by
  rw [tokenOf, h]

theorem line_of_sliceLine {line : Nat} {x : SliceLine} (h : s.sliceLine line = some x) : x.line = line :=
  beq_iff_eq.mp (List.find?_some (p := fun x : SliceLine => x.line == line) h)

/-- From `s` to `t` the home slices have changed and what goes with them, the slice's copy of the line from `x` to `y`;
the copies of cores and dies are as they were, and so is memory. -/
structure SliceStep (line : Nat) (s : State) (x : SliceLine) (t : State) (y : SliceLine) : Prop where
  before : s.sliceLine line = some x
  after : t.sliceLine line = some y
  copies : t.copies = s.copies
  beyond : t.beyond = s.beyond
  mem : t.mem = s.mem

variable {line : Nat} {x y z : SliceLine} {u : State}

theorem SliceStep.refl (h : s.sliceLine line = some x) : SliceStep line s x s x := ⟨h, h, rfl, rfl, rfl⟩

theorem SliceStep.trans (h : SliceStep line s x t y) (g : SliceStep line t y u z) : SliceStep line s x u z :=
  ⟨h.before, g.after, g.copies.trans h.copies, g.beyond.trans h.beyond, g.mem.trans h.mem⟩

/-- The slice's copy of a line is edited in its place. -/
theorem sliceLine_map {g : SliceLine → SliceLine} (hg : ∀ x, (g x).line = x.line) (h : s.sliceLine line = some x) :
    ({ s with slices := s.slices.map fun x => if x.line = line then g x else x } : State).sliceLine line = some (g x) := by
  have hp : ((fun x : SliceLine => x.line == line) ∘ fun x => if x.line = line then g x else x) = fun x => x.line == line := by
    funext x
    by_cases hx : x.line = line
    · simp [hx, hg]
    · simp [hx]
  have hfind : s.slices.find? (fun x => x.line == line) = some x := h
  rw [sliceLine, List.find?_map, hp, hfind, Option.map_some, if_pos (line_of_sliceLine h)]

theorem SliceStep.edit {g : SliceLine → SliceLine} (hg : ∀ x, (g x).line = x.line) (h : s.sliceLine line = some x) :
    SliceStep line s x { s with slices := s.slices.map fun x => if x.line = line then g x else x } (g x) :=
  ⟨h, sliceLine_map hg h, rfl, rfl, rfl⟩

theorem SliceStep.touch (h : s.sliceLine line = some x) : SliceStep line s x (s.touchSlice line) x := by
  refine ⟨h, ?_, s.copies_touchSlice line, s.beyond_touchSlice line, ?_⟩
  · simp only [touchSlice, h]
    exact List.find?_cons_of_pos (by rw [line_of_sliceLine h, beq_self_eq_true])
  · simp only [touchSlice, h]

theorem fillSlice_of_sliceLine (h : s.sliceLine line = some x) (part : Nat) (ns stream : Bool) :
    s.fillSlice line part ns stream = s.touchSlice line := by
  rw [fillSlice, h]

theorem SliceStep.fill (h : s.sliceLine line = some x) (part : Nat) (ns stream : Bool) :
    SliceStep line s x (s.fillSlice line part ns stream) x := by
  rw [fillSlice_of_sliceLine h]
  exact .touch h

theorem SliceStep.modSlice (h : s.sliceLine line = some x) (d sc : Nat) (f : Slice → Slice) :
    SliceStep line s x (s.modSlice d sc f) x :=
  ⟨h, h, s.copies_modSlice d sc f, rfl, rfl⟩

/-- A line that is in its slice gets the slice's next version (R105). -/
theorem SliceStep.bump (h : s.sliceLine line = some x) (part : Nat) :
    SliceStep line s x (s.bumpVer line part) { x with ver := ((s.slc x.die x.slice).mclk + 1) % 2 ^ 32 } := by
  rw [bumpVer, h]
  exact (SliceStep.modSlice h _ _ _).trans
    (.edit (g := fun x' => { x' with ver := ((s.slc x.die x.slice).mclk + 1) % 2 ^ 32 }) (fun _ => rfl) h)

theorem SliceStep.restage (h : s.sliceLine line = some x) (g : List Byte → List Byte) :
    SliceStep line s x (s.restage line g) x := by
  refine ⟨h, ?_, s.copies_restage line g, s.beyond_restage line g, ?_⟩
  · unfold State.restage; split <;> exact h
  · unfold State.restage; split <;> rfl

theorem SliceStep.setData (h : s.sliceLine line = some x) (g : List Byte → List Byte) :
    SliceStep line s x (s.setHomeData line g) { x with data := g x.data, dirty := true } := by
  have hstage := SliceStep.restage h g
  rw [setHomeData, homeData_of_sliceLine h, hstage.after]
  exact hstage.trans (.edit (g := fun x' => { x' with data := g x.data, dirty := true }) (fun _ => rfl) hstage.after)

theorem SliceStep.foldl {α : Type} {f : State → α → State} (hf : ∀ s a, s.sliceLine line = some x → SliceStep line s x (f s a) x)
    (l : List α) (h : s.sliceLine line = some x) : SliceStep line s x (l.foldl f s) x := by
  induction l generalizing s with
  | nil => exact .refl h
  | cons a l ih => exact (hf s a h).trans (ih (hf s a h).after)

theorem SliceStep.notify (h : s.sliceLine line = some x) (l : Nat) : SliceStep line s x (s.notify l) x := by
  refine SliceStep.foldl (fun t r ht => SliceStep.foldl (fun u e hu => ?_) _ ht) _ h
  split
  · refine ⟨hu, ?_, u.copies_pushNew _, u.beyond_pushNew _, ?_⟩ <;> (unfold pushNew; split)
    · exact hu
    · exact hu
    · rfl
    · rfl
  · exact .refl hu

/-- Data set in the slice reaches no clock of a slice. -/
theorem dies_setHomeData (h : s.sliceLine line = some x) (g : List Byte → List Byte) : (s.setHomeData line g).dies = s.dies := by
  rw [setHomeData, (SliceStep.restage h g).after]
  dsimp only
  unfold restage
  split <;> rfl

/-- A write performed in the slice (R105). -/
theorem SliceStep.write (h : s.sliceLine line = some x) (part : Nat) (g : List Byte → List Byte) :
    ∃ y, SliceStep line s x (s.homeWrite line part g false) y ∧ y.data = g x.data
      ∧ y.ver = ((s.slc x.die x.slice).mclk + 1) % 2 ^ 32 := by
  have hdata := SliceStep.setData h g
  have hbump := hdata.trans (.bump hdata.after part)
  refine ⟨_, hbump.trans (.notify hbump.after line), rfl, ?_⟩
  rw [slc, slc, die, die, dies_setHomeData h]

theorem SliceStep.setTag (h : s.sliceLine line = some x) (part : Nat) (t : Tag) :
    SliceStep line s x (s.setHomeTag line part t) { x with tag := t } := by
  rw [setHomeTag, h]
  exact .edit (g := fun x => { x with tag := t }) (fun _ => rfl) h

/-- Without a reservation of the line there is none to merge (R110). -/
theorem mergeResv_of_none (h : ∀ r ∈ s.resv, r.line ≠ line) (part : Nat) : s.mergeResv line part = s := by
  have hnone : s.resv.filter (·.line == line) = [] := List.filter_eq_nil_iff.mpr fun r hr => by simpa using h r hr
  have hall : s.resv.filter (·.line != line) = s.resv := List.filter_eq_self.mpr fun r hr => by simpa using h r hr
  simp only [mergeResv, hnone, List.foldl_nil, hall]

theorem SliceStep.mergeCarry (h : s.sliceLine line = some x) (part : Nat) (op : CarryOp) (d : List Byte) :
    ∃ y, SliceStep line s x (s.mergeCarry line part op d) y ∧ y.data = op.mergeLine x.data d := by
  obtain ⟨y, hy, hdata, -⟩ := SliceStep.write h part (op.mergeLine · d)
  refine ⟨y, ?_, hdata⟩
  rwa [State.mergeCarry, if_pos (by rw [h]; rfl)]

/-- Data or a partial that comes home to a slice that has the line, with no reservation of it (R79, R80). -/
theorem SliceStep.takeBack (h : s.sliceLine line = some x) (hresv : ∀ r ∈ s.resv, r.line ≠ line) (part : Nat) (op : Option CarryOp)
    (d : List Byte) (ns : Bool) (tag : Tag) (stream : Bool) :
    ∃ y, SliceStep line s x (s.takeBack line part op d ns tag stream) y ∧ y.data = match op with
      | some op => op.mergeLine x.data d
      | none => d := by
  have hfill := SliceStep.fill h part ns stream
  have hfree : ∀ r ∈ (s.fillSlice line part ns stream).resv, r.line ≠ line := by
    rwa [show (s.fillSlice line part ns stream).resv = s.resv from congrArg Copies.resv hfill.copies]
  cases op with
  | some op =>
    obtain ⟨y, hy, hdata⟩ := SliceStep.mergeCarry hfill.after part op d
    refine ⟨y, hfill.trans ?_, hdata⟩
    dsimp only [State.takeBack]
    rwa [mergeResv_of_none hfree]
  | none =>
    have hset := hfill.trans (.setData hfill.after fun _ => d)
    have htag := hset.trans (.setTag hset.after part
      ((((s.fillSlice line part ns stream).setHomeData line fun _ => d).homeTag line part).max tag))
    exact ⟨_, htag.trans (.notify htag.after line), rfl⟩

/-- What stands at the home after a step reads as the slice's copy. -/
theorem SliceStep.homeData_eq (h : SliceStep line s x t y) : t.homeData line = y.data := homeData_of_sliceLine h.after

theorem SliceStep.warps (h : SliceStep line s x t y) : t.warps = s.warps := congrArg Beyond.warps h.beyond

/-- Memory and the scratchpads are as they were where memory is and nothing has reached a core. -/
theorem sameBytes_of_beyond (hmem : t.mem = s.mem) (h : t.beyond = s.beyond) : s.sameBytes t := by
  have hcores : t.cores = s.cores := congrArg Beyond.cores h
  exact ⟨fun a => by rw [hmem], fun c a => by rw [core, core, hcores]⟩

end State

end Sys2Proof.Machine
end

section
/-!
PROOFS. Directory entries (R68, R80 to R83): what splitting and replacing the entry of a line does, and when its set has
room.
-/

namespace Sys2Proof.Machine

namespace DirEnt
variable {e : DirEnt} {line : Nat}

theorem covers_iff : e.covers line = true ↔ e.base ≤ line ∧ line < e.base + 2 ^ e.log := by
  rw [covers, Bool.and_eq_true, decide_eq_true_iff, decide_eq_true_iff]

theorem covers_congr {e' : DirEnt} (hb : e'.base = e.base) (hl : e'.log = e.log) (line : Nat) : e'.covers line = e.covers line := by
  rw [covers, covers, hb, hl]

theorem two_pow_log (h : e.log ≠ 0) : 2 ^ e.log = 2 ^ (e.log - 1) + 2 ^ (e.log - 1) := by
  conv_lhs => rw [← Nat.sub_one_add_one h, Nat.pow_succ, Nat.mul_two]

@[simp] theorem old_base (e : DirEnt) : e.old.base = e.base := by unfold old; split <;> rfl

/-- What the entry records of its lines is what the part records that holds the line. -/
def SameRecord (e e' : DirEnt) : Prop :=
  e'.st = e.st ∧ e'.dies = e.dies ∧ e'.part = e.part ∧ e'.lend = e.lend

/-- The part of a split entry that holds the line stands first and records what the entry did (R82). -/
theorem split_spec (h : e.covers line = true) (k fuel : Nat) :
    ∃ e' rest, e.split line k fuel = e' :: rest ∧ e'.covers line = true ∧ e.SameRecord e' := by
  induction fuel generalizing e with
  | zero => exact ⟨e, [], rfl, h, rfl, rfl, rfl, rfl⟩
  | succ fuel ih =>
    rw [split]
    split
    · exact ⟨e, [], rfl, h, rfl, rfl, rfl, rfl⟩
    next hk =>
      have hpow := two_pow_log (e := e) (by omega)
      obtain ⟨hlo, hhi⟩ := covers_iff.mp h
      dsimp only
      split
      next hline =>
        obtain ⟨e', rest, hsplit, hcov, hsame⟩ := ih (e := { e with log := e.log - 1 }) (covers_iff.mpr ⟨hlo, hline⟩)
        exact ⟨e', _, congrArg (· ++ _) hsplit, hcov, hsame⟩
      next hline =>
        obtain ⟨e', rest, hsplit, hcov, hsame⟩ := ih (e := { e with base := e.base + 2 ^ (e.log - 1), log := e.log - 1 })
          (covers_iff.mpr ⟨Nat.le_of_not_lt hline, by dsimp only; omega⟩)
        exact ⟨e', _, congrArg (· ++ _) hsplit, hcov, hsame⟩

/-- An entry of 2^log lines splits into at most `log` more, and one of them keeps its base. -/
theorem countP_split_le (P : Nat → Bool) (e : DirEnt) (line k fuel : Nat) :
    (e.split line k fuel).countP (fun x => P x.base) ≤ e.log + if P e.base then 1 else 0 := by
  induction fuel generalizing e with
  | zero => simp [split]
  | succ fuel ih =>
    rw [split]
    split
    · simp
    next hk =>
      dsimp only
      split
      · have := ih { e with log := e.log - 1 }
        rw [List.countP_append, List.countP_singleton]
        dsimp only at this ⊢
        have : (if P (e.base + 2 ^ (e.log - 1)) = true then 1 else 0) ≤ 1 := by split <;> decide
        omega
      · have := ih { e with base := e.base + 2 ^ (e.log - 1), log := e.log - 1 }
        rw [List.countP_append, List.countP_singleton, old_base]
        dsimp only at this ⊢
        have : (if P (e.base + 2 ^ (e.log - 1)) = true then 1 else 0) ≤ 1 := by split <;> decide
        omega

end DirEnt

/-- In no choice of bases has a directory gained more than `n` entries. -/
def Grown (d d' : List DirEnt) (n : Nat) : Prop :=
  ∀ P : Nat → Bool, d'.countP (fun e => P e.base) ≤ d.countP (fun e => P e.base) + n

theorem Grown.trans {d d' d'' : List DirEnt} {m n : Nat} (h : Grown d d' m) (g : Grown d' d'' n) : Grown d d'' (m + n) :=
  fun P => (g P).trans (by have := h P; omega)

theorem Grown.mono {d d' : List DirEnt} {m n : Nat} (h : Grown d d' m) (hmn : m ≤ n) : Grown d d' n :=
  fun P => (h P).trans (by omega)

theorem Grown.refl (d : List DirEnt) : Grown d d 0 := fun _ => le_rfl

theorem Grown.map (d : List DirEnt) {g : DirEnt → DirEnt} (hg : ∀ e, (g e).base = e.base) : Grown d (d.map g) 0 := fun P => by
  rw [List.countP_map]
  exact (List.countP_congr fun e _ => by rw [Function.comp_apply, hg]).le

/-- The entries that cover a line and those that do not. -/
theorem countP_covers (p : DirEnt → Bool) (d : List DirEnt) (line : Nat) :
    d.countP p = (d.filter (·.covers line)).countP p + (d.filter fun x => !x.covers line).countP p := by
  rw [List.countP_filter, List.countP_filter, List.countP_eq_countP_filter_add d p (·.covers line), List.countP_filter, List.countP_filter]

/-- The entry that a line is found in counts among those that cover it. -/
theorem countP_covers_of_find {d : List DirEnt} {line : Nat} {e : DirEnt} (h : d.find? (·.covers line) = some e) (P : Nat → Bool) :
    (if P e.base then 1 else 0) ≤ (d.filter (·.covers line)).countP fun x => P x.base := by
  split
  next hP => exact List.countP_pos_iff.mpr ⟨e, List.mem_filter.mpr ⟨List.mem_of_find?_eq_some h, List.find?_some (p := fun e : DirEnt => e.covers line) h⟩, hP⟩
  next => exact Nat.zero_le _

namespace State
variable {s t : State} {line : Nat} {e : DirEnt}

theorem covers_of_dirEnt (h : s.dirEnt line = some e) : e.covers line = true := List.find?_some (p := fun e : DirEnt => e.covers line) h

theorem dirState_of_dirEnt (h : s.dirEnt line = some e) : s.dirState line = e.st := by rw [dirState, h]; rfl
theorem dirDies_of_dirEnt (h : s.dirEnt line = some e) : s.dirDies line = e.dies := by rw [dirDies, h]; rfl
theorem dirFor_of_dirEnt (h : s.dirEnt line = some e) (part : Nat) : s.dirFor line part = e := by rw [dirFor, h]; rfl

/-- The entry put for a line is its entry. -/
theorem dirEnt_putDir (h : e.covers line = true) : (s.putDir line e).dirEnt line = some e := List.find?_cons_of_pos h

/-- A part of the entry takes its place, and its set has no more entries than before. -/
theorem grown_putDir_of_dirEnt {e' : DirEnt} (h : s.dirEnt line = some e) (hb : e'.base = e.base) :
    Grown s.dir (s.putDir line e').dir 0 := fun P => by
  have hfound := countP_covers_of_find h P
  rw [putDir, List.countP_cons, hb, countP_covers _ s.dir line]
  omega

/-- An entry put for a line adds at most one to its set. -/
theorem grown_putDir (s : State) (line : Nat) (e : DirEnt) : Grown s.dir (s.putDir line e).dir 1 := fun P => by
  have hone : (if P e.base = true then 1 else 0) ≤ 1 := by split <;> decide
  rw [putDir, List.countP_cons, countP_covers _ s.dir line]
  omega

/-- The entry of a line split (R82): the part that holds the line is found first. -/
theorem splitDir_spec (h : s.dirEnt line = some e) (k : Nat) :
    ∃ d e', s.splitDir line k = { s with dir := d } ∧ d.find? (·.covers line) = some e' ∧ e.SameRecord e' ∧ Grown s.dir d e.log := by
  obtain ⟨e', rest, hsplit, hcov, hsame⟩ :=
    DirEnt.split_spec (e := { e with touched := s.now (homeDie line) }) (covers_of_dirEnt (e := e) h) k 9
  refine ⟨_, e', by rw [splitDir, h], ?_, hsame, fun P => ?_⟩
  · rw [hsplit]
    exact List.find?_cons_of_pos hcov
  · have hparts := DirEnt.countP_split_le P { e with touched := s.now (homeDie line) } line k 9
    have hfound := countP_covers_of_find h P
    rw [List.countP_append, countP_covers _ s.dir line]
    dsimp only at hparts
    omega

/-- The entry of a line split, and its part with the line rewritten. -/
theorem splitDir_putDir_spec (h : s.dirEnt line = some e) (k : Nat) {g : DirEnt → DirEnt} (hg : ∀ x, (g x).base = x.base ∧ (g x).log = x.log) :
    ∃ d e', (s.splitDir line k).dirEnt line = some e' ∧ (s.splitDir line k).putDir line (g e') = { s with dir := d }
      ∧ d.find? (·.covers line) = some (g e') ∧ e.SameRecord e' ∧ Grown s.dir d e.log := by
  obtain ⟨d, e', hsplit, hfind, hsame, hgrown⟩ := splitDir_spec h k
  have hent : (s.splitDir line k).dirEnt line = some e' := by rw [hsplit]; exact hfind
  have hcov : (g e').covers line = true := (DirEnt.covers_congr (hg e').1 (hg e').2 line).trans (covers_of_dirEnt hent)
  have hput := grown_putDir_of_dirEnt hent (hg e').1
  refine ⟨_, e', hent, by rw [hsplit]; rfl, ?_, hsame, ?_⟩
  · exact List.find?_cons_of_pos hcov
  · rw [hsplit] at hput
    exact hgrown.trans hput

/-- A core leaves the entry of a line (R80, R82). -/
theorem coreForgets_spec (h : s.dirEnt line = some e) (core : Nat) :
    ∃ d e', s.coreForgets core line = { s with dir := d } ∧ d.find? (·.covers line) = some e'
      ∧ e'.st = DirEnt.without core e.st ∧ Grown s.dir d e.log := by
  obtain ⟨d, e', hent, hput, hfind, ⟨hst, -⟩, hgrown⟩ := splitDir_putDir_spec h
    (blockLog ((s.l1.filter fun l => l.core == core).map (·.line)) line (s.dirFor line 0).log)
    (g := fun e => { e with st := DirEnt.without core e.st }) fun _ => ⟨rfl, rfl⟩
  refine ⟨d, _, ?_, hfind, congrArg (DirEnt.without core) hst, hgrown⟩
  rw [← hput]
  unfold coreForgets
  dsimp only
  rw [hent]

/-- A die leaves the entry of a line. -/
theorem dieForgets_spec (h : s.dirEnt line = some e) (die : Nat) :
    ∃ d e', s.dieForgets die line = { s with dir := d } ∧ d.find? (·.covers line) = some e'
      ∧ e'.st = DirEnt.withoutDie die e.st ∧ e'.dies = e.dies.filter (· != die) ∧ Grown s.dir d e.log := by
  obtain ⟨d, e', hent, hput, hfind, ⟨hst, hdies, -⟩, hgrown⟩ := splitDir_putDir_spec h
    (blockLog ((s.rdc.filter fun l => l.die == die).map (·.line)) line (s.dirFor line 0).log)
    (g := fun e => { e with st := DirEnt.withoutDie die e.st, dies := e.dies.filter (· != die) }) fun _ => ⟨rfl, rfl⟩
  refine ⟨d, _, ?_, hfind, congrArg (DirEnt.withoutDie die) hst, congrArg (List.filter (· != die)) hdies, hgrown⟩
  rw [← hput]
  unfold dieForgets
  dsimp only
  rw [hent]

/-- The entry that starts for a line covers it. -/
theorem covers_newDir (s : State) (line part : Nat) : (s.newDir line part).covers line = true :=
  DirEnt.covers_iff.mpr ⟨Nat.div_mul_le_self _ _, Nat.lt_div_mul_add (Nat.two_pow_pos _)⟩

theorem covers_dirFor (s : State) (line part : Nat) : (s.dirFor line part).covers line = true := by
  rw [dirFor]
  cases h : s.dirEnt line with
  | some e => exact covers_of_dirEnt h
  | none => exact s.covers_newDir line part

theorem st_dirFor (s : State) (line part : Nat) : (s.dirFor line part).st = s.dirState line := by
  rw [dirFor, dirState]
  cases s.dirEnt line <;> rfl

theorem dies_dirFor (s : State) (line part : Nat) : (s.dirFor line part).dies = s.dirDies line := by
  rw [dirFor, dirDies]
  cases s.dirEnt line <;> rfl

/-- Where a set had room for what a line's directory has gained, no entry goes (R68). -/
theorem dirRoom_eq {n : Nat} (hspare : s.dirSpare line n) (hregs : t.copies.regs = s.copies.regs) (hdir : Grown s.dir t.dir n) :
    t.dirRoom line = t := by
  have hset : (t.dir.filter fun e => t.dirSet e.base == t.dirSet line).length ≤ 16 := by
    rw [← List.countP_eq_length_filter]
    simp only [dirSet_congr hregs]
    refine (hdir fun b => s.dirSet b == s.dirSet line).trans ?_
    rw [List.countP_eq_length_filter]
    exact hspare
  rw [dirRoom]
  split
  · rfl
  · dsimp only
    rw [Nat.sub_eq_zero_of_le hset]
    rfl

end State

end Sys2Proof.Machine
end

section
/-!
PROOFS. Copies that leave a core or a die, and write-backs (R80 to R82, R95, R99, R100).
-/

namespace Sys2Proof.Machine

namespace State

/-- From `s` to `t` nothing has changed beyond the memory system, nor memory and the dies' registers, and the directory
has gained at most `n` entries. -/
structure HomeStep (n : Nat) (s t : State) : Prop where
  beyond : t.beyond = s.beyond
  mem : t.mem = s.mem
  regs : t.copies.regs = s.copies.regs
  dir : Grown s.dir t.dir n

variable {s t u : State} {line n m : Nat} {x y : SliceLine} {e : DirEnt}

theorem HomeStep.trans (h : HomeStep m s t) (g : HomeStep n t u) : HomeStep (m + n) s u :=
  ⟨g.beyond.trans h.beyond, g.mem.trans h.mem, g.regs.trans h.regs, h.dir.trans g.dir⟩

theorem HomeStep.mono (h : HomeStep m s t) (hmn : m ≤ n) : HomeStep n s t := ⟨h.beyond, h.mem, h.regs, h.dir.mono hmn⟩

theorem HomeStep.refl (s : State) : HomeStep 0 s s := ⟨rfl, rfl, rfl, .refl _⟩

theorem HomeStep.withDir {d : List DirEnt} (h : Grown s.dir d n) : HomeStep n s { s with dir := d } := ⟨rfl, rfl, rfl, h⟩

theorem SliceStep.dir (h : SliceStep line s x t y) : t.dir = s.dir := congrArg Copies.dir h.copies

theorem SliceStep.homeStep (h : SliceStep line s x t y) : HomeStep 0 s t :=
  ⟨h.beyond, h.mem, congrArg Copies.regs h.copies, by rw [h.dir]; exact .refl _⟩

/-- An event at the home whose set has room leaves the directory, the warps and the bytes as the event says. -/
theorem HomeStep.ends (h : HomeStep n s t) (hspare : s.dirSpare line n) :
    t.dirRoom line = t ∧ t.done.out = .done ∧ t.done.warps = s.warps ∧ s.sameBytes t.done :=
  ⟨dirRoom_eq hspare h.regs h.dir, rfl, (congrArg Beyond.warps h.beyond :), sameBytes_of_beyond (t := t.done) h.mem h.beyond⟩

/-! Write-backs under way (R81). -/

theorem settle_of_none {p : Wb → Bool} (h : ∀ w ∈ s.wbs, p w = false) : s.settle p = s := by
  have hnone : s.wbs.filter p = [] := List.filter_eq_nil_iff.mpr fun w hw => by rw [h w hw]; decide
  have hall : (s.wbs.filter fun w => !p w) = s.wbs := List.filter_eq_self.mpr fun w hw => by rw [h w hw]; rfl
  simp only [settle, hnone, List.foldl_nil, hall]

theorem settleFrom_of_none (h : ∀ w ∈ s.wbs, w.line ≠ line) (die : Bool) (agent : Nat) : s.settleFrom die agent line = s :=
  settle_of_none fun w hw => by simp [h w hw]

/-! A core's copy leaves (R80). -/

/-- The home's data once a core's copy has left. -/
def givenBack (st : CopyState) (copy home : List Byte) : List Byte :=
  match st with
  | .m | .o => copy
  | .c op => op.mergeLine home copy
  | _ => home

theorem coreLeaves_eq {core : Nat} {l : L1Line} (hl : s.l1Line core line = some l) (hx : s.sliceLine line = some x)
    (hwbs : ∀ w ∈ s.wbs, w.line ≠ line) (hresv : ∀ r ∈ s.resv, r.line ≠ line) :
    ∃ t y, s.coreLeaves core line = t.coreForgets core line ∧ SliceStep line (s.dropL1 core line) x t y
      ∧ y.data = givenBack l.st l.data x.data := by
  have hdrop : (s.dropL1 core line).sliceLine line = some x := hx
  have htake := fun part op => SliceStep.takeBack hdrop (part := part) (op := op) (d := l.data) (ns := l.ns) (tag := l.tag)
    (stream := false) hresv
  cases hst : l.st with
  | s => exact ⟨_, x, by simp only [coreLeaves, settleFrom_of_none hwbs, hl, hst], .refl hdrop, rfl⟩
  | e => exact ⟨_, x, by simp only [coreLeaves, settleFrom_of_none hwbs, hl, hst], .refl hdrop, rfl⟩
  | m =>
    obtain ⟨y, hstep, hdata⟩ := htake (s.dirFor line 0).part none
    exact ⟨_, y, by simp only [coreLeaves, settleFrom_of_none hwbs, hl, hst], hstep, hdata⟩
  | o =>
    obtain ⟨y, hstep, hdata⟩ := htake (s.dirFor line 0).part none
    exact ⟨_, y, by simp only [coreLeaves, settleFrom_of_none hwbs, hl, hst], hstep, hdata⟩
  | c op =>
    obtain ⟨y, hstep, hdata⟩ := htake (s.dirFor line 0).part (some op)
    exact ⟨_, y, by simp only [coreLeaves, settleFrom_of_none hwbs, hl, hst], hstep, hdata⟩

/-- A core's copy of a line that is in its slice leaves it. -/
theorem coreLeaves_spec {core : Nat} {l : L1Line} (hent : s.dirEnt line = some e) (hl : s.l1Line core line = some l)
    (hx : s.sliceLine line = some x) (hwbs : ∀ w ∈ s.wbs, w.line ≠ line) (hresv : ∀ r ∈ s.resv, r.line ≠ line) :
    HomeStep e.log s (s.coreLeaves core line) ∧ (s.coreLeaves core line).l1Line core line = none
      ∧ (s.coreLeaves core line).dirState line = DirEnt.without core e.st
      ∧ (s.coreLeaves core line).homeData line = givenBack l.st l.data (s.homeData line) := by
  obtain ⟨t, y, hleave, hstep, hdata⟩ := coreLeaves_eq hl hx hwbs hresv
  obtain ⟨d, e', hforget, hfind, hst, hgrown⟩ := coreForgets_spec ((dirEnt_congr hstep.copies line).trans hent) core
  have hl1 : t.l1 = s.l1.filter fun l => !(l.core == core && l.line == line) := congrArg Copies.l1 hstep.copies
  have hdrop : HomeStep 0 s (s.dropL1 core line) := ⟨rfl, rfl, rfl, .refl _⟩
  rw [hleave, hforget]
  refine ⟨((hdrop.trans hstep.homeStep).trans (.withDir hgrown)).mono (by omega), ?_, (dirState_of_dirEnt (s := { t with dir := d }) hfind).trans hst, ?_⟩
  · refine List.find?_eq_none.mpr fun l hmem => ?_
    rw [hl1] at hmem
    exact Bool.not_eq_true _ ▸ Bool.not_eq_true' _ ▸ (List.mem_filter.mp hmem).2
  · rw [homeData_of_sliceLine hx, ← hdata]
    exact homeData_of_sliceLine (s := { t with dir := d }) hstep.after

/-! An owner shares its copy (R80). -/

/-- Whether an owner keeps the line's data as its own once it shares. -/
def ownsData (st : CopyState) : Bool := st == .m || st == .o

theorem ownsData_iff {st : CopyState} : ownsData st = true ↔ st = .m ∨ st = .o := by
  rw [ownsData, Bool.or_eq_true, beq_iff_eq, beq_iff_eq]

/-- The entry of a line whose owner shares it. -/
def sharedState (core : Nat) (owns : Bool) (st : DirState) : DirState :=
  let cs := match st with
    | .ow _ cs | .sh cs => cs.filter (· != core)
    | _ => []
  if owns then .ow core cs else .sh (core :: cs)

theorem coreShares_spec {core : Nat} {l : L1Line} (hent : s.dirEnt line = some e) (hl : s.l1Line core line = some l)
    (hwbs : ∀ w ∈ s.wbs, w.line ≠ line) :
    HomeStep e.log s (s.coreShares core line)
      ∧ (s.coreShares core line).l1Line core line = some { l with st := if ownsData l.st then .o else .s }
      ∧ (s.coreShares core line).dirState line = sharedState core (ownsData l.st) e.st := by
  obtain ⟨d, e', hent', hput, hfind, ⟨hst, -⟩, hgrown⟩ := splitDir_putDir_spec hent
    (blockLog ((s.l1.filter fun l => l.core == core).map (·.line)) line e.log)
    (g := fun e => { e with st := sharedState core (ownsData l.st) e.st }) fun _ => ⟨rfl, rfl⟩
  have hcore : (l.core == core && l.line == line) = true := List.find?_some (p := fun l : L1Line => l.core == core && l.line == line) hl
  have hshare : s.coreShares core line = ({ s with dir := d } : State).putL1 { l with st := if ownsData l.st then .o else .s } := by
    have hk : ((s.dirEnt line).map (·.log)).getD 0 = e.log := by rw [hent]; rfl
    rw [coreShares, settleFrom_of_none hwbs]
    dsimp only
    rw [hk]
    obtain ⟨d', e'', hsplit, -⟩ := splitDir_spec hent (blockLog ((s.l1.filter fun l => l.core == core).map (·.line)) line e.log)
    have hl' : (s.splitDir line (blockLog ((s.l1.filter fun l => l.core == core).map (·.line)) line e.log)).l1Line core line = some l := by
      rw [hsplit]; exact hl
    rw [hl']
    dsimp only [Option.any_some, Option.isNone_some]
    have hent'' : ((s.splitDir line (blockLog ((s.l1.filter fun l => l.core == core).map (·.line)) line e.log)).putL1
        { l with st := if ownsData l.st then .o else .s }).dirEnt line = some e' := hent'
    unfold ownsData at hent''
    rw [hent'']
    rw [show ({ s with dir := d } : State) = _ from hput.symm]
    rfl
  rw [hshare]
  refine ⟨⟨rfl, rfl, rfl, hgrown⟩, List.find?_cons_of_pos hcore, ?_⟩
  exact (dirState_of_dirEnt (s := { s with dir := d }) hfind).trans (congrArg (sharedState core (ownsData l.st)) hst)

end State

end Sys2Proof.Machine
end

section
/-!
PROOFS. A die's copy leaves, write-backs, and the events that bring them about (R80, R81, R95, R99, R100).
-/

namespace Sys2Proof.Machine

namespace State
variable {s t u : State} {line n m : Nat} {x y : SliceLine} {e : DirEnt}

/-! A die's copy leaves (R95, R97, R99). -/

/-- The home's data once a partial, or an owner's line, has come home. -/
def broughtHome (op : Option CarryOp) (data home : List Byte) : List Byte :=
  match op with
  | some op => op.mergeLine home data
  | none => data

/-- The home's data once a die's copy has left: a leased copy brings none. -/
def mergedBack (op : Option CarryOp) (data home : List Byte) : List Byte :=
  match op with
  | some op => op.mergeLine home data
  | none => home

theorem dieLeaves_eq {die : Nat} {l : RdcLine} (hl : s.rdcLine die line = some l) (hx : s.sliceLine line = some x)
    (hwbs : ∀ w ∈ s.wbs, w.line ≠ line) (hresv : ∀ r ∈ s.resv, r.line ≠ line) :
    ∃ t y, s.dieLeaves die line = t.dropDieL1 die line ∧ SliceStep line (s.dropRdc die line) x t y
      ∧ y.data = mergedBack l.op l.data x.data := by
  have hdrop : (s.dropRdc die line).sliceLine line = some x := hx
  cases hop : l.op with
  | none => exact ⟨_, x, by simp only [dieLeaves, settleFrom_of_none hwbs, hl, hop], .refl hdrop, rfl⟩
  | some op =>
    obtain ⟨y, hstep, hdata⟩ := SliceStep.takeBack hdrop hresv (s.dropRdc die line |>.dirFor line 0).part (some op) l.data l.ns l.tag l.stream
    exact ⟨_, y, by simp only [dieLeaves, settleFrom_of_none hwbs, hl, hop], hstep, hdata⟩

/-- A die's copy of a line that is in its slice leaves it, and the L1 copies filled through it. -/
theorem dieLeaves_spec {die : Nat} {l : RdcLine} (hent : s.dirEnt line = some e) (hl : s.rdcLine die line = some l)
    (hx : s.sliceLine line = some x) (hwbs : ∀ w ∈ s.wbs, w.line ≠ line) (hresv : ∀ r ∈ s.resv, r.line ≠ line) :
    ∃ t, (s.dieLeaves die line).dieForgets die line = t ∧ HomeStep e.log s t ∧ t.rdcLine die line = none
      ∧ (∀ z ∈ t.l1, z.line = line → dieOf z.core ≠ die) ∧ die ∉ t.dirDies line ∧ t.dirState line = DirEnt.withoutDie die e.st
      ∧ t.homeData line = mergedBack l.op l.data (s.homeData line) := by
  obtain ⟨t, y, hleave, hstep, hdata⟩ := dieLeaves_eq hl hx hwbs hresv
  obtain ⟨d, e', hforget, hfind, hst, hdies, hgrown⟩ :=
    dieForgets_spec (s := t.dropDieL1 die line) ((dirEnt_congr hstep.copies line).trans hent) die
  have hrdc : t.rdc = s.rdc.filter fun l => !(l.die == die && l.line == line) := congrArg Copies.rdc hstep.copies
  have hdrop : HomeStep 0 s (s.dropRdc die line) := ⟨rfl, rfl, rfl, .refl _⟩
  have hdrop' : HomeStep 0 t (t.dropDieL1 die line) := ⟨rfl, rfl, rfl, .refl _⟩
  rw [hleave, hforget]
  refine ⟨_, rfl, (((hdrop.trans hstep.homeStep).trans hdrop').trans (.withDir hgrown)).mono (by omega), ?_, fun z hz hline => ?_, ?_,
    (dirState_of_dirEnt (s := { t.dropDieL1 die line with dir := d }) hfind).trans hst, ?_⟩
  · refine List.find?_eq_none.mpr fun l hmem => ?_
    have hmem' : l ∈ t.rdc := hmem
    rw [hrdc] at hmem'
    exact Bool.not_eq_true _ ▸ Bool.not_eq_true' _ ▸ (List.mem_filter.mp hmem').2
  · have hkept := (List.mem_filter.mp (show z ∈ t.l1.filter fun l => !(l.line == line && dieOf l.core == die) from hz)).2
    simpa [hline] using hkept
  · rw [dirDies_of_dirEnt (s := { t.dropDieL1 die line with dir := d }) hfind, hdies]
    simp
  · rw [homeData_of_sliceLine hx, ← hdata]
    exact homeData_of_sliceLine (s := { t.dropDieL1 die line with dir := d }) hstep.after

/-! A write-back arrives (R81, R100). -/

theorem arrive_stale {w : Wb} (h : w.inc ≠ s.incOf w.die w.agent w.line) :
    s.arrive w = s.log "STALEMSG" [if w.die then 2 else 0, w.agent, w.inc, w.line] := by
  rw [arrive, if_pos (bne_iff_ne.mpr h)]

/-- An agent leaves the entry of a line. -/
theorem forgets_spec (h : s.dirEnt line = some e) (die : Bool) (agent : Nat) :
    ∃ d e', (if die then s.dieForgets agent line else s.coreForgets agent line) = { s with dir := d } ∧ d.find? (·.covers line) = some e'
      ∧ e'.st = (if die then DirEnt.withoutDie agent e.st else DirEnt.without agent e.st) ∧ Grown s.dir d e.log := by
  cases die with
  | true =>
    obtain ⟨d, e', hd, hfind, hst, -, hgrown⟩ := dieForgets_spec h agent
    exact ⟨d, e', hd, hfind, hst, hgrown⟩
  | false => exact coreForgets_spec h agent

/-- A write-back of its agent's incarnation brings the line home. -/
theorem arrive_spec {w : Wb} (hinc : w.inc = s.incOf w.die w.agent w.line) (hent : s.dirEnt w.line = some e)
    (hx : s.sliceLine w.line = some x) (hresv : ∀ r ∈ s.resv, r.line ≠ w.line) :
    HomeStep e.log s (s.arrive w) ∧ (s.arrive w).wbs = s.wbs
      ∧ (s.arrive w).dirState w.line = (if w.die then DirEnt.withoutDie w.agent e.st else DirEnt.without w.agent e.st)
      ∧ (s.arrive w).homeData w.line = broughtHome w.op w.data (s.homeData w.line) := by
  obtain ⟨y, hstep, hdata⟩ := SliceStep.takeBack hx hresv (s.dirFor w.line 0).part w.op w.data w.ns w.tag w.stream
  obtain ⟨d, e', hforget, hfind, hst, hgrown⟩ := forgets_spec ((dirEnt_congr hstep.copies w.line).trans hent) w.die w.agent
  rw [arrive, if_neg (by rw [bne_iff_ne]; exact not_not.mpr hinc)]
  dsimp only
  rw [hforget]
  refine ⟨(hstep.homeStep.trans (.withDir hgrown)).mono (by omega), (congrArg Copies.wbs hstep.copies :), ?_, ?_⟩
  · exact (dirState_of_dirEnt (s := { s.takeBack _ _ _ _ _ _ _ with dir := d }) hfind).trans hst
  · rw [homeData_of_sliceLine hx]
    exact (homeData_of_sliceLine (s := { s.takeBack _ _ _ _ _ _ _ with dir := d }) hstep.after).trans hdata

end State

/-! The events (R80 to R82, R95, R99, R100). -/

section
variable {s : State} {core die line : Nat} {x : SliceLine} {e : DirEnt}

theorem exec_coreLeaves (hscrub : s.scrubbing false core line = false) :
    ∀ ev ∈ ([.forward core line true, .invalidation core line, .carryCollect false core line] : List Instr),
      exec ev s = .next ((s.coreLeaves core line).dirRoom line).done := by
  have hwaits : ¬ s.scrubbing false core line = true := by rw [hscrub]; exact Bool.false_ne_true
  refine List.forall_mem_cons.mpr ⟨?_, List.forall_mem_cons.mpr ⟨?_, List.forall_mem_singleton.mpr ?_⟩⟩
  · show execForward core line true s = _
    rw [execForward, if_neg hwaits, if_pos rfl]
  · show execInvalidation core line s = _
    rw [execInvalidation, if_neg hwaits]
  · show execCarryCollect false core line s = _
    rw [execCarryCollect, if_neg Bool.false_ne_true, if_neg hwaits, if_neg Bool.false_ne_true]

theorem exec_coreShares (hscrub : s.scrubbing false core line = false) :
    exec (.forward core line false) s = .next ((s.coreShares core line).dirRoom line).done := by
  show execForward core line false s = _
  rw [execForward, if_neg (by rw [hscrub]; exact Bool.false_ne_true), if_neg Bool.false_ne_true]

theorem exec_dieLeaves (hmute : s.mute die line = false) :
    ∀ ev ∈ ([.leaseRevocation die line, .carryCollect true die line] : List Instr),
      exec ev s = .next (((s.dieLeaves die line).dieForgets die line).dirRoom line).done := by
  have hwaits : ¬ s.mute die line = true := by rw [hmute]; exact Bool.false_ne_true
  refine List.forall_mem_cons.mpr ⟨?_, List.forall_mem_singleton.mpr ?_⟩
  · show execLeaseRevocation die line s = _
    rw [execLeaseRevocation, if_neg (by rw [hmute]; exact Bool.false_ne_true)]
  · show execCarryCollect true die line s = _
    rw [execCarryCollect, if_pos rfl, if_neg hwaits, if_pos rfl]

/-- What brings a core's copy home ends with the copy gone. -/
theorem coreLeaves_events {l : L1Line} (hent : s.dirEnt line = some e) (hx : s.sliceLine line = some x) (hspare : s.dirSpare line e.log)
    (hresv : ∀ r ∈ s.resv, r.line ≠ line) (hwbs : ∀ w ∈ s.wbs, w.line ≠ line) (hl : s.l1Line core line = some l)
    (hscrub : s.scrubbing false core line = false) :
    ∀ ev ∈ ([.forward core line true, .invalidation core line, .carryCollect false core line] : List Instr),
      ∃ t, exec ev s = .next t ∧ t.out = .done ∧ t.warps = s.warps ∧ s.sameBytes t ∧ t.l1Line core line = none
        ∧ t.dirState line = DirEnt.without core e.st ∧ t.homeData line = State.givenBack l.st l.data (s.homeData line) := by
  intro ev hev
  obtain ⟨hstep, hgone, hst, hdata⟩ := State.coreLeaves_spec hent hl hx hwbs hresv
  obtain ⟨hroom, hout, hwarps, hbytes⟩ := hstep.ends hspare
  exact ⟨_, by rw [exec_coreLeaves hscrub ev hev, hroom], hout, hwarps, hbytes, hgone, hst, hdata⟩

/-- A forward that lets the owner share ends with the owner's copy in O or S. -/
theorem coreShares_event {l : L1Line} (hent : s.dirEnt line = some e) (hspare : s.dirSpare line e.log)
    (hwbs : ∀ w ∈ s.wbs, w.line ≠ line) (hl : s.l1Line core line = some l) (hscrub : s.scrubbing false core line = false) :
    ∃ t z, exec (.forward core line false) s = .next t ∧ t.out = .done ∧ t.warps = s.warps ∧ s.sameBytes t
      ∧ t.l1Line core line = some z ∧ z.data = l.data ∧ z.st = (if l.st = .m ∨ l.st = .o then .o else .s)
      ∧ (e.st = .ex core → t.dirState line = if l.st = .m ∨ l.st = .o then .ow core [] else .sh [core]) := by
  obtain ⟨hstep, hl1, hst⟩ := State.coreShares_spec hent hl hwbs
  obtain ⟨hroom, hout, hwarps, hbytes⟩ := hstep.ends hspare
  refine ⟨_, _, by rw [exec_coreShares hscrub, hroom], hout, hwarps, hbytes, hl1, rfl, ?_, fun hex => ?_⟩
  · simp only [State.ownsData_iff]
  · refine hst.trans ?_
    rw [hex]
    simp only [State.sharedState, State.ownsData_iff]

/-- What brings a die's copy home ends with the copy gone, and with it the L1 copies filled through it. -/
theorem dieLeaves_events {l : RdcLine} (hent : s.dirEnt line = some e) (hx : s.sliceLine line = some x) (hspare : s.dirSpare line e.log)
    (hresv : ∀ r ∈ s.resv, r.line ≠ line) (hwbs : ∀ w ∈ s.wbs, w.line ≠ line) (hl : s.rdcLine die line = some l)
    (hmute : s.mute die line = false) :
    ∀ ev ∈ ([.leaseRevocation die line, .carryCollect true die line] : List Instr),
      ∃ t, exec ev s = .next t ∧ t.out = .done ∧ t.warps = s.warps ∧ s.sameBytes t ∧ t.rdcLine die line = none
        ∧ (∀ z ∈ t.l1, z.line = line → dieOf z.core ≠ die) ∧ die ∉ t.dirDies line ∧ t.dirState line = DirEnt.withoutDie die e.st
        ∧ t.homeData line = State.mergedBack l.op l.data (s.homeData line) := by
  intro ev hev
  obtain ⟨t, rfl, hstep, hgone, hl1, hdies, hst, hdata⟩ := State.dieLeaves_spec hent hl hx hwbs hresv
  obtain ⟨hroom, hout, hwarps, hbytes⟩ := hstep.ends hspare
  exact ⟨_, by rw [exec_dieLeaves hmute ev hev, hroom], hout, hwarps, hbytes, hgone, hl1, hdies, hst, hdata⟩

/-- The write-back of an agent reaches the home. -/
theorem writeback_event {w : Wb} (hent : s.dirEnt line = some e) (hx : s.sliceLine line = some x) (hspare : s.dirSpare line e.log)
    (hresv : ∀ r ∈ s.resv, r.line ≠ line)
    (hw : s.wbs.filter (fun w' => w'.die == w.die && w'.agent == w.agent && w'.line == line) = [w]) (hline : w.line = line) :
    ∃ t, exec (.homeWriteback (w.die, w.agent) line) s = .next t ∧ t.out = .done ∧ t.warps = s.warps ∧ s.sameBytes t ∧ w ∉ t.wbs
      ∧ (w.inc = s.incOf w.die w.agent line →
        t.dirState line = (if w.die then DirEnt.withoutDie w.agent e.st else DirEnt.without w.agent e.st)
        ∧ t.homeData line = State.broughtHome w.op w.data (s.homeData line))
      ∧ (w.inc ≠ s.incOf w.die w.agent line → t.dir = s.dir ∧ t.homeData line = s.homeData line
        ∧ t.ras = s.ras ++ [⟨"STALEMSG", [if w.die then 2 else 0, w.agent, w.inc, line]⟩]) := by
  subst hline
  let sent : State := { s with wbs := s.wbs.filter fun w' => !(w'.die == w.die && w'.agent == w.agent && w'.line == w.line) }
  have hsettle : s.settleFrom w.die w.agent w.line = sent.arrive w := by
    rw [State.settleFrom, State.settle, hw]
    rfl
  have hexec : exec (.homeWriteback (w.die, w.agent) w.line) s = .next ((sent.arrive w).dirRoom w.line).done := by
    rw [← hsettle]
    rfl
  have hgone : w ∉ sent.wbs := by simp [sent]
  have hsent : State.HomeStep 0 s sent := ⟨rfl, rfl, rfl, .refl _⟩
  by_cases hinc : w.inc = s.incOf w.die w.agent w.line
  · obtain ⟨hstep, hwbs, hst, hdata⟩ := State.arrive_spec (s := sent) hinc hent hx hresv
    obtain ⟨hroom, hout, hwarps, hbytes⟩ := (hsent.trans hstep).ends (by rwa [Nat.zero_add])
    refine ⟨_, by rw [hexec, hroom], hout, hwarps, hbytes, ?_, fun _ => ⟨hst, hdata⟩, fun hne => absurd hinc hne⟩
    rw [State.done_wbs, hwbs]
    exact hgone
  · have hlog := State.arrive_stale (s := sent) hinc
    have hstep : State.HomeStep 0 sent (sent.log "STALEMSG" [if w.die then 2 else 0, w.agent, w.inc, w.line]) := ⟨rfl, rfl, rfl, .refl _⟩
    obtain ⟨hroom, hout, hwarps, hbytes⟩ := ((hsent.trans hstep).mono (Nat.zero_le e.log)).ends hspare
    exact ⟨_, by rw [hexec, hlog, hroom], hout, hwarps, hbytes, hgone, fun h => absurd h hinc, fun _ => ⟨rfl, rfl, rfl⟩⟩

end

end Sys2Proof.Machine
end

section
/-!
PROOFS. A request at its line's home (R81 to R85): how it is taken up there, and what a recall sends out.
-/

namespace Sys2Proof.Machine

namespace State
variable {s t u : State} {line id k : Nat} {x y : SliceLine} {f : Flight} {l : Leaf}

/-! Entries rewritten in their places. -/

/-- Each entry stays where it is and records of its lines what it did. -/
structure KeepsRecord (g : DirEnt → DirEnt) : Prop where
  base : ∀ e, (g e).base = e.base
  log : ∀ e, (g e).log = e.log
  st : ∀ e, (g e).st = e.st
  dies : ∀ e, (g e).dies = e.dies

theorem KeepsRecord.ite {c : DirEnt → Bool} {g : DirEnt → DirEnt} (h : KeepsRecord g) : KeepsRecord fun e => if c e then g e else e where
  base e := by rw [apply_ite DirEnt.base, h.base, ite_self]
  log e := by rw [apply_ite DirEnt.log, h.log, ite_self]
  st e := by rw [apply_ite DirEnt.st, h.st, ite_self]
  dies e := by rw [apply_ite DirEnt.dies, h.dies, ite_self]

theorem KeepsRecord.dirEnt {g : DirEnt → DirEnt} (hg : KeepsRecord g) (s : State) (line : Nat) :
    ({ s with dir := s.dir.map g } : State).dirEnt line = (s.dirEnt line).map g := by
  have hp : ((fun e : DirEnt => e.covers line) ∘ g) = fun e => e.covers line :=
    funext fun e => DirEnt.covers_congr (hg.base e) (hg.log e) line
  rw [State.dirEnt, List.find?_map, hp]
  rfl

theorem KeepsRecord.dirState {g : DirEnt → DirEnt} (hg : KeepsRecord g) (s : State) (line : Nat) :
    ({ s with dir := s.dir.map g } : State).dirState line = s.dirState line := by
  rw [State.dirState, State.dirState, hg.dirEnt]
  cases s.dirEnt line with
  | none => rfl
  | some e => exact hg.st e

theorem KeepsRecord.dirDies {g : DirEnt → DirEnt} (hg : KeepsRecord g) (s : State) (line : Nat) :
    ({ s with dir := s.dir.map g } : State).dirDies line = s.dirDies line := by
  rw [State.dirDies, State.dirDies, hg.dirEnt]
  cases s.dirEnt line with
  | none => rfl
  | some e => exact hg.dies e

/-! A request that nothing holds up (R81 to R85). -/

/-- From `s` to `t` a request has been let in at the home of its line: nothing but transactions and the partitions of
entries and slice lines has changed. -/
structure LetIn (line : Nat) (s t : State) : Prop where
  copies : { t.copies with dir := s.dir, txns := s.txns } = s.copies
  beyond : t.beyond = s.beyond
  mem : t.mem = s.mem
  dies : t.dies = s.dies
  dir : Grown s.dir t.dir 0
  slice : ∀ x, s.sliceLine line = some x → ∃ y, t.sliceLine line = some y ∧ y.data = x.data ∧ y.tag = x.tag ∧ y.die = x.die ∧ y.slice = x.slice
  state : t.dirState line = s.dirState line
  sharers : t.dirDies line = s.dirDies line

theorem LetIn.refl (line : Nat) (s : State) : LetIn line s s :=
  ⟨rfl, rfl, rfl, rfl, .refl _, fun x hx => ⟨x, hx, rfl, rfl, rfl, rfl⟩, rfl, rfl⟩

theorem LetIn.trans (h : LetIn line s t) (g : LetIn line t u) : LetIn line s u where
  copies := (congrArg (fun c : Copies => { c with dir := s.dir, txns := s.txns }) g.copies).trans h.copies
  beyond := g.beyond.trans h.beyond
  mem := g.mem.trans h.mem
  dies := g.dies.trans h.dies
  dir := h.dir.trans g.dir
  slice x hx := by
    obtain ⟨y, hy, hdata, htag, hdie, hslice⟩ := h.slice x hx
    obtain ⟨z, hz, hdata', htag', hdie', hslice'⟩ := g.slice y hy
    exact ⟨z, hz, hdata'.trans hdata, htag'.trans htag, hdie'.trans hdie, hslice'.trans hslice⟩
  state := g.state.trans h.state
  sharers := g.sharers.trans h.sharers

theorem LetIn.homeStep (h : LetIn line s t) : HomeStep 0 s t :=
  ⟨h.beyond, h.mem, (congrArg Copies.regs h.copies :), h.dir⟩

/-- Entries that keep their record are rewritten, and transactions end or begin. -/
theorem LetIn.withDir (s : State) (line : Nat) {g : DirEnt → DirEnt} (hg : KeepsRecord g) (txns : List Nat) :
    LetIn line s { s with dir := s.dir.map g, txns := txns } :=
  ⟨rfl, rfl, rfl, rfl, .map _ hg.base, fun x hx => ⟨x, hx, rfl, rfl, rfl, rfl⟩, hg.dirState s line, hg.dirDies s line⟩

/-- A request of the world that the slice's copy is of has its partition taken (R84, R85). -/
theorem LetIn.enter (hx : s.sliceLine line = some x) {ns : Bool} (hns : x.ns = ns) (part : Nat) (shared : Bool) :
    LetIn line s (s.homeEnter line part ns shared) := by
  have hworld : ¬ (x.ns && !ns) = true := by rw [hns, Bool.and_not_self]; exact Bool.false_ne_true
  rw [homeEnter, hx]
  dsimp only
  rw [if_neg hworld]
  split
  · exact .refl line s
  · have hdir := LetIn.withDir ({ s with slices := s.slices.map fun x => if x.line = line then { x with part := part } else x } : State) line
      (KeepsRecord.ite (c := fun x => x.covers line && x.idle) (g := fun x => { x with part := part }) ⟨fun _ => rfl, fun _ => rfl, fun _ => rfl, fun _ => rfl⟩) s.txns
    refine LetIn.trans (t := { s with slices := s.slices.map fun x => if x.line = line then { x with part := part } else x }) ?_ hdir
    refine ⟨rfl, rfl, rfl, rfl, .refl _, fun y hy => ?_, rfl, rfl⟩
    exact ⟨_, sliceLine_map (g := fun x => { x with part := part }) (fun _ => rfl) hy, rfl, rfl, rfl, rfl⟩

theorem LetIn.close (s : State) (line : Nat) (r : Req) : LetIn line s (s.closeTxn r line) := by
  unfold closeTxn
  split
  · exact .withDir s line (KeepsRecord.ite (c := fun e => e.covers line) (g := fun e => { e with was := none }) ⟨fun _ => rfl, fun _ => rfl, fun _ => rfl, fun _ => rfl⟩) _
  · exact .refl line s

/-- A request at the door of its home is let in: it sends what it needs, or is performed (R81). -/
theorem atHome_of_door (h : s.atDoor id k f l line) (ev : Instr) (msgs : State → Flight → Leaf → Nat → List Instr)
    (perform : State → Flight → Leaf → Nat → State) :
    s.atHome ev id k msgs perform =
      let u := s.homeEnter line f.part l.ns l.shared
      let ms := if l.shared then [] else msgs u f l line
      if ms = [] then (perform (u.closeTxn (f.req k) line) f l line).dirRoom line else (u.openTxn id k line ms).push [ev] := by
  obtain ⟨hflight, -, hleaf, rfl, hdone, hrmt, -, hbusy, hbehind, hredir, hwbs, hcheck, -⟩ := h
  simp only [atHome, hflight, hleaf, hdone, hbusy, hbehind, hredir, hcheck, hrmt, settleFrom_of_none hwbs, Bool.or_self, Bool.and_false,
    Bool.false_and, Bool.false_eq_true, if_false]

/-- What stands at a line's home as a request on it is performed there. -/
structure Serves (s : State) (id : Nat) (f : Flight) (line : Nat) (x : SliceLine) : Prop where
  flight : s.flights.get? id = some f
  slice : s.sliceLine line = some x
  resv : ∀ r ∈ s.resv, r.line ≠ line
  wbs : ∀ w ∈ s.wbs, w.line ≠ line
  sound : s.isPoisoned line = false
  l1 : (s.l1.filter fun x => x.core == f.core).length < 2048
  rdc : (s.rdc.filter fun x => x.die == f.die && x.line % 65536 == line % 65536).length < 16

theorem atDoor.inRange (h : s.atDoor id k f l line) : k < f.reqs.length := by
  obtain ⟨-, hk, -⟩ := h
  exact hk

theorem atDoor.notRmt (h : s.atDoor id k f l line) : f.isRmt = false := by
  obtain ⟨-, -, -, -, -, hrmt, -⟩ := h
  exact hrmt

theorem atDoor.spare (h : s.atDoor id k f l line) : s.dirSpare line 1 := by
  obtain ⟨-, -, -, -, -, -, -, -, -, -, -, -, -, -, -, hspare, -⟩ := h
  exact hspare

theorem atDoor.serves (h : s.atDoor id k f l line) : ∃ x, s.Serves id f line x ∧ x.ns = l.ns := by
  obtain ⟨hflight, -, -, -, -, -, -, -, -, -, hwbs, -, hsound, hresv, ⟨x, hx, hns⟩, -, hl1, hrdc⟩ := h
  exact ⟨x, ⟨hflight, hx, hresv, hwbs, hsound, hl1, hrdc⟩, hns⟩

theorem Serves.letIn (h : s.Serves id f line x) (hin : LetIn line s t) :
    ∃ y, t.Serves id f line y ∧ y.data = x.data ∧ y.tag = x.tag ∧ y.die = x.die ∧ y.slice = x.slice := by
  obtain ⟨y, hy, hsame⟩ := hin.slice x h.slice
  have hcopies := hin.copies
  refine ⟨y, ⟨?_, hy, ?_, ?_, ?_, ?_, ?_⟩, hsame⟩
  · rw [show t.flights = s.flights from (congrArg Copies.flights hcopies :)]; exact h.flight
  · rw [show t.resv = s.resv from (congrArg Copies.resv hcopies :)]; exact h.resv
  · rw [show t.wbs = s.wbs from (congrArg Copies.wbs hcopies :)]; exact h.wbs
  · rw [isPoisoned, show t.poison = s.poison from (congrArg Copies.poison hcopies :)]; exact h.sound
  · rw [show t.l1 = s.l1 from (congrArg Copies.l1 hcopies :)]; exact h.l1
  · rw [show t.rdc = s.rdc from (congrArg Copies.rdc hcopies :)]; exact h.rdc

end State

end Sys2Proof.Machine
end

section
/-!
PROOFS. Recalls (R80, R168), and O26.
-/

namespace Sys2Proof.Machine

namespace State
variable {s t u : State} {line id k o : Nat} {x y : SliceLine} {f : Flight} {l : Leaf}

/-! Recalls (R80, R168). -/

/-- A message that is sent at most once is in flight afterwards, and nothing else has changed. -/
theorem pushNew_spec (s : State) (i : Instr) : ∃ is, s.pushNew i = s.push is ∧ i ∈ (s.push is).agenda := by
  unfold pushNew
  split
  next h => exact ⟨[], by rw [push, List.append_nil], List.mem_append_left _ h⟩
  next => exact ⟨[i], rfl, List.mem_append_right _ (List.mem_singleton_self i)⟩

theorem KeepsRecord.keepOld (line : Nat) :
    KeepsRecord fun e => if e.covers line then { e with was := e.was <|> some (e.st, e.dies) } else e :=
  KeepsRecord.ite (c := fun e => e.covers line) (g := fun e => { e with was := e.was <|> some (e.st, e.dies) })
    ⟨fun _ => rfl, fun _ => rfl, fun _ => rfl, fun _ => rfl⟩

/-- A transaction with one message opens: the message sets out, the line is busy, and the home has the line as before. -/
theorem openTxn_spec (h : s.flights.get? id = some f) (k line : Nat) (m : Instr) :
    HomeStep 0 s (s.openTxn id k line [m]) ∧ m ∈ (s.openTxn id k line [m]).agenda ∧ line ∈ (s.openTxn id k line [m]).txns
      ∧ (s.openTxn id k line [m]).homeData line = s.homeData line := by
  have hopen : s.openTxn id k line [m] = ({ (s.putFlight id (f.withReq k { f.req k with sent := true })).keepOld line with
      txns := if s.txns.contains line then s.txns else line :: s.txns } : State).pushNew m := by
    rw [openTxn, modReq_of_get? h]
    rfl
  obtain ⟨is, hpush, hmem⟩ := pushNew_spec ({ (s.putFlight id (f.withReq k { f.req k with sent := true })).keepOld line with
      txns := if s.txns.contains line then s.txns else line :: s.txns } : State) m
  rw [hopen, hpush]
  refine ⟨⟨rfl, rfl, rfl, .map _ fun e => (KeepsRecord.keepOld line).base e⟩, hmem, ?_, rfl⟩
  show line ∈ if s.txns.contains line then s.txns else line :: s.txns
  split
  next hbusy => exact List.contains_iff_mem.mp hbusy
  next => exact List.mem_cons_self

theorem carrying_of_owned (hst : s.dirState line = .ex o) (hresv : ∀ r ∈ s.resv, r.line ≠ line) : s.carrying line = false := by
  rw [carrying, hst]
  simpa using hresv

theorem prefetchSkips_of_owned (hst : s.dirState line = .ex o) (hresv : ∀ r ∈ s.resv, r.line ≠ line) (f : Flight) :
    s.prefetchSkips f line = false := by
  rw [prefetchSkips, carrying_of_owned hst hresv, Bool.and_false]

/-! What a request sends to the owner of its line (R80). -/

theorem loadCoreMsgs_of_owned (hst : s.dirState line = .ex o) (hne : o ≠ f.core) (hresv : ∀ r ∈ s.resv, r.line ≠ line) :
    s.loadCoreMsgs f l line = [.forward o line (loadAtSlice f l false)] := by
  rw [loadCoreMsgs, prefetchSkips_of_owned hst hresv f, if_neg Bool.false_ne_true]
  cases loadAtSlice f l false with
  | true => rw [if_pos rfl, recallMsgs, hst]
  | false =>
    have hasks : s.asksOwner o f.core line = true := by
      rw [asksOwner, hst, bne_iff_ne.mpr hne]
      rfl
    rw [if_neg Bool.false_ne_true, hst]
    dsimp only
    rw [hasks, if_pos rfl]

theorem loadRemoteMsgs_of_owned (hst : s.dirState line = .ex o) (hresv : ∀ r ∈ s.resv, r.line ≠ line) :
    s.loadRemoteMsgs f l line = [.forward o line true] := by
  rw [loadRemoteMsgs, prefetchSkips_of_owned hst hresv f, if_neg Bool.false_ne_true, recallMsgs, hst]

theorem ownMsgs_of_owned (hst : s.dirState line = .ex o) (hne : o ≠ f.core) : s.ownMsgs f l line = [.forward o line true] := by
  rw [ownMsgs, invalidateMsgs, hst]
  exact if_neg fun h => hne (Option.some.inj h)

theorem writeMsgs_of_owned (hst : s.dirState line = .ex o) : s.writeMsgs f l line = [.forward o line true] := by
  rw [writeMsgs, invalidateMsgs, hst]
  exact if_neg (by simp)

theorem carryMsgs_of_owned (hst : s.dirState line = .ex o) : s.carryMsgs f l line = [.forward o line true] := by
  rw [carryMsgs, hst]
  dsimp only
  rw [invalidateMsgs, hst]
  exact if_neg (by simp)

/-- A request at its line's door that sends one message first: it waits for what the message brings. -/
theorem atHome_recalls (h : s.atDoor id k f l line) (hshared : l.shared = false) (ev m : Instr)
    (msgs : State → Flight → Leaf → Nat → List Instr) (perform : State → Flight → Leaf → Nat → State)
    (hmsgs : ∀ t, LetIn line s t → (∀ r ∈ t.resv, r.line ≠ line) → msgs t f l line = [m]) :
    (s.atHome ev id k msgs perform).warps = s.warps ∧ s.sameBytes (s.atHome ev id k msgs perform)
      ∧ m ∈ (s.atHome ev id k msgs perform).agenda ∧ ev ∈ (s.atHome ev id k msgs perform).agenda
      ∧ line ∈ (s.atHome ev id k msgs perform).txns ∧ (s.atHome ev id k msgs perform).homeData line = s.homeData line := by
  obtain ⟨x, hserves, hns⟩ := atDoor.serves h
  have hin : LetIn line s (s.homeEnter line f.part l.ns l.shared) := .enter hserves.slice hns f.part l.shared
  obtain ⟨y, hserves', hdata, -⟩ := hserves.letIn hin
  obtain ⟨hstep, hmem, htxn, hhome⟩ := openTxn_spec hserves'.flight k line m
  have hsend : (if l.shared = true then [] else [m]) = [m] := if_neg (by rw [hshared]; exact Bool.false_ne_true)
  have hwait : s.atHome ev id k msgs perform = ((s.homeEnter line f.part l.ns l.shared).openTxn id k line [m]).push [ev] := by
    rw [atHome_of_door h]
    dsimp only
    rw [hmsgs _ hin hserves'.resv, hsend, if_neg (List.cons_ne_nil _ _)]
  have hall := hin.homeStep.trans hstep
  rw [hwait]
  refine ⟨(congrArg Beyond.warps hall.beyond :), sameBytes_of_beyond (t := State.push _ _) hall.mem hall.beyond, List.mem_append_left _ hmem,
    List.mem_append_right _ (List.mem_singleton_self ev), htxn, ?_⟩
  exact hhome.trans ((homeData_of_sliceLine hserves'.slice).trans (hdata.trans (homeData_of_sliceLine hserves.slice).symm))

/-- A request that needs a line another core owns recalls it first (R80, R168). -/
theorem recall_events (h : s.atDoor id k f l line) (hst : s.dirState line = .ex o) (hne : o ≠ f.core) (hshared : l.shared = false) :
    ∀ e ∈ ([(.homeLoadMissCore id k, loadAtSlice f l false), (.homeLoadMissRemote id k, true), (.homeOwnershipMiss id k, true),
      (.homeRemoteWrite id k, true), (.homeAtomic id k, true), (.homeCarryRequest id k, true)] : List (Instr × Bool)),
    ∃ t, exec e.1 s = .next t ∧ t.out = .done ∧ t.warps = s.warps ∧ s.sameBytes t ∧ .forward o line e.2 ∈ t.agenda ∧ e.1 ∈ t.agenda
      ∧ line ∈ t.txns ∧ t.homeData line = s.homeData line := by
  have howned : ∀ {t}, LetIn line s t → t.dirState line = .ex o := fun hin => hin.state.trans hst
  have htaken : ∀ {ev : Instr} {toI : Bool} {msgs : State → Flight → Leaf → Nat → List Instr} {perform : State → Flight → Leaf → Nat → State},
      exec ev s = .next (s.atHome ev id k msgs perform).done →
      (∀ t, LetIn line s t → (∀ r ∈ t.resv, r.line ≠ line) → msgs t f l line = [.forward o line toI]) →
      ∃ t, exec ev s = .next t ∧ t.out = .done ∧ t.warps = s.warps ∧ s.sameBytes t ∧ .forward o line toI ∈ t.agenda ∧ ev ∈ t.agenda
        ∧ line ∈ t.txns ∧ t.homeData line = s.homeData line :=
    fun hexec hsends => ⟨_, hexec, rfl, atHome_recalls h hshared _ _ _ _ hsends⟩
  refine List.forall_mem_cons.mpr ⟨?_, List.forall_mem_cons.mpr ⟨?_, List.forall_mem_cons.mpr ⟨?_, List.forall_mem_cons.mpr ⟨?_,
    List.forall_mem_cons.mpr ⟨?_, List.forall_mem_singleton.mpr ?_⟩⟩⟩⟩⟩
  · exact htaken rfl fun t hin hresv => loadCoreMsgs_of_owned (howned hin) hne hresv
  · exact htaken rfl fun t hin hresv => loadRemoteMsgs_of_owned (howned hin) hresv
  · exact htaken rfl fun t hin _ => ownMsgs_of_owned (howned hin) hne
  · exact htaken rfl fun t hin _ => writeMsgs_of_owned (howned hin)
  · exact htaken rfl fun t hin _ => writeMsgs_of_owned (howned hin)
  · exact htaken rfl fun t hin _ => carryMsgs_of_owned (howned hin)

end State

/-- Settles O26: recalls by what a request at its home sends to the owner, the rest by the lemmas on copies that leave
and on write-backs. -/
theorem homeRecalls : Obligations.HomeRecalls := by
  unfold Obligations.HomeRecalls
  refine ⟨fun s id k f l line o hdoor hst hne hshared => State.recall_events hdoor hst hne hshared,
    fun s core die line x y e hent hhome hspare hresv => ?_⟩
  obtain ⟨z, hz⟩ := Option.isSome_iff_exists.mp hhome
  refine ⟨fun hwbs => ⟨fun hl hscrub ev hev => ?_, fun hl hscrub => coreShares_event hent hspare hwbs hl hscrub,
    fun hl hmute ev hev => ?_⟩, fun w hw hline => ?_⟩
  · exact coreLeaves_events hent hz hspare hresv hwbs hl hscrub ev hev
  · exact dieLeaves_events hent hz hspare hresv hwbs hl hmute ev hev
  · exact writeback_event hent hz hspare hresv hw hline

end Sys2Proof.Machine
end

section
/-!
PROOFS. Requests performed at the home of their line (R80, R82, R93, R94, R96, R153, R155, R156, R164).
-/

namespace Sys2Proof.Machine

namespace Flight

@[simp] theorem reqs_apply (f : Flight) (k : Nat) (d : List Byte) : (f.apply k d).2.reqs = f.reqs := rfl

/-- Pieces of a request performed one after another, those performed before kept in front. -/
theorem foldl_accs {g : List Byte → Acc → List Byte × Acc} (p : Acc → Bool) (hg : ∀ d a, (g d a).1 = d) (d : List Byte) (l done : List Acc) :
    l.foldl (fun (e : List Byte × List Acc) a =>
      if p a then ((g e.1 a).1, e.2 ++ [(g e.1 a).2]) else (e.1, e.2 ++ [a])) (d, done)
      = (d, done ++ l.map fun a => if p a then (g d a).2 else a) := by
  induction l generalizing done with
  | nil => simp
  | cons a l ih =>
    rw [List.foldl_cons, List.map_cons]
    split
    · rw [hg, ih]; simp
    · rw [ih]; simp

/-- A load leaves the line's bytes, and each of its pieces has the bytes at its place (R149). -/
theorem apply_load {f : Flight} (h : f.kind = .load) (k : Nat) (d : List Byte) : (f.apply k d).2.accs = State.loaded f k d := by
  have happly : ∀ e a, f.applyAcc a e = (e, { a with val := leNat (slice e (a.va % 128) a.size) }) := fun e a => by
    simp only [applyAcc, h]
  have hfold := foldl_accs (g := fun d a => f.applyAcc a d) (fun a => decide (a.req = k) && a.bad.isNone)
    (fun d a => by rw [happly]) d f.accs []
  have haccs : (f.apply k d).2.accs = (d, [] ++ f.accs.map fun a => if decide (a.req = k) && a.bad.isNone then (f.applyAcc a d).2 else a).2 :=
    congrArg Prod.snd hfold
  rw [haccs, State.loaded]
  simp only [List.nil_append, happly, Bool.and_eq_true, decide_eq_true_eq, Option.isNone_iff_eq_none]

end Flight

namespace State
variable {s t u : State} {line id k : Nat} {x y : SliceLine} {f : Flight} {l : Leaf} {e : DirEnt}

/-! A request that is finished. -/

/-- A finished request stands in its flight, and a message may go on. -/
theorem finishReq_eq (h : s.flights.get? id = some f) (k : Nat) (g : Req → Req) :
    ∃ fl ag, s.finishReq id k g = { s with flights := fl, agenda := ag }
      ∧ fl.get? id = some (f.withReq k { g (f.req k) with done := true, sent := false }) := by
  have hmod : s.finishReq id k g = if (f.withReq k { g (f.req k) with done := true, sent := false }).ready = 0
      then s.putFlight id (f.withReq k { g (f.req k) with done := true, sent := false })
      else (s.putFlight id (f.withReq k { g (f.req k) with done := true, sent := false })).pushNew
        (if (f.withReq k { g (f.req k) with done := true, sent := false }).returns then .loadDataReturn id else .storeAck id) := by
    rw [finishReq, modReq_of_get? h]
    dsimp only
    rw [get?_putFlight]
  rw [hmod]
  split
  · exact ⟨_, _, rfl, get?_putFlight s id _⟩
  · obtain ⟨is, hpush, -⟩ := pushNew_spec (s.putFlight id (f.withReq k { g (f.req k) with done := true, sent := false }))
      (if (f.withReq k { g (f.req k) with done := true, sent := false }).returns then .loadDataReturn id else .storeAck id)
    rw [hpush]
    exact ⟨_, _, rfl, get?_putFlight s id _⟩

/-- A load performed on bytes that a copy or the home supplies. -/
theorem finishRead_eq (s : State) (id k : Nat) (f : Flight) (d : List Byte) (tag : Tag) :
    ∃ fl ag, s.finishRead id k f d tag (fun r => r) = { s with flights := fl, agenda := ag }
      ∧ fl.get? id = some ((f.apply k d).2.withReq k { f.req k with tag := tag, data := d, done := true, sent := false }) := by
  obtain ⟨fl, ag, hfinish, hget⟩ := finishReq_eq (get?_putFlight s id (f.apply k d).2) k fun r => { r with tag := tag, data := d }
  exact ⟨fl, ag, hfinish, hget⟩

/-- A load that has its line: its request is done, with the line's tag and the bytes of its pieces. -/
theorem endLoad_spec (hkind : f.kind = .load) (hk : k < f.reqs.length) (s : State) (id : Nat) (d : List Byte) (tag : Tag) :
    ∃ fl ag g, s.endLoad id k f d tag = { s with flights := fl, agenda := ag } ∧ fl.get? id = some g ∧ g.accs = loaded f k d
      ∧ (g.req k).done = true ∧ (g.req k).fail = (f.req k).fail ∧ (g.req k).tag = tag := by
  obtain ⟨fl, ag, hread, hget⟩ := s.finishRead_eq id k f d tag
  refine ⟨fl, ag, _, ?_, hget, Flight.apply_load hkind k d, ?_⟩
  · simp only [endLoad, hkind, hread]
  · rw [Flight.req_withReq (f := (f.apply k d).2) hk]
    exact ⟨rfl, rfl, rfl⟩

/-! Copies that are granted. -/

theorem fillL1_eq (h : (s.l1.filter fun x => x.core == f.core).length < 2048) (st : CopyState) (d : List Byte) (lease : Nat) (ns : Bool)
    (tag : Tag) (cls : Nat) : s.fillL1 f.core line st d lease ns tag cls
      = s.putL1 { core := f.core, line := line, st := st, data := d, lease := lease, ns := ns, tag := tag } := by
  have hroom : s.l1Room f.core line cls = s := by simp [l1Room, h]
  rw [fillL1, hroom]

theorem l1Line_putL1 (s : State) (z : L1Line) : (s.putL1 z).l1Line z.core z.line = some z := List.find?_cons_of_pos (by simp)

theorem lineNow_congr (hown : t.ownerCopy line = s.ownerCopy line) (hhome : t.homeData line = s.homeData line) :
    t.lineNow line = s.lineNow line := by rw [lineNow, lineNow, hown, hhome]

theorem SliceStep.lineNow_eq (h : SliceStep line s x t y) (hdata : y.data = x.data) : t.lineNow line = s.lineNow line :=
  lineNow_congr (ownerCopy_congr h.copies line) ((h.homeData_eq.trans hdata).trans (homeData_of_sliceLine h.before).symm)

theorem LetIn.ownerCopy_eq (h : LetIn line s t) : t.ownerCopy line = s.ownerCopy line := by
  have hl1 : t.l1 = s.l1 := (congrArg Copies.l1 h.copies :)
  have hwbs : t.wbs = s.wbs := (congrArg Copies.wbs h.copies :)
  rw [ownerCopy, ownerCopy, h.state, hwbs]
  split <;> simp only [l1Line, hl1]

/-- Where a line's owner is known, or it has none: the line as its core, or as its home, has it. -/
theorem ownerCopy_of_ex {o : Nat} {z : L1Line} (hst : s.dirState line = .ex o) (hl : s.l1Line o line = some z) :
    s.ownerCopy line = some (z.data, z.tag) := by
  rw [ownerCopy, hst]
  dsimp only
  rw [hl]

theorem ownerCopy_of_gone {o : Nat} (hst : s.dirState line = .ex o) (hl : s.l1Line o line = none) (hwbs : ∀ w ∈ s.wbs, w.line ≠ line) :
    s.ownerCopy line = none := by
  have hnone : (s.wbs.find? fun w => !w.die && w.agent == o && w.line == line) = none :=
    List.find?_eq_none.mpr fun w hw => by simp [hwbs w hw]
  rw [ownerCopy, hst]
  dsimp only
  rw [hl]
  dsimp only
  rw [hnone]
  rfl

theorem ownerCopy_of_shared (hst : s.dirState line = .u ∨ ∃ cs, s.dirState line = .sh cs) : s.ownerCopy line = none := by
  rcases hst with hst | ⟨cs, hst⟩ <;> rw [ownerCopy, hst]

/-- A grant rewrites the entry of its line. -/
theorem HomeStep.granted (h : HomeStep 0 s t) (hbeyond : u.beyond = t.beyond) (hmem : u.mem = t.mem)
    (hregs : u.copies.regs = t.copies.regs) (hdir : u.dir = (t.putDir line e).dir) : HomeStep 1 s u :=
  (h.trans (n := 1) ⟨hbeyond, hmem, hregs, by rw [hdir]; exact t.grown_putDir line e⟩).mono (Nat.zero_add 1).le

/-- A copy is granted: the entry and the core's L1 take it, and the load has its line. -/
theorem grantCopy_spec (h : s.Serves id f line x) (hkind : f.kind = .load) (hk : k < f.reqs.length) (hstep : SliceStep line s x t y)
    (hcov : e.covers line = true) (cp : CopyState) (d : List Byte) (tag : Tag) :
    ∃ g z, HomeStep 1 s (((t.putDir line e).fillL1 f.core line cp d 0 l.ns tag f.cls).endLoad id k f d tag)
      ∧ (((t.putDir line e).fillL1 f.core line cp d 0 l.ns tag f.cls).endLoad id k f d tag).flights.get? id = some g
      ∧ g.accs = loaded f k d ∧ (g.req k).done = true ∧ (g.req k).fail = (f.req k).fail ∧ (g.req k).tag = tag
      ∧ (((t.putDir line e).fillL1 f.core line cp d 0 l.ns tag f.cls).endLoad id k f d tag).l1Line f.core line = some z
      ∧ z.data = d ∧ z.lease = 0
      ∧ (((t.putDir line e).fillL1 f.core line cp d 0 l.ns tag f.cls).endLoad id k f d tag).dirState line = e.st := by
  have hroom : ((t.putDir line e).l1.filter fun x => x.core == f.core).length < 2048 := by
    rw [show (t.putDir line e).l1 = s.l1 from (congrArg Copies.l1 hstep.copies :)]
    exact h.l1
  rw [fillL1_eq hroom]
  obtain ⟨fl, ag, g, hend, hget, haccs, hdone, hfail, htag⟩ := endLoad_spec hkind hk ((t.putDir line e).putL1
    { core := f.core, line := line, st := cp, data := d, lease := 0, ns := l.ns, tag := tag }) id d tag
  rw [hend]
  refine ⟨g, _, ?_, hget, haccs, hdone, hfail, htag, l1Line_putL1 (t.putDir line e) _, rfl, rfl, ?_⟩
  · exact hstep.homeStep.granted rfl rfl rfl rfl
  · exact (dirState_of_dirEnt (dirEnt_putDir (s := t) hcov) :)

/-! A load of the home's die (R80). -/

/-- Where no one else has the line to itself: the entry after a load of the home's die. -/
def loadedState (core : Nat) (dies : List Nat) : DirState → DirState
  | .u => if dies = [] then .ex core else .sh [core]
  | .sh cs => .sh (if cs.contains core then cs else core :: cs)
  | st => st

theorem grantLoadCore_own {z : L1Line} (h : s.Serves id f line x) (hslice : loadAtSlice f l false = false)
    (hskip : s.prefetchSkips f line = false) (hst : s.dirState line = .ex f.core) (hl : s.l1Line f.core line = some z) :
    s.grantLoadCore id k f l line = s.endLoad id k f (s.lineNow line) (s.lineTag line f.part) := by
  simp only [grantLoadCore, hskip, hslice, mergeResv_of_none h.resv, h.sound, st_dirFor, hst, hl, Option.isSome_some, beq_self_eq_true,
    Bool.true_or, Bool.and_self, Bool.false_eq_true, if_false, if_true]

/-- A load that is granted a copy: the slice has the line, and the copy's entry and L1 line follow. -/
theorem grantLoadCore_grants (h : s.Serves id f line x) (hslice : loadAtSlice f l false = false)
    (hskip : s.prefetchSkips f line = false)
    (hst : s.dirState line = .u ∨ (∃ cs, s.dirState line = .sh cs) ∨ (s.dirState line = .ex f.core ∧ s.l1Line f.core line = none)) :
    ∃ t y e cp, s.grantLoadCore id k f l line
        = ((t.putDir line e).fillL1 f.core line cp (s.lineNow line) 0 l.ns (s.lineTag line f.part) f.cls).endLoad id k f (s.lineNow line)
          (s.lineTag line f.part)
      ∧ SliceStep line s x t y ∧ e.covers line = true ∧ e.st = loadedState f.core (s.dirDies line) (s.dirState line) := by
  have hfill := SliceStep.fill h.slice f.part l.ns false
  have hbump := hfill.trans (.bump hfill.after f.part)
  have hnow : (s.fillSlice line f.part l.ns false).lineNow line = s.lineNow line := hfill.lineNow_eq rfl
  have hcov := s.covers_dirFor line f.part
  rcases hst with hst | ⟨cs, hst⟩ | ⟨hst, hl⟩
  · by_cases hdies : s.dirDies line = []
    · refine ⟨_, _, { s.dirFor line f.part with st := .ex f.core, part := f.part, writer := some f.core }, .e, ?_, hbump, hcov, ?_⟩
      · simp only [grantLoadCore, hskip, hslice, mergeResv_of_none h.resv, h.sound, st_dirFor, hst, dies_dirFor, hdies, hnow]
        rfl
      · rw [hst, loadedState, if_pos hdies]
    · refine ⟨_, _, { s.dirFor line f.part with st := .sh [f.core], part := f.part }, .s, ?_, hfill, hcov, ?_⟩
      · simp only [grantLoadCore, hskip, hslice, mergeResv_of_none h.resv, h.sound, st_dirFor, hst, dies_dirFor, hdies, hnow]
        rfl
      · rw [hst, loadedState, if_neg hdies]
  · refine ⟨_, _, { s.dirFor line f.part with st := .sh (if cs.contains f.core then cs else f.core :: cs), part := f.part }, .s, ?_, hfill, hcov, ?_⟩
    · simp only [grantLoadCore, hskip, hslice, mergeResv_of_none h.resv, h.sound, st_dirFor, hst, hnow]
      rfl
    · rw [hst]
      rfl
  · refine ⟨_, _, { s.dirFor line f.part with st := .ex f.core, part := f.part, writer := some f.core }, .e, ?_, hbump, hcov, ?_⟩
    · simp only [grantLoadCore, hskip, hslice, mergeResv_of_none h.resv, h.sound, st_dirFor, hst, hl, hnow, Option.isSome_none, Bool.and_false]
      rfl
    · rw [hst]
      rfl

end State

end Sys2Proof.Machine
end

section
/-!
PROOFS. Loads of the home's die, performed at their home (R80, R82, R164).
-/

namespace Sys2Proof.Machine

namespace State
variable {s t u : State} {line id k : Nat} {x y : SliceLine} {f : Flight} {l : Leaf} {e : DirEnt}

/-- A load of the home's die at its home: what it reads, the copy its core has afterwards, and the entry. -/
theorem grantLoadCore_spec (h : s.Serves id f line x) (hkind : f.kind = .load) (hk : k < f.reqs.length)
    (hslice : loadAtSlice f l false = false) (hskip : s.prefetchSkips f line = false)
    (hst : s.dirState line = .u ∨ (∃ cs, s.dirState line = .sh cs) ∨ s.dirState line = .ex f.core) :
    ∃ t g z, s.grantLoadCore id k f l line = t ∧ HomeStep 1 s t ∧ t.flights.get? id = some g
      ∧ g.accs = loaded f k (s.lineNow line) ∧ (g.req k).done = true ∧ (g.req k).fail = (f.req k).fail
      ∧ (g.req k).tag = s.lineTag line f.part ∧ t.l1Line f.core line = some z ∧ z.data = s.lineNow line
      ∧ (s.dirState line ≠ .ex f.core → z.lease = 0)
      ∧ (s.dirState line = .ex f.core → ∀ y, s.l1Line f.core line = some y → z = y)
      ∧ t.dirState line = loadedState f.core (s.dirDies line) (s.dirState line) := by
  by_cases hown : s.dirState line = .ex f.core ∧ (s.l1Line f.core line).isSome = true
  · obtain ⟨hex, hsome⟩ := hown
    obtain ⟨z, hl⟩ := Option.isSome_iff_exists.mp hsome
    obtain ⟨fl, ag, g, hend, hget, haccs, hdone, hfail, htag⟩ :=
      endLoad_spec hkind hk s id (s.lineNow line) (s.lineTag line f.part)
    have hnow : s.lineNow line = z.data := by rw [lineNow, ownerCopy_of_ex hex hl]
    refine ⟨_, g, z, (grantLoadCore_own h hslice hskip hex hl).trans hend, ⟨rfl, rfl, rfl, (Grown.refl _).mono (Nat.zero_le 1)⟩, hget, haccs, hdone,
      hfail, htag, hl, hnow.symm, fun hne => absurd hex hne, fun _ y hy => Option.some.inj (hl.symm.trans hy), ?_⟩
    rw [hex]
    exact hex
  · have hst' : s.dirState line = .u ∨ (∃ cs, s.dirState line = .sh cs) ∨ (s.dirState line = .ex f.core ∧ s.l1Line f.core line = none) := by
      rcases hst with hst | hst | hst
      · exact .inl hst
      · exact .inr (.inl hst)
      · exact .inr (.inr ⟨hst, Option.not_isSome_iff_eq_none.mp fun hsome => hown ⟨hst, hsome⟩⟩)
    obtain ⟨t, y, e, cp, hgrant, hstep, hcov, hent⟩ := grantLoadCore_grants (id := id) (k := k) h hslice hskip hst'
    obtain ⟨g, z, hhome, hget, haccs, hdone, hfail, htag, hl1, hdata, hlease, hdir⟩ := grantCopy_spec (l := l) h hkind hk hstep hcov cp
      (s.lineNow line) (s.lineTag line f.part)
    refine ⟨_, g, z, hgrant, hhome, hget, haccs, hdone, hfail, htag, hl1, hdata, fun _ => hlease, fun hex y hy => ?_, hdir.trans hent⟩
    exact absurd ⟨hex, by rw [hy]; rfl⟩ hown

/-! What is read at the home once a request has been let in. -/

theorem LetIn.l1Line_eq (h : LetIn line s t) (core : Nat) : t.l1Line core line = s.l1Line core line := by
  rw [l1Line, l1Line, show t.l1 = s.l1 from (congrArg Copies.l1 h.copies :)]
theorem LetIn.rdcLine_eq (h : LetIn line s t) (die : Nat) : t.rdcLine die line = s.rdcLine die line := by
  rw [rdcLine, rdcLine, show t.rdc = s.rdc from (congrArg Copies.rdc h.copies :)]

theorem LetIn.homeData_eq (h : LetIn line s t) (hx : s.sliceLine line = some x) : t.homeData line = s.homeData line := by
  obtain ⟨y, hy, hdata, -⟩ := h.slice x hx
  rw [homeData_of_sliceLine hy, homeData_of_sliceLine hx, hdata]

theorem LetIn.homeTag_eq (h : LetIn line s t) (hx : s.sliceLine line = some x) (part : Nat) : t.homeTag line part = s.homeTag line part := by
  obtain ⟨y, hy, -, htag, -⟩ := h.slice x hx
  rw [homeTag_of_sliceLine hy, homeTag_of_sliceLine hx, htag]

theorem LetIn.lineNow_eq (h : LetIn line s t) (hx : s.sliceLine line = some x) : t.lineNow line = s.lineNow line :=
  lineNow_congr h.ownerCopy_eq (h.homeData_eq hx)

theorem LetIn.lineTag_eq (h : LetIn line s t) (hx : s.sliceLine line = some x) (part : Nat) : t.lineTag line part = s.lineTag line part := by
  rw [lineTag, lineTag, h.ownerCopy_eq, h.homeTag_eq hx]

theorem LetIn.now_eq (h : LetIn line s t) (die : Nat) : t.now die = s.now die := by
  have htime : t.time = s.time := (congrArg Copies.time h.copies :)
  rw [now, now, State.die, State.die, h.dies, htime]

theorem LetIn.slc_eq (h : LetIn line s t) (die sc : Nat) : t.slc die sc = s.slc die sc := by
  rw [slc, slc, State.die, State.die, h.dies]

theorem carrying_eq_false (hst : ∀ op cs ds, s.dirState line ≠ .ca op cs ds) (hresv : ∀ r ∈ s.resv, r.line ≠ line) :
    s.carrying line = false := by
  have hnone : (s.resv.any fun r => r.line == line) = false := by simpa using hresv
  rw [carrying, hnone, Bool.or_false]
  split
  next op cs ds hca => exact absurd hca (hst op cs ds)
  next => rfl

/-- A request at its line's door that needs nothing from others is performed. -/
theorem exec_performed (h : s.atDoor id k f l line) {ev : Instr} {msgs : State → Flight → Leaf → Nat → List Instr}
    {perform : State → Flight → Leaf → Nat → State} (hexec : exec ev s = .next (s.atHome ev id k msgs perform).done)
    (hmsgs : ∀ u, LetIn line s u → (∀ r ∈ u.resv, r.line ≠ line) → l.shared = false → msgs u f l line = [])
    (hstep : ∀ u y, LetIn line s u → u.Serves id f line y → HomeStep 1 u (perform u f l line)) :
    ∃ u x y, exec ev s = .next (perform u f l line).done ∧ (perform u f l line).done.out = .done
      ∧ (perform u f l line).done.warps = s.warps ∧ s.sameBytes (perform u f l line).done
      ∧ LetIn line s u ∧ s.sliceLine line = some x ∧ u.Serves id f line y ∧ y.die = x.die ∧ y.slice = x.slice := by
  obtain ⟨x, hserves, hns⟩ := atDoor.serves h
  have henter : LetIn line s (s.homeEnter line f.part l.ns l.shared) := .enter hserves.slice hns f.part l.shared
  have hin : LetIn line s ((s.homeEnter line f.part l.ns l.shared).closeTxn (f.req k) line) := henter.trans (.close _ _ _)
  obtain ⟨w, hentered, -⟩ := hserves.letIn henter
  obtain ⟨y, hserves', -, -, hdie, hslice⟩ := hserves.letIn hin
  have hnone : (if l.shared = true then [] else msgs (s.homeEnter line f.part l.ns l.shared) f l line) = [] := by
    split
    · rfl
    next hshared => exact hmsgs _ henter hentered.resv (Bool.not_eq_true _ ▸ hshared)
  obtain ⟨hroom, hout, hwarps, hbytes⟩ := ((hin.homeStep.trans (hstep _ y hin hserves')).mono (n := 1) (by omega)).ends (atDoor.spare h)
  refine ⟨_, x, y, ?_, hout, hwarps, hbytes, hin, hserves.slice, hserves', hdie, hslice⟩
  rw [hexec, atHome_of_door h]
  dsimp only
  rw [if_pos hnone, hroom]

/-- A load of the home's die, of a line that no other core owns (R80, R82, R164). -/
theorem homeLoadMissCore_spec (h : s.atDoor id k f l line) (hkind : f.kind = .load) (hshared : l.shared = false) (hpol : l.pol = 0)
    (hsc : f.isSc = false) (hst : s.dirState line = .u ∨ (∃ cs, s.dirState line = .sh cs) ∨ s.dirState line = .ex f.core) :
    ∃ t g z, exec (.homeLoadMissCore id k) s = .next t ∧ t.out = .done ∧ t.warps = s.warps ∧ s.sameBytes t
      ∧ t.flights.get? id = some g ∧ g.accs = loaded f k (s.lineNow line) ∧ (g.req k).done = true ∧ (g.req k).fail = (f.req k).fail
      ∧ (g.req k).tag = s.lineTag line f.part ∧ t.l1Line f.core line = some z ∧ z.data = s.lineNow line
      ∧ (s.dirState line ≠ .ex f.core → z.lease = 0)
      ∧ (s.dirState line = .ex f.core → ∀ y, s.l1Line f.core line = some y → z = y)
      ∧ t.dirState line = loadedState f.core (s.dirDies line) (s.dirState line) := by
  have hslice : loadAtSlice f l false = false := by
    rw [loadAtSlice, hsc, atDoor.notRmt h, hshared, hpol]
    rfl
  have hnotca : ∀ {u : State}, u.dirState line = s.dirState line → ∀ op cs ds, u.dirState line ≠ .ca op cs ds := by
    intro u hu op cs ds hca
    rw [hu] at hca
    rcases hst with hst | ⟨cs, hst⟩ | hst <;> rw [hst] at hca <;> exact DirState.noConfusion hca
  have hskip : ∀ {u : State}, u.dirState line = s.dirState line → (∀ r ∈ u.resv, r.line ≠ line) → u.prefetchSkips f line = false :=
    fun hu hresv => by rw [prefetchSkips, carrying_eq_false (hnotca hu) hresv, Bool.and_false]
  have hmsgs : ∀ u, LetIn line s u → (∀ r ∈ u.resv, r.line ≠ line) → l.shared = false → u.loadCoreMsgs f l line = [] := by
    intro u hin hresv _
    rw [loadCoreMsgs, hskip hin.state hresv, hslice, hin.state, if_neg Bool.false_ne_true, if_neg Bool.false_ne_true]
    rcases hst with hst | ⟨cs, hst⟩ | hst
    · rw [hst]
    · rw [hst]
    · rw [hst]
      exact if_neg (by simp [asksOwner])
  have hgrant := fun {u y} (hin : LetIn line s u) (hu : u.Serves id f line y) =>
    grantLoadCore_spec hu hkind (atDoor.inRange h) hslice (hskip hin.state hu.resv) (by rw [hin.state]; exact hst)
  obtain ⟨u, x, y, hexec, hout, hwarps, hbytes, hin, hx, hu, -⟩ := exec_performed h (ev := .homeLoadMissCore id k) rfl hmsgs
    fun u y hin hu => by
      obtain ⟨t, g, z, rfl, hstep, -⟩ := hgrant hin hu
      exact hstep
  obtain ⟨t, g, z, rfl, -, hfacts⟩ := hgrant hin hu
  rw [hin.lineNow_eq hx, hin.lineTag_eq hx, hin.state, hin.sharers, hin.l1Line_eq] at hfacts
  exact ⟨_, g, z, hexec, hout, hwarps, hbytes, hfacts⟩

end State

end Sys2Proof.Machine
end

section
/-!
PROOFS. Loads of another die (R93, R94, R164) and stores of the home's die (R80), performed at their home.
-/

namespace Sys2Proof.Machine

namespace State
variable {s t u : State} {line id k : Nat} {x y : SliceLine} {f : Flight} {l : Leaf} {e : DirEnt}

/-! A load of another die (R92, R93, R94). -/

theorem rdcRoom_eq {die : Nat} (h : (s.rdc.filter fun x => x.die == die && x.line % 65536 == line % 65536).length < 16) (cls : Nat) :
    s.rdcRoom die line cls = s := by simp [rdcRoom, h]

theorem rdcLine_putRdc (s : State) (z : RdcLine) : (s.putRdc z).rdcLine z.die z.line = some z := List.find?_cons_of_pos (by simp)

/-- The entry of a line that a die has taken on lease (R93). -/
def leasedEnt (e : DirEnt) (die part lease : Nat) : DirEnt :=
  { e with dies := if e.dies.contains die then e.dies else die :: e.dies, lend := max e.lend lease, part := part }

/-- The copy a die takes on lease (R92, R93). -/
def leasedCopy (s : State) (f : Flight) (line lease : Nat) (ns : Bool) (d : List Byte) (tag : Tag) : RdcLine :=
  { die := f.die, line := line, data := d, lease := lease, ns := ns, tag := tag
    vec := (((s.rdcLine f.die line).map (·.vec)).getD []) ++ [f.core] }

theorem grantLoadRemote_eq (h : s.Serves id f line x) (hpol : l.pol = 0) (hslice : loadAtSlice f l true = false)
    (hskip : s.prefetchSkips f line = false) :
    s.grantLoadRemote id k f l line =
      let t := s.fillSlice line f.part l.ns false
      let lease := s.now (homeDie line) + leaseOf f.lease
      (((t.putDir line (leasedEnt (s.dirFor line f.part) f.die f.part lease)).putRdc
        (s.leasedCopy f line lease l.ns (s.homeData line) (s.homeTag line f.part))).fillL1 f.core line .s
          (s.homeData line) lease l.ns (s.homeTag line f.part) f.cls).endLoad id k f (s.homeData line) (s.homeTag line f.part) := by
  have hfill := SliceStep.fill h.slice f.part l.ns false
  have hhome : (s.fillSlice line f.part l.ns false).homeData line = s.homeData line :=
    hfill.homeData_eq.trans (homeData_of_sliceLine h.slice).symm
  have htag : (s.fillSlice line f.part l.ns false).homeTag line f.part = s.homeTag line f.part :=
    (homeTag_of_sliceLine hfill.after _).trans (homeTag_of_sliceLine h.slice _).symm
  have hroom : ∀ e, (((s.fillSlice line f.part l.ns false).putDir line e).rdcRoom f.die line f.cls)
      = (s.fillSlice line f.part l.ns false).putDir line e := fun e => by
    refine rdcRoom_eq ?_ _
    rw [show ((s.fillSlice line f.part l.ns false).putDir line e).rdc = s.rdc from (congrArg Copies.rdc hfill.copies :)]
    exact h.rdc
  have hrdc : ∀ e, ((s.fillSlice line f.part l.ns false).putDir line e).rdcLine f.die line = s.rdcLine f.die line :=
    fun e => rdcLine_congr hfill.copies f.die line
  simp only [grantLoadRemote, hskip, hslice, mergeResv_of_none h.resv, h.sound, hpol, beq_iff_eq, Bool.false_eq_true, if_false,
    if_true, show (0 == 1) = false from rfl, hhome, htag, hroom, hrdc, now_congr hfill.copies, dirFor_congr hfill.copies, insertRdc]
  rfl

/-- A load of another die at its home: what it reads, the copy the die has afterwards, and the entry. -/
theorem grantLoadRemote_spec (h : s.Serves id f line x) (hkind : f.kind = .load) (hk : k < f.reqs.length) (hpol : l.pol = 0)
    (hslice : loadAtSlice f l true = false) (hskip : s.prefetchSkips f line = false) :
    ∃ t g z, s.grantLoadRemote id k f l line = t ∧ HomeStep 1 s t ∧ t.flights.get? id = some g
      ∧ g.accs = loaded f k (s.homeData line) ∧ (g.req k).done = true ∧ (g.req k).tag = s.homeTag line f.part
      ∧ t.rdcLine f.die line = some z ∧ z.data = s.homeData line ∧ z.op = none
      ∧ z.lease = s.now (homeDie line) + leaseOf f.lease ∧ f.die ∈ t.dirDies line ∧ t.dirState line = s.dirState line := by
  have hfill := SliceStep.fill h.slice f.part l.ns false
  have hroom : ∀ e r, ((((s.fillSlice line f.part l.ns false).putDir line e).putRdc r).l1.filter fun x => x.core == f.core).length < 2048 :=
    fun e r => by
      rw [show (((s.fillSlice line f.part l.ns false).putDir line e).putRdc r).l1 = s.l1 from (congrArg Copies.l1 hfill.copies :)]
      exact h.l1
  rw [grantLoadRemote_eq h hpol hslice hskip]
  dsimp only
  rw [fillL1_eq (hroom _ _)]
  obtain ⟨fl, ag, g, hend, hget, haccs, hdone, -, htag⟩ := endLoad_spec hkind hk
    ((((s.fillSlice line f.part l.ns false).putDir line (leasedEnt (s.dirFor line f.part) f.die f.part (s.now (homeDie line) + leaseOf f.lease))).putRdc
      (s.leasedCopy f line (s.now (homeDie line) + leaseOf f.lease) l.ns (s.homeData line) (s.homeTag line f.part))).putL1
      { core := f.core, line := line, st := .s, data := s.homeData line, lease := s.now (homeDie line) + leaseOf f.lease, ns := l.ns
        tag := s.homeTag line f.part }) id (s.homeData line) (s.homeTag line f.part)
  have hent := dirEnt_putDir (s := s.fillSlice line f.part l.ns false)
    (e := leasedEnt (s.dirFor line f.part) f.die f.part (s.now (homeDie line) + leaseOf f.lease)) (s.covers_dirFor line f.part)
  refine ⟨_, g, _, hend, hfill.homeStep.granted rfl rfl rfl rfl, hget, haccs, hdone, htag,
    rdcLine_putRdc ((s.fillSlice line f.part l.ns false).putDir line _) (s.leasedCopy f line _ l.ns _ _), rfl, rfl, rfl, ?_, ?_⟩
  · refine (dirDies_of_dirEnt hent : _).symm ▸ ?_
    rw [leasedEnt]
    dsimp only
    split
    next hmem => exact List.contains_iff_mem.mp hmem
    next => exact List.mem_cons_self
  · exact (dirState_of_dirEnt hent).trans (s.st_dirFor line f.part)

/-- A load of another die, of a line that no core owns and no one holds partials of (R80, R93, R164). -/
theorem homeLoadMissRemote_spec (h : s.atDoor id k f l line) (hkind : f.kind = .load) (hshared : l.shared = false) (hpol : l.pol = 0)
    (hsc : f.isSc = false) (hst : s.dirState line = .u ∨ ∃ cs, s.dirState line = .sh cs) :
    ∃ t g z, exec (.homeLoadMissRemote id k) s = .next t ∧ t.out = .done ∧ t.warps = s.warps ∧ s.sameBytes t
      ∧ t.flights.get? id = some g ∧ g.accs = loaded f k (s.homeData line) ∧ (g.req k).done = true
      ∧ (g.req k).tag = s.homeTag line f.part ∧ t.rdcLine f.die line = some z ∧ z.data = s.homeData line ∧ z.op = none
      ∧ z.lease = s.now (homeDie line) + leaseOf f.lease ∧ f.die ∈ t.dirDies line ∧ t.dirState line = s.dirState line := by
  have hslice : loadAtSlice f l true = false := by
    rw [loadAtSlice, hsc, atDoor.notRmt h, hshared, hpol]
    rfl
  have hskip : ∀ {u : State}, u.dirState line = s.dirState line → (∀ r ∈ u.resv, r.line ≠ line) → u.prefetchSkips f line = false := by
    intro u hu hresv
    have hnotca : ∀ op cs ds, u.dirState line ≠ .ca op cs ds := by
      intro op cs ds hca
      rw [hu] at hca
      rcases hst with hst | ⟨cs, hst⟩ <;> rw [hst] at hca <;> exact DirState.noConfusion hca
    rw [prefetchSkips, carrying_eq_false hnotca hresv, Bool.and_false]
  have hmsgs : ∀ u, LetIn line s u → (∀ r ∈ u.resv, r.line ≠ line) → l.shared = false → u.loadRemoteMsgs f l line = [] := by
    intro u hin hresv _
    rw [loadRemoteMsgs, hskip hin.state hresv, if_neg Bool.false_ne_true, recallMsgs, hin.state]
    rcases hst with hst | ⟨cs, hst⟩ <;> rw [hst]
  have hgrant := fun {u y} (hin : LetIn line s u) (hu : u.Serves id f line y) =>
    grantLoadRemote_spec hu hkind (atDoor.inRange h) hpol hslice (hskip hin.state hu.resv)
  obtain ⟨u, x, y, hexec, hout, hwarps, hbytes, hin, hx, hu, -⟩ := exec_performed h (ev := .homeLoadMissRemote id k) rfl hmsgs
    fun u y hin hu => by
      obtain ⟨t, g, z, rfl, hstep, -⟩ := hgrant hin hu
      exact hstep
  obtain ⟨t, g, z, rfl, -, hfacts⟩ := hgrant hin hu
  rw [hin.homeData_eq hx, hin.homeTag_eq hx, hin.state, hin.now_eq] at hfacts
  exact ⟨_, g, z, hexec, hout, hwarps, hbytes, hfacts⟩

/-! A store of the home's die (R80). -/

theorem l1Room_eq (h : (s.l1.filter fun x => x.core == f.core).length < 2048) (cls : Nat) : s.l1Room f.core line cls = s := by
  simp [l1Room, h]

/-- A core writes the line that it owns (R78): its copy is M and has the data of the access. -/
theorem writeL1_spec (hk : k < f.reqs.length) (s : State) (id : Nat) (z : L1Line) (req : Req → Req) :
    ∃ fl ag g w, s.writeL1 id k f z req = { s.putL1 w with flights := fl, agenda := ag } ∧ fl.get? id = some g ∧ (g.req k).done = true
      ∧ w.core = z.core ∧ w.line = z.line ∧ w.st = .m ∧ w.data = (f.apply k z.data).1 := by
  obtain ⟨fl, ag, hfinish, hget⟩ := finishReq_eq
    (s := (s.putFlight id (f.apply k z.data).2).putL1 { z with st := .m, data := (f.apply k z.data).1, tag := s.tagAfter f z.tag })
    (get?_putFlight _ id (f.apply k z.data).2) k fun r => { req r with tag := z.tag }
  refine ⟨fl, ag, _, { z with st := .m, data := (f.apply k z.data).1, tag := s.tagAfter f z.tag }, hfinish, hget, ?_, rfl, rfl, rfl, rfl⟩
  rw [Flight.req_withReq (f := (f.apply k _).2) hk]

/-- A core owns the line and writes its own copy of it. -/
theorem grantOwn_spec (h : s.Serves id f line x) (hkind : f.kind = .store) (hk : k < f.reqs.length) :
    ∃ t g z, s.grantOwn id k f l line = t ∧ HomeStep 1 s t ∧ t.flights.get? id = some g ∧ (g.req k).done = true
      ∧ t.l1Line f.core line = some z ∧ z.st = .m ∧ z.data = (f.apply k (s.lineNow line)).1 ∧ t.dirState line = .ex f.core := by
  have hfill := SliceStep.fill h.slice f.part l.ns false
  have hbump := hfill.trans (.bump hfill.after f.part)
  have hnow : (s.fillSlice line f.part l.ns false).lineNow line = s.lineNow line := hfill.lineNow_eq rfl
  have hroom : ∀ e, (((s.fillSlice line f.part l.ns false).bumpVer line f.part).putDir line e).l1Room f.core line f.cls
      = ((s.fillSlice line f.part l.ns false).bumpVer line f.part).putDir line e := fun e => by
    refine l1Room_eq ?_ _
    rw [show (((s.fillSlice line f.part l.ns false).bumpVer line f.part).putDir line e).l1 = s.l1 from (congrArg Copies.l1 hbump.copies :)]
    exact h.l1
  have hstore : (f.kind != .store) = false := by rw [hkind]; rfl
  obtain ⟨tag, req, hgrant⟩ : ∃ (tag : Tag) (req : Req → Req), s.grantOwn id k f l line =
      (((s.fillSlice line f.part l.ns false).bumpVer line f.part).putDir line
        { s.dirFor line f.part with st := .ex f.core, part := f.part, writer := some f.core }).writeL1 id k f
          { core := f.core, line := line, st := .m, data := s.lineNow line, ns := l.ns, tag := tag } req := by
    simp only [grantOwn, mergeResv_of_none h.resv, hstore, Bool.false_and, Bool.false_eq_true, if_false, ownLine, hnow, hroom,
      dirFor_congr hbump.copies]
    exact ⟨_, _, rfl⟩
  obtain ⟨fl, ag, g, w, hwrite, hget, hdone, hcore, hline, hst, hdata⟩ := writeL1_spec hk
    (((s.fillSlice line f.part l.ns false).bumpVer line f.part).putDir line
        { s.dirFor line f.part with st := .ex f.core, part := f.part, writer := some f.core }) id
    { core := f.core, line := line, st := .m, data := s.lineNow line, ns := l.ns, tag := tag } req
  have hent := dirEnt_putDir (s := (s.fillSlice line f.part l.ns false).bumpVer line f.part)
    (e := { s.dirFor line f.part with st := .ex f.core, part := f.part, writer := some f.core }) (s.covers_dirFor line f.part)
  refine ⟨_, g, w, hgrant.trans hwrite, hbump.homeStep.granted rfl rfl rfl rfl, hget, hdone, ?_, hst, hdata, (dirState_of_dirEnt hent :)⟩
  have hput := l1Line_putL1 (((s.fillSlice line f.part l.ns false).bumpVer line f.part).putDir line
    { s.dirFor line f.part with st := .ex f.core, part := f.part, writer := some f.core }) w
  rw [hcore, hline] at hput
  exact hput

/-- A store of the home's die, of a line no other core has (R80). -/
theorem homeOwnershipMiss_spec (h : s.atDoor id k f l line) (hkind : f.kind = .store) (hmine : s.invalidateMsgs line (some f.core) = []) :
    ∃ t g z, exec (.homeOwnershipMiss id k) s = .next t ∧ t.out = .done ∧ t.warps = s.warps ∧ s.sameBytes t
      ∧ t.flights.get? id = some g ∧ (g.req k).done = true ∧ t.l1Line f.core line = some z ∧ z.st = .m
      ∧ z.data = (f.apply k (s.lineNow line)).1 ∧ t.dirState line = .ex f.core := by
  have hmsgs : ∀ u, LetIn line s u → (∀ r ∈ u.resv, r.line ≠ line) → l.shared = false → u.ownMsgs f l line = [] := by
    intro u hin _ _
    rw [ownMsgs, invalidateMsgs, hin.state]
    exact hmine
  obtain ⟨u, x, y, hexec, hout, hwarps, hbytes, hin, hx, hu, -⟩ := exec_performed h (ev := .homeOwnershipMiss id k) rfl hmsgs
    fun u y hin hu => by
      obtain ⟨t, g, z, rfl, hstep, -⟩ := grantOwn_spec (l := l) hu hkind (atDoor.inRange h)
      exact hstep
  obtain ⟨t, g, z, rfl, -, hfacts⟩ := grantOwn_spec (l := l) hu hkind (atDoor.inRange h)
  rw [hin.lineNow_eq hx] at hfacts
  exact ⟨_, g, z, hexec, hout, hwarps, hbytes, hfacts⟩

end State

end Sys2Proof.Machine
end

section
/-!
PROOFS. Writes and atomics performed on the home's copy (R97, R153, R156).
-/

namespace Sys2Proof.Machine

namespace State
variable {s t u : State} {line id k : Nat} {x y : SliceLine} {f : Flight} {l : Leaf} {e : DirEnt}

theorem dies_touchSlice (s : State) (line : Nat) : (s.touchSlice line).dies = s.dies := by unfold touchSlice; split <;> rfl

/-- A line that is in its slice is left there by a request performed there, and no clock passes (R58). -/
theorem atSlice_spec (h : s.sliceLine line = some x) (f : Flight) (l : Leaf) :
    SliceStep line s x (s.atSlice f l line) x ∧ (s.atSlice f l line).dies = s.dies := by
  unfold atSlice
  split
  · rw [h]
    exact ⟨.refl h, rfl⟩
  · rw [fillSlice_of_sliceLine h]
    exact ⟨.touch h, s.dies_touchSlice line⟩

/-- As a write's acknowledgment returns, only copies go (R97). -/
theorem ackClears_eq (s : State) (die line : Nat) : ∃ l1 rdc, s.ackClears die line = { s with l1 := l1, rdc := rdc } := by
  unfold ackClears
  split
  · exact ⟨s.l1, s.rdc, rfl⟩
  · dsimp only
    split
    · split
      · exact ⟨_, _, rfl⟩
      · exact ⟨_, _, rfl⟩
    · exact ⟨_, _, rfl⟩

/-- The home's copy has been written by an access, which has then its pieces' results, and the line its tag. -/
def writtenAtHome (a : State) (id k : Nat) (f : Flight) (line : Nat) (d : List Byte) (tag : Tag) : State :=
  ((a.putFlight id (f.apply k d).2).homeWrite line f.part (fun d => (f.apply k d).1) false).setHomeTag line f.part tag

theorem writtenAtHome_spec {a : State} (h : a.sliceLine line = some x) (id k : Nat) (f : Flight) (tag : Tag) :
    ∃ y, SliceStep line (a.putFlight id (f.apply k x.data).2) x (a.writtenAtHome id k f line x.data tag) y
      ∧ y.data = (f.apply k x.data).1 ∧ y.ver = ((a.slc x.die x.slice).mclk + 1) % 2 ^ 32 := by
  have hput : (a.putFlight id (f.apply k x.data).2).sliceLine line = some x := h
  obtain ⟨w, hwrite, hdata, hver⟩ := SliceStep.write hput f.part fun d => (f.apply k d).1
  exact ⟨_, hwrite.trans (.setTag hwrite.after f.part tag), hdata, hver⟩

/-- An access performed at the slice is one write of the home's copy, then the writer's name and what its
acknowledgment clears. -/
theorem performAtSlice_eq (h : s.Serves id f line x) (hsc : f.isSc = false) (l : Leaf) :
    ∃ a tag req, SliceStep line s x a x ∧ a.dies = s.dies ∧ s.performAtSlice id k f l line =
      (((a.writtenAtHome id k f line x.data tag).setWriter line f.core).ackClears f.die line).finishReq id k req := by
  have hslice : ∃ a, SliceStep line s x a x ∧ a.dies = s.dies
      ∧ (if f.kind == .store && (l.shared || l.pol == 2) then s else s.atSlice f l line) = a := by
    split
    · exact ⟨s, .refl h.slice, rfl, rfl⟩
    · exact ⟨_, (atSlice_spec h.slice f l).1, (atSlice_spec h.slice f l).2, rfl⟩
  obtain ⟨a, hstep, hdies, ha⟩ := hslice
  simp only [performAtSlice, mergeResv_of_none h.resv, h.sound, Bool.and_false, Bool.false_eq_true, if_false, ha, hstep.homeData_eq, scStamp,
    hsc]
  exact ⟨a, _, _, hstep, hdies, rfl⟩

/-- A store or an atomic performed on the home's copy by its function: the line's next version (R105, R153, R156). -/
theorem performAtSlice_spec (h : s.Serves id f line x) (hk : k < f.reqs.length) (hsc : f.isSc = false) :
    ∃ t g, s.performAtSlice id k f l line = t ∧ HomeStep 1 s t ∧ t.flights.get? id = some g ∧ (g.req k).done = true
      ∧ g.accs = (f.apply k (s.homeData line)).2.accs ∧ t.homeData line = (f.apply k (s.homeData line)).1
      ∧ t.tokenOf line f.part = ((s.slc x.die x.slice).mclk + 1) % 2 ^ 32 := by
  obtain ⟨a, tag, req, hstep, hdies, hperform⟩ := performAtSlice_eq (k := k) h hsc l
  obtain ⟨w, hwrite, hdata, hver⟩ := writtenAtHome_spec hstep.after id k f tag
  have hflight : (a.writtenAtHome id k f line x.data tag).flights.get? id = some (f.apply k x.data).2 :=
    (congrArg (fun c : Copies => c.flights.get? id) hwrite.copies :).trans (get?_putFlight a id _)
  have hhome := (hstep.homeStep.trans (n := 0) (u := a.putFlight id (f.apply k x.data).2) ⟨rfl, rfl, rfl, .refl _⟩).trans hwrite.homeStep
  have hafter := hwrite.after
  rw [homeData_of_sliceLine h.slice]
  generalize a.writtenAtHome id k f line x.data tag = v at hperform hflight hhome hafter
  obtain ⟨l1, rdc, hclears⟩ := ackClears_eq (v.setWriter line f.core) f.die line
  obtain ⟨fl, ag, hfinish, hget⟩ := finishReq_eq (s := { v.setWriter line f.core with l1 := l1, rdc := rdc }) hflight k req
  have hwriter : Grown s.dir (v.setWriter line f.core).dir 1 :=
    hhome.dir.trans (.map (g := fun e => if e.covers line then { e with writer := some f.core } else e) _ fun e => by split <;> rfl)
      |>.mono (Nat.zero_le 1)
  rw [hclears] at hperform
  refine ⟨_, _, hperform.trans hfinish, ⟨hhome.beyond, hhome.mem, hhome.regs, hwriter⟩, hget, ?_, rfl,
    (homeData_of_sliceLine hafter :).trans hdata, ?_⟩
  · rw [Flight.req_withReq (f := (f.apply k _).2) hk]
  · refine (tokenOf_of_sliceLine hafter f.part :).trans (hver.trans ?_)
    rw [slc, slc, die, die, hdies]

/-- A write from elsewhere, or an atomic, of a line that no core has (R97, R156). -/
theorem homeWrite_spec (h : s.atDoor id k f l line) {ev : Instr} (hev : ev = .homeRemoteWrite id k ∨ ev = .homeAtomic id k)
    (hsc : f.isSc = false) (hfree : s.invalidateMsgs line none = []) :
    ∃ t g, exec ev s = .next t ∧ t.out = .done ∧ t.warps = s.warps ∧ s.sameBytes t
      ∧ t.flights.get? id = some g ∧ (g.req k).done = true ∧ g.accs = (f.apply k (s.homeData line)).2.accs
      ∧ t.homeData line = (f.apply k (s.homeData line)).1
      ∧ ∀ x, s.sliceLine line = some x → t.tokenOf line f.part = ((s.slc x.die x.slice).mclk + 1) % 2 ^ 32 := by
  have hmsgs : ∀ u, LetIn line s u → (∀ r ∈ u.resv, r.line ≠ line) → l.shared = false → u.writeMsgs f l line = [] := by
    intro u hin _ _
    rw [writeMsgs, invalidateMsgs, hin.state]
    exact hfree
  have hexec : exec ev s = .next (s.atHome ev id k State.writeMsgs fun s f l line => s.performAtSlice id k f l line).done := by
    rcases hev with rfl | rfl <;> rfl
  obtain ⟨u, x, y, hexec, hout, hwarps, hbytes, hin, hx, hu, hdie, hslice⟩ := exec_performed h hexec hmsgs
    fun u y hin hu => by
      obtain ⟨t, g, rfl, hstep, -⟩ := performAtSlice_spec (l := l) hu (atDoor.inRange h) hsc
      exact hstep
  obtain ⟨t, g, rfl, -, hget, hdone, haccs, hdata, htoken⟩ := performAtSlice_spec (l := l) hu (atDoor.inRange h) hsc
  rw [hin.homeData_eq hx] at haccs hdata
  refine ⟨_, g, hexec, hout, hwarps, hbytes, hget, hdone, haccs, hdata, fun x' hx' => ?_⟩
  obtain rfl : x = x' := Option.some.inj (hx.symm.trans hx')
  rw [hdie, hslice, hin.slc_eq] at htoken
  exact htoken

end State

end Sys2Proof.Machine
end

section
/-!
PROOFS. What an atomic computes (R153, R154, R155).
-/

namespace Sys2Proof.Machine

namespace Flight
variable {f : Flight} {a : Acc} {k n : Nat}

/-- A request of one piece performs that piece. -/
theorem apply_single (haccs : f.accs = [a]) (hreq : a.req = k) (hbad : a.bad = none) (d : List Byte) :
    f.apply k d = ((f.applyAcc a d).1, { f with accs := [(f.applyAcc a d).2] }) := by
  simp only [apply, haccs, List.foldl_cons, List.foldl_nil, hreq, hbad, decide_true, Option.isNone_none, Bool.and_self, if_true, List.nil_append]

/-- The integer atomics of R153 by number: what each leaves of the word `m` in memory and the operand `x`. -/
def wordAtomics (m x : BitVec (8 * n)) : List (Nat × BitVec (8 * n)) :=
  [(0, m + x), (1, if x.toInt < m.toInt then x else m), (2, if m.toInt < x.toInt then x else m),
    (3, if x.toNat < m.toNat then x else m), (4, if m.toNat < x.toNat then x else m), (5, m &&& x), (6, m ||| x),
    (7, m ^^^ x), (8, x)]

/-- The sum of the halves of two words that begin at a bit. -/
def halfSum (m x j : Nat) : Nat := (fAdd .bf16 .rne (unpack .bf16 (m / 2 ^ j % 2 ^ 16)) (unpack .bf16 (x / 2 ^ j % 2 ^ 16))).1

/-- The floating-point atomics of R153 by number. -/
def floatAtomics (m x : Nat) : List (Nat × Nat) :=
  [(9, (fAdd .fp32 .rne (unpack .fp32 m) (unpack .fp32 x)).1), (10, (fMinMax .fp32 false m x).1),
    (11, (fMinMax .fp32 true m x).1), (12, halfSum m x 0 + 2 ^ 16 * halfSum m x 16)]

theorem sint_toNat {w : Nat} (m : BitVec w) : sint w m.toNat = m.toInt := by rw [sint, BitVec.ofNat_toNat, BitVec.setWidth_eq]

/-- The integer atomics of R153 on words: what they leave in memory. -/
theorem atomOp_int {w64 : Bool} (hn : n ∈ [4, 8]) (hw : w64 = (n == 8)) (m x : BitVec (8 * n)) :
    ∀ e ∈ wordAtomics m x, atomOp e.1 w64 m.toNat x.toNat = e.2.toNat := by
  have hadd : CarryOp.width ⟨if w64 then 1 else 0, false⟩ = n := by
    rw [hw]
    rcases List.mem_pair.mp hn with rfl | rfl <;> rfl
  have hmin : CarryOp.width ⟨4, w64⟩ = n := by
    rw [hw]
    rcases List.mem_pair.mp hn with rfl | rfl <;> rfl
  have hmax : CarryOp.width ⟨7, w64⟩ = n := by
    rw [hw]
    rcases List.mem_pair.mp hn with rfl | rfl <;> rfl
  simp only [wordAtomics, List.forall_mem_cons, List.not_mem_nil, false_imp_iff, implies_true, and_true]
  refine ⟨?_, ?_, ?_, ?_, ?_, rfl, rfl, rfl, rfl⟩
  · have hcombine : atomOp 0 w64 m.toNat x.toNat = (m.toNat + x.toNat) % 2 ^ (8 * CarryOp.width ⟨if w64 then 1 else 0, false⟩) := by
      cases w64 <;> rfl
    rw [hcombine, hadd, BitVec.toNat_add]
  · have hcombine : atomOp 1 w64 m.toNat x.toNat = if sint (8 * CarryOp.width ⟨4, w64⟩) x.toNat < sint (8 * CarryOp.width ⟨4, w64⟩) m.toNat
        then x.toNat else m.toNat := rfl
    rw [hcombine, hmin, sint_toNat, sint_toNat, apply_ite BitVec.toNat]
  · have hcombine : atomOp 2 w64 m.toNat x.toNat = if sint (8 * CarryOp.width ⟨7, w64⟩) m.toNat < sint (8 * CarryOp.width ⟨7, w64⟩) x.toNat
        then x.toNat else m.toNat := rfl
    rw [hcombine, hmax, sint_toNat, sint_toNat, apply_ite BitVec.toNat]
  · rw [apply_ite BitVec.toNat]
    exact (min_def' _ _).trans (by split <;> split <;> omega)
  · rw [apply_ite BitVec.toNat]
    exact (max_def' _ _).trans (by split <;> split <;> omega)

/-- The floating-point atomics of R153 on words: what they leave in memory. -/
theorem atomOp_float {w64 : Bool} {m x : Nat} (hm : m < 2 ^ 32) (hx : x < 2 ^ 32) :
    ∀ e ∈ floatAtomics m x, atomOp e.1 w64 m x = e.2 := by
  simp only [floatAtomics, halfSum, List.forall_mem_cons, List.not_mem_nil, false_imp_iff, implies_true, and_true]
  refine ⟨rfl, rfl, rfl, ?_⟩
  have hhigh : ∀ v < 2 ^ 32, v / 2 ^ 16 % 2 ^ 16 = v / 2 ^ 16 := fun v hv => Nat.mod_eq_of_lt (by omega)
  rw [pow_zero, Nat.div_one, Nat.div_one, hhigh m hm, hhigh x hx]
  rfl

/-- The number that bytes of a line hold fits their width. -/
theorem leNat_slice_lt (d : List Byte) (i n : Nat) : leNat (slice d i n) < 2 ^ (8 * n) := by
  refine (leNat_lt _).trans_le ?_
  rw [pow_mul]
  exact Nat.pow_le_pow_right (by decide) (List.length_take_le _ _)

/-- A request of one piece on the word at its place: an atomic patches it by its function, a compare-and-swap where it
matches, and both read it (R153, R154, R155). -/
theorem apply_word (hn : n ∈ [4, 8]) (haccs : f.accs = [a]) (hreq : a.req = k) (hbad : a.bad = none) (hsize : a.size = n)
    (hw : f.w64 = (n == 8)) (hval : a.val < 2 ^ (8 * n)) (d : List Byte) :
    let i := a.va % 128
    let m := BitVec.ofNat (8 * n) (leNat (slice d i n))
    let x := BitVec.ofNat (8 * n) a.val
    (∀ e ∈ wordAtomics m x, f.kind = .atomic e.1 →
      (f.apply k d).1 = patch d i (leBytes n e.2.toNat) ∧ (f.apply k d).2.accs = [{ a with val := m.toNat }])
    ∧ (n = 4 → ∀ e ∈ floatAtomics m.toNat x.toNat, f.kind = .atomic e.1 →
      (f.apply k d).1 = patch d i (leBytes n e.2) ∧ (f.apply k d).2.accs = [{ a with val := m.toNat }])
    ∧ (f.kind = .cas → (f.apply k d).1 = (if m.toNat = a.cmp then patch d i (leBytes n x.toNat) else d)
      ∧ (f.apply k d).2.accs = [{ a with val := m.toNat }]) := by
  intro i m x
  have hm : m.toNat = leNat (slice d i n) := by
    rw [BitVec.toNat_ofNat]
    exact Nat.mod_eq_of_lt (leNat_slice_lt d i n)
  have hx : x.toNat = a.val := by
    rw [BitVec.toNat_ofNat]
    exact Nat.mod_eq_of_lt hval
  rw [apply_single haccs hreq hbad]
  have hatomic : ∀ fn v, f.kind = .atomic fn → atomOp fn f.w64 m.toNat x.toNat = v →
      (f.applyAcc a d).1 = patch d i (leBytes n v) ∧ [(f.applyAcc a d).2] = [{ a with val := m.toNat }] := by
    intro fn v hkind hv
    rw [applyAcc, hkind, hsize, ← hv, hm, hx]
    exact ⟨rfl, rfl⟩
  refine ⟨fun e he hkind => hatomic _ _ hkind (atomOp_int hn hw m x e he), ?_, fun hkind => ?_⟩
  · rintro rfl e he hkind
    exact hatomic _ _ hkind (atomOp_float m.isLt x.isLt e he)
  · rw [applyAcc, hkind, hsize, hm, hx]
    exact ⟨rfl, rfl⟩

end Flight

end Sys2Proof.Machine
end

section
/-!
PROOFS. Folding atomics at the home of their line (R80, R96, R156), and O25.
-/

namespace Sys2Proof.Machine

namespace State
variable {s t u : State} {line id k : Nat} {x y : SliceLine} {f : Flight} {l : Leaf} {op : CarryOp} {cs ds : List Nat}

/-- The line's copy that was put into a die's remote-data cache is found there. -/
theorem rdcLine_insertRdc (s : State) (z : RdcLine) (stream : Bool) : (s.insertRdc z stream).rdcLine z.die z.line = some z := by
  unfold insertRdc
  split
  · have hnone : (s.rdc.filter fun x => !(x.die == z.die && x.line == z.line)).find? (fun l => l.die == z.die && l.line == z.line) = none :=
      List.find?_eq_none.mpr fun r hr => by
        have hother := (List.mem_filter.mp hr).2
        rw [Bool.not_eq_true'] at hother
        exact Bool.not_eq_true _ ▸ hother
    rw [rdcLine, List.find?_append, hnone, Option.none_or]
    exact List.find?_cons_of_pos (by simp)
  · exact rdcLine_putRdc s z

/-- An insertion in a remote-data cache changes nothing else. -/
theorem insertRdc_eq (s : State) (z : RdcLine) (stream : Bool) : ∃ rdc, s.insertRdc z stream = { s with rdc := rdc } := by
  unfold insertRdc
  split
  · exact ⟨_, rfl⟩
  · exact ⟨_, rfl⟩

/-- The cores, and the dies, that hold partials once a core of the home's die (or another die) does as well. -/
def withHolder (joins : Bool) (c : Nat) (cs : List Nat) : List Nat := if joins && !cs.contains c then c :: cs else cs

theorem withHolder_true (c : Nat) (cs : List Nat) : withHolder true c cs = if cs.contains c then cs else c :: cs := by
  rw [withHolder]
  cases cs.contains c <;> rfl

/-- The partial that a request folds into: the one its agent holds of the line, or the identity. -/
def partialNow (s : State) (f : Flight) (op : CarryOp) (line : Nat) : List Byte :=
  (s.partialOf op (homeDie line != f.die) (if homeDie line != f.die then f.die else f.core) line).getD op.identityLine

/-- The state at the home as a folding atomic's partial is made: the holder is listed, and the access performed on it. -/
def folded (s : State) (id k : Nat) (f : Flight) (line : Nat) (op : CarryOp) (cs ds : List Nat) : State :=
  ((s.bumpVer line f.part).putDir line
    { s.dirFor line f.part with
      st := .ca op (withHolder (!(homeDie line != f.die)) f.core cs) (withHolder (homeDie line != f.die) f.die ds)
      part := f.part, writer := some f.core }).putFlight id (f.apply k (s.partialNow f op line)).2

theorem folded_spec (h : s.Serves id f line x) (k : Nat) (op : CarryOp) (cs ds : List Nat) :
    HomeStep 1 s (s.folded id k f line op cs ds) ∧ (s.folded id k f line op cs ds).flights.get? id = some (f.apply k (s.partialNow f op line)).2
      ∧ (s.folded id k f line op cs ds).l1 = s.l1 ∧ (s.folded id k f line op cs ds).rdc = s.rdc
      ∧ (s.folded id k f line op cs ds).dirState line
        = .ca op (withHolder (!(homeDie line != f.die)) f.core cs) (withHolder (homeDie line != f.die) f.die ds) := by
  have hbump := SliceStep.bump h.slice f.part
  have hent := dirEnt_putDir (s := s.bumpVer line f.part)
    (e := { s.dirFor line f.part with
      st := .ca op (withHolder (!(homeDie line != f.die)) f.core cs) (withHolder (homeDie line != f.die) f.die ds)
      part := f.part, writer := some f.core }) (s.covers_dirFor line f.part)
  exact ⟨hbump.homeStep.granted rfl rfl rfl rfl, get?_putFlight _ _ _, (congrArg Copies.l1 hbump.copies :), (congrArg Copies.rdc hbump.copies :),
    (dirState_of_dirEnt hent :)⟩

theorem grantCarry_eq (h : s.Serves id f line x) (hfold : foldOf f l = some op)
    (hst : (s.dirState line = .u ∧ cs = [] ∧ ds = []) ∨ s.dirState line = .ca op cs ds) :
    ∃ req, s.grantCarry id k f l line =
      (if homeDie line != f.die then
        (((s.folded id k f line op cs ds).rdcRoom f.die line f.cls).dropDieL1 f.die line).insertRdc
          { die := f.die, line := line, op := some op, data := (f.apply k (s.partialNow f op line)).1, ns := l.ns, stream := l.pol == 1 }
          (l.pol == 1)
      else (s.folded id k f line op cs ds).fillL1 f.core line (.c op) (f.apply k (s.partialNow f op line)).1 0 l.ns {} f.cls).finishReq id k req := by
  have hbump := SliceStep.bump h.slice f.part
  have hresv : (s.resv.any fun r => r.line == line && r.op != op) = false :=
    List.any_eq_false.mpr fun r hr => by simp [h.resv r hr]
  have hpartial : ∀ e die agent, ((s.bumpVer line f.part).putDir line e).partialOf op die agent line = s.partialOf op die agent line :=
    fun e die agent => by
      have hl1 : ((s.bumpVer line f.part).putDir line e).l1Line agent line = s.l1Line agent line := l1Line_congr hbump.copies agent line
      have hrdc : ((s.bumpVer line f.part).putDir line e).rdcLine agent line = s.rdcLine agent line := rdcLine_congr hbump.copies agent line
      rw [partialOf, partialOf, hl1, hrdc]
  rcases hst with ⟨hst, rfl, rfl⟩ | hst <;>
    simp only [grantCarry, hfold, hresv, Bool.false_eq_true, if_false, dirFor_congr hbump.copies, st_dirFor, hst, hpartial, foldInto] <;>
    exact ⟨_, rfl⟩

/-- A folding atomic of a core of the home's die: its core holds a partial afterwards (R80, R156). -/
theorem grantCarry_core_spec (h : s.Serves id f line x) (hk : k < f.reqs.length) (hfold : foldOf f l = some op)
    (hst : (s.dirState line = .u ∧ cs = [] ∧ ds = []) ∨ s.dirState line = .ca op cs ds) (hhome : homeDie line = f.die) :
    ∃ t g z, s.grantCarry id k f l line = t ∧ HomeStep 1 s t ∧ t.flights.get? id = some g ∧ (g.req k).done = true
      ∧ t.dirState line = .ca op (if cs.contains f.core then cs else f.core :: cs) ds
      ∧ t.l1Line f.core line = some z ∧ z.st = .c op ∧ z.data = (f.apply k (s.partialNow f op line)).1 := by
  obtain ⟨req, hgrant⟩ := grantCarry_eq (k := k) h hfold hst
  obtain ⟨hstep, hflight, hl1, -, hdir⟩ := folded_spec h k op cs ds
  have hdie : (homeDie line != f.die) = false := by rw [hhome, bne_self_eq_false]
  generalize s.folded id k f line op cs ds = v at hgrant hstep hflight hl1 hdir
  have hroom : (v.l1.filter fun x => x.core == f.core).length < 2048 := by rw [hl1]; exact h.l1
  rw [if_neg (by rw [hdie]; exact Bool.false_ne_true), fillL1_eq hroom] at hgrant
  rw [hdie, Bool.not_false, withHolder_true] at hdir
  obtain ⟨fl, ag, hfinish, hget⟩ := finishReq_eq (s := v.putL1
    { core := f.core, line := line, st := .c op, data := (f.apply k (s.partialNow f op line)).1, lease := 0, ns := l.ns, tag := {} }) hflight k req
  refine ⟨_, _, _, hgrant.trans hfinish, ⟨hstep.beyond, hstep.mem, hstep.regs, hstep.dir⟩, hget, ?_, hdir, l1Line_putL1 v _, rfl, rfl⟩
  rw [Flight.req_withReq (f := (f.apply k _).2) hk]

/-- A folding atomic of another die: its remote-data cache holds a partial afterwards (R96, R156). -/
theorem grantCarry_die_spec (h : s.Serves id f line x) (hk : k < f.reqs.length) (hfold : foldOf f l = some op)
    (hst : (s.dirState line = .u ∧ cs = [] ∧ ds = []) ∨ s.dirState line = .ca op cs ds) (hhome : homeDie line ≠ f.die) :
    ∃ t g z, s.grantCarry id k f l line = t ∧ HomeStep 1 s t ∧ t.flights.get? id = some g ∧ (g.req k).done = true
      ∧ t.dirState line = .ca op cs (if ds.contains f.die then ds else f.die :: ds)
      ∧ t.rdcLine f.die line = some z ∧ z.op = some op ∧ z.data = (f.apply k (s.partialNow f op line)).1 := by
  obtain ⟨req, hgrant⟩ := grantCarry_eq (k := k) h hfold hst
  obtain ⟨hstep, hflight, -, hrdc, hdir⟩ := folded_spec h k op cs ds
  have hdie : (homeDie line != f.die) = true := bne_iff_ne.mpr hhome
  generalize s.folded id k f line op cs ds = v at hgrant hstep hflight hrdc hdir
  have hroom : (v.rdc.filter fun x => x.die == f.die && x.line % 65536 == line % 65536).length < 16 := by rw [hrdc]; exact h.rdc
  rw [if_pos hdie, rdcRoom_eq hroom] at hgrant
  rw [hdie, withHolder_true] at hdir
  obtain ⟨rdc, hinsert⟩ := insertRdc_eq (v.dropDieL1 f.die line)
    { die := f.die, line := line, op := some op, data := (f.apply k (s.partialNow f op line)).1, ns := l.ns, stream := l.pol == 1 } (l.pol == 1)
  have hfind := rdcLine_insertRdc (v.dropDieL1 f.die line)
    { die := f.die, line := line, op := some op, data := (f.apply k (s.partialNow f op line)).1, ns := l.ns, stream := l.pol == 1 } (l.pol == 1)
  rw [hinsert] at hgrant hfind
  obtain ⟨fl, ag, hfinish, hget⟩ := finishReq_eq (s := { v.dropDieL1 f.die line with rdc := rdc }) hflight k req
  refine ⟨_, _, _, hgrant.trans hfinish, ⟨hstep.beyond, hstep.mem, hstep.regs, hstep.dir⟩, hget, ?_, hdir, hfind, rfl, rfl⟩
  rw [Flight.req_withReq (f := (f.apply k _).2) hk]

theorem LetIn.partialNow_eq (h : LetIn line s t) (f : Flight) (op : CarryOp) : t.partialNow f op line = s.partialNow f op line := by
  rw [partialNow, partialNow, partialOf, partialOf, h.l1Line_eq, h.rdcLine_eq]

/-- A folding atomic of a line that no one has, or of which partials of its operation are held (R80, R96, R156). -/
theorem homeCarryRequest_spec (h : s.atDoor id k f l line) (hfold : foldOf f l = some op)
    (hst : (s.dirState line = .u ∧ cs = [] ∧ ds = []) ∨ s.dirState line = .ca op cs ds) :
    ∃ t g, exec (.homeCarryRequest id k) s = .next t ∧ t.out = .done ∧ t.warps = s.warps ∧ s.sameBytes t
      ∧ t.flights.get? id = some g ∧ (g.req k).done = true
      ∧ (homeDie line = f.die → t.dirState line = .ca op (if cs.contains f.core then cs else f.core :: cs) ds
        ∧ ∃ z, t.l1Line f.core line = some z ∧ z.st = .c op ∧ z.data = (f.apply k (s.partialNow f op line)).1)
      ∧ (homeDie line ≠ f.die → t.dirState line = .ca op cs (if ds.contains f.die then ds else f.die :: ds)
        ∧ ∃ z, t.rdcLine f.die line = some z ∧ z.op = some op ∧ z.data = (f.apply k (s.partialNow f op line)).1) := by
  have hmsgs : ∀ u, LetIn line s u → (∀ r ∈ u.resv, r.line ≠ line) → l.shared = false → u.carryMsgs f l line = [] := by
    intro u hin _ _
    rw [carryMsgs, invalidateMsgs, hin.state, hfold]
    rcases hst with ⟨hst, -, -⟩ | hst <;> rw [hst]
    exact if_pos rfl
  have hstate : ∀ u, LetIn line s u → (u.dirState line = .u ∧ cs = [] ∧ ds = []) ∨ u.dirState line = .ca op cs ds :=
    fun u hin => by rw [hin.state]; exact hst
  by_cases hhome : homeDie line = f.die
  · obtain ⟨u, x, y, hexec, hout, hwarps, hbytes, hin, hx, hu, -⟩ := exec_performed h (ev := .homeCarryRequest id k) rfl hmsgs
      fun u y hin hu => by
        obtain ⟨t, g, z, rfl, hstep, -⟩ := grantCarry_core_spec (l := l) hu (atDoor.inRange h) hfold (hstate u hin) hhome
        exact hstep
    obtain ⟨t, g, z, rfl, -, hget, hdone, hdir, hl1, hop, hdata⟩ :=
      grantCarry_core_spec (l := l) hu (atDoor.inRange h) hfold (hstate u hin) hhome
    rw [hin.partialNow_eq] at hdata
    exact ⟨_, g, hexec, hout, hwarps, hbytes, hget, hdone, fun _ => ⟨hdir, z, hl1, hop, hdata⟩, fun hne => absurd hhome hne⟩
  · obtain ⟨u, x, y, hexec, hout, hwarps, hbytes, hin, hx, hu, -⟩ := exec_performed h (ev := .homeCarryRequest id k) rfl hmsgs
      fun u y hin hu => by
        obtain ⟨t, g, z, rfl, hstep, -⟩ := grantCarry_die_spec (l := l) hu (atDoor.inRange h) hfold (hstate u hin) hhome
        exact hstep
    obtain ⟨t, g, z, rfl, -, hget, hdone, hdir, hrdc, hop, hdata⟩ :=
      grantCarry_die_spec (l := l) hu (atDoor.inRange h) hfold (hstate u hin) hhome
    rw [hin.partialNow_eq] at hdata
    exact ⟨_, g, hexec, hout, hwarps, hbytes, hget, hdone, fun heq => absurd heq hhome, fun _ => ⟨hdir, z, hrdc, hop, hdata⟩⟩

end State

/-- Settles O25: each request is let in at the door of its line's home and performed there, by the lemma of its grant. -/
theorem homeRequests : Obligations.HomeRequests := by
  unfold Obligations.HomeRequests
  intro s id k f l line h st insert
  refine ⟨fun hkind hshared hpol hsc hst => ?_, fun hkind hshared hpol hsc _ hst => ?_, fun hkind _ hmine => ?_,
    fun ev hev hsc hfree => ?_, fun a n hn haccs hreq hbad hsize hw hval _ => ?_, fun op cs ds hfold hst => ?_⟩
  · obtain ⟨t, g, x, hexec, hout, hwarps, hbytes, hget, haccs, hdone, hfail, htag, hl1, hdata, hlease, hsame, hdir⟩ :=
      State.homeLoadMissCore_spec h hkind hshared hpol hsc hst
    refine ⟨t, g, x, hexec, hout, hwarps, hbytes, hget, haccs, hdone, hfail, htag, hl1, hdata, hlease, hsame, hdir.trans ?_⟩
    cases hcase : s.dirState line <;> simp only [st, hcase, State.loadedState, insert]
  · obtain ⟨t, g, x, hspec⟩ := State.homeLoadMissRemote_spec h hkind hshared hpol hsc hst
    exact ⟨t, g, x, hspec⟩
  · exact State.homeOwnershipMiss_spec h hkind hmine
  · refine State.homeWrite_spec h ?_ hsc hfree
    rcases hev with ⟨rfl, -⟩ | ⟨rfl, -⟩
    · exact .inl rfl
    · exact .inr rfl
  · exact Flight.apply_word hn haccs hreq hbad hsize hw hval (s.homeData line)
  · exact State.homeCarryRequest_spec h hfold hst

end Sys2Proof.Machine
end

section
/-!
PROOFS. What homes do in one step only takes copies away (R80 to R82, R95, R99, R103): no core and no die gains one, no
register of a die changes, and a line's poison mark goes only with a whole write of it.
-/

namespace Sys2Proof.Machine

namespace State

/-- From `s` to `t` copies have only gone, poison marks have stayed but on the lines that `clears` names, and nothing
beyond the memory system has changed. -/
structure Homeward (clears : Nat → Prop) (s t : State) : Prop where
  l1 : t.l1 ⊆ s.l1
  rdc : t.rdc ⊆ s.rdc
  poison : ∀ line ∈ s.poison, ¬ clears line → line ∈ t.poison
  regs : t.copies.regs = s.copies.regs
  beyond : t.beyond = s.beyond

variable {clears : Nat → Prop} {s t u : State}

theorem Homeward.refl (s : State) : Homeward clears s s := ⟨fun _ h => h, fun _ h => h, fun _ h _ => h, rfl, rfl⟩

theorem Homeward.trans (h : Homeward clears s t) (g : Homeward clears t u) : Homeward clears s u where
  l1 _ hx := h.l1 (g.l1 hx)
  rdc _ hx := h.rdc (g.rdc hx)
  poison line hl hc := g.poison line (h.poison line hl hc) hc
  regs := g.regs.trans h.regs
  beyond := g.beyond.trans h.beyond

theorem Homeward.mono {clears' : Nat → Prop} (h : Homeward clears s t) (hc : ∀ line, clears line → clears' line) : Homeward clears' s t :=
  ⟨h.l1, h.rdc, fun line hl hn => h.poison line hl fun hline => hn (hc line hline), h.regs, h.beyond⟩

theorem Homeward.foldl {α : Type} {f : State → α → State} (l : List α) (h : ∀ s, ∀ a ∈ l, Homeward clears s (f s a)) (s : State) :
    Homeward clears s (l.foldl f s) := by
  induction l generalizing s with
  | nil => exact .refl s
  | cons a l ih =>
    exact (h s a List.mem_cons_self).trans (ih (fun s b hb => h s b (List.mem_cons_of_mem a hb)) _)

/-- What reaches neither a copy nor a mark is such a step. -/
theorem Homeward.of_copies (h : t.copies = s.copies) (hb : t.beyond = s.beyond) : Homeward clears s t := by
  have hl1 : t.l1 = s.l1 := congrArg Copies.l1 h
  have hrdc : t.rdc = s.rdc := congrArg Copies.rdc h
  have hpoison : t.poison = s.poison := congrArg Copies.poison h
  exact ⟨fun _ hx => hl1 ▸ hx, fun _ hx => hrdc ▸ hx, fun line hl _ => hpoison ▸ hl, congrArg Copies.regs h, hb⟩

/-- Entries, transactions, write-backs, reservations and the like are rewritten. -/
theorem Homeward.edit (hl1 : t.l1 = s.l1) (hrdc : t.rdc = s.rdc) (hpoison : t.poison = s.poison) (hdies : t.dies = s.dies)
    (hb : t.beyond = s.beyond) : Homeward clears s t := by
  have hdie : ∀ d, t.die d = s.die d := fun d => by rw [State.die, State.die, hdies]
  exact ⟨fun _ hx => hl1 ▸ hx, fun _ hx => hrdc ▸ hx, fun line hl _ => hpoison ▸ hl, funext fun d => congrArg Die.regs (hdie d), hb⟩

theorem Homeward.ite {p : Prop} [Decidable p] (h : p → Homeward clears s t) (g : ¬ p → Homeward clears s u) :
    Homeward clears s (if p then t else u) := by
  split
  next hp => exact h hp
  next hp => exact g hp

/-! The home's copy (R79, R99, R105). -/

theorem homeward_placed (s : State) (l : List SliceLine) (d : List DirEnt) : Homeward clears s { s with slices := l, dir := d } :=
  .edit rfl rfl rfl rfl rfl

theorem homeward_slices (s : State) (l : List SliceLine) : Homeward clears s { s with slices := l } := .edit rfl rfl rfl rfl rfl

theorem homeward_fillSlice (s : State) (line part : Nat) (ns stream : Bool) : Homeward clears s (s.fillSlice line part ns stream) :=
  .of_copies (s.copies_fillSlice line part ns stream) (s.beyond_fillSlice line part ns stream)

theorem homeward_homeWrite (s : State) (line part : Nat) (g : List Byte → List Byte) (whole : Bool) :
    Homeward (fun l => whole = true ∧ l = line) s (s.homeWrite line part g whole) := by
  have hcopies := s.copies_homeWrite line part g whole
  have hl1 : (s.homeWrite line part g whole).l1 = s.l1 := (congrArg Copies.l1 hcopies :)
  have hrdc : (s.homeWrite line part g whole).rdc = s.rdc := (congrArg Copies.rdc hcopies :)
  have hpoison : (s.homeWrite line part g whole).poison = if whole then s.poison.filter (· != line) else s.poison :=
    (congrArg Copies.poison hcopies :)
  refine ⟨fun _ hx => hl1 ▸ hx, fun _ hx => hrdc ▸ hx, fun l hl hn => ?_, (congrArg Copies.regs hcopies :), s.beyond_homeWrite line part g whole⟩
  rw [hpoison]
  split
  next hwhole => exact List.mem_filter.mpr ⟨hl, bne_iff_ne.mpr fun hline => hn ⟨hwhole, hline⟩⟩
  next => exact hl

theorem homeward_mergeCarry (s : State) (line part : Nat) (op : CarryOp) (d : List Byte) : Homeward clears s (s.mergeCarry line part op d) :=
  .of_copies (s.copies_mergeCarry line part op d) (s.beyond_mergeCarry line part op d)

theorem homeward_mergeResv (s : State) (line part : Nat) : Homeward clears s (s.mergeResv line part) :=
  (Homeward.foldl (s.resv.filter (·.line == line)) (fun s r _ => s.homeward_mergeCarry line part r.op r.data) s).trans
    (.edit rfl rfl rfl rfl rfl)

theorem homeward_takeBack (s : State) (line part : Nat) (op : Option CarryOp) (d : List Byte) (ns : Bool) (tag : Tag) (stream : Bool) :
    Homeward clears s (s.takeBack line part op d ns tag stream) := by
  unfold takeBack
  refine (s.homeward_fillSlice line part ns stream).trans ?_
  cases op with
  | some op => exact (homeward_mergeResv _ line part).trans (homeward_mergeCarry _ line part op d)
  | none => exact .of_copies (by simp) (by simp)

/-! Entries of the directory. -/

theorem homeward_dir (s : State) (d : List DirEnt) : Homeward clears s { s with dir := d } := .edit rfl rfl rfl rfl rfl

theorem splitDir_eq (s : State) (line k : Nat) : ∃ d, s.splitDir line k = { s with dir := d } := by
  unfold splitDir
  split
  · exact ⟨_, rfl⟩
  · exact ⟨_, rfl⟩

/-- A core that leaves the entry of a line changes the directory alone. -/
theorem coreForgets_eq (s : State) (core line : Nat) : ∃ d, s.coreForgets core line = { s with dir := d } := by
  obtain ⟨d, hd⟩ := s.splitDir_eq line (blockLog ((s.l1.filter fun l => l.core == core).map (·.line)) line (s.dirFor line 0).log)
  unfold coreForgets
  dsimp only
  rw [hd]
  split
  · exact ⟨_, rfl⟩
  · exact ⟨_, rfl⟩

/-- A die that leaves the entry of a line changes the directory alone. -/
theorem dieForgets_eq (s : State) (die line : Nat) : ∃ d, s.dieForgets die line = { s with dir := d } := by
  obtain ⟨d, hd⟩ := s.splitDir_eq line (blockLog ((s.rdc.filter fun l => l.die == die).map (·.line)) line (s.dirFor line 0).log)
  unfold dieForgets
  dsimp only
  rw [hd]
  split
  · exact ⟨_, rfl⟩
  · exact ⟨_, rfl⟩

theorem homeward_coreForgets (s : State) (core line : Nat) : Homeward clears s (s.coreForgets core line) := by
  obtain ⟨d, hd⟩ := s.coreForgets_eq core line
  rw [hd]
  exact s.homeward_dir d

theorem homeward_dieForgets (s : State) (die line : Nat) : Homeward clears s (s.dieForgets die line) := by
  obtain ⟨d, hd⟩ := s.dieForgets_eq die line
  rw [hd]
  exact s.homeward_dir d

/-! Copies that leave (R80, R81, R95, R99). -/

theorem homeward_arrive (s : State) (w : Wb) : Homeward clears s (s.arrive w) := by
  unfold arrive
  split
  · exact .edit rfl rfl rfl rfl rfl
  · dsimp only
    refine (s.homeward_takeBack w.line (s.dirFor w.line 0).part w.op w.data w.ns w.tag w.stream).trans ?_
    split
    · exact homeward_dieForgets _ _ _
    · exact homeward_coreForgets _ _ _

theorem homeward_settle (s : State) (p : Wb → Bool) : Homeward clears s (s.settle p) :=
  Homeward.trans (t := { s with wbs := s.wbs.filter fun w => !p w }) (.edit rfl rfl rfl rfl rfl) (.foldl (s.wbs.filter p) (fun s w _ => s.homeward_arrive w) { s with wbs := s.wbs.filter fun w => !p w })

theorem homeward_dropL1 (s : State) (core line : Nat) : Homeward clears s (s.dropL1 core line) :=
  ⟨fun _ hx => List.mem_of_mem_filter hx, fun _ h => h, fun _ h _ => h, rfl, rfl⟩

theorem homeward_dropDieL1 (s : State) (die line : Nat) : Homeward clears s (s.dropDieL1 die line) :=
  ⟨fun _ hx => List.mem_of_mem_filter hx, fun _ h => h, fun _ h _ => h, rfl, rfl⟩

theorem homeward_dropRdc (s : State) (die line : Nat) : Homeward clears s (s.dropRdc die line) :=
  ⟨fun _ h => h, fun _ hx => List.mem_of_mem_filter hx, fun _ h _ => h, rfl, rfl⟩

theorem homeward_coreLeaves (s : State) (core line : Nat) : Homeward clears s (s.coreLeaves core line) := by
  unfold coreLeaves
  refine ((s.homeward_settle _ : Homeward clears s (s.settleFrom false core line)).trans ?_).trans (homeward_coreForgets _ core line)
  split
  · refine (homeward_dropL1 _ core line).trans ?_
    split
    · exact homeward_takeBack _ _ _ _ _ _ _ _
    · exact homeward_takeBack _ _ _ _ _ _ _ _
    · exact homeward_takeBack _ _ _ _ _ _ _ _
    · exact .refl _
  · exact .refl _

theorem homeward_dieLeaves (s : State) (die line : Nat) : Homeward clears s (s.dieLeaves die line) := by
  unfold dieLeaves
  refine ((s.homeward_settle _ : Homeward clears s (s.settleFrom true die line)).trans ?_).trans (homeward_dropDieL1 _ die line)
  split
  · refine (homeward_dropRdc _ die line).trans ?_
    split
    · exact homeward_takeBack _ _ _ _ _ _ _ _
    · exact .refl _
  · exact .refl _

theorem homeward_collect (s : State) (line part : Nat) : Homeward clears s (s.collect line part) := by
  have hkept : Homeward clears s ((s.settleLine line).keepOld line) := (s.homeward_settle _).trans (homeward_dir _ _)
  have hends : ∀ t, Homeward clears s t → Homeward clears s ((t.mergeResv line part).dropOld line) :=
    fun t ht => (ht.trans (t.homeward_mergeResv line part)).trans (homeward_dir _ _)
  unfold collect
  refine hends _ (hkept.trans ?_)
  split
  · exact homeward_coreLeaves _ _ _
  · exact homeward_coreLeaves _ _ _
  next cs ds _ =>
    exact (Homeward.foldl cs (fun t c _ => t.homeward_coreLeaves c line) _).trans
      (.foldl ds (fun t d _ => (t.homeward_dieLeaves d line).trans (homeward_dieForgets _ d line)) _)
  · exact .refl _

theorem homeward_collectForWrite (s : State) (line part : Nat) : Homeward clears s (s.collectForWrite line part) := by
  have hkept : Homeward clears s ((s.collect line part).keepOld line) := (s.homeward_collect line part).trans (homeward_dir _ _)
  have hends : ∀ t, Homeward clears s t → Homeward clears s (t.dropOld line) := fun t ht => ht.trans (homeward_dir _ _)
  unfold collectForWrite
  refine hends _ (hkept.trans ?_)
  split
  next cs _ => exact .foldl cs (fun t c _ => t.homeward_coreLeaves c line) _
  · exact .refl _

theorem homeward_revokeAll (s : State) (line part : Nat) : Homeward clears s (s.revokeAll line part) := by
  have hkept : Homeward clears s ((s.collectForWrite line part).keepOld line) := (s.homeward_collectForWrite line part).trans (homeward_dir _ _)
  have hends : ∀ t, Homeward clears s t → Homeward clears s (t.dropOld line) := fun t ht => ht.trans (homeward_dir _ _)
  unfold revokeAll
  refine hends _ ((hkept.trans (.foldl allDies (fun t d _ => ?_) _)).trans (.foldl _ (fun t d _ => t.homeward_dieForgets d line) _))
  exact .ite (fun _ => t.homeward_dieLeaves d line) fun _ => .refl t

/-! Room in the directory (R68, R82). -/

theorem homeward_evictDir (s : State) (e : DirEnt) : Homeward clears s (s.evictDir e) :=
  (Homeward.foldl _ (fun t l _ => t.homeward_revokeAll l e.part) s).trans (homeward_dir _ _)

theorem homeward_dirEvict (s : State) (set : Nat × Nat × Nat) (line fuel : Nat) : Homeward clears s (s.dirEvict set line fuel) := by
  induction fuel generalizing s with
  | zero => exact .refl s
  | succ fuel ih =>
    unfold dirEvict
    refine .ite (fun _ => .refl s) fun _ => ?_
    split
    next e _ => exact (s.homeward_evictDir e).trans (ih _)
    · exact .refl s

theorem homeward_dirRoom (s : State) (line : Nat) : Homeward clears s (s.dirRoom line) :=
  .ite (fun _ => .refl s) fun _ => s.homeward_dirEvict _ line _

/-! Writes at the home by the hardware's own agents (R85, R97, R103). -/

theorem homeward_cleanSlice (s : State) (line : Nat) : Homeward clears s (s.cleanSlice line) :=
  .of_copies (s.copies_cleanSlice line) (s.beyond_cleanSlice line)

theorem homeward_homeEnter (s : State) (line part : Nat) (ns shared : Bool) : Homeward clears s (s.homeEnter line part ns shared) := by
  have hends : ∀ t, Homeward clears s t → Homeward clears s (if shared then t else { t with
      slices := t.slices.map fun (x : SliceLine) => if x.line = line then { x with part := part } else x
      dir := t.dir.map fun (x : DirEnt) => if x.covers line && x.idle then { x with part := part } else x }) :=
    fun t ht => ht.trans (.ite (fun _ => .refl t) fun _ => t.homeward_placed _ _)
  unfold homeEnter
  refine hends _ ?_
  split
  · split
    · exact ((s.homeward_revokeAll line part).trans (homeward_cleanSlice _ line)).trans (homeward_slices _ _)
    · exact .refl s
  · exact .refl s

theorem homeward_keepPlace (s : State) (line part cls key : Nat) : Homeward clears s (s.keepPlace line part cls key) :=
  .ite (fun _ => .refl s) fun _ => .ite (fun _ => .refl s) fun _ => .edit rfl rfl rfl rfl rfl

theorem homeward_writeLine (s : State) (line part : Nat) (ns : Bool) (p : Policy) (who : Option Nat) (off : Nat) (bs : List Byte) (cls key : Nat) :
    Homeward (· = line) s (s.writeLine line part ns p who off bs cls key).1 := by
  have hplace : Homeward (· = line) s (s.leaveLineq (0, key) line) := .edit rfl rfl rfl rfl rfl
  have hwriter : ∀ t, Homeward (· = line) s t → Homeward (· = line) s (match who with | some c => t.setWriter line c | none => t) := by
    intro t ht
    cases who with
    | some c => exact ht.trans (homeward_dir _ _)
    | none => exact ht
  unfold writeLine
  split
  · exact .refl s
  split
  · exact s.homeward_keepPlace line part cls key
  split
  · exact hplace
  · have hentered := hplace.trans (homeward_homeEnter _ line part ns p.openTo)
    have hwhole : ∀ t, Homeward (· = line) s t → Homeward (· = line) s (t.homeWrite line part (patch · off bs) (bs.length = 128)) :=
      fun t ht => ht.trans ((t.homeward_homeWrite line part _ _).mono fun l hl => hl.2)
    have hfilled : ∀ t, Homeward (· = line) s t → Homeward (· = line) s (if p.allocates then t.fillSlice line part ns (p == .stream) else t) :=
      fun t ht => ht.trans (.ite (fun _ => t.homeward_fillSlice line part ns _) fun _ => .refl t)
    refine (hwriter _ (hwhole _ (hfilled _ ?_))).trans (homeward_dirRoom _ line)
    split
    · exact hentered.trans (homeward_mergeResv _ line part)
    · exact hentered.trans (homeward_collectForWrite _ line part)

/-- Bytes written by physical address, line by line (R115). -/
theorem homeward_physWrite (s : State) (pa : Nat) (bs : List Byte) : Homeward (fun _ => True) s (s.physWrite pa bs) := by
  have hpieces : ∀ (l : List Nat) (e : State × Nat), Homeward (fun _ => True) e.1 (l.foldl (fun (e : State × Nat) n =>
      ((e.1.writeLine ((pa + e.2) / 128) 0 false .sys none ((pa + e.2) % 128) ((bs.drop e.2).take n)).1, e.2 + n)) e).1 := by
    intro l
    induction l with
    | nil => exact fun e => .refl e.1
    | cons n l ih =>
      intro e
      rw [List.foldl_cons]
      refine Homeward.trans ?_ (ih _)
      exact (homeward_writeLine e.1 _ 0 false .sys none _ _ 1 0).mono fun _ _ => trivial
  exact hpieces _ (s, 0)

/-- A staged version becomes its line's data (R119): a whole write of that line. -/
theorem homeward_promote (s : State) (line : Nat) (v : VerEnt) (tag : Tag) : Homeward (· = line) s (s.promote line v tag) := by
  have hcount : ∀ t : State, Homeward (· = line) t (if (t.sliceLine line).isSome then t else t.count line false) := fun t =>
    .ite (fun _ => .refl t) fun _ => .of_copies (t.copies_count line false) (t.beyond_count line false)
  unfold promote
  refine Homeward.trans ?_ (.of_copies (copies_setHomeTag _ _ _ _) (beyond_setHomeTag _ _ _ _))
  refine Homeward.trans ?_ ((homeward_homeWrite _ line _ _ true).mono fun l hl => hl.2)
  exact ((s.homeward_mergeResv line _).trans (hcount _)).trans (.edit rfl rfl rfl rfl rfl)

end State

end Sys2Proof.Machine
end

section
/-!
PROOFS. Upkeep of the directory, and what a redirected core and a drain do (R74, R83, R93, R100, R167).
-/

namespace Sys2Proof.Machine

namespace State
variable {s t : State} {id k core line base log : Nat} {f : Flight} {a b : DirEnt}

/-! A redirected core (R74). -/

theorem domainIn_lt (doms : Nat → Domain) (line : Nat) : domainIn doms line < 4 := by
  rw [domainIn]
  cases h : [1, 2, 3].find? fun n => (doms n).en && decide ((doms n).base ≤ line / 512) && decide (line / 512 ≤ (doms n).limit) with
  | none => decide
  | some n =>
    have hmem : n ∈ [1, 2, 3] := List.mem_of_find?_eq_some h
    exact (by decide : ∀ n ∈ [1, 2, 3], n < 4) n hmem

/-- Registers that agree put a line in the same domain (R71). -/
theorem domainIn_congr {doms doms' : Nat → Domain} (h : ∀ n < 4, doms n = doms' n) (line : Nat) : domainIn doms line = domainIn doms' line := by
  simp only [domainIn, List.find?_cons, List.find?_nil, h 1 (by decide), h 2 (by decide), h 3 (by decide)]

/-- Where a core's copies of the domain registers are those of its die, it reaches the slices of its die's lines. -/
theorem redirected_eq_false (h : ∀ n < 4, s.coreDomain core n = s.domain (dieOf core) n) (line : Nat) : s.redirected core line = false := by
  rw [redirected]
  by_cases hdie : dieOf core = homeDie line
  · rw [hdie] at h
    have hslice : s.coreSlice core line = s.sliceOf line := by
      rw [coreSlice, sliceOf, domainOf, domainIn_congr h, h _ (domainIn_lt _ _)]
    rw [hslice, bne_self_eq_false, Bool.and_false]
  · rw [beq_eq_false_iff_ne.mpr hdie, Bool.false_and, Bool.false_and]

/-- A die's domain registers, as a core takes them. -/
def domsOf (s : State) (die : Nat) : Tab Domain := (List.range 4).map fun n => (n, s.domain die n)

theorem get_domsOf (s : State) (die : Nat) (d : Domain) : ∀ n < 4, (s.domsOf die).get n d = s.domain die n
  | 0, _ => rfl
  | 1, _ => rfl
  | 2, _ => rfl
  | 3, _ => rfl

theorem redirect_spec (h : s.flights.get? id = some f) (k line : Nat) : ∃ t, exec (.redirect id k) s = .next t
    ∧ t = { s with cores := t.cores, agenda := s.agenda ++ [.tlbMissWalk id k], out := .done }
    ∧ (∀ n < 4, t.coreDomain f.core n = s.domain f.die n) ∧ t.redirected f.core line = false := by
  have hexec : exec (.redirect id k) s = .next ((s.modCore f.core fun c => { c with doms := s.domsOf f.die }).requeue id k).done := by
    change execRedirect id k s = _
    rw [execRedirect, h]
    rfl
  have hdoms : ∀ n < 4, ((s.modCore f.core fun c => { c with doms := s.domsOf f.die }).requeue id k).done.coreDomain f.core n
      = s.domain f.die n := fun n hn => by
    have hcore := s.core_modCore f.core fun c => { c with doms := s.domsOf f.die }
    exact (congrArg (fun c : Core => c.doms.get n (resetDomain n)) hcore).trans (s.get_domsOf f.die _ n hn)
  exact ⟨_, hexec, rfl, hdoms, redirected_eq_false hdoms line⟩

/-! A drain (R167). -/

theorem drainRequest_spec (h : s.flights.get? id = some f)
    (hstores : ∀ e ∈ s.flights, e.2.core = core → e.2.paths &&& 4 ≠ 0 → e.1 < f.result → e.1 = id)
    (hlease : (s.core core).leasemax < s.nowCore core) :
    exec (.drainRequest core id) s = .next (s.putFlight id { f with drains := f.drains - 1 }).done := by
  have hbusy : (s.flights.any fun e => e.2.core == core && e.2.paths &&& 4 != 0 && decide (e.1 < f.result) && e.1 != id) = false := by
    refine List.any_eq_false.mpr fun e he => ?_
    simp only [Bool.and_eq_true, beq_iff_eq, bne_iff_ne, decide_eq_true_eq, not_and, not_not, and_imp]
    exact hstores e he
  change execDrainRequest core id s = _
  simp only [execDrainRequest, h, hbusy, Bool.false_or, decide_eq_true_eq, if_neg (Nat.not_le.mpr hlease), modFlight_of_get? h]

/-! Entries that merge, and leases that end (R83, R93). -/

/-- States that are equal agree. -/
theorem mergeStates_self (st : DirState) : ∃ st', mergeStates st st = some st' := by
  cases st <;> simp [mergeStates]

theorem directoryMerge_spec (ha : s.dir.find? (fun e => e.base == base && e.log == log) = some a)
    (hb : s.dir.find? (fun e => e.base == base + 2 ^ log && e.log == log) = some b) (hbase : base % 2 ^ (log + 1) = 0) (hlog : log < 9)
    (hta : a.touched + 64000 ≤ s.now (homeDie base)) (htb : b.touched + 64000 ≤ s.now (homeDie base)) (hpart : a.part = b.part)
    (hst : a.st = b.st) :
    ∃ t e, exec (.directoryMerge base log) s = .next t ∧ t = { s with dir := t.dir, out := .done }
      ∧ t.dir.head? = some e ∧ e.base = base ∧ e.log = log + 1 ∧ e.part = a.part ∧ e.lend = max a.lend b.lend
      ∧ (∀ d, d ∈ e.dies ↔ d ∈ a.dies ∨ d ∈ b.dies) ∧ ∀ z ∈ t.dir.tail, z ≠ a ∧ z ≠ b := by
  obtain ⟨st, hmerge⟩ := mergeStates_self b.st
  have hexec : ∃ e rest, exec (.directoryMerge base log) s = .next ({ s with dir := e :: rest } : State).done
      ∧ rest = s.dir.filter (fun x => !(x == a || x == b)) ∧ e.base = base ∧ e.log = log + 1 ∧ e.part = a.part ∧ e.lend = max a.lend b.lend
      ∧ e.dies = (a.dies ++ b.dies).dedup := by
    change ∃ e rest, execDirectoryMerge base log s = _ ∧ _
    simp only [execDirectoryMerge, ha, hb, hst, hmerge]
    rw [if_neg (by simp [hbase, hpart]; omega)]
    exact ⟨_, _, rfl, rfl, rfl, rfl, by rw [← hpart, ite_self], rfl, rfl⟩
  obtain ⟨e, rest, hexec, hrest, hb, hl, hp, hlend, hdies⟩ := hexec
  refine ⟨_, e, hexec, rfl, rfl, hb, hl, hp, hlend, fun d => ?_, fun z hz => ?_⟩
  · rw [hdies, List.mem_dedup, List.mem_append]
  · change z ∈ rest at hz
    rw [hrest] at hz
    have hother := (List.mem_filter.mp hz).2
    simpa using hother

theorem leaseEndClear_spec (s : State) (base log : Nat) :
    ∃ t, exec (.leaseEndClear base log) s = .next t ∧ t = { s with dir := t.dir, out := .done }
      ∧ ∀ e ∈ t.dir, e.base = base → e.log = log → e.lend + 2 < s.now (homeDie base) → e.dies = [] := by
  refine ⟨_, rfl, rfl, fun e he hbase hlog hlend => ?_⟩
  obtain ⟨e', -, rfl⟩ := List.mem_map.mp he
  split
  next => rfl
  next hkept =>
    rw [if_neg hkept] at hbase hlog hlend
    exact absurd (by simp [hbase, hlog, hlend]) hkept

/-! Messages of a past incarnation (R100). -/

/-- The incarnation that an agent of a kind has. -/
def incNow (s : State) (kind agent line : Nat) : Nat :=
  if kind = 0 then (s.core agent).inc else if kind = 1 then (s.slc (homeDie line) agent).inc else (s.die (homeDie line)).incs.get agent 0

theorem execStaleMessageDiscard_eq (s : State) (kind agent inc line : Nat) : exec (.staleMessageDiscard kind agent inc line) s = .next (
    if inc == s.incNow kind agent line then s.done
    else (({ s with wbs := s.wbs.filter fun w => !((if w.die then 2 else 0) == kind && w.agent == agent && w.inc == inc && w.line == line) } :
      State).log "STALEMSG" [kind, agent, inc, line]).done) := by
  match kind with
  | 0 => rfl
  | 1 => rfl
  | kind + 2 => rfl

theorem staleMessageDiscard_spec (s : State) (kind agent inc line : Nat) :
    (inc = s.incNow kind agent line → exec (.staleMessageDiscard kind agent inc line) s = .next { s with out := .done })
    ∧ (inc ≠ s.incNow kind agent line → ∃ t, exec (.staleMessageDiscard kind agent inc line) s = .next t
      ∧ t = { s with ras := s.ras ++ [⟨"STALEMSG", [kind, agent, inc, line]⟩], wbs := t.wbs, out := .done }
      ∧ ∀ w ∈ t.wbs, w ∈ s.wbs ∧ ¬ (w.agent = agent ∧ w.inc = inc ∧ w.line = line ∧ kind = if w.die then 2 else 0)) := by
  rw [execStaleMessageDiscard_eq]
  refine ⟨fun h => ?_, fun h => ?_⟩
  · rw [if_pos (beq_iff_eq.mpr h)]
    rfl
  · rw [if_neg (mt beq_iff_eq.mp h)]
    refine ⟨_, rfl, rfl, fun w hw => ?_⟩
    obtain ⟨hmem, hother⟩ := List.mem_filter.mp hw
    refine ⟨hmem, ?_⟩
    rintro ⟨rfl, rfl, rfl, rfl⟩
    simp at hother

end State

end Sys2Proof.Machine
end

section
/-!
PROOFS. The scrub of a dead core, slice or die (R101, R102, R133), and O27.
-/

namespace Sys2Proof.Machine

namespace State
variable {s t : State} {die core : Nat}

theorem homedOn_iff {l : Nat} : homedOn die l = true ↔ isMemory l = true ∧ homeDie l = die := by
  rw [homedOn, Bool.and_eq_true, beq_iff_eq]

/-! Lines that are poisoned (R103). -/

theorem setPoison_eq (s : State) (l : Nat) : ∃ p, s.setPoison l = { s with poison := p } ∧ l ∈ p ∧ ∀ m ∈ s.poison, m ∈ p := by
  unfold setPoison
  split
  next h => exact ⟨s.poison, rfl, List.contains_iff_mem.mp h, fun _ hm => hm⟩
  next => exact ⟨l :: s.poison, rfl, List.mem_cons_self, fun _ hm => List.mem_cons_of_mem l hm⟩

/-- Poisoning lines adds their marks and changes nothing else. -/
theorem poisonAll_eq (s : State) (ls : List Nat) :
    ∃ p, s.poisonAll ls = { s with poison := p } ∧ (∀ l ∈ ls, l ∈ p) ∧ ∀ m ∈ s.poison, m ∈ p := by
  induction ls generalizing s with
  | nil => exact ⟨s.poison, rfl, fun _ hl => absurd hl List.not_mem_nil, fun _ hm => hm⟩
  | cons l ls ih =>
    obtain ⟨p, hp, hl, hkept⟩ := s.setPoison_eq l
    obtain ⟨p', hp', hls, hkept'⟩ := ih (s.setPoison l)
    refine ⟨p', by rw [poisonAll, List.foldl_cons]; exact hp'.trans (by rw [hp]), fun m hm => ?_, fun m hm => ?_⟩
    · rcases List.mem_cons.mp hm with rfl | hm
      · exact hkept' _ (by rw [hp]; exact hl)
      · exact hls m hm
    · exact hkept' _ (by rw [hp]; exact hkept m hm)

/-! A dead core (R102, R133). -/

theorem homeward_brecs (s : State) (l : List BRec) : Homeward (fun _ => True) s { s with brecs := l } := .edit rfl rfl rfl rfl rfl
theorem homeward_push (s : State) (is : List Instr) : Homeward (fun _ => True) s (s.push is) := .edit rfl rfl rfl rfl rfl

/-- An open bundle of a dead core aborts. -/
def abortRec (s : State) (r : BRec) : State :=
  if r.lines = [] then s.freeRec r.die r.idx
  else ((s.modBrec r.die r.idx fun x => { x with st := 4, outstanding := x.lines.length, closer := none }).writeRec r.die r.idx).push
    (r.lines.map (.discardNotice r.die r.idx ·))

theorem homeward_writeRec (s : State) (die idx : Nat) : Homeward (fun _ => True) s (s.writeRec die idx) := by
  unfold writeRec
  split
  · exact .refl s
  · exact s.homeward_physWrite _ _

theorem homeward_abortRec (s : State) (r : BRec) : Homeward (fun _ => True) s (s.abortRec r) := by
  unfold abortRec
  split
  · exact (s.homeward_brecs _).trans (homeward_writeRec _ r.die r.idx)
  · exact ((s.homeward_brecs _).trans (homeward_writeRec _ r.die r.idx)).trans (homeward_push _ _)

/-- The scrub of a dead core: its copies of the die's lines go, those that only it held are poisoned, and its open
bundles abort. -/
theorem scrubCore_eq (s : State) (die core : Nat) : ∃ (w : State) (dead : List BRec), s.scrubCore die core = dead.foldl abortRec w
    ∧ Homeward (fun _ => True) s w
    ∧ (∀ x ∈ w.l1, x.core = core → homedOn die x.line = false)
    ∧ (∀ x ∈ s.l1, x.core = core → homedOn die x.line = true → x.st = .m → x.line ∈ w.poison)
    ∧ ∀ r ∈ dead, r ∈ s.brecs ∧ r.core = core := by
  obtain ⟨p, hp, hlost, -⟩ := s.poisonAll_eq
    (((s.l1.filter fun x => x.core == core && homedOn die x.line && x.st != .s && x.st != .e).map (·.line)) ++ s.wbLines die false core)
  unfold scrubCore
  dsimp only
  rw [hp]
  refine ⟨_, _, rfl, ⟨fun _ hx => List.mem_of_mem_filter hx, fun _ hx => hx, fun _ _ hn => absurd trivial hn, rfl, rfl⟩, fun x hx hcore => ?_,
    fun x hx hcore hmine hst => hlost _ (List.mem_append_left _ (List.mem_map_of_mem (List.mem_filter.mpr ⟨hx, ?_⟩))), fun r hr => ?_⟩
  · have hkept := (List.mem_filter.mp hx).2
    simpa [hcore] using hkept
  · rw [hcore, beq_self_eq_true, hmine, hst]
    rfl
  · obtain ⟨hmem, hrec⟩ := List.mem_filter.mp hr
    simp only [Bool.and_eq_true, beq_iff_eq] at hrec
    obtain ⟨⟨-, hcore⟩, -⟩ := hrec
    exact ⟨hmem, hcore⟩

theorem scrubCore_spec (s : State) (die core : Nat) : Homeward (fun _ => True) s (s.scrubCore die core)
    ∧ (∀ x ∈ (s.scrubCore die core).l1, x.core = core → homedOn die x.line = false)
    ∧ ∀ x ∈ s.l1, x.core = core → homedOn die x.line = true → x.st = .m → (∀ r ∈ s.brecs, r.core ≠ core) →
      x.line ∈ (s.scrubCore die core).poison := by
  obtain ⟨w, dead, heq, hhome, hgone, hlost, hdead⟩ := s.scrubCore_eq die core
  have haborts : Homeward (fun _ => True) w (dead.foldl abortRec w) := .foldl dead (fun s r _ => s.homeward_abortRec r) w
  rw [heq]
  refine ⟨hhome.trans haborts, fun x hx => hgone x (haborts.l1 hx), fun x hx hcore hmine hst hnone => ?_⟩
  have hempty : dead = [] := List.eq_nil_iff_forall_not_mem.mpr fun r hr => hnone r (hdead r hr).1 (hdead r hr).2
  rw [hempty]
  exact hlost x hx hcore hmine hst

/-! A dead slice (R101, R102). -/

theorem foldl_dir {α : Type} {f : State → α → State} (hf : ∀ s a, ∃ d, f s a = { s with dir := d }) (l : List α) (s : State) :
    ∃ d, l.foldl f s = { s with dir := d } := by
  induction l generalizing s with
  | nil => exact ⟨s.dir, rfl⟩
  | cons a l ih =>
    obtain ⟨d, hd⟩ := hf s a
    obtain ⟨d', hd'⟩ := ih (f s a)
    exact ⟨d', by rw [List.foldl_cons, hd', hd]⟩

/-- The scrub of a dead slice: its lines go, and the dirty ones are poisoned. -/
theorem scrubSlice_spec (s : State) (die sc : Nat) : ∃ t, s.scrubSlice die sc = t ∧ t.mem = s.mem ∧ t.dies = s.dies ∧ t.beyond = s.beyond
    ∧ (∀ x ∈ t.slices, x.die = die → x.slice ≠ sc) ∧ ∀ x ∈ s.slices, x.die = die → x.slice = sc → x.dirty = true → x.line ∈ t.poison := by
  have hforget : ∀ (cs : List L1Line) (ds : List RdcLine) (b : State), ∃ d,
      ds.foldl (fun s x => s.dieForgets x.die x.line) (cs.foldl (fun s x => s.coreForgets x.core x.line) b) = { b with dir := d } := by
    intro cs ds b
    obtain ⟨d, hd⟩ := foldl_dir (fun s x => s.coreForgets_eq x.core x.line) cs b
    obtain ⟨d', hd'⟩ := foldl_dir (fun s x => s.dieForgets_eq x.die x.line) ds { b with dir := d }
    exact ⟨d', by rw [hd, hd']⟩
  unfold scrubSlice
  dsimp only
  generalize hls : (_ ++ _ : List Nat) = lost
  obtain ⟨p, hp, hlost, -⟩ := s.poisonAll_eq lost
  rw [hp]
  refine ⟨_, (hforget _ _ _).choose_spec, rfl, rfl, rfl, fun x hx hdie hslice => ?_, fun x hx hdie hslice hdirty => hlost _ ?_⟩
  · have hkept := (List.mem_filter.mp hx).2
    simp [hdie, hslice] at hkept
  · rw [← hls]
    refine List.mem_append_left _ (List.mem_append_left _ (List.mem_append_left _ (List.mem_append_left _ (List.mem_map_of_mem ?_))))
    exact List.mem_filter.mpr ⟨hx, by simp [hdie, hslice, hdirty]⟩

/-! A dead die (R102, R133). -/

/-- A staged version that a dead die's record names is promoted if its notice has arrived, else discarded. -/
def settleVersion (s : State) (v : VerEnt) : State :=
  if v.notice.isSome then (s.collectForWrite v.line (s.partOf v.line)).promote v.line v {}
  else { s with vers := s.vers.filter (· != v) }

theorem homeward_settleVersion (s : State) (v : VerEnt) : Homeward (· = v.line) s (s.settleVersion v) := by
  unfold settleVersion
  split
  · exact (s.homeward_collectForWrite v.line _).trans (homeward_promote _ v.line v {})
  · exact .edit rfl rfl rfl rfl rfl

/-- The scrub of a dead die: the copies it holds of the die's lines go, its partials are poisoned, and then the staged
versions it would have settled are settled. -/
theorem scrubDie_eq (s : State) (die dead : Nat) : ∃ (w : State) (vs : List VerEnt), s.scrubDie die dead = vs.foldl settleVersion w
    ∧ Homeward (fun _ => False) s w
    ∧ (∀ x ∈ w.rdc, x.die = dead → homedOn die x.line = false)
    ∧ (∀ x ∈ s.rdc, x.die = dead → homedOn die x.line = true → x.op ≠ none → x.line ∈ w.poison)
    ∧ ∀ v ∈ vs, v ∈ s.vers := by
  obtain ⟨p, hp, hlost, hkept⟩ := s.poisonAll_eq
    (((s.rdc.filter fun x => x.die == dead && homedOn die x.line && x.op != none).map (·.line)) ++ s.wbLines die true dead)
  unfold scrubDie
  dsimp only
  rw [hp]
  refine ⟨_, _, rfl, ⟨fun _ hx => List.mem_of_mem_filter hx, fun _ hx => List.mem_of_mem_filter hx, fun l hl _ => hkept l hl, rfl, rfl⟩,
    fun x hx hdie => ?_,
    fun x hx hdie hmine hop => hlost _ (List.mem_append_left _ (List.mem_map_of_mem (List.mem_filter.mpr ⟨hx, ?_⟩))),
    fun v hv => List.mem_of_mem_filter hv⟩
  · have hkept := (List.mem_filter.mp hx).2
    simpa [hdie] using hkept
  · rw [hdie, beq_self_eq_true, hmine, bne_iff_ne.mpr hop]
    rfl

theorem scrubDie_spec (s : State) (die dead : Nat) : Homeward (fun l => ∃ v ∈ s.vers, v.line = l) s (s.scrubDie die dead)
    ∧ (∀ x ∈ (s.scrubDie die dead).rdc, x.die = dead → homedOn die x.line = false)
    ∧ ∀ x ∈ s.rdc, x.die = dead → homedOn die x.line = true → x.op ≠ none → (∀ v ∈ s.vers, v.line ≠ x.line) →
      x.line ∈ (s.scrubDie die dead).poison := by
  obtain ⟨w, vs, heq, hhome, hgone, hlost, hvs⟩ := s.scrubDie_eq die dead
  have hsettles : Homeward (fun l => ∃ v ∈ s.vers, v.line = l) w (vs.foldl settleVersion w) :=
    .foldl vs (fun s v hv => (s.homeward_settleVersion v).mono fun l hl => ⟨v, hvs v hv, hl.symm⟩) w
  rw [heq]
  refine ⟨(hhome.mono fun _ h => h.elim).trans hsettles, fun x hx => hgone x (hsettles.rdc hx), fun x hx hdie hmine hop hnone => ?_⟩
  exact hsettles.poison _ (hlost x hx hdie hmine hop) fun ⟨v, hv, hline⟩ => hnone v hv hline

/-! A scrub that completes (R102). -/

/-- The scrub of the agent that a die names, before the die's registers say that it is over. -/
def scrubbed (s : State) (die : Nat) (unread : Bool) : State :=
  let s' := if (s.die die).scrubKind = 1 then { s with drawn := s.drawn + 1 } else s
  if unread then s'
  else match (s.die die).scrubKind with
    | 0 => s'.scrubCore die (32 * die + (s.die die).scrubAgent)
    | 1 => s'.scrubSlice die (s.die die).scrubAgent
    | _ => s'.scrubDie die (s.die die).scrubAgent

/-- The die's registers once a scrub is over (R101, R102). -/
def scrubOver (unread : Bool) (d : Die) : Die :=
  { d with deadBusy := false, deadFail := if d.scrubKind = 1 then unread else d.deadFail }

theorem scrubComplete_eq (h : (s.die die).deadBusy = true) : ∃ unread, (unread = true → (s.die die).scrubKind = 1)
    ∧ exec (.scrubComplete die) s = .next ((s.scrubbed die unread).modDie die (scrubOver unread)).done := by
  refine ⟨decide ((s.die die).scrubKind = 1) && decide ((Config.freeByte s.drawn).toNat % 2 = 1), fun hunread => ?_, ?_⟩
  · exact of_decide_eq_true (Bool.and_eq_true_iff.mp hunread).1
  · change execScrubComplete die s = _
    simp only [execScrubComplete, h, Bool.not_true, Bool.false_eq_true, if_false]
    rfl

variable {unread : Bool}

theorem scrubbed_core (hkind : (s.die die).scrubKind = 0) (hread : unread = true → (s.die die).scrubKind = 1) :
    s.scrubbed die unread = s.scrubCore die (32 * die + (s.die die).scrubAgent) := by
  have hfalse : unread = false := Bool.eq_false_iff.mpr fun h => absurd ((hread h).symm.trans hkind) (by decide)
  simp only [scrubbed, hkind, hfalse, Nat.zero_ne_one, Bool.false_eq_true, if_false]

theorem scrubbed_slice (hkind : (s.die die).scrubKind = 1) : s.scrubbed die unread
    = if unread then { s with drawn := s.drawn + 1 } else ({ s with drawn := s.drawn + 1 } : State).scrubSlice die (s.die die).scrubAgent := by
  simp only [scrubbed, hkind, if_true]

theorem scrubbed_die (hkind : 2 ≤ (s.die die).scrubKind) (hread : unread = true → (s.die die).scrubKind = 1) :
    s.scrubbed die unread = s.scrubDie die (s.die die).scrubAgent := by
  have hone : (s.die die).scrubKind ≠ 1 := by omega
  have hfalse : unread = false := Bool.eq_false_iff.mpr fun h => hone (hread h)
  simp only [scrubbed, hone, hfalse, Bool.false_eq_true, if_false]
  split
  next h => omega
  next h => omega
  next => rfl

/-- A scrub leaves the dies' registers, and what is beyond the memory system. -/
theorem scrubbed_kept (hread : unread = true → (s.die die).scrubKind = 1) :
    (s.scrubbed die unread).copies.regs = s.copies.regs ∧ (s.scrubbed die unread).beyond = s.beyond := by
  rcases Nat.lt_trichotomy (s.die die).scrubKind 1 with hkind | hkind | hkind
  · obtain ⟨hhome, -⟩ := s.scrubCore_spec die (32 * die + (s.die die).scrubAgent)
    rw [scrubbed_core (Nat.lt_one_iff.mp hkind) hread]
    exact ⟨hhome.regs, hhome.beyond⟩
  · rw [scrubbed_slice hkind]
    split
    · exact ⟨rfl, rfl⟩
    · obtain ⟨t, rfl, -, hdies, hbeyond, -⟩ := scrubSlice_spec { s with drawn := s.drawn + 1 } die (s.die die).scrubAgent
      exact ⟨funext fun d => congrArg (fun dies : Tab Die => (dies.get d {}).regs) hdies, hbeyond⟩
  · obtain ⟨hhome, -⟩ := s.scrubDie_spec die (s.die die).scrubAgent
    rw [scrubbed_die hkind hread]
    exact ⟨hhome.regs, hhome.beyond⟩

/-- The die's registers after a scrub: DEAD is no longer busy, and FAIL says whether a slice's directory was read. -/
theorem scrubOver_spec (hread : unread = true → (s.die die).scrubKind = 1) :
    let t := ((s.scrubbed die unread).modDie die (scrubOver unread)).done
    (t.die die).deadBusy = false ∧ (t.die die).deadFail = (if (s.die die).scrubKind = 1 then unread else (s.die die).deadFail)
      ∧ t.warps = s.warps := by
  obtain ⟨hregs, hbeyond⟩ := scrubbed_kept hread
  have hkind : ((s.scrubbed die unread).die die).scrubKind = (s.die die).scrubKind := (congrArg Die.scrubKind (regs_congr hregs die) :)
  have hfail : ((s.scrubbed die unread).die die).deadFail = (s.die die).deadFail := (congrArg Die.deadFail (regs_congr hregs die) :)
  have hdie := (s.scrubbed die unread).die_modDie die (scrubOver unread)
  refine ⟨(congrArg Die.deadBusy hdie :), ?_, (congrArg Beyond.warps hbeyond :)⟩
  rw [← hkind, ← hfail]
  exact (congrArg Die.deadFail hdie :)

theorem scrubComplete_spec (h : (s.die die).deadBusy = true) :
    let n := (s.die die).scrubAgent
    let kind := (s.die die).scrubKind
    ∃ t, exec (.scrubComplete die) s = .next t ∧ t.out = .done ∧ t.warps = s.warps ∧ (t.die die).deadBusy = false
      ∧ (kind ≠ 1 → (t.die die).deadFail = (s.die die).deadFail)
      ∧ (kind = 0 → (∀ x ∈ t.l1, x.core = 32 * die + n → isMemory x.line = true → homeDie x.line ≠ die)
        ∧ ∀ x ∈ s.l1, x.core = 32 * die + n → isMemory x.line = true → homeDie x.line = die → x.st = .m →
          (∀ r ∈ s.brecs, r.core ≠ 32 * die + n) → x.line ∈ t.poison)
      ∧ (kind = 1 → s.sameBytes t ∧ ((t.die die).deadFail = true → t.slices = s.slices ∧ t.dir = s.dir ∧ t.l1 = s.l1 ∧ t.poison = s.poison)
        ∧ ((t.die die).deadFail = false → (∀ x ∈ t.slices, x.die = die → x.slice ≠ n)
          ∧ ∀ x ∈ s.slices, x.die = die → x.slice = n → x.dirty = true → x.line ∈ t.poison))
      ∧ (2 ≤ kind → (∀ x ∈ t.rdc, x.die = n → isMemory x.line = true → homeDie x.line ≠ die)
        ∧ ∀ x ∈ s.rdc, x.die = n → isMemory x.line = true → homeDie x.line = die → x.op ≠ none → (∀ v ∈ s.vers, v.line ≠ x.line) →
          x.line ∈ t.poison) := by
  obtain ⟨unread, hread, hexec⟩ := scrubComplete_eq h
  obtain ⟨hbusy, hfail, hwarps⟩ := scrubOver_spec hread
  refine ⟨_, hexec, rfl, hwarps, hbusy, fun hkind => hfail.trans (if_neg hkind), fun hkind => ?_, fun hkind => ?_, fun hkind => ?_⟩
  · rw [scrubbed_core hkind hread]
    obtain ⟨-, hgone, hlost⟩ := s.scrubCore_spec die (32 * die + (s.die die).scrubAgent)
    refine ⟨fun x hx hcore hmem hhome => ?_, fun x hx hcore hmem hhome => hlost x hx hcore (homedOn_iff.mpr ⟨hmem, hhome⟩)⟩
    exact Bool.eq_false_iff.mp (hgone x hx hcore) (homedOn_iff.mpr ⟨hmem, hhome⟩)
  · rw [hfail, if_pos hkind, scrubbed_slice hkind]
    cases unread with
    | true => exact ⟨⟨fun _ => rfl, fun _ _ => rfl⟩, fun _ => ⟨rfl, rfl, rfl, rfl⟩, fun hfalse => Bool.noConfusion hfalse⟩
    | false =>
      obtain ⟨t, ht, hmem, -, hbeyond, hgone, hlost⟩ := scrubSlice_spec { s with drawn := s.drawn + 1 } die (s.die die).scrubAgent
      rw [if_neg Bool.false_ne_true, ht]
      exact ⟨sameBytes_of_beyond hmem hbeyond, fun htrue => Bool.noConfusion htrue, fun _ => ⟨hgone, hlost⟩⟩
  · rw [scrubbed_die hkind hread]
    obtain ⟨-, hgone, hlost⟩ := s.scrubDie_spec die (s.die die).scrubAgent
    refine ⟨fun x hx hdie hmem hhome => ?_, fun x hx hdie hmem hhome => hlost x hx hdie (homedOn_iff.mpr ⟨hmem, hhome⟩)⟩
    exact Bool.eq_false_iff.mp (hgone x hx hdie) (homedOn_iff.mpr ⟨hmem, hhome⟩)

end State

/-- Settles O27: the upkeep of the directory event by event, and the scrub by the kind of agent it is for. -/
theorem directoryAndScrub : Obligations.DirectoryAndScrub := by
  unfold Obligations.DirectoryAndScrub
  refine ⟨fun s id k core base log kind agent inc line f a b => ⟨fun hf => State.redirect_spec hf k line, fun hf hstores hlease => ?_,
    State.directoryMerge_spec, s.leaseEndClear_spec base log, s.staleMessageDiscard_spec kind agent inc line⟩,
    fun s die hbusy => State.scrubComplete_spec hbusy⟩
  exact ⟨_, _, State.drainRequest_spec hf hstores hlease, rfl, s.get?_putFlight id _, rfl⟩

end Sys2Proof.Machine
end

section
/-!
PROOFS. Lane-wise words with no lane to execute (R106, R126, R131, R149, R150, R154, R158, R234, R247, R284).
-/

namespace Sys2Proof

/-- The lane-wise words are words of a pipe. -/
theorem Instr.pipe_of_byLane {i : Instr} (h : i.byLane = true) : i.pipe.isSome = true := by
  delta Instr.byLane Instr.isVector at h
  cases i
  all_goals simp only [Bool.or_self, Bool.false_eq_true] at h
  all_goals rfl

namespace Machine

/-- Settles O2: past its decode checks a lane-wise word comes down to its lanes, and there are none. -/
theorem emptyMask : Obligations.EmptyMask := by
  unfold Obligations.EmptyMask
  intro s i hlane hpermitted hempty
  obtain ⟨k, hexec⟩ := exec_eq_issue (Instr.pipe_of_byLane hlane) s
  rw [hexec, hlane, cond_true, s.issueVec_empty hpermitted hempty, State.done]

end Machine

end Sys2Proof
end

section
/-!
PROOFS. LDLV and CMST at the home of their line (R105, R106, R108).
-/

namespace Sys2Proof.Machine

/-- A word that only reads leaves in its pieces what stands at their places of the line (R149). -/
theorem Flight.accs_apply_of_reads {f : Flight} (h : ∀ e a, f.applyAcc a e = (e, { a with val := leNat (slice e (a.va % 128) a.size) }))
    (k : Nat) (d : List Byte) : (f.apply k d).2.accs = State.loaded f k d := by
  have hfold := Flight.foldl_accs (g := fun d a => f.applyAcc a d) (fun a => decide (a.req = k) && a.bad.isNone)
    (fun d a => by rw [h]) d f.accs []
  have haccs : (f.apply k d).2.accs = (d, [] ++ f.accs.map fun a => if decide (a.req = k) && a.bad.isNone then (f.applyAcc a d).2 else a).2 :=
    congrArg Prod.snd hfold
  rw [haccs, State.loaded]
  simp only [List.nil_append, h, Bool.and_eq_true, decide_eq_true_eq, Option.isNone_iff_eq_none]

/-- An address is in memory where its line is (R45): the ranges of the map hold whole lines. -/
theorem placeOf_of_isMemory {pa : Nat} (h : isMemory (pa / 128) = true) : ∃ d, placeOf pa = .memory d := by
  have hline : 128 * (pa / 128) ≤ pa ∧ pa < 128 * (pa / 128) + 128 := by omega
  rw [isMemory] at h
  unfold placeOf at h ⊢
  by_cases hhbm : pa < hbmTop
  · exact ⟨_, if_pos hhbm⟩
  · by_cases hlp : lpddrBase ≤ pa ∧ pa < lpddrTop
    · rw [if_neg hhbm, if_pos (by simpa using hlp)]
      exact ⟨_, rfl⟩
    · have hhbm' : ¬ 128 * (pa / 128) < hbmTop := by unfold hbmTop at *; omega
      have hlp' : ¬ (decide (lpddrBase ≤ 128 * (pa / 128)) && decide (128 * (pa / 128) < lpddrTop)) = true := by
        rw [Bool.and_eq_true, decide_eq_true_iff, decide_eq_true_iff]
        unfold lpddrBase lpddrTop at *
        omega
      rw [if_neg hhbm', if_neg hlp'] at h
      split at h
      next hd =>
        split at hd
        · exact Place.noConfusion hd
        · split at hd <;> exact Place.noConfusion hd
      next => exact absurd h Bool.false_ne_true

namespace State
variable {s t u : State} {line id k : Nat} {x y : SliceLine} {f : Flight} {l : Leaf}

/-! A request that is let in finds the line's version (R105). -/

theorem tokenOf_homeEnter (hx : s.sliceLine line = some x) {ns : Bool} (hns : x.ns = ns) (part p : Nat) (shared : Bool) :
    (s.homeEnter line part ns shared).tokenOf line p = s.tokenOf line p := by
  have hworld : ¬ (x.ns && !ns) = true := by rw [hns, Bool.and_not_self]; exact Bool.false_ne_true
  rw [homeEnter, hx]
  dsimp only
  rw [if_neg hworld]
  split
  · rfl
  · have hedit := sliceLine_map (g := fun x => { x with part := part }) (fun _ => rfl) hx
    exact (tokenOf_of_sliceLine hedit p :).trans (tokenOf_of_sliceLine hx p).symm

theorem tokenOf_closeTxn (s : State) (r : Req) (line p : Nat) : (s.closeTxn r line).tokenOf line p = s.tokenOf line p := by
  unfold closeTxn
  split <;> rfl

/-- The state once a request at its home's door has been let in, its transaction over. -/
def letIn (s : State) (k : Nat) (f : Flight) (l : Leaf) (line : Nat) : State :=
  (s.homeEnter line f.part l.ns l.shared).closeTxn (f.req k) line

theorem letIn_spec (h : s.atDoor id k f l line) :
    LetIn line s (s.letIn k f l line) ∧ LetIn line s (s.homeEnter line f.part l.ns l.shared)
      ∧ (s.letIn k f l line).tokenOf line f.part = s.tokenOf line f.part
      ∧ ∃ x y, s.Serves id f line x ∧ (s.letIn k f l line).Serves id f line y ∧ y.data = x.data ∧ y.tag = x.tag := by
  obtain ⟨x, hserves, hns⟩ := atDoor.serves h
  have henter : LetIn line s (s.homeEnter line f.part l.ns l.shared) := .enter hserves.slice hns f.part l.shared
  have hin : LetIn line s (s.letIn k f l line) := henter.trans (.close _ _ _)
  obtain ⟨y, hserves', hdata, htag, -⟩ := hserves.letIn hin
  refine ⟨hin, henter, ?_, x, y, hserves, hserves', hdata, htag⟩
  rw [letIn, tokenOf_closeTxn, tokenOf_homeEnter hserves.slice hns]

/-- Where the directory has gained nothing, a set has the room it had (R68). -/
theorem HomeStep.spare (h : HomeStep 0 s t) {n : Nat} (hspare : s.dirSpare line n) : t.dirSpare line n := by
  have hset := h.dir fun b => s.dirSet b == s.dirSet line
  rw [List.countP_eq_length_filter, List.countP_eq_length_filter] at hset
  simp only [dirSpare, dirSet_congr h.regs] at hspare ⊢
  exact (Nat.add_le_add_right hset n).trans hspare

/-- A request at its home's door that needs nothing from others is performed once it has been let in (R81). -/
theorem atHome_letIn (h : s.atDoor id k f l line) (ev : Instr) {msgs : State → Flight → Leaf → Nat → List Instr}
    {perform : State → Flight → Leaf → Nat → State}
    (hmsgs : l.shared = false → msgs (s.homeEnter line f.part l.ns l.shared) f l line = []) :
    s.atHome ev id k msgs perform = (perform (s.letIn k f l line) f l line).dirRoom line := by
  have hnone : (if l.shared = true then [] else msgs (s.homeEnter line f.part l.ns l.shared) f l line) = [] := by
    split
    · rfl
    next hshared => exact hmsgs (Bool.not_eq_true _ ▸ hshared)
  rw [atHome_of_door h]
  exact if_pos hnone

/-! LDLV (R106). -/

/-- LDLV as its home performs it: the line's data and its token, in one transaction. -/
def readVersioned (s : State) (id : Nat) (f : Flight) (l : Leaf) (line : Nat) : State :=
  let s := s.mergeResv line f.part
  if s.isPoisoned line then s.failReq id 0 .poison 0
  else
    let s := s.atSlice f l line
    let f := { f with result := s.tokenOf line f.part }
    (s.ackClears f.die line).finishRead id 0 f (s.homeData line) (s.homeTag line f.part) fun r => r

theorem exec_ldlvAtHome (h : s.atDoor id 0 f l line) (hpermit : l.permits .r f.ns = true) :
    exec (.ldlvAtHome id) s
      = .next (s.atHome (.ldlvAtHome id) id 0 loadRemoteMsgs fun s f l line => s.readVersioned id f l line).done := by
  obtain ⟨hflight, -, hleaf, hline, -, -, hmem, -⟩ := h
  rw [← hline] at hmem
  obtain ⟨d, hplace⟩ := placeOf_of_isMemory hmem
  simp only [exec, execLdlvAtHome, hflight, hleaf, hpermit, hplace, Bool.not_true, Bool.false_eq_true, if_false]
  rfl

/-- A read that is performed for a request: the request is done, and the flight has its pieces and what it had besides. -/
theorem finishRead_spec (hk : k < f.reqs.length) (s : State) (id : Nat) (d : List Byte) (tag : Tag) :
    ∃ fl ag g, s.finishRead id k f d tag (fun r => r) = { s with flights := fl, agenda := ag } ∧ fl.get? id = some g
      ∧ (g.req k).done = true ∧ g.accs = (f.apply k d).2.accs ∧ g.result = f.result := by
  obtain ⟨fl, ag, hread, hget⟩ := s.finishRead_eq id k f d tag
  refine ⟨fl, ag, _, hread, hget, ?_, rfl, rfl⟩
  rw [Flight.req_withReq (f := (f.apply k d).2) hk]

theorem readVersioned_spec (h : s.Serves id f line x) (hk : 0 < f.reqs.length) (hkind : f.kind = .ldlv) (l : Leaf) :
    ∃ t g, s.readVersioned id f l line = t ∧ HomeStep 0 s t ∧ t.flights.get? id = some g ∧ (g.req 0).done = true
      ∧ g.accs = loaded f 0 (s.homeData line) ∧ g.result = s.tokenOf line f.part ∧ t.dirState line = s.dirState line := by
  obtain ⟨hstep, -⟩ := atSlice_spec h.slice f l
  have hdata : (s.atSlice f l line).homeData line = s.homeData line := hstep.homeData_eq.trans (homeData_of_sliceLine h.slice).symm
  have htoken : (s.atSlice f l line).tokenOf line f.part = s.tokenOf line f.part :=
    (tokenOf_of_sliceLine hstep.after _).trans (tokenOf_of_sliceLine h.slice _).symm
  obtain ⟨l1, rdc, hclears⟩ := ackClears_eq (s.atSlice f l line) f.die line
  obtain ⟨fl, ag, g, hread, hget, hdone, haccs, hresult⟩ := finishRead_spec (f := { f with result := s.tokenOf line f.part }) hk
    { s.atSlice f l line with l1 := l1, rdc := rdc } id (s.homeData line) ((s.atSlice f l line).homeTag line f.part)
  have heq : s.readVersioned id f l line = { s.atSlice f l line with l1 := l1, rdc := rdc, flights := fl, agenda := ag } := by
    refine Eq.trans ?_ hread
    rw [← hclears]
    simp only [readVersioned, mergeResv_of_none h.resv, h.sound, Bool.false_eq_true, if_false, htoken, hdata]
    rfl
  refine ⟨_, g, heq, ⟨hstep.beyond, hstep.mem, hstep.homeStep.regs, hstep.homeStep.dir⟩, hget, hdone, haccs.trans ?_, hresult,
    (dirState_congr hstep.copies line :)⟩
  exact Flight.accs_apply_of_reads (f := { f with result := s.tokenOf line f.part })
    (fun e a => by simp only [Flight.applyAcc, hkind]) 0 (s.homeData line)

/-- LDLV of a line that no one has. -/
theorem ldlvAtHome_spec (h : s.atDoor id 0 f l line) (hkind : f.kind = .ldlv) (hpermit : l.permits .r f.ns = true)
    (hst : s.dirState line = .u) :
    ∃ t g, exec (.ldlvAtHome id) s = .next t ∧ t.out = .done ∧ t.warps = s.warps ∧ s.sameBytes t ∧ t.flights.get? id = some g
      ∧ (g.req 0).done = true ∧ g.accs = loaded f 0 (s.homeData line) ∧ g.result = s.tokenOf line f.part ∧ t.dirState line = .u := by
  obtain ⟨hin, henter, htoken, x, y, hserves, hserves', -⟩ := letIn_spec h
  have hmsgs : l.shared = false → (s.homeEnter line f.part l.ns l.shared).loadRemoteMsgs f l line = [] := by
    intro _
    rw [loadRemoteMsgs, recallMsgs, henter.state, hst]
    split <;> rfl
  obtain ⟨t, g, ht, hstep, hget, hdone, haccs, hresult, hdir⟩ := readVersioned_spec hserves' (atDoor.inRange h) hkind l
  obtain ⟨hroom, hout, hwarps, hbytes⟩ := ((hin.homeStep.trans hstep).mono (n := 1) (by omega)).ends (atDoor.spare h)
  rw [hin.homeData_eq hserves.slice] at haccs
  refine ⟨_, g, ?_, hout, hwarps, hbytes, hget, hdone, haccs, hresult.trans htoken, hdir.trans (hin.state.trans hst)⟩
  rw [exec_ldlvAtHome h hpermit, atHome_letIn h _ hmsgs, ht, hroom]

/-! CMST (R108). -/

/-- A whole write of a line that is not poisoned is an ordinary one (R103). -/
theorem homeWrite_whole_of_sound (h : s.isPoisoned line = false) (part : Nat) (g : List Byte → List Byte) :
    s.homeWrite line part g true = s.homeWrite line part g false := by
  have hsound : ((s.setHomeData line g).bumpVer line part).poison.filter (· != line) = ((s.setHomeData line g).bumpVer line part).poison := by
    have hpoison : ((s.setHomeData line g).bumpVer line part).poison = s.poison :=
      congrArg Copies.poison ((copies_bumpVer _ line part).trans (s.copies_setHomeData line g))
    rw [hpoison]
    refine List.filter_eq_self.mpr fun p hp => bne_iff_ne.mpr fun heq => ?_
    rw [heq] at hp
    exact Bool.false_ne_true (h.symm.trans (List.contains_iff_mem.mpr hp))
  simp only [homeWrite, hsound, if_true, Bool.false_eq_true, if_false]

/-- CMST's one line as its home writes it: the data, the tag the writer leaves, and the writer. -/
def writeVersioned (s : State) (f : Flight) (line : Nat) (ns : Bool) (d : List Byte) : State :=
  let s := s.fillSlice line f.part ns false
  let s := s.homeWrite line f.part (fun _ => d) true
  let s := s.setHomeTag line f.part (s.tagAfter f (s.homeTag line f.part))
  s.setWriter line f.core

/-- The status of a CMST of one line: 0 where its token is the line's, else 1 and the line's bit. -/
def cmstStatus (s : State) (f : Flight) (line tok : Nat) : Nat := if tok = s.tokenOf line f.part then 0 else 17

/-- A CMST of one line once its home has it: written where the token is the line's, and answered. -/
def storeVersioned (s : State) (id : Nat) (f : Flight) (l : Leaf) (line tok : Nat) (d : List Byte) : State :=
  let u := if tok = s.tokenOf line f.part then s.writeVersioned f line l.ns d else s
  let u := (u.ackClears f.die line).dirRoom line
  u.cmstEnd id (s.cmstStatus f line tok) (max 0 (u.ackLend line)) (Tag.max {} (s.homeTag line f.part))

/-- A transaction that names one line ends as that of a request on the line does. -/
theorem closeTxn_eq (s : State) (r : Req) (line : Nat) :
    (if r.sent then { s.dropOld line with txns := s.txns.filter fun x => !([line].contains x) } else s) = s.closeTxn r line := by
  have hother : (fun x => !([line].contains x)) = (· != line) :=
    funext fun x => by rw [List.contains_cons, List.contains_nil, Bool.or_false]; rfl
  rw [closeTxn, hother]

/-- CMST of one line at its home's door, with nothing to recall: its checks pass, and it is performed (R108). -/
theorem exec_cmstAtHome (h : s.atDoor id 0 f l line) (hshared : l.shared = false) (hpol : l.pol = 0) {tok : Nat} {d : List Byte}
    (hreqs : f.reqs.length = 1) (htoks : f.toks = [tok]) (hdatas : f.datas = [d]) (hready : (f.req 0).ready = true)
    (hfail : (f.req 0).fail = none) (hpermit : l.permits .rw f.ns = true) (hst : s.dirState line = .u) :
    exec (.cmstAtHome id) s = .next ((s.letIn 0 f l line).storeVersioned id f l line tok d).done := by
  obtain ⟨-, henter, -, _, _, -, hserves, -⟩ := letIn_spec h
  obtain ⟨hflight, -, hleaf, hline, hdone, -, hmem, hbusy, hbehind, hredir, hwbs, hcheck, -⟩ := h
  obtain ⟨r, hr⟩ := List.length_eq_one_iff.mp hreqs
  have hone : f.req 0 = r := by rw [Flight.req, hr]; rfl
  have hany : f.reqs.any (·.done) = false := by rw [hr, List.any_cons, ← hone, hdone]; rfl
  have hall : f.reqs.all (·.ready) = true := by rw [hr, List.all_cons, ← hone, hready]; rfl
  obtain ⟨p, hplace⟩ := placeOf_of_isMemory (pa := (f.req 0).pa) (by rw [hline]; exact hmem)
  have hconfig : (placeOf (f.req 0).pa == .config) = false := by rw [hplace]; rfl
  have hfabric : (placeOf (f.req 0).pa == .fabric) = false := by rw [hplace]; rfl
  have hpolicy : l.policy = .cached := by rw [Leaf.policy, hshared, hpol]; rfl
  have hopen : Policy.openTo .cached = false := rfl
  have hleaves : Policy.leaves .cached = false := rfl
  have hallocates : Policy.allocates .cached = true := rfl
  have hresv := mergeResv_of_none hserves.resv f.part
  rw [letIn, hshared] at hresv
  rw [hshared] at hcheck henter
  have hmsgs : (s.homeEnter line f.part l.ns false).invalidateMsgs line none = [] := by rw [invalidateMsgs, henter.state, hst]
  simp only [exec, execCmstAtHome, hflight, hreqs, List.range_one, hany, hall, hfail, hleaf, hpermit, hconfig, hfabric, hline, hredir,
    hbusy, hbehind, hcheck, Option.map_some, Option.map_none, Option.getD_some, List.findSome?_cons, List.findSome?_nil, List.find?_cons,
    List.find?_nil, List.map_cons, List.map_nil, List.any_cons, List.any_nil, List.foldl_cons, List.foldl_nil, List.flatMap_cons,
    List.flatMap_nil, Bool.not_true, Bool.or_self, Bool.and_false, Bool.false_eq_true, if_false, bne_self_eq_false,
    settleFrom_of_none hwbs, hpolicy, hopen, hleaves, hallocates, hmsgs, List.append_nil, ne_eq, not_true, htoks, hdatas,
    List.getElem?_cons_zero, List.sum_cons, List.sum_nil, closeTxn_eq, hresv]
  rw [letIn, hshared]
  generalize (s.homeEnter line f.part l.ns false).closeTxn (f.req 0) line = u
  by_cases htok : tok = u.tokenOf line f.part
  · simp only [storeVersioned, if_pos htok, cmstStatus]
    rfl
  · simp only [storeVersioned, if_neg htok, cmstStatus]
    rfl

/-- A versioned write of a line that its slice has (R105). -/
theorem writeVersioned_spec (h : s.Serves id f line x) (ns : Bool) (d : List Byte) :
    HomeStep 0 s (s.writeVersioned f line ns d) ∧ (s.writeVersioned f line ns d).flights = s.flights
      ∧ (s.writeVersioned f line ns d).homeData line = d := by
  have hfill := SliceStep.fill h.slice f.part ns false
  have hsound : (s.fillSlice line f.part ns false).isPoisoned line = false := (isPoisoned_congr hfill.copies line).trans h.sound
  obtain ⟨y, hwrite, hdata, -⟩ := SliceStep.write hfill.after f.part fun _ => d
  have hstep := hfill.trans hwrite
  have htagged := hstep.trans (.setTag hstep.after f.part
    (((s.fillSlice line f.part ns false).homeWrite line f.part (fun _ => d) false).tagAfter f
    (((s.fillSlice line f.part ns false).homeWrite line f.part (fun _ => d) false).homeTag line f.part)))
  have hdir : Grown s.dir (s.writeVersioned f line ns d).dir 0 := by
    rw [writeVersioned, homeWrite_whole_of_sound hsound]
    exact htagged.homeStep.dir.trans
      (.map (g := fun e => if e.covers line then { e with writer := some f.core } else e) _ fun e => by split <;> rfl)
  rw [writeVersioned, homeWrite_whole_of_sound hsound] at hdir ⊢
  exact ⟨⟨htagged.beyond, htagged.mem, htagged.homeStep.regs, hdir⟩, (congrArg Copies.flights htagged.copies :),
    (htagged.homeData_eq.trans hdata :)⟩

/-- What a CMST of one line leaves: its status in every piece, and the line's data. -/
theorem storeVersioned_spec (h : s.Serves id f line x) (hk : 0 < f.reqs.length) (hspare : s.dirSpare line 1) (l : Leaf) (tok : Nat)
    (d : List Byte) :
    ∃ g, HomeStep 0 s (s.storeVersioned id f l line tok d) ∧ (s.storeVersioned id f l line tok d).flights.get? id = some g
      ∧ (g.req 0).done = true ∧ .loadDataReturn id ∈ (s.storeVersioned id f l line tok d).agenda
      ∧ g.accs = f.accs.map (fun a => { a with val := s.cmstStatus f line tok })
      ∧ (s.storeVersioned id f l line tok d).homeData line = if tok = s.tokenOf line f.part then d else s.homeData line := by
  obtain ⟨u, hu, hstep, hflights, hdata⟩ :
      ∃ u, (if tok = s.tokenOf line f.part then s.writeVersioned f line l.ns d else s) = u ∧ HomeStep 0 s u
      ∧ u.flights = s.flights ∧ u.homeData line = if tok = s.tokenOf line f.part then d else s.homeData line := by
    by_cases htok : tok = s.tokenOf line f.part
    · rw [if_pos htok, if_pos htok]
      exact ⟨_, rfl, writeVersioned_spec h l.ns d⟩
    · rw [if_neg htok, if_neg htok]
      exact ⟨s, rfl, .refl s, rfl, rfl⟩
  obtain ⟨l1, rdc, hclears⟩ := ackClears_eq u f.die line
  have hroom : ({ u with l1 := l1, rdc := rdc } : State).dirRoom line = { u with l1 := l1, rdc := rdc } :=
    dirRoom_eq hspare hstep.regs (hstep.dir.mono (Nat.zero_le 1))
  have hflight : ({ u with l1 := l1, rdc := rdc } : State).flights.get? id = some f := by
    rw [show ({ u with l1 := l1, rdc := rdc } : State).flights = s.flights from hflights]; exact h.flight
  unfold storeVersioned
  rw [hu]
  dsimp only
  rw [hclears, hroom, cmstEnd, modFlight_of_get? hflight]
  refine ⟨_, ⟨hstep.beyond, hstep.mem, hstep.regs, hstep.dir⟩, get?_putFlight _ id _, ?_, List.mem_append_right _ List.mem_cons_self, rfl, hdata⟩
  simp [Flight.req, hk]

/-- CMST of one line that no one has. -/
theorem cmstAtHome_spec (h : s.atDoor id 0 f l line) (hshared : l.shared = false) (hpol : l.pol = 0) {tok : Nat} {d : List Byte}
    (hreqs : f.reqs.length = 1) (htoks : f.toks = [tok]) (hdatas : f.datas = [d]) (hready : (f.req 0).ready = true)
    (hfail : (f.req 0).fail = none) (hpermit : l.permits .rw f.ns = true) (hst : s.dirState line = .u) :
    ∃ t g, exec (.cmstAtHome id) s = .next t ∧ t.out = .done ∧ t.warps = s.warps ∧ s.sameBytes t ∧ t.flights.get? id = some g
      ∧ (g.req 0).done = true ∧ .loadDataReturn id ∈ t.agenda
      ∧ g.accs = f.accs.map (fun a => { a with val := if tok = s.tokenOf line f.part then 0 else 17 })
      ∧ t.homeData line = if tok = s.tokenOf line f.part then d else s.homeData line := by
  obtain ⟨hin, -, htoken, x, y, hserves, hserves', -⟩ := letIn_spec h
  have hspare : (s.letIn 0 f l line).dirSpare line 1 := hin.homeStep.spare (atDoor.spare h)
  obtain ⟨g, hstep, hget, hdone, hreturn, haccs, hdata⟩ := storeVersioned_spec hserves' (atDoor.inRange h) hspare l tok d
  obtain ⟨-, hout, hwarps, hbytes⟩ := ((hin.homeStep.trans hstep).mono (n := 1) (by omega)).ends (atDoor.spare h)
  rw [cmstStatus, htoken] at haccs
  rw [htoken, hin.homeData_eq hserves.slice] at hdata
  exact ⟨_, g, exec_cmstAtHome h hshared hpol hreqs htoks hdatas hready hfail hpermit hst,
    hout, hwarps, hbytes, hget, hdone, hreturn, haccs, hdata⟩

end State

/-- Settles O30: LDLV by what it reads once it has been let in, CMST of one line by whether its token is the line's. -/
theorem versionedAtHome : Obligations.VersionedAtHome := by
  unfold Obligations.VersionedAtHome
  intro s id f l line h hshared hpol
  exact ⟨fun hkind hpermit hst => State.ldlvAtHome_spec h hkind hpermit hst, fun tok d _ hreqs htoks hdatas hready hfail hpermit hst =>
    State.cmstAtHome_spec h hshared hpol hreqs htoks hdatas hready hfail hpermit hst⟩

end Sys2Proof.Machine
end

section
/-!
PROOFS. A memory instruction sets out (R140, R141), and LDLV and CMST as they issue (R106 to R108, R172).
-/

namespace Sys2Proof.Machine

/-- The lanes of a mask as a list. -/
theorem mem_laneList {m : LaneMask} {l : Nat} : l ∈ laneList m ↔ l < 96 ∧ m.getLsbD l = true := by
  rw [laneList, List.mem_filter, List.mem_range]

namespace State

variable {s : State} {f : Flight}

/-! A flight that sets out (R140, R141). -/

/-- A flight that orders nothing after an SC operation finds room where its warp has it, for up to 448 lines (R141, R144, R168). -/
theorem mustWait_of_room (h : s.roomy) (hcore : f.core = s.myCore) (hreqs : f.reqs.length ≤ 448) : s.mustWait f = false := by
  obtain ⟨-, hscs, hG, hS, hW, hV, hstores, hout⟩ := h
  have hlines : ¬ 2048 < s.outstanding s.myCore + f.reqs.length := by omega
  simp only [mustWait, hcore, hscs, Nat.not_le.mpr hG, Nat.not_le.mpr hS, Nat.not_le.mpr hW, Nat.not_le.mpr hV, Nat.not_le.mpr hstores,
    hlines, decide_false, Bool.and_false, Bool.or_false, bne_self_eq_false]

/-- What a flight is given as it sets out: its number on each path, its tag's mark, and what it waits for as a release. -/
def sentOut (f : Flight) (order : List Nat) (tagged : Bool) (before : List Nat) : Flight :=
  { f with before := before, released := !isRelease f, order := order, tagged := tagged }

theorem requeue_foldl (s : State) (id : Nat) (ks : List Nat) : ∃ is, ks.foldl (fun (s : State) k => s.requeue id k) s = s.push is := by
  induction ks generalizing s with
  | nil => exact ⟨[], by rw [push, List.append_nil]; rfl⟩
  | cons k ks ih =>
    obtain ⟨is, his⟩ := ih (s.requeue id k)
    refine ⟨.tlbMissWalk id k :: is, ?_⟩
    rw [List.foldl_cons, his, requeue, push, push, push, List.append_assoc, List.singleton_append]

/-- A flight as it enters: a release still to proceed, with what it waits for (R165). -/
def released (s : State) (f : Flight) : Flight :=
  { f with before := if isRelease f then (s.myFlights.filter fun e => e.2.kind != .bopen).map (·.1) else [], released := !isRelease f }

theorem launch_eq (hwin : ∀ k < f.reqs.length, (f.req k).win ≠ .pad) : ∃ is, s.launch f = ((s.enter (s.released f)).2.push is).done := by
  by_cases hrel : isRelease f
  · exact ⟨_, by rw [launch]; exact if_pos hrel⟩
  · obtain ⟨is, his⟩ := requeue_foldl (s.enter (s.released f)).2 s.nextId (List.range f.reqs.length)
    have hfold : ∀ (t : State) (id : Nat), (List.range f.reqs.length).foldl
        (fun (t : State) k => if (f.req k).win = .pad then t.advance id k else t.requeue id k) t
        = (List.range f.reqs.length).foldl (fun (t : State) k => t.requeue id k) t := fun t id =>
      List.foldl_ext _ _ t fun u k hk => if_neg (hwin k (List.mem_range.mp hk))
    refine ⟨is, ?_⟩
    rw [← his, ← hfold, launch]
    exact if_neg hrel

/-- A flight with no request at a scratchpad sets out: it is counted on its paths and in flight, and only messages are sent. -/
theorem launch_spec (s : State) (f : Flight) (hwin : ∀ k < f.reqs.length, (f.req k).win ≠ .pad) :
    (s.launch f).out = .done ∧ s.sameRegs (s.launch f) ∧ s.sameBytes (s.launch f) ∧ s.countedOn (s.launch f) f.paths
      ∧ ∃ order tagged before, (s.launch f).flights.get? s.nextId = some (sentOut f order tagged before) := by
  obtain ⟨is, hlaunch⟩ := launch_eq hwin
  obtain ⟨hregs, hbytes, hcount, order, tagged, hflight⟩ := s.enter_spec (s.released f)
  rw [hlaunch]
  exact ⟨rfl, hregs, hbytes, hcount, order, tagged, _, hflight⟩

/-! LDLV (R106, R172). -/

/-- The flight of an LDLV: one piece a lane, in one line. -/
def ldlvFlight (s : State) (d : BitVec 7) (x : Src) (va : Nat) : Flight :=
  { s.mkFlight .ldlv 8 with
    scp := 5, dst := d.toNat, ndst := 1, dst2 := some (Src.num x)
    accs := (laneList s.execMask).map fun l => { lane := l, off := 0, size := 4, va := va + 4 * (l % 32) }
    reqs := [{ win := .global, vline := va / 128 }] }

/-- LDLV of an aligned line below 2^56, once it may issue and no acquire holds it. -/
theorem exec_ldlv {d : BitVec 7} {x a : Src} (hgo : s.gate (.ldlv d x a) = .go) (hexec : s.execMask ≠ 0) (hacq : s.before.acq = [])
    (halign : s.readPair a 0 % 128 = 0) (htop : s.readPair a 0 < 2 ^ 56) :
    exec (.ldlv d x a) s = .next
      (if s.lockedVa (s.readPair a 0) 128 false then s.raise { cause := .rangelock, addr := s.readPair a 0, lanes := s.execMask }
      else if s.mustWait (s.ldlvFlight d x (s.readPair a 0)) then s.wait else s.launch (s.ldlvFlight d x (s.readPair a 0))) := by
  have hbounds : ¬ vaTop ≤ s.readPair a 0 := Nat.not_le.mpr htop
  simp only [exec, execLdlv, s.issueVec_go hgo hexec, acqHolds_of_nil hacq, halign, hbounds, ne_eq, not_true, Bool.false_eq_true, if_false]
  rfl

/-- LDLV sets out where its line is not locked. -/
theorem ldlv_issues {d : BitVec 7} {x a : Src} (hgo : s.gate (.ldlv d x a) = .go) (hexec : s.execMask ≠ 0) (hroom : s.roomy)
    (halign : s.readPair a 0 % 128 = 0) (htop : s.readPair a 0 < 2 ^ 56) (hfree : s.lockedVa (s.readPair a 0) 128 false = false) :
    ∃ t, exec (.ldlv d x a) s = .next t ∧ t.out = .done ∧ s.sameRegs t ∧ s.sameBytes t ∧ s.countedOn t 8
      ∧ ∃ f, t.flights.get? s.nextId = some f ∧ f.kind = .ldlv ∧ f.dst = d.toNat ∧ f.ndst = 1 ∧ f.dst2 = some (Src.num x)
        ∧ f.reqs.map (·.vline) = [s.readPair a 0 / 128]
        ∧ ∀ l < 96, s.execMask.getLsbD l = true → ∃ y ∈ f.accs, y.lane = l ∧ y.va = s.readPair a 0 + 4 * (l % 32) := by
  have hwait : s.mustWait (s.ldlvFlight d x (s.readPair a 0)) = false := mustWait_of_room hroom rfl (by simp [ldlvFlight])
  have hwin : ∀ k < (s.ldlvFlight d x (s.readPair a 0)).reqs.length, ((s.ldlvFlight d x (s.readPair a 0)).req k).win ≠ .pad := by
    intro k hk
    obtain rfl : k = 0 := Nat.lt_one_iff.mp hk
    exact Win.noConfusion
  obtain ⟨hout, hregs, hbytes, hcount, order, tagged, before, hflight⟩ := s.launch_spec _ hwin
  refine ⟨_, ?_, hout, hregs, hbytes, hcount, _, hflight, rfl, rfl, rfl, rfl, rfl, fun l hl hlane => ?_⟩
  · rw [exec_ldlv hgo hexec hroom.1 halign htop, hfree, hwait]
    rfl
  · exact ⟨_, List.mem_map.mpr ⟨l, mem_laneList.mpr ⟨hl, hlane⟩, rfl⟩, rfl, rfl⟩

/-! CMST (R107, R108, R172). -/

/-- The flight of a CMST: one request a line, with the tokens and the data of its descriptor. -/
def cmstFlight (s : State) (o sc : Nat) (x : Src) (es : List (Nat × Nat × List Byte)) : Flight :=
  { s.mkFlight .cmst 1 with
    ord := o, scp := sc, scalar := true, dst := Src.num x, ndst := 1
    accs := [{ lane := 0, off := 0, size := 4, va := (es.head?.map (·.1)).getD 0 }]
    reqs := es.map fun e => { win := .global, vline := e.1 / 128 }
    toks := es.map (·.2.1), datas := es.map (·.2.2) }

/-- A CMST whose descriptor's lines are known. -/
def cmstLines (s : State) (o sc : Nat) (x : Src) (es : List (Nat × Nat × List Byte)) : State :=
  match es.find? fun e => s.lockedVa e.1 128 true with
  | some e => s.raise { cause := .rangelock, addr := e.1 }
  | none => if s.mustWait (s.cmstFlight o sc x es) then s.wait else s.launch (s.cmstFlight o sc x es)

/-- What a CMST comes to by what its descriptor says. -/
def cmstOutcome (s : State) (o sc : Nat) (x : Src) : Option (List (Nat × Nat × List Byte)) → State
  | none => (s.setS (Src.num x) 3).done
  | some es => s.cmstLines o sc x es

/-- CMST of a descriptor its block may read, once it may issue. -/
theorem exec_cmst {o : BitVec 2} {sc : BitVec 3} {x a : Src} (hgo : s.gate (.cmst o sc x a) = .go) (hroom : s.roomy) {off n : Nat}
    {h : List Byte} (hoff : (s.readScalar a).toNat = off) (hhead : s.padRead s.myCore off 128 = h) (hn : fieldAt h 0 4 = n)
    (halign : off % 128 = 0) (hcheck : s.padReadCheck off 128 = none)
    (hlines : n ≤ 4 → s.padReadCheck (off + 128) (128 * n) = none) :
    exec (.cmst o sc x a) s
      = .next (s.cmstOutcome o.toNat sc.toNat x (cmstDesc h (s.padRead s.myCore (off + 128) (128 * min n 4)))) := by
  have hdata : (if n ≤ 4 then s.padReadCheck (off + 128) (128 * min n 4) else none) = none := by
    split
    next hle => rw [Nat.min_eq_left hle, hlines hle]
    next => rfl
  simp only [exec, execCmst, s.issue_go hgo, acqHolds_of_roomy hroom, hoff, halign, hcheck, hhead, hn, hdata, ne_eq, not_true,
    Bool.false_eq_true, if_false]
  rfl

/-- A good descriptor names four lines at most (R107). -/
theorem length_of_cmstDesc {h d : List Byte} {es : List (Nat × Nat × List Byte)} (hdesc : cmstDesc h d = some es) : es.length ≤ 4 := by
  simp only [cmstDesc] at hdesc
  split at hdesc
  · cases hdesc
  next hbad =>
    split at hdesc
    · cases hdesc
    · obtain rfl := Option.some.inj hdesc
      rw [List.length_map, List.length_range]
      simp only [Bool.or_eq_true, decide_eq_true_eq, not_or] at hbad
      obtain ⟨⟨⟨-, hle⟩, -⟩, -⟩ := hbad
      omega

/-- CMST sets out where none of its lines is locked. -/
theorem cmstLines_issues (hroom : s.roomy) {es : List (Nat × Nat × List Byte)} (hlen : es.length ≤ 4)
    (hfree : (es.all fun e => !s.lockedVa e.1 128 true) = true) (o sc : Nat) (x : Src) :
    (s.cmstLines o sc x es).out = .done ∧ s.sameRegs (s.cmstLines o sc x es) ∧ s.sameBytes (s.cmstLines o sc x es)
      ∧ s.countedOn (s.cmstLines o sc x es) 1
      ∧ ∃ f, (s.cmstLines o sc x es).flights.get? s.nextId = some f ∧ f.kind = .cmst ∧ f.dst = Src.num x ∧ f.ndst = 1 ∧ f.scalar = true
        ∧ f.reqs.map (·.vline) = es.map (fun e => e.1 / 128) ∧ f.toks = es.map (·.2.1) ∧ f.datas = es.map (·.2.2) := by
  have hnone : (es.find? fun e => s.lockedVa e.1 128 true) = none := by
    simpa [List.find?_eq_none, List.all_eq_true] using hfree
  have hwait : s.mustWait (s.cmstFlight o sc x es) = false := mustWait_of_room hroom rfl (by rw [cmstFlight, List.length_map]; omega)
  have hwin : ∀ k < (s.cmstFlight o sc x es).reqs.length, ((s.cmstFlight o sc x es).req k).win ≠ .pad := by
    intro k hk
    have hget := List.getElem?_eq_getElem hk
    rw [Flight.req, hget, Option.getD_some]
    simp [cmstFlight]
  have hlaunch : s.cmstLines o sc x es = s.launch (s.cmstFlight o sc x es) := by
    rw [cmstLines, hnone, hwait]
    rfl
  obtain ⟨hout, hregs, hbytes, hcount, order, tagged, before, hflight⟩ := s.launch_spec _ hwin
  rw [hlaunch]
  refine ⟨hout, hregs, hbytes, hcount, _, hflight, rfl, rfl, rfl, rfl, ?_, rfl, rfl⟩
  exact List.map_map

/-- A register that an s specifier names. -/
theorem num_lt_of_isS {x : Src} (h : x.isS = true) : Src.num x < 64 := by
  cases x with
  | s n => exact n.isLt
  | _ => exact absurd h Bool.false_ne_true

end State

/-- Settles O14: LDLV and CMST by whether a line they name is locked, a CMST of a bad descriptor by the status it writes. -/
theorem versionedIssue : Obligations.VersionedIssue := by
  unfold Obligations.VersionedIssue
  intro s d o sc x a
  refine ⟨?_, ?_⟩
  · intro va hgo hexec hacq halign htop
    refine ⟨fun hlocked => ?_, fun hfree hroom => State.ldlv_issues hgo hexec hroom halign htop hfree⟩
    rw [State.exec_ldlv hgo hexec hacq halign htop, hlocked]
    rfl
  · intro off h n hgo hroom halign hcheck hlines
    have hexec := State.exec_cmst hgo hroom rfl rfl rfl halign hcheck hlines
    cases hdesc : State.cmstDesc h (s.padRead s.myCore (off + 128) (128 * min n 4)) with
    | none =>
      obtain ⟨-, -, hfields⟩ := Instr.wf_iff.mp (State.wf_of_go hgo)
      simp only [Instr.fieldsOk, Bool.and_eq_true] at hfields
      obtain ⟨⟨-, hx⟩, -⟩ := hfields
      rw [hdesc] at hexec
      exact ⟨_, hexec, s.setS_spec (State.num_lt_of_isS hx) 3⟩
    | some es =>
      rw [hdesc] at hexec
      refine ⟨fun e hfind => ?_, fun hfree => ⟨_, hexec, State.cmstLines_issues hroom (State.length_of_cmstDesc hdesc) hfree _ _ x⟩⟩
      rw [hexec]
      simp only [State.cmstOutcome, State.cmstLines, hfind]

end Sys2Proof.Machine
end

section
/-!
PROOFS. The operations of an engine: one in its place again, its countdowns, and its end (R111, R171, R201, R227).
-/

namespace Sys2Proof.Machine

theorem MBar.status_settle (m : MBar) : m.settle.status = m.status := by
  simp only [MBar.settle, apply_ite MBar.status, ite_self]

/-- A countdown leaves a status that is set (R227). -/
theorem MBar.status_countdown {m : MBar} (h : m.status ≠ 0) (n : Nat) : (m.countdown n).status = m.status := by
  simp only [MBar.countdown, MBar.status_settle, apply_ite MBar.status, if_neg h, ite_self]

namespace State
variable {s t : State} {id n b : Nat} {o : EngOp}

/-- An operation is put in its place. -/
def putOp (s : State) (id : Nat) (o : EngOp) : State := { s with ops := s.ops.put id o }

theorem modOp_of_get? (h : s.ops.get? id = some o) (g : EngOp → EngOp) : s.modOp id g = s.putOp id (g o) := by
  rw [modOp, h]
  rfl

@[simp] theorem get?_putOp (s : State) (id : Nat) (o : EngOp) : (s.putOp id o).ops.get? id = some o := Tab.get?_put_same _ _ _

theorem tellWarp_eq (s : State) (o : EngOp) (c : Cause) (mask tier : Nat) : ∃ ws, s.tellWarp o c mask tier = { s with warps := ws } := by
  unfold tellWarp
  dsimp only
  split
  · split
    · exact ⟨_, rfl⟩
    · exact ⟨s.warps, rfl⟩
  · exact ⟨s.warps, rfl⟩

/-- From `s` to `t` an engine has told of what it has done: nothing has changed but the warps, the operations and the cores, and of
these no LEASEMAX. -/
structure Told (s t : State) : Prop where
  frame : t = { s with cores := t.cores, warps := t.warps, ops := t.ops }
  lease : ∀ c, (t.core c).leasemax = (s.core c).leasemax

theorem Told.refl (s : State) : Told s s := ⟨rfl, fun _ => rfl⟩

theorem Told.trans {u : State} (h : Told s t) (g : Told t u) : Told s u :=
  ⟨g.frame.trans (by rw [h.frame]), fun c => (g.lease c).trans (h.lease c)⟩

theorem Told.modCore (s : State) (core : Nat) {f : Core → Core} (hf : ∀ x, (f x).leasemax = x.leasemax) : Told s (s.modCore core f) := by
  refine ⟨rfl, fun c => ?_⟩
  by_cases hc : c = core
  · rw [hc, core_modCore, hf]
  · rw [core_modCore_other _ hc]

theorem Told.padWrite (s : State) (core off : Nat) (bs : List Byte) : Told s (s.padWrite core off bs) :=
  .modCore s core (f := fun c => { c with pad := c.pad.writeN off bs }) fun _ => rfl

theorem Told.mbTag (s : State) (from' core off : Nat) : Told s (s.mbTag from' core off) := by
  unfold State.mbTag
  exact .modCore s core fun _ => rfl

theorem Told.putOp (s : State) (id : Nat) (o : EngOp) : Told s (s.putOp id o) := ⟨rfl, fun _ => rfl⟩

theorem Told.warp (s : State) (o : EngOp) (c : Cause) (mask tier : Nat) : Told s (s.tellWarp o c mask tier) := by
  obtain ⟨ws, hws⟩ := s.tellWarp_eq o c mask tier
  rw [hws]
  exact ⟨rfl, fun _ => rfl⟩

/-- A countdown of an operation's bytes (R227): of the operation only the status may change, and only one that is not set. -/
theorem countBytes_spec (ho : s.ops.get? id = some o) (hbar : o.bar = some b) (n : Nat) :
    Told s (s.countBytes id n) ∧ (s.countBytes id n).mbar o.core b = (s.mbar o.core b).countdown n
      ∧ ∃ st, (s.countBytes id n).ops.get? id = some { o with status := st } ∧ (o.status ≠ 0 → st = o.status) := by
  have hset : Told s ((s.setMbar o.core b ((s.mbar o.core b).countdown n)).mbTag o.core o.core b) :=
    Told.trans (t := s.setMbar o.core b ((s.mbar o.core b).countdown n)) (.padWrite s _ _ _) (.mbTag _ _ _ _)
  have hmbar : ((s.setMbar o.core b ((s.mbar o.core b).countdown n)).mbTag o.core o.core b).mbar o.core b = (s.mbar o.core b).countdown n :=
    (mbar_of_sameBytes (sameBytes_mbTag _ _ _ _) o.core b).trans (s.mbar_setMbar o.core b ((s.mbar_fits o.core b).countdown n))
  have hget : ((s.setMbar o.core b ((s.mbar o.core b).countdown n)).mbTag o.core o.core b).ops.get? id = some o := ho
  have hcount : s.countBytes id n =
      let u := (s.setMbar o.core b ((s.mbar o.core b).countdown n)).mbTag o.core o.core b
      if (s.mbar o.core b).status = 0 && (u.mbar o.core b).status = 11 && o.status = 0 then
        (u.modOp id ({ · with status := 11 })).tellWarp o .bounds 0 0
      else u := by
    rw [countBytes, ho]
    dsimp only
    rw [hbar]
  rw [hcount]
  dsimp only
  generalize (s.setMbar o.core b ((s.mbar o.core b).countdown n)).mbTag o.core o.core b = u at hset hmbar hget ⊢
  split
  next hfull =>
    simp only [Bool.and_eq_true, decide_eq_true_eq] at hfull
    obtain ⟨-, hzero⟩ := hfull
    obtain ⟨ws, hws⟩ := (u.putOp id { o with status := 11 }).tellWarp_eq o .bounds 0 0
    rw [modOp_of_get? hget, hws]
    exact ⟨hset.trans ((Told.putOp u id _).trans ⟨rfl, fun _ => rfl⟩), hmbar, 11, (get?_putOp u id _ :), fun h => absurd hzero h⟩
  next => exact ⟨hset, hmbar, o.status, (hget :), fun _ => rfl⟩

/-- What the end of a step's operation leaves of it: nothing (R111). -/
structure Over (id : Nat) (t : State) : Prop where
  op : t.ops.get? id = none
  locks : ∀ k ∈ t.locks, k.op ≠ id
  resv : ∀ y ∈ t.resv, id ∉ y.steps

theorem not_mem_steps_releaseResvs (s : State) (id : Nat) : ∀ y ∈ (s.releaseResvs id).resv, id ∉ y.steps := by
  intro y hy
  rw [releaseResvs, List.mem_filter, List.mem_map] at hy
  obtain ⟨⟨r, -, rfl⟩, -⟩ := hy
  exact fun hmem => by simpa using List.of_mem_filter hmem

theorem over_endOp (h : ∀ y ∈ s.resv, id ∉ y.steps) : Over id (s.endOp id) where
  op := Tab.get?_del_same _ _
  locks k hk := by simpa [endOp, dropLock] using List.of_mem_filter hk
  resv := h

/-! The end of a step (R111). -/

theorem Told.mbStatus (s : State) (core off v : Nat) : Told s (s.mbStatus core off v) := by
  unfold State.mbStatus
  split
  · exact .padWrite s _ _ _
  · exact .refl s

/-- A status is written where there was none (R201). -/
theorem status_mbStatus {core off v : Nat} (h : (s.mbar core off).status = 0) (hv : v < 2 ^ 32) :
    ((s.mbStatus core off v).mbar core off).status = v := by
  rw [mbStatus, if_pos h]
  have hword := s.padWord_padWrite core (off + 12) (leBytes 4 v) 0 (by simp)
  rw [Nat.add_zero] at hword
  exact hword.trans (leNat_leBytes 4 v hv)

/-- The targets of a step of which nothing is left to acknowledge, as bits. -/
def doneTargets (o : EngOp) : Nat := ((List.range 8).filter fun i => o.left[i]? == some 0).foldl (fun n i => n + 2 ^ i) 0

theorem doneTargets_of_left (h : ∀ n ∈ o.left, n ≠ 0) : doneTargets o = 0 := by
  have hnone : ((List.range 8).filter fun i => o.left[i]? == some 0) = [] := by
    refine List.filter_eq_nil_iff.mpr fun i _ hi => ?_
    exact h 0 (List.mem_of_getElem? (beq_iff_eq.mp hi)) rfl
  rw [doneTargets, hnone]
  rfl

/-- A step's status has gone to its object and, where its peer is lost, to its warp. -/
def stepTold (s : State) (o : EngOp) (b : Nat) : State :=
  let u := s.mbStatus o.core b (o.status + 256 * doneTargets o)
  if o.status = 2 then u.tellWarp o .peerlost (doneTargets o) 0 else u

theorem stepTold_spec (ho : s.ops.get? id = some o) (b : Nat) :
    Told s (s.stepTold o b) ∧ (s.stepTold o b).ops.get? id = some o
      ∧ (s.stepTold o b).mbar o.core b = (s.mbStatus o.core b (o.status + 256 * doneTargets o)).mbar o.core b := by
  have hstatus := Told.mbStatus s o.core b (o.status + 256 * doneTargets o)
  have hget : (s.mbStatus o.core b (o.status + 256 * doneTargets o)).ops.get? id = some o := by
    unfold mbStatus
    split <;> exact ho
  unfold stepTold
  dsimp only
  generalize s.mbStatus o.core b (o.status + 256 * doneTargets o) = u at hstatus hget ⊢
  split
  · obtain ⟨ws, hws⟩ := u.tellWarp_eq o .peerlost (doneTargets o) 0
    rw [hws]
    exact ⟨hstatus.trans ⟨rfl, fun _ => rfl⟩, hget, rfl⟩
  · exact ⟨hstatus, hget, rfl⟩

theorem stepEnd_eq (ho : s.ops.get? id = some o) (hbar : o.bar = some b) (n : Nat) :
    s.stepEnd id n = (((s.stepTold o b).releaseResvs id).countBytes id n).endOp id := by
  rw [stepEnd, ho]
  dsimp only
  rw [hbar]
  rfl

/-- A step that ends leaves nothing of it in the tables, and no core's LEASEMAX is changed; NOSLOT, with nothing acknowledged, is the
status of its object. -/
theorem stepEnd_spec (ho : s.ops.get? id = some o) (hbar : o.bar = some b) (n : Nat) :
    Over id (s.stepEnd id n) ∧ (∀ c, ((s.stepEnd id n).core c).leasemax = (s.core c).leasemax)
      ∧ ((s.mbar o.core b).status = 0 → o.status = 1 → (∀ n ∈ o.left, n ≠ 0) → ((s.stepEnd id n).mbar o.core b).status = 1) := by
  obtain ⟨htold, hget, hmbar⟩ := stepTold_spec ho b
  obtain ⟨hcount, hdown, -⟩ := countBytes_spec (s := (s.stepTold o b).releaseResvs id) (id := id) hget hbar n
  have hresv : (((s.stepTold o b).releaseResvs id).countBytes id n).resv = ((s.stepTold o b).releaseResvs id).resv := by rw [hcount.frame]
  rw [stepEnd_eq ho hbar]
  refine ⟨over_endOp (by rw [hresv]; exact not_mem_steps_releaseResvs _ id), fun c => (hcount.lease c).trans (htold.lease c),
    fun hzero hone hleft => ?_⟩
  have hwas : (((s.stepTold o b).releaseResvs id).mbar o.core b).status = 1 := by
    refine (congrArg MBar.status hmbar :).trans ?_
    rw [doneTargets_of_left hleft, hone]
    exact status_mbStatus hzero (by decide)
  refine (congrArg MBar.status hdown :).trans ((MBar.status_countdown ?_ n).trans hwas)
  rw [hwas]
  exact Nat.one_ne_zero

end State

end Sys2Proof.Machine
end

section
/-!
PROOFS. The reservations of a step and its acknowledgments (R110 to R113).
-/

namespace Sys2Proof.Machine

namespace State
variable {s z : State} {op id b : Nat} {o q : EngOp} {acc plain : Bool}

theorem step_of_kind (h : o.kind = .cstep acc plain) : o.step = some (acc, plain) := by rw [EngOp.step, h]

/-! Reservations (R110, R111, R112). -/

/-- A step that is not held delivers once it has reserved all it reserves (R111). -/
theorem cstepReserve_delivers (ho : s.ops.get? op = some o) (hkind : o.kind = .cstep acc plain) (hheld : s.opHeld op o = false)
    (hall : plain = true ∨ (StepDesc.of o.record).npeer * (StepDesc.of o.record).lines ≤ o.stage) :
    exec (.cstepReserve op) s = .next ((s.modOp op ({ · with started := true })).stepDeliver op (StepDesc.of o.record)).done := by
  have hheld' : (s.putOp op { o with started := true }).opHeld op o = false := hheld
  have hready : (plain || decide ((StepDesc.of o.record).npeer * (StepDesc.of o.record).lines ≤ o.stage)) = true := by simpa using hall
  simp only [exec, execCstepReserve, ho, step_of_kind hkind, modOp_of_get? ho, hheld', hready, Bool.false_eq_true, if_false, if_true]

section
variable (ho : s.ops.get? op = some o) (hkind : o.kind = .cstep acc false) (hheld : s.opHeld op o = false)
  (hmore : o.stage < (StepDesc.of o.record).npeer * (StepDesc.of o.record).lines)
include ho hkind hheld hmore

/-- A step lets pass the one that goes first (R112). -/
theorem cstepReserve_yields (hyields : (s.modOp op ({ · with started := true })).stepYields op = true) :
    exec (.cstepReserve op) s = .next ((s.modOp op ({ · with started := true })).push [.cstepReserve op]).done := by
  have hheld' : (s.putOp op { o with started := true }).opHeld op o = false := hheld
  have hready : (false || decide ((StepDesc.of o.record).npeer * (StepDesc.of o.record).lines ≤ o.stage)) = false := by simpa using hmore
  rw [modOp_of_get? ho] at hyields
  simp only [exec, execCstepReserve, ho, step_of_kind hkind, modOp_of_get? ho, hheld', hready, hyields, Bool.false_eq_true, if_false, if_true]

variable {line : Nat} {l : Leaf} (hfirst : (s.modOp op ({ · with started := true })).stepYields op = false)
  (hplace : (s.modOp op ({ · with started := true })).stepPlace o (StepDesc.of o.record) (o.stage / (StepDesc.of o.record).lines)
    (o.stage % (StepDesc.of o.record).lines) = (z, .home line l))
include hfirst hplace

/-- A step that has its line's reservation goes on to the next line (R110, R111). -/
theorem cstepReserve_reserves {y : State} (hresv : z.reserve line (z.block o.blk).part l.policy (StepDesc.of o.record).carry op = some y) :
    exec (.cstepReserve op) s = .next ((y.modOp op fun o => { o with stage := o.stage + 1 }).push [.cstepReserve op]).done := by
  have hheld' : (s.putOp op { o with started := true }).opHeld op o = false := hheld
  have hready : (false || decide ((StepDesc.of o.record).npeer * (StepDesc.of o.record).lines ≤ o.stage)) = false := by simpa using hmore
  rw [modOp_of_get? ho] at hfirst hplace
  simp only [exec, execCstepReserve, ho, step_of_kind hkind, modOp_of_get? ho, hheld', hready, hfirst, hplace, hresv, Bool.false_eq_true,
    if_false]

/-- A step that finds no room ends NOSLOT, its reservations given back (R111). -/
theorem cstepReserve_refused (hresv : z.reserve line (z.block o.blk).part l.policy (StepDesc.of o.record).carry op = none) :
    exec (.cstepReserve op) s = .next ((((z.releaseResvs op).releasePeers o (StepDesc.of o.record)).stepFail op 1).stepEnd op
      ((StepDesc.of o.record).bytes * (StepDesc.of o.record).npeer)).done := by
  have hheld' : (s.putOp op { o with started := true }).opHeld op o = false := hheld
  have hready : (false || decide ((StepDesc.of o.record).npeer * (StepDesc.of o.record).lines ≤ o.stage)) = false := by simpa using hmore
  rw [modOp_of_get? ho] at hfirst hplace
  simp only [exec, execCstepReserve, ho, step_of_kind hkind, modOp_of_get? ho, hheld', hready, hfirst, hplace, hresv, Bool.false_eq_true,
    if_false]

end

/-- A step with nothing acknowledged that fails for want of room: what it leaves (R111). -/
theorem noslot_spec (hq : s.ops.get? op = some q) (hbar : q.bar = some b) (hstatus : q.status = 0) (hleft : ∀ n ∈ q.left, n ≠ 0)
    (hzero : (s.mbar q.core b).status = 0) (n : Nat) :
    Over op ((s.stepFail op 1).stepEnd op n) ∧ (((s.stepFail op 1).stepEnd op n).mbar q.core b).status = 1 := by
  have hfail : s.stepFail op 1 = s.putOp op { q with status := 1 } := by
    rw [stepFail, if_neg (by decide), modOp_of_get? hq, hstatus]
    rfl
  obtain ⟨hover, -, hend⟩ := stepEnd_spec (s := s.putOp op { q with status := 1 }) (get?_putOp s op _) hbar n
  rw [hfail]
  exact ⟨hover, hend hzero rfl hleft⟩

/-! Acknowledgments (R97, R111, R113). -/

/-- A line of a step that has more: its bytes are counted down. -/
theorem stepLine_more (hq : s.ops.get? op = some q) (hbar : q.bar = some b) (hone : q.regs.getD 0 0 ≠ 1) (hnone : q.regs.getD 0 0 ≠ 0) :
    Told s (s.stepLine op) ∧ (s.stepLine op).mbar q.core b = (s.mbar q.core b).countdown 128
      ∧ ∃ st, (s.stepLine op).ops.get? op = some { q with regs := [q.regs.getD 0 0 - 1], status := st } ∧ (q.status ≠ 0 → st = q.status) := by
  have hmore : ¬ q.regs.getD 0 0 - 1 = 0 := by omega
  have hline : s.stepLine op = (s.putOp op { q with regs := [q.regs.getD 0 0 - 1] }).countBytes op 128 := by
    rw [stepLine, hq]
    dsimp only
    rw [if_neg hmore, modOp_of_get? hq]
  obtain ⟨htold, hdown, hget⟩ := countBytes_spec (s := s.putOp op { q with regs := [q.regs.getD 0 0 - 1] }) (get?_putOp s op _) hbar 128
  rw [hline]
  exact ⟨(Told.putOp s op _).trans htold, hdown, hget⟩

/-- The last line of a step ends it. -/
theorem stepLine_last (hq : s.ops.get? op = some q) (hbar : q.bar = some b) (hone : q.regs.getD 0 0 = 1) :
    Over op (s.stepLine op) ∧ ∀ c, ((s.stepLine op).core c).leasemax = (s.core c).leasemax := by
  have hline : s.stepLine op = (s.putOp op { q with regs := [0] }).stepEnd op 128 := by
    rw [stepLine, hq]
    dsimp only
    rw [hone, modOp_of_get? hq]
    rfl
  obtain ⟨hover, hlease, -⟩ := stepEnd_spec (s := s.putOp op { q with regs := [0] }) (get?_putOp s op _) hbar 128
  rw [hline]
  exact ⟨hover, hlease⟩

/-- Whether a target's die has been declared dead (R113). -/
def targetLost (s : State) (o : EngOp) (target : Nat) : Prop :=
  let tgt := (StepDesc.of o.record).targets.getD target (0, 0, 0)
  tgt.2.1 = (s.die (dieOf o.core)).devId ∧ (s.die tgt.2.2).dead = true

/-- A line of a target is acknowledged: the core's LEASEMAX takes the lease's end, and the target has 128 bytes less to come. -/
def lineAcked (s : State) (op target lend : Nat) (o : EngOp) : State :=
  (s.modCore o.core fun c => { c with leasemax := max c.leasemax lend }).putOp op { o with left := o.left.modify target (· - 128) }

theorem cstepLineAck_counts (ho : s.ops.get? op = some o) {target : Nat} (halive : ¬ s.targetLost o target) (lend : Nat) :
    exec (.cstepLineAck op target lend) s = .next ((s.lineAcked op target lend o).stepLine op).done := by
  have hcond : ¬ (decide (((StepDesc.of o.record).targets.getD target (0, 0, 0)).2.1 = (s.die (dieOf o.core)).devId)
      && (s.die ((StepDesc.of o.record).targets.getD target (0, 0, 0)).2.2).dead) = true := by
    rwa [Bool.and_eq_true, decide_eq_true_iff]
  have ho' : (s.modCore o.core fun c => { c with leasemax := max c.leasemax lend }).ops.get? op = some o := ho
  simp only [exec, execCstepLineAck, ho, if_neg hcond, modOp_of_get? ho']
  rfl

theorem cstepLineAck_lost (ho : s.ops.get? op = some o) {target : Nat} (hlost : s.targetLost o target) (hentered : o.entered = false)
    (lend : Nat) :
    exec (.cstepLineAck op target lend) s = .next ((s.putOp op { o with status := 2, entered := true }).stepLine op).done := by
  have hcond : (decide (((StepDesc.of o.record).targets.getD target (0, 0, 0)).2.1 = (s.die (dieOf o.core)).devId)
      && (s.die ((StepDesc.of o.record).targets.getD target (0, 0, 0)).2.2).dead) = true := by
    rwa [Bool.and_eq_true, decide_eq_true_iff]
  simp only [exec, execCstepLineAck, ho, if_pos hcond, stepStop, modOp_of_get? ho, hentered, Bool.false_eq_true, if_false]

/-- An acknowledged line's lease is in the core's LEASEMAX (R97). -/
theorem leasemax_lineAcked (s : State) (op target lend : Nat) (o : EngOp) :
    lend ≤ ((s.lineAcked op target lend o).core o.core).leasemax := by
  have hcore := s.core_modCore o.core fun c => { c with leasemax := max c.leasemax lend }
  exact (Nat.le_max_right _ _).trans (congrArg Core.leasemax hcore :).ge

theorem mbar_lineAcked (s : State) (op target lend : Nat) (o : EngOp) (core off : Nat) :
    (s.lineAcked op target lend o).mbar core off = s.mbar core off :=
  mbar_of_sameBytes (s.sameBytes_modCore o.core (fun c => { c with leasemax := max c.leasemax lend }) fun _ => rfl) core off

end State

end Sys2Proof.Machine
end

section
/-!
PROOFS. The lines of a step delivered at their homes (R110, R111), and CSTEP as it issues (R109).
-/

namespace Sys2Proof.Machine

namespace State
variable {s t z : State} {line part op target : Nat} {x : SliceLine} {o : EngOp} {acc plain : Bool}
  {p : Policy} {carry : CarryOp} {data : List Byte}

/-! A line that no one has (R80). -/

theorem letIn_keepOld (s : State) (line : Nat) : LetIn line s (s.keepOld line) :=
  .withDir s line (KeepsRecord.ite (c := fun e => e.covers line) (g := fun e => { e with was := e.was <|> some (e.st, e.dies) })
    ⟨fun _ => rfl, fun _ => rfl, fun _ => rfl, fun _ => rfl⟩) s.txns

theorem letIn_dropOld (s : State) (line : Nat) : LetIn line s (s.dropOld line) :=
  .withDir s line (KeepsRecord.ite (c := fun e => e.covers line) (g := fun e => { e with was := none })
    ⟨fun _ => rfl, fun _ => rfl, fun _ => rfl, fun _ => rfl⟩) s.txns

theorem LetIn.resv_eq (h : LetIn line s t) : t.resv = s.resv := (congrArg Copies.resv h.copies :)
theorem LetIn.wbs_eq (h : LetIn line s t) : t.wbs = s.wbs := (congrArg Copies.wbs h.copies :)

/-- There is nothing to collect of a line that no one has. -/
theorem letIn_collect (hst : s.dirState line = .u) (hresv : ∀ r ∈ s.resv, r.line ≠ line) (hwbs : ∀ w ∈ s.wbs, w.line ≠ line) (part : Nat) :
    LetIn line s (s.collect line part) := by
  have hkeep := s.letIn_keepOld line
  have hsettle : s.settleLine line = s := settle_of_none fun w hw => by simp [hwbs w hw]
  have hcollect : s.collect line part = (s.keepOld line).dropOld line := by
    have hmerge : (s.keepOld line).mergeResv line part = s.keepOld line := mergeResv_of_none (by rwa [hkeep.resv_eq]) part
    simp only [collect, hsettle, hkeep.state, hst, hmerge]
  rw [hcollect]
  exact hkeep.trans (letIn_dropOld _ line)

theorem letIn_collectForWrite (hst : s.dirState line = .u) (hresv : ∀ r ∈ s.resv, r.line ≠ line) (hwbs : ∀ w ∈ s.wbs, w.line ≠ line)
    (part : Nat) : LetIn line s (s.collectForWrite line part) := by
  have hcollect := letIn_collect hst hresv hwbs part
  have hkeep := hcollect.trans (letIn_keepOld _ line)
  have hwrite : s.collectForWrite line part = ((s.collect line part).keepOld line).dropOld line := by
    simp only [collectForWrite, hkeep.state, hst]
  rw [hwrite]
  exact hkeep.trans (letIn_dropOld _ line)

/-! A line delivered at its home (R111). -/

/-- Nothing more than a partial's combination into the home's copy, and the writer's name: a PLAIN delivery of a line no one has. -/
theorem deliverLine_plain_spec (hst : s.dirState line = .u) (hresv : ∀ r ∈ s.resv, r.line ≠ line) (hwbs : ∀ w ∈ s.wbs, w.line ≠ line)
    (hx : s.sliceLine line = some x) (part : Nat) (p : Policy) (core : Nat) (carry : CarryOp) (id : Nat) (data : List Byte) :
    HomeStep 0 s (s.deliverLine line part p (some core) carry true id data)
      ∧ (s.deliverLine line part p (some core) carry true id data).homeData line = carry.mergeLine (s.homeData line) data := by
  obtain ⟨u, hu, hin⟩ : ∃ u, (if p.leaves then s.mergeResv line part else s.collectForWrite line part) = u ∧ LetIn line s u := by
    split
    · exact ⟨s, mergeResv_of_none hresv part, .refl line s⟩
    · exact ⟨_, rfl, letIn_collectForWrite hst hresv hwbs part⟩
  obtain ⟨y, hy, hsame, -⟩ := hin.slice x hx
  obtain ⟨w, hmerge, hdata⟩ := SliceStep.mergeCarry hy part carry data
  have hdeliver : s.deliverLine line part p (some core) carry true id data = (u.mergeCarry line part carry data).setWriter line core := by
    simp only [deliverLine, hu, if_true]
  have hstep := hin.homeStep.trans hmerge.homeStep
  have hdir : Grown s.dir ((u.mergeCarry line part carry data).setWriter line core).dir 0 :=
    hstep.dir.trans (.map (g := fun e => if e.covers line then { e with writer := some core } else e) _ fun e => by split <;> rfl)
  rw [hdeliver]
  refine ⟨⟨hstep.beyond, hstep.mem, hstep.regs, hdir⟩, ?_⟩
  rw [homeData_of_sliceLine hx, ← hsame, ← hdata]
  exact (hmerge.homeData_eq :)

/-- The reservations of a line take a contribution of a step, which needs its own no more. -/
def contributed (s : State) (line : Nat) (carry : CarryOp) (id : Nat) (data : List Byte) : State :=
  { s with resv := s.resv.map fun (r : Resv) =>
      if r.line = line then { r with data := carry.mergeLine r.data data, steps := r.steps.filter (· != id) } else r }

theorem deliverLine_reserved (h : s.reserved line carry = true) (part : Nat) (p : Policy) (core : Option Nat) (id : Nat) (data : List Byte) :
    s.deliverLine line part p core carry false id data = s.contributed line carry id data := by
  simp only [deliverLine, h, Bool.false_eq_true, if_false, if_true]
  rfl

/-- A line delivered, and what its acknowledgment clears: the directory had room (R68, R97). -/
theorem ackClears_dirRoom_eq (h : HomeStep 0 s t) (hspare : s.dirSpare line 0) (die : Nat) :
    ∃ l1 rdc, (t.ackClears die line).dirRoom line = { t with l1 := l1, rdc := rdc } := by
  obtain ⟨l1, rdc, hclears⟩ := t.ackClears_eq die line
  exact ⟨l1, rdc, by rw [hclears]; exact dirRoom_eq (t := { t with l1 := l1, rdc := rdc }) hspare h.regs h.dir⟩

/-- A line whose home is reached is delivered there and acknowledged (R110, R111). -/
theorem exec_cstepDeliver {n : Nat} {l : Leaf} (ho : s.ops.get? op = some o) (hkind : o.kind = .cstep acc plain)
    (hgoes : o.entered = false) (hfresh : acc = false → s.staleRange o.core (o.off + 128 * n) 128 = false)
    (hplace : s.stepPlace o (StepDesc.of o.record) target n = (z, .home line l)) :
    let t := z.deliverLine line (z.block o.blk).part l.policy (some o.core) (StepDesc.of o.record).carry plain op (s.stepSource o acc n)
    let u := (t.ackClears (dieOf o.core) line).dirRoom line
    exec (.cstepDeliver op target n) s = .next (u.push [.cstepLineAck op target (u.ackLend line)]).done := by
  have hfresh' : (!acc && s.staleRange o.core (o.off + 128 * n) 128) = false := by
    cases acc with
    | true => rfl
    | false => rw [hfresh rfl, Bool.and_false]
  simp only [exec, execCstepDeliver, ho, step_of_kind hkind, hgoes, hfresh', hplace, Bool.false_eq_true, if_false]

/-- A line delivered in one step at the home: what the delivery itself leaves is what is left. -/
theorem cstepDeliver_spec {n : Nat} {l : Leaf} (ho : s.ops.get? op = some o) (hkind : o.kind = .cstep acc plain)
    (hgoes : o.entered = false) (hfresh : acc = false → s.staleRange o.core (o.off + 128 * n) 128 = false)
    (hplace : s.stepPlace o (StepDesc.of o.record) target n = (z, .home line l)) (hspare : z.dirSpare line 0)
    (ht : z.deliverLine line (z.block o.blk).part l.policy (some o.core) (StepDesc.of o.record).carry plain op (s.stepSource o acc n) = t)
    (hstep : HomeStep 0 z t) :
    ∃ u m, exec (.cstepDeliver op target n) s = .next u ∧ u.out = .done ∧ z.sameBytes u ∧ .cstepLineAck op target m ∈ u.agenda
      ∧ u.resv = t.resv ∧ u.homeData line = t.homeData line := by
  obtain ⟨l1, rdc, hroom⟩ := ackClears_dirRoom_eq hstep hspare (dieOf o.core)
  have hexec := exec_cstepDeliver ho hkind hgoes hfresh hplace
  dsimp only at hexec
  rw [ht, hroom] at hexec
  exact ⟨_, _, hexec, rfl, sameBytes_of_beyond (t := State.done _) hstep.mem hstep.beyond, List.mem_append_right _ List.mem_cons_self, rfl, rfl⟩

/-! CSTEP at issue (R109, R111). -/

/-- The operation of a CSTEP as its warp hands it over. -/
def stepOp (s : State) (acc plain tell : Bool) (src bar : Nat) (r : List Byte) : EngOp :=
  { s.mkOp (.cstep acc plain) with
    off := if acc then 0 else src, bar := some bar, t := tell, record := r, tile := src % 8
    left := List.replicate (StepDesc.of r).npeer (StepDesc.of r).bytes, regs := [(StepDesc.of r).npeer * (StepDesc.of r).lines] }

/-- A CSTEP may read its descriptor: it is aligned as its object and its source are, and covered, settled, unlocked and fresh. -/
structure StepReads (s : State) (acc : Bool) (src dsc bar : Nat) : Prop where
  acq : s.before.acq = []
  block : s.isTrap = false
  tile : acc = true → s.tileStale (src % 8) = none
  alignDesc : dsc % 256 = 0
  alignBar : bar % 16 = 0
  alignSrc : acc = false → src % 128 = 0
  coverDesc : s.padCovered s.myBlk dsc 256 = true
  coverBar : s.padCovered s.myBlk bar 16 = true
  settled : s.unsettled s.cur s.chainId [s.padRange dsc 256] = false
  unlocked : s.engineWaits s.myCore [s.padRange dsc 256] [] = false
  fresh : s.staleRange s.myCore dsc 256 = false

section
variable {pl tt : BitVec 1} {sr : BitVec 2} {a b d : BitVec 6} {src dsc bar : Nat}
  (hgo : s.gate (.cstep pl sr a b d tt) = .go) (hsrc : (s.before.sreg a.toNat).toNat = src) (hdsc : (s.before.sreg b.toNat).toNat = dsc)
  (hbar : (s.before.sreg d.toNat).toNat = bar) (hreads : StepReads s (sr == 1) src dsc bar)
include hgo hsrc hdsc hbar hreads

/-- A CSTEP with a bad descriptor (R110, R111). -/
theorem exec_cstep_bad (hbad : (StepDesc.of (s.padRead s.myCore dsc 256)).ok (s.padRead s.myCore dsc 256) (sr == 1) = false) :
    exec (.cstep pl sr a b d tt) s = .next (s.raise { cause := .bounds, addr := dsc }) := by
  obtain ⟨hacq, hblock, htile, hd, hb, hs, hcd, hcb, hsettled, hunlocked, hfresh⟩ := hreads
  have hwait : (s.unsettled s.cur s.chainId [s.padRange dsc 256] || s.engineWaits s.myCore [s.padRange dsc 256] []) = false := by
    rw [hsettled, hunlocked]; rfl
  have hsrc' : (!(sr == 1) && decide (src % 128 ≠ 0)) = false := by
    cases hacc : sr == 1 with
    | true => rfl
    | false => simp [hs hacc]
  simp only [exec, execCstep, s.issue_go hgo, acqHolds_of_nil hacq, hblock, hsrc, hdsc, hbar, hd, hb, hsrc', hcd, hcb, hwait, hfresh, hbad,
    ne_eq, not_true, Bool.not_true, Bool.not_false, Bool.false_eq_true, if_false, if_true]
  cases hacc : sr == 1 with
  | true =>
    rw [if_pos rfl, onTile, htile hacc]
  | false => exact congrArg _ (if_neg Bool.false_ne_true)

/-- A CSTEP with a good descriptor is handed over, its source locked (R109, R111). -/
theorem exec_cstep_good (hok : (StepDesc.of (s.padRead s.myCore dsc 256)).ok (s.padRead s.myCore dsc 256) (sr == 1) = true)
    (hfree : (sr == 1) = true → src % 8 < s.myBlock.nacc ∧ s.tileBusy s.myBlk (src % 8) = false)
    (hcover : (sr == 1) = false → s.padCovered s.myBlk src (StepDesc.of (s.padRead s.myCore dsc 256)).bytes = true) {srcs : List Range}
    (hsrcs : (if (sr == 1) then [] else [s.padRange src (StepDesc.of (s.padRead s.myCore dsc 256)).bytes]) = srcs)
    (hlocks : s.locksWait s.myCore srcs [] = false) :
    exec (.cstep pl sr a b d tt) s = .next ((s.accept (s.stepOp (sr == 1) (pl == 1) (tt == 1) src bar (s.padRead s.myCore dsc 256)) srcs []
      (if (sr == 1) then some (s.myBlk, src % 8) else none)).2.push [.cstepReserve s.nextId]).done := by
  obtain ⟨hacq, hblock, htile, hd, hb, hs, hcd, hcb, hsettled, hunlocked, hfresh⟩ := hreads
  have hwait : (s.unsettled s.cur s.chainId [s.padRange dsc 256] || s.engineWaits s.myCore [s.padRange dsc 256] []) = false := by
    rw [hsettled, hunlocked]; rfl
  cases hacc : sr == 1 with
  | true =>
    obtain ⟨hnacc, hbusy⟩ := hfree hacc
    have hnacc' : ¬ s.myBlock.nacc ≤ src % 8 := Nat.not_le.mpr hnacc
    subst hsrcs
    rw [hacc] at hok hlocks
    rw [if_pos rfl] at hlocks
    simp only [exec, execCstep, s.issue_go hgo, acqHolds_of_nil hacq, hblock, hsrc, hdsc, hbar, hd, hb, hcd, hcb, hwait, hfresh, hacc, hok,
      hnacc', hbusy, hlocks, htile hacc, onTile, ne_eq, not_true, Bool.not_true, Bool.false_and, Bool.true_and, decide_false, Bool.false_eq_true,
        if_false, if_true]
    rfl
  | false =>
    subst hsrcs
    rw [hacc] at hok hlocks
    rw [if_neg Bool.false_ne_true] at hlocks
    simp only [exec, execCstep, s.issue_go hgo, acqHolds_of_nil hacq, hblock, hsrc, hdsc, hbar, hd, hb, hs hacc, hcd, hcb, hwait, hfresh, hacc, hok,
      hcover hacc, hlocks, ne_eq, not_true, Bool.not_true, Bool.not_false, Bool.false_and, Bool.true_and, decide_false, Bool.false_eq_true,
      if_false]
    rfl

end

end State

/-- Settles O37: CSTEP by its descriptor, a reservation by what stands at its home, a delivery by whether it is PLAIN, and an
acknowledgment by whether lines are left and the target is alive. -/
theorem copySteps : Obligations.CopySteps := by
  unfold Obligations.CopySteps
  refine ⟨?_, ?_⟩
  · intro s p tt sr a b d acc src dsc bar r x srcs hgo hacq hblock htile halignDesc halignBar halignSrc hcoverDesc hcoverBar hsettled
      hunlocked hfresh
    have hreads : State.StepReads s acc src dsc bar :=
      ⟨hacq, hblock, htile, halignDesc, halignBar, halignSrc, hcoverDesc, hcoverBar, hsettled, hunlocked, hfresh⟩
    refine ⟨fun hbad => State.exec_cstep_bad hgo rfl rfl rfl hreads hbad, fun hok hfree hcover hlocks => ?_⟩
    exact ⟨_, s.stepOp acc (p == 1) (tt == 1) src bar r, State.exec_cstep_good hgo rfl rfl rfl hreads hok hfree hcover rfl hlocks, rfl, rfl,
      State.sameBytes_of rfl rfl, Tab.get?_put_same _ _ _, rfl, rfl, rfl, rfl, rfl, rfl,
      ⟨_, List.mem_append_right _ List.mem_cons_self, rfl, rfl, rfl⟩, rfl⟩
  · intro s op target line lend bar o acc plain ho hkind hbar x z
    have hz : z = s.putOp op { o with started := true } := State.modOp_of_get? ho _
    refine ⟨fun hheld hall => ?_, fun hheld hplain hmore hyields => ?_, fun hheld hplain hmore hfirst z' ln l hplace hop => ?_,
      fun hgoes hfresh z' ln l hplace hspare => ?_, ?_⟩
    · refine ⟨_, State.cstepReserve_delivers ho hkind hheld hall, rfl, ?_⟩
      exact congrArg (· ++ _) (congrArg State.agenda hz :)
    · subst hplain
      rw [State.cstepReserve_yields ho hkind hheld hmore hyields, State.modOp_of_get? ho, hz]
      rfl
    · subst hplain
      refine ⟨fun y hresv hy => ?_, fun hresv v q hv hq hcore hqbar hstatus hleft hzero => ?_⟩
      · have hexec := State.cstepReserve_reserves ho hkind hheld hmore hfirst hplace hresv
        rw [State.modOp_of_get? hy] at hexec
        exact ⟨_, hexec, rfl, rfl, congrArg (Option.map (·.stage)) (State.get?_putOp y op _)⟩
      · have hexec := State.cstepReserve_refused ho hkind hheld hmore hfirst hplace hresv
        rw [show (z'.releaseResvs op).releasePeers o (StepDesc.of o.record) = v from hv] at hexec
        rw [← hcore] at hzero ⊢
        obtain ⟨hover, hone⟩ := State.noslot_spec hq hqbar hstatus hleft hzero (x.bytes * x.npeer)
        exact ⟨_, hexec, rfl, hover.op, hover.locks, hover.resv, hone⟩
    · refine ⟨fun hplain hst hresv hwbs hslice => ?_, fun hplain hreserved => ?_⟩
      · subst hplain
        obtain ⟨w, hw⟩ := Option.isSome_iff_exists.mp hslice
        obtain ⟨hstep, hdata⟩ := State.deliverLine_plain_spec hst hresv hwbs hw (z'.block o.blk).part l.policy o.core x.carry op
          (s.stepSource o acc line)
        obtain ⟨u, m, hexec, hout, hbytes, hack, -, hhome⟩ := State.cstepDeliver_spec ho hkind hgoes hfresh hplace hspare rfl hstep
        exact ⟨u, m, hexec, hout, hbytes, hack, hhome.trans hdata⟩
      · subst hplain
        have hdeliver := State.deliverLine_reserved hreserved (z'.block o.blk).part l.policy (some o.core) op (s.stepSource o acc line)
        obtain ⟨u, m, hexec, hout, hbytes, hack, hresv, hhome⟩ := State.cstepDeliver_spec ho hkind hgoes hfresh hplace hspare hdeliver
          ⟨rfl, rfl, rfl, .refl _⟩
        exact ⟨u, m, hexec, hout, hbytes, hack, hresv, hhome⟩
    · intro tgt lost left
      refine ⟨fun halive hone hnone => ?_, fun halive hone => ?_, fun hlost hone hnone hgoes => ?_⟩
      · obtain ⟨htold, hdown, st, hget, -⟩ := State.stepLine_more (s := s.lineAcked op target lend o) (State.get?_putOp _ op _) hbar hone hnone
        refine ⟨_, _, State.cstepLineAck_counts ho halive lend, rfl, hget, rfl, rfl, hdown.trans ?_, ?_⟩
        · rw [State.mbar_lineAcked]
        · exact (State.leasemax_lineAcked s op target lend o).trans (htold.lease o.core).ge
      · obtain ⟨hover, hlease⟩ := State.stepLine_last (s := s.lineAcked op target lend o) (State.get?_putOp _ op _) hbar hone
        refine ⟨_, State.cstepLineAck_counts ho halive lend, rfl, hover.op, hover.locks, hover.resv, ?_⟩
        exact (State.leasemax_lineAcked s op target lend o).trans (hlease o.core).ge
      · obtain ⟨-, -, st, hget, hkept⟩ := State.stepLine_more (s := s.putOp op { o with status := 2, entered := true })
          (State.get?_putOp s op _) hbar hone hnone
        exact ⟨_, _, State.cstepLineAck_lost ho hlost hgoes lend, rfl, hget, hkept (Nat.succ_ne_zero 1), rfl, rfl, rfl⟩

end Sys2Proof.Machine
end

section
/-!
PROOFS. Inbound requests, peers, device time and boot (R350 to R352, R355 to R358, R399).
-/

namespace Sys2Proof.Machine
namespace State
variable {s z z' : State} {hd : Sender} {g : Grant} {key pa n fn v : Nat} {w64 write : Bool} {bytes d : List Byte}

/-! What lets a request in (R352). -/

/-- A request is admitted only once the ports are open, by a valid grant of its port that covers it, and for writing only
by one that allows it. -/
theorem admitted_spec {port : Nat} (h : s.admitted port key pa n write = some g) :
    g = s.grant (portDie port) key ∧ s.opened = true ∧ key < 64 ∧ g.valid = true ∧ (write = true → g.writes = true)
      ∧ g.lo ≤ pa ∧ pa + n ≤ g.lo + g.len := by
  unfold admitted at h
  dsimp only at h
  split at h
  next => cases h
  next hok =>
    obtain rfl := Option.some.inj h
    simp only [Bool.or_eq_true, Bool.and_eq_true, Bool.not_eq_true', decide_eq_true_eq, not_or, not_and, Bool.not_eq_false,
      Nat.not_lt, Nat.not_le] at hok
    obtain ⟨⟨⟨⟨⟨⟨hopen, hkey⟩, hvalid⟩, hlo⟩, hhi⟩, hwrites⟩, -⟩ := hok
    exact ⟨rfl, hopen, hkey, hvalid, hwrites, hlo, hhi⟩

theorem grant_lo (s : State) (die key : Nat) : (s.grant die key).lo = (s.die die).ingBase.get key 0 := rfl

theorem grant_len (s : State) (die key : Nat) : (s.grant die key).len = (s.die die).ingCtl.get key 0 % 2 ^ 36 * 2 ^ 16 :=
  congrArg (· * 2 ^ 16) (bits_zero _ 36)

/-! INBOUND_MREAD (R351, R352, R355). -/

theorem exec_inboundMread_refused (h : s.admitted hd.port key pa n false = none) :
    exec (.inboundMread hd key pa n) s = .next (s.reply hd 1 []).done := by
  change execInboundMread hd key pa n s = _
  rw [execInboundMread, h]

theorem exec_inboundMread_held (h : s.admitted hd.port key pa n false = some g) (hheld : s.inboundHeld pa n g.part = true) :
    exec (.inboundMread hd key pa n) s = .next s.wait := by
  change execInboundMread hd key pa n s = _
  rw [execInboundMread, h]
  exact congrArg Host.Outcome.next (if_pos hheld)

theorem exec_inboundMread_done (h : s.admitted hd.port key pa n false = some g) (hfree : s.inboundHeld pa n g.part = false)
    (hread : s.inboundRead g pa (piecesFrom pa (n / 128 + 2) n) = (z, none, d)) :
    exec (.inboundMread hd key pa n) s = .next (z.reply hd 0 d).done := by
  change execInboundMread hd key pa n s = _
  rw [execInboundMread, h]
  dsimp only
  rw [if_neg (Bool.eq_false_iff.mp hfree), hread]

/-! INBOUND_MWRITE (R351, R352, R355). -/

theorem exec_inboundMwrite_refused (h : s.admitted hd.port key pa bytes.length true = none) :
    exec (.inboundMwrite hd key pa bytes) s = .next (s.reply hd 1 []).done := by
  change execInboundMwrite hd key pa bytes s = _
  rw [execInboundMwrite, h]

theorem exec_inboundMwrite_held (h : s.admitted hd.port key pa bytes.length true = some g)
    (hheld : s.inboundHeld pa bytes.length g.part = true) : exec (.inboundMwrite hd key pa bytes) s = .next s.wait := by
  change execInboundMwrite hd key pa bytes s = _
  rw [execInboundMwrite, h]
  exact congrArg Host.Outcome.next (if_pos hheld)

theorem exec_inboundMwrite_done (h : s.admitted hd.port key pa bytes.length true = some g)
    (hfree : s.inboundHeld pa bytes.length g.part = false)
    (hwrite : s.inboundWrite g pa bytes (piecesFrom pa (bytes.length / 128 + 2) bytes.length) = (z, none)) :
    exec (.inboundMwrite hd key pa bytes) s = .next (z.reply hd 0 []).done := by
  change execInboundMwrite hd key pa bytes s = _
  rw [execInboundMwrite, h]
  dsimp only
  rw [if_neg (Bool.eq_false_iff.mp hfree), hwrite]

/-! INBOUND_MATOM (R153, R351). -/

theorem exec_inboundMatom_refused (h : s.admitted hd.port key pa (if w64 then 8 else 4) true = none) :
    exec (.inboundMatom hd key pa fn w64 v) s = .next (s.reply hd 1 []).done := by
  change execInboundMatom hd key pa fn w64 v s = _
  rw [execInboundMatom]
  dsimp only
  rw [h]

/-- An operation of the table of R153 at its own alignment is none of those INBOUND_MATOM refuses. -/
theorem matom_wellFormed {m : Nat} (halign : pa % m = 0) (hfn : fn < if w64 then 9 else 13) :
    ¬ (decide (pa % m ≠ 0) || decide (12 < fn) || (w64 && decide (8 < fn))) = true := by
  rw [Bool.or_eq_true, Bool.or_eq_true, Bool.and_eq_true, decide_eq_true_iff, decide_eq_true_iff, decide_eq_true_iff]
  have hlast : fn < 13 ∧ (w64 = true → fn < 9) := by
    cases w64 with
    | false => exact ⟨hfn, fun h => absurd h Bool.false_ne_true⟩
    | true => exact ⟨Nat.lt_of_lt_of_le hfn (by decide), fun _ => hfn⟩
  rintro ((h | h) | ⟨hw, h⟩)
  · exact h halign
  · exact Nat.not_le.mpr hlast.1 h
  · exact Nat.not_le.mpr (hlast.2 hw) h

theorem exec_inboundMatom_done {m : Nat} (hm : m = if w64 then 8 else 4) (h : s.admitted hd.port key pa m true = some g)
    (hfree : s.inboundHeld pa m g.part = false) (halign : pa % m = 0) (hfn : fn < if w64 then 9 else 13)
    (hread : s.readLine (inboundLine (pa / 128)) g.part g.ns .cached = (z, .bytes d))
    (hwrite : z.inboundWrite g pa (leBytes m (atomOp fn w64 (fieldAt d (pa % 128) m) (v % 2 ^ (8 * m)))) [m] = (z', none)) :
    exec (.inboundMatom hd key pa fn w64 v) s = .next (z'.reply hd 0 (leBytes m (fieldAt d (pa % 128) m))).done := by
  change execInboundMatom hd key pa fn w64 v s = _
  rw [execInboundMatom]
  dsimp only
  rw [← hm, h]
  dsimp only
  rw [if_neg (matom_wellFormed halign hfn), if_neg (Bool.eq_false_iff.mp hfree), hread]
  dsimp only
  rw [hwrite]

/-! A peer's staging and its notices (R119, R351). -/

section
variable {die idx line mask part code : Nat} {ns plain : Bool} {ask : CarryAsk} {x : VerEnt}

theorem exec_inboundBstage_closed (h : s.opened = false) :
    exec (.inboundBstage hd key die idx line mask bytes part ns) s = .next (s.reply hd 1 []).done := by
  change execInboundBstage hd key die idx line mask bytes part ns s = _
  rw [execInboundBstage]
  exact congrArg Host.Outcome.next (if_pos (by rw [h]; rfl))

theorem exec_inboundBstage_staged (hopen : s.opened = true) (hmem : isMemory (inboundLine line) = true)
    (htaken : s.notTaken (inboundLine line) part = false) (hcheck : s.homeCheck (inboundLine line) part ns false = none)
    (hheld : s.stageHeld (inboundLine line) (sideName hd.device die idx) 0 = false) {y : State} {a st : Nat}
    (hstage : (if (s.homeEnter (inboundLine line) part ns false).stageRefused (inboundLine line) (sideName hd.device die idx) 0 mask
        then s.homeEnter (inboundLine line) part ns false
        else (s.homeEnter (inboundLine line) part ns false).collectForWrite (inboundLine line) part).stageAt (inboundLine line)
          (sideName hd.device die idx) 0 mask bytes = (y, a, st)) :
    exec (.inboundBstage hd key die idx line mask bytes part ns) s
      = .next ((y.dirRoom (inboundLine line)).reply hd 0 (leBytes 1 a ++ leBytes 8 st)).done := by
  change execInboundBstage hd key die idx line mask bytes part ns s = _
  rw [execInboundBstage]
  dsimp only
  rw [if_neg (by rw [hopen, hmem]; exact Bool.false_ne_true), if_neg (by rw [htaken, hheld]; exact Bool.false_ne_true), hcheck]
  dsimp only
  rw [hstage]

theorem exec_inboundBnote_closed (h : s.opened = false) (kind : Nat) :
    exec (.inboundBnote hd kind key die idx line) s = .next (s.reply hd 1 []).done := by
  change execInboundBnote hd kind key die idx line s = _
  rw [execInboundBnote]
  exact congrArg Host.Outcome.next (if_pos (by rw [h]; rfl))

/-- The versions of a line that a discard notice leaves: all but those its bundle has staged there. -/
def keptVers (s : State) (line : Nat) (side : Word) : List VerEnt :=
  s.vers.filter fun v => !(v.line == line && v.staged && v.side == side)

theorem mem_keptVers {side : Word} (h : x ∈ s.keptVers line side) : x.line ≠ line ∨ x.staged = false ∨ x.side ≠ side := by
  have hkept := (List.mem_filter.mp h).2
  rw [Bool.not_eq_true', Bool.and_eq_false_iff, Bool.and_eq_false_iff, beq_eq_false_iff_ne, beq_eq_false_iff_ne, or_assoc] at hkept
  exact hkept

section
variable (hopen : s.opened = true) (hmem : isMemory (inboundLine line) = true)
include hopen hmem

/-- A peer's notice of any kind is taken once the ports are open. -/
theorem bnote_taken : ¬ (!s.opened || !isMemory (inboundLine line)) = true := by
  rw [hopen, hmem]
  exact Bool.false_ne_true

theorem exec_inboundBnote_discard :
    exec (.inboundBnote hd 1 key die idx line) s
      = .next (({ s with vers := s.keptVers (inboundLine line) (sideName hd.device die idx) } : State).reply hd 0 []).done := by
  change execInboundBnote hd 1 key die idx line s = _
  rw [execInboundBnote]
  exact congrArg Host.Outcome.next (if_neg (bnote_taken hopen hmem))

theorem exec_inboundBnote_forget :
    exec (.inboundBnote hd 2 key die idx line) s
      = .next ((s.forget (inboundLine line) (sideName hd.device die idx)).reply hd 0 []).done := by
  change execInboundBnote hd 2 key die idx line s = _
  rw [execInboundBnote]
  exact congrArg Host.Outcome.next (if_neg (bnote_taken hopen hmem))

theorem exec_inboundBnote_promote (hstaged : s.staged (inboundLine line) = some x) (hside : x.side = sideName hd.device die idx)
    (hnew : x.notice = none) :
    exec (.inboundBnote hd 0 key die idx line) s
      = .next ((s.setNotice x (some hd)).peerPromote (sideName hd.device die idx) (inboundLine line)).done := by
  change execInboundBnote hd 0 key die idx line s = _
  rw [execInboundBnote]
  dsimp only
  rw [if_neg (bnote_taken hopen hmem), hstaged]
  exact congrArg Host.Outcome.next (if_pos (by rw [hnew, decide_eq_true hside]; rfl))

end

/-! A peer's carries (R110, R111, R351). -/

theorem exec_inboundCarry_closed (h : s.opened = false) :
    exec (.inboundCarry hd key ⟨ask, code⟩ line bytes part ns) s = .next (s.reply hd 1 []).done := by
  change execInboundCarry hd key ⟨ask, code⟩ line bytes part ns s = _
  rw [execInboundCarry]
  exact congrArg Host.Outcome.next (if_pos (by rw [h]; rfl))

/-- What is left of the reservations when a peer gives back its own of a line. -/
def peerReleased (s : State) (hd : Sender) (line : Nat) : List Resv :=
  (s.resv.map fun r => if r.line = line then { r with steps := r.steps.erase (peerStep hd) } else r).filter fun r =>
    r.steps != [] || r.data != r.op.identityLine

theorem mem_of_mem_peerReleased {r : Resv} (h : r ∈ s.peerReleased hd line) (hr : r.line ≠ line) : r ∈ s.resv := by
  obtain ⟨q, hq, hqr⟩ := List.mem_map.mp (List.mem_filter.mp h).1
  split at hqr
  next hline => exact absurd (hqr ▸ hline) hr
  next => exact hqr ▸ hq

theorem mem_peerReleased {r : Resv} (h : r ∈ s.resv) (hr : r.line ≠ line) (hsteps : r.steps ≠ []) : r ∈ s.peerReleased hd line := by
  refine List.mem_filter.mpr ⟨List.mem_map.mpr ⟨r, h, if_neg hr⟩, ?_⟩
  rw [Bool.or_eq_true, bne_iff_ne]
  exact .inl hsteps

/-- The home of a line once a peer has delivered to it. -/
def peerDelivered (s : State) (hd : Sender) (code line : Nat) (bytes : List Byte) (part : Nat) (ns plain : Bool) : State :=
  ((s.homeEnter line part ns false).deliverLine line part .cached none { code := code } plain (peerStep hd) bytes).dirRoom line

section
variable (hopen : s.opened = true) (hmem : isMemory (inboundLine line) = true) (hcode : code ≤ 12)
include hopen hmem hcode

/-- A carry of a known OP to a line of memory is for its home once the ports are open. -/
theorem carry_taken : ¬ (!s.opened || !isMemory (inboundLine line) || decide (12 < code)) = true := by
  rw [hopen, hmem, decide_eq_false (Nat.not_lt.mpr hcode)]
  exact Bool.false_ne_true

theorem exec_inboundCarry_held (hheld : s.notTaken (inboundLine line) part = true) :
    exec (.inboundCarry hd key ⟨ask, code⟩ line bytes part ns) s = .next s.wait := by
  change execInboundCarry hd key ⟨ask, code⟩ line bytes part ns s = _
  rw [execInboundCarry]
  dsimp only
  rw [if_neg (carry_taken hopen hmem hcode), if_pos hheld]

variable (hfree : s.notTaken (inboundLine line) part = false)
include hfree

theorem exec_inboundCarry_release :
    exec (.inboundCarry hd key ⟨.release, code⟩ line bytes part ns) s
      = .next (({ s with resv := s.peerReleased hd (inboundLine line) } : State).reply hd 0 []).done := by
  change execInboundCarry hd key ⟨.release, code⟩ line bytes part ns s = _
  rw [execInboundCarry]
  dsimp only
  rw [if_neg (carry_taken hopen hmem hcode), if_neg (Bool.eq_false_iff.mp hfree)]
  rfl

variable (hcheck : s.homeCheck (inboundLine line) part ns false = none)
include hcheck

theorem exec_inboundCarry_reserved {y : State}
    (hresv : (s.homeEnter (inboundLine line) part ns false).reserve (inboundLine line) part .cached { code := code } (peerStep hd)
      = some y) :
    exec (.inboundCarry hd key ⟨.reserve, code⟩ line bytes part ns) s = .next (y.reply hd 0 (leBytes 1 0)).done := by
  change execInboundCarry hd key ⟨.reserve, code⟩ line bytes part ns s = _
  rw [execInboundCarry]
  dsimp only
  rw [if_neg (carry_taken hopen hmem hcode), if_neg (Bool.eq_false_iff.mp hfree), hcheck]
  dsimp only
  rw [hresv]

theorem exec_inboundCarry_noRoom
    (hresv : (s.homeEnter (inboundLine line) part ns false).reserve (inboundLine line) part .cached { code := code } (peerStep hd)
      = none) :
    exec (.inboundCarry hd key ⟨.reserve, code⟩ line bytes part ns) s
      = .next ((s.homeEnter (inboundLine line) part ns false).reply hd 0 (leBytes 1 1)).done := by
  change execInboundCarry hd key ⟨.reserve, code⟩ line bytes part ns s = _
  rw [execInboundCarry]
  dsimp only
  rw [if_neg (carry_taken hopen hmem hcode), if_neg (Bool.eq_false_iff.mp hfree), hcheck]
  dsimp only
  rw [hresv]

theorem exec_inboundCarry_delivers (hask : (ask, plain) ∈ ([(.deliver, false), (.plain, true)] : List (CarryAsk × Bool))) :
    let y := s.peerDelivered hd code (inboundLine line) bytes part ns plain
    exec (.inboundCarry hd key ⟨ask, code⟩ line bytes part ns) s
      = .next (y.reply hd 0 (leBytes 8 (y.ackLend (inboundLine line)))).done := by
  change execInboundCarry hd key ⟨ask, code⟩ line bytes part ns s = _
  rw [execInboundCarry]
  dsimp only
  rw [if_neg (carry_taken hopen hmem hcode), if_neg (Bool.eq_false_iff.mp hfree), hcheck]
  rcases List.mem_pair.mp hask with h | h <;> obtain ⟨rfl, rfl⟩ := Prod.mk.inj h <;> rfl

end
end

/-! Device time (R356). -/

/-- The clock steps by one, but where it is steered, and then by none or two. -/
theorem nextTime_bounds (s : State) : s.time ≤ s.nextTime ∧ s.nextTime ≤ s.time + 2 := by
  unfold nextTime
  split
  · split <;> omega
  · omega

theorem tick_time_unsteered (h : s.slews = false) : s.tick.time = s.time + 1 := if_neg (Bool.eq_false_iff.mp h)

theorem slews_eq_false (h : s.steer = 0 ∨ s.time < s.slewed + 10000) : s.slews = false := by
  rw [slews, Bool.and_eq_false_iff, bne_eq_false_iff_eq, decide_eq_false_iff_not, Nat.not_le]
  exact h

/-- A steered nanosecond takes one off what is still to be slewed, and notes when. -/
theorem tick_slewed (h : s.slews = true) : s.tick.slewed = s.tick.time
    ∧ (s.tick.time : Int) - (s.time + 1) = s.steer - s.tick.steer ∧ s.tick.steer.natAbs < s.steer.natAbs := by
  have hne : s.steer ≠ 0 := by
    rw [slews, Bool.and_eq_true, bne_iff_ne] at h
    exact h.1
  have htime : s.tick.time = if 0 < s.steer then s.time + 2 else s.time := if_pos h
  have hsteer : s.tick.steer = if 0 < s.steer then s.steer - 1 else s.steer + 1 := if_pos h
  refine ⟨if_pos h, ?_⟩
  rw [htime, hsteer]
  by_cases hpos : 0 < s.steer
  · rw [if_pos hpos, if_pos hpos]
    omega
  · rw [if_neg hpos, if_neg hpos]
    omega

/-! MODULE_BOOT (R357). -/

/-- Region 0's activation has been asked for on a die once it has begun there, and stays so; boot's own marks are kept. -/
theorem regionStart_spec (s : State) (die id : Nat) :
    id ∈ ((s.regionStart die id).die die).regBusy ∧ (s.regionStart die id).booted = s.booted
      ∧ (s.regionStart die id).opened = s.opened ∧ ∀ k, id ∈ (s.die k).regBusy → id ∈ ((s.regionStart die id).die k).regBusy := by
  unfold regionStart
  split
  next hbusy => exact ⟨List.contains_iff_mem.mp hbusy, rfl, rfl, fun _ h => h⟩
  next =>
    refine ⟨?_, rfl, rfl, fun k h => ?_⟩
    · rw [die_push, die_modDie]
      exact List.mem_cons_self
    · rw [die_push]
      by_cases hk : k = die
      · subst hk
        rw [die_modDie]
        exact List.mem_cons_of_mem _ h
      · rwa [die_modDie_other s hk]

theorem foldl_regionStart_spec (dies : List Nat) (id : Nat) (s : State) :
    let t := dies.foldl (fun s die => s.regionStart die id) s
    t.booted = s.booted ∧ t.opened = s.opened ∧ ∀ k, k ∈ dies ∨ id ∈ (s.die k).regBusy → id ∈ (t.die k).regBusy := by
  induction dies generalizing s with
  | nil => exact ⟨rfl, rfl, fun k h => h.resolve_left List.not_mem_nil⟩
  | cons die dies ih =>
    obtain ⟨hstarted, hbooted, hopened, hkept⟩ := s.regionStart_spec die id
    obtain ⟨ihbooted, ihopened, ihbusy⟩ := ih (s.regionStart die id)
    refine ⟨ihbooted.trans hbooted, ihopened.trans hopened, fun k h => ihbusy k ?_⟩
    rcases h with h | h
    · rcases List.mem_cons.mp h with rfl | h
      · exact .inr hstarted
      · exact .inl h
    · exact .inr (hkept k h)

theorem exec_moduleBoot_resets (h : s.opened = true) :
    exec .moduleBoot s = .next { reset with sched := s.sched, drawn := s.drawn }.done :=
  congrArg Host.Outcome.next (if_pos h)

theorem exec_moduleBoot_starts (hclosed : s.opened = false) (hnew : s.booted = false) :
    exec .moduleBoot s = .next (allDies.foldl (fun (s : State) d => s.regionStart d 0) { s with booted := true }).wait := by
  change execModuleBoot s = _
  rw [execModuleBoot, if_neg (Bool.eq_false_iff.mp hclosed), if_pos (by rw [hnew]; rfl)]

/-- Some die is still activating region 0. -/
theorem any_regBusy : (allDies.any fun d => (s.die d).regBusy.contains 0) = true ↔ ∃ d < 24, 0 ∈ (s.die d).regBusy := by
  simp only [allDies, List.any_eq_true, List.mem_range, List.contains_iff_mem]

theorem exec_moduleBoot_waits (hclosed : s.opened = false) (hbooted : s.booted = true) (hbusy : ∃ d < 24, 0 ∈ (s.die d).regBusy) :
    exec .moduleBoot s = .next s.wait := by
  change execModuleBoot s = _
  rw [execModuleBoot, if_neg (Bool.eq_false_iff.mp hclosed), if_neg (by rw [hbooted]; exact Bool.false_ne_true),
    if_pos (any_regBusy.mpr hbusy)]

theorem exec_moduleBoot_opens (hclosed : s.opened = false) (hbooted : s.booted = true) (hactive : ∀ d < 24, 0 ∉ (s.die d).regBusy) :
    exec .moduleBoot s = .next { s with opened := allDies.all (s.regionActive · 0) }.done := by
  have hidle : ¬ ∃ d < 24, 0 ∈ (s.die d).regBusy := fun ⟨d, hd, h⟩ => hactive d hd h
  change execModuleBoot s = _
  rw [execModuleBoot, if_neg (Bool.eq_false_iff.mp hclosed), if_neg (by rw [hbooted]; exact Bool.false_ne_true),
    if_neg (mt any_regBusy.mp hidle)]

end State

/-- Settles O50: a request of memory by its grant and what holds its lines, a peer's frame by what it asks at the line's
home, boot by what has begun, and each other event by what it does. -/
theorem inboundRequests : Obligations.InboundRequests := by
  unfold Obligations.InboundRequests
  refine ⟨?_, ?_⟩
  · intro s hd key pa n fn v w64 bytes replied waits m
    refine ⟨fun _ _ _ => rfl, State.exec_inboundMread_refused, State.exec_inboundMwrite_refused, State.exec_inboundMatom_refused,
      fun _ => State.exec_inboundMread_held, fun _ => State.exec_inboundMwrite_held, fun _ _ _ => State.exec_inboundMread_done,
      fun _ _ => State.exec_inboundMwrite_done, fun _ _ _ _ => State.exec_inboundMatom_done rfl, fun g hg => ?_⟩
    obtain ⟨rfl, hopen, hkey, hvalid, hwrites, hlo, hhi⟩ := State.admitted_spec hg
    rw [State.grant_lo] at hlo
    rw [State.grant_lo, State.grant_len] at hhi
    exact ⟨hopen, hkey, hvalid, fun hfn => hwrites (decide_eq_true hfn), hlo, hhi⟩
  · intro s hd port key die idx line mask part code v ns bytes ln z me replied op open'
    refine ⟨?_, ?_, ?_, State.exec_inboundBnote_forget, fun _ => State.exec_inboundBnote_promote, ?_, ?_, ?_, ?_, ?_, rfl, ?_, rfl,
      rfl, rfl, ?_, State.exec_moduleBoot_waits, State.exec_moduleBoot_opens, State.exec_moduleBoot_resets, ?_⟩
    · rintro ⟨hopen, hmem, hfree, hcheck⟩ hheld
      exact ⟨_, _, _, rfl, State.exec_inboundBstage_staged hopen hmem hfree hcheck hheld rfl⟩
    · intro h
      exact ⟨State.exec_inboundBstage_closed h, State.exec_inboundBnote_closed h v, fun _ => State.exec_inboundCarry_closed h⟩
    · intro hopen hmem
      exact ⟨_, State.exec_inboundBnote_discard hopen hmem, rfl, fun _ => State.mem_keptVers, rfl, rfl⟩
    · rintro ⟨hopen, hmem, hfree, hcheck⟩ hcode ⟨ask, plain⟩ hask
      exact State.exec_inboundCarry_delivers hopen hmem hcode hfree hcheck hask
    · rintro ⟨hopen, hmem, hfree, hcheck⟩ hcode y hresv
      exact State.exec_inboundCarry_reserved hopen hmem hcode hfree hcheck hresv
    · rintro ⟨hopen, hmem, hfree, hcheck⟩ hcode hresv
      exact State.exec_inboundCarry_noRoom hopen hmem hcode hfree hcheck hresv
    · rintro ⟨hopen, hmem, hfree, -⟩ hcode
      exact ⟨_, State.exec_inboundCarry_release hopen hmem hcode hfree, rfl, fun _ => State.mem_of_mem_peerReleased,
        fun _ => State.mem_peerReleased⟩
    · intro hopen hmem hcode hheld _
      exact State.exec_inboundCarry_held hopen hmem hcode hheld
    · obtain ⟨hge, hle⟩ := s.nextTime_bounds
      refine ⟨hge, hle, fun h => State.tick_time_unsteered (State.slews_eq_false h), fun h => State.tick_slewed ?_⟩
      exact Bool.of_not_eq_false fun hfalse => h (State.tick_time_unsteered hfalse)
    · intro hclosed hnew
      obtain ⟨hbooted, hopened, hbusy⟩ := State.foldl_regionStart_spec allDies 0 { s with booted := true }
      have hexec := State.exec_moduleBoot_starts hclosed hnew
      generalize allDies.foldl _ _ = u at hexec hbooted hopened hbusy
      exact ⟨u.wait, hexec, rfl, hbooted, hopened.trans hclosed, fun d hd => hbusy d (.inl (List.mem_range.mpr hd))⟩
    · exact ⟨_, rfl, rfl, by rw [State.die_done, State.die_modDie], State.sameBytes_of rfl rfl⟩

end Sys2Proof.Machine
end

section
/-!
PROOFS. The line requests of an access of global memory (R126, R131, R140): one a line, in the order of the lanes that
touch it, and the checks that every lane passes.
-/

namespace Sys2Proof.Machine

namespace State

variable {s : State} {lanes : List (Nat × Nat)} {size n : Nat}

/-- A piece joins the request of its line, or brings a new one. -/
def joinReq (qs : List Req) (q : Req) : List Req := if q ∈ qs then qs else qs ++ [q]

/-- The request for the line of an address of global memory. -/
def lineReq (va : Nat) : Req := { win := .global, vline := va / 128 }

/-- The line requests of lanes at addresses of global memory. -/
def lineReqs (lanes : List (Nat × Nat)) : List Req := lanes.foldl (fun qs e => joinReq qs (lineReq e.2)) []

theorem reqs_layOut (s : State) (size : Nat) (val cmp : Nat → Nat) (lanes : List (Nat × Nat)) :
    (s.layOut size val cmp (lanes.map fun e => (e.1, .global e.2))).2 = lineReqs lanes := by
  have hpieces : (lanes.map fun e => (e.1, Tgt.global e.2)).flatMap (fun e => (s.pieces e.1 size e.2).map fun p => (e.1, p))
      = lanes.map fun e => (e.1, Win.global, e.2, 0, size) := by
    rw [List.flatMap_map, List.map_eq_flatMap]
    rfl
  rw [layOut]
  dsimp only
  rw [hpieces, List.foldl_map]
  refine (List.foldl_hom Prod.snd fun r e => ?_).symm
  unfold joinReq lineReq
  dsimp only
  split
  next hmem =>
    cases hfind : r.2.findIdx? (· == ({ win := .global, vline := e.2 / 128 } : Req)) with
    | some i => rfl
    | none =>
      have hne := List.findIdx?_eq_none_iff.mp hfind _ hmem
      rw [beq_self_eq_true] at hne
      exact absurd hne Bool.noConfusion
  next hnew =>
    cases hfind : r.2.findIdx? (· == ({ win := .global, vline := e.2 / 128 } : Req)) with
    | none => rfl
    | some i =>
      obtain ⟨hi, heq, -⟩ := List.findIdx?_eq_some_iff_getElem.mp hfind
      exact absurd (beq_iff_eq.mp heq ▸ List.getElem_mem hi) hnew

/-- Every request is of a line of global memory. -/
theorem win_of_mem_lineReqs {q : Req} (h : q ∈ lineReqs lanes) : q.win = .global := by
  have hall : ∀ q ∈ lineReqs lanes, q.win = .global := by
    refine List.foldlRecOn (motive := fun qs : List Req => ∀ q ∈ qs, q.win = Win.global) lanes _
      (fun q hq => absurd hq List.not_mem_nil) fun qs hqs e _ => ?_
    unfold joinReq
    split
    · exact hqs
    · intro q hq
      rcases List.mem_append.mp hq with hq | hq
      · exact hqs q hq
      · rw [List.mem_singleton.mp hq]
        rfl
  exact hall q h

/-- No more requests than lanes. -/
theorem length_lineReqs_le (lanes : List (Nat × Nat)) : (lineReqs lanes).length ≤ lanes.length := by
  have hstep : ∀ (l : List (Nat × Nat)) (qs : List Req),
      (l.foldl (fun qs e => joinReq qs (lineReq e.2)) qs).length ≤ qs.length + l.length := by
    intro l
    induction l with
    | nil => exact fun qs => Nat.le_refl _
    | cons e l ih =>
      intro qs
      have hone : (joinReq qs (lineReq e.2)).length ≤ qs.length + 1 := by
        unfold joinReq
        split
        · exact Nat.le_succ _
        · rw [List.length_append, List.length_singleton]
      have hrest := ih (joinReq qs (lineReq e.2))
      rw [List.foldl_cons, List.length_cons]
      omega
  exact (hstep lanes []).trans (Nat.zero_add _).le

/-- Lanes that all touch one line make one request. -/
theorem lineReqs_of_one (hne : lanes ≠ []) (hline : ∀ e ∈ lanes, e.2 / 128 = n) : lineReqs lanes = [{ win := .global, vline := n }] := by
  obtain ⟨e, rest, rfl⟩ := List.exists_cons_of_ne_nil hne
  have hreq : ∀ e' ∈ e :: rest, lineReq e'.2 = { win := .global, vline := n } := fun e' he' => by rw [lineReq, hline e' he']
  rw [lineReqs, List.foldl_cons, hreq e List.mem_cons_self]
  refine List.foldlRecOn (motive := fun qs => qs = [({ win := .global, vline := n } : Req)]) rest _ rfl fun qs hqs e' he' => ?_
  rw [hqs, hreq e' (List.mem_cons_of_mem e he')]
  exact if_pos (List.mem_singleton_self _)

/-! The lanes and their checks (R126, R172). -/

theorem mem_lanesAt {addr : Nat → Nat} {e : Nat × Nat} :
    e ∈ s.lanesAt addr ↔ e.1 < 96 ∧ s.execMask.getLsbD e.1 = true ∧ e.2 = addr e.1 := by
  obtain ⟨l, a⟩ := e
  simp only [lanesAt, List.mem_map, mem_laneList, Prod.mk.injEq]
  constructor
  · rintro ⟨l', ⟨hl, hlane⟩, rfl, rfl⟩
    exact ⟨hl, hlane, rfl⟩
  · rintro ⟨hl, hlane, ha⟩
    exact ⟨l, ⟨hl, hlane⟩, rfl, ha.symm⟩

theorem length_lanesAt_le (s : State) (addr : Nat → Nat) : (s.lanesAt addr).length ≤ 96 := by
  rw [lanesAt, List.length_map, laneList]
  exact (List.length_filter_le _ _).trans (List.length_range (n := 96)).le

theorem lanesAt_ne_nil (h : s.execMask ≠ 0) (addr : Nat → Nat) : s.lanesAt addr ≠ [] := by
  intro hnil
  refine h (BitVec.eq_of_getLsbD_eq fun l hl => ?_)
  refine (Bool.eq_false_iff.mpr fun hlane => ?_).trans BitVec.getLsbD_zero.symm
  have hmem : (l, addr l) ∈ s.lanesAt addr := mem_lanesAt.mpr ⟨hl, hlane, rfl⟩
  rw [hnil] at hmem
  exact List.not_mem_nil hmem

/-- Where every lane passes, no failure is first. -/
theorem firstFailure_of_ok {l : List (Nat × Nat × Except (Nat × Cause) Tgt)} (h : ∀ e ∈ l, ∃ t, e.2.2 = .ok t) : firstFailure l = none := by
  unfold firstFailure
  generalize hbad : l.filterMap _ = bad
  have hnone : bad = [] := by
    rw [← hbad]
    refine List.filterMap_eq_nil_iff.mpr fun e he => ?_
    obtain ⟨t, ht⟩ := h e he
    rw [ht]
  rw [hnone]
  rfl

/-- Global, aligned addresses in no range lock pass the checks of bundle stores and view loads. -/
theorem plainCheck_passes {write : Bool} {addr : Nat → Nat}
    (h : ∀ l < 96, s.execMask.getLsbD l = true → addr l % size = 0 ∧ addr l < 2 ^ 56 ∧ s.lockedVa (addr l) size write = false) :
    s.plainCheck write size (s.lanesAt addr) = none := by
  refine firstFailure_of_ok fun x hx => ?_
  obtain ⟨⟨l, a⟩, he, rfl⟩ := List.mem_map.mp hx
  obtain ⟨hl, hlane, ha⟩ := mem_lanesAt.mp he
  obtain ⟨halign, htop, hfree⟩ := h l hl hlane
  dsimp only at ha
  subst ha
  refine ⟨.global (addr l), ?_⟩
  dsimp only
  rw [if_neg (Nat.not_le.mpr (show addr l < vaTop from htop)), if_neg (not_not_intro halign), hfree]
  rfl

end State

end Sys2Proof.Machine
end

section
/-!
PROOFS. The bundle directory (R115, R116, R120): a record written in memory by its home, and what that leaves alone.
-/

namespace Sys2Proof.Machine

namespace State

/-- From `s` to `t` homes have been at work: the records of bundles and the flights stand as they did, and messages were
only sent. -/
structure Aside (s t : State) : Prop where
  brecs : t.brecs = s.brecs
  flights : t.flights = s.flights
  agenda : s.agenda ⊆ t.agenda

variable {s t u : State}

theorem Aside.refl (s : State) : Aside s s := ⟨rfl, rfl, fun _ h => h⟩

theorem Aside.trans (h : Aside s t) (g : Aside t u) : Aside s u :=
  ⟨g.brecs.trans h.brecs, g.flights.trans h.flights, fun _ hi => g.agenda (h.agenda hi)⟩

/-- Another part of the state is rewritten. -/
theorem Aside.edit (h : (t.brecs, t.flights, t.agenda) = (s.brecs, s.flights, s.agenda)) : Aside s t := by
  rw [Prod.mk.injEq, Prod.mk.injEq] at h
  obtain ⟨hrecs, hflights, hagenda⟩ := h
  exact ⟨hrecs, hflights, fun _ hi => hagenda ▸ hi⟩

theorem Aside.ite {p : Prop} [Decidable p] (h : Aside s t) (g : Aside s u) : Aside s (if p then t else u) := by
  split
  · exact h
  · exact g

theorem Aside.foldl {α : Type} {f : State → α → State} (h : ∀ s a, Aside s (f s a)) (l : List α) (s : State) : Aside s (l.foldl f s) := by
  induction l generalizing s with
  | nil => exact .refl s
  | cons a l ih => exact (h s a).trans (ih _)

variable (s)

theorem aside_push (is : List Instr) : Aside s (s.push is) := ⟨rfl, rfl, fun _ hi => List.mem_append_left _ hi⟩
theorem aside_pushNew (i : Instr) : Aside s (s.pushNew i) := .ite (.refl s) (s.aside_push _)

/-! The home slice (R79, R80, R105). -/

theorem aside_cleanSlice (line : Nat) : Aside s (s.cleanSlice line) := by
  unfold cleanSlice
  split
  · exact .ite (.edit rfl) (.refl s)
  · exact .refl s

theorem aside_dropSlice (line : Nat) : Aside s (s.dropSlice line) := by
  unfold dropSlice
  split
  · exact .edit rfl
  · exact .refl s

theorem aside_fillSlice (line part : Nat) (ns stream : Bool) : Aside s (s.fillSlice line part ns stream) := by
  have hends : ∀ (v : State) (l : List SliceLine), Aside s v → Aside s { v.count line false with slices := l } :=
    fun _ _ h => h.trans (.edit rfl)
  unfold fillSlice
  split
  · unfold touchSlice
    split
    · exact .edit rfl
    · exact .refl s
  · refine hends _ _ (.ite ?_ (.refl s))
    split
    · exact (s.aside_cleanSlice _).trans (aside_dropSlice _ _)
    · exact .refl s

theorem aside_setHomeData (line : Nat) (g : List Byte → List Byte) : Aside s (s.setHomeData line g) := by
  have hstage : Aside s (s.restage line g) := .ite (.refl s) (.edit rfl)
  unfold setHomeData
  dsimp only
  split
  · exact hstage.trans (.edit rfl)
  · exact hstage.trans (.edit rfl)

theorem aside_notify (line : Nat) : Aside s (s.notify line) :=
  .foldl (fun v _ => .foldl (fun w _ => .ite (w.aside_pushNew _) (.refl w)) _ v) _ s

theorem aside_homeWrite (line part : Nat) (g : List Byte → List Byte) (whole : Bool) : Aside s (s.homeWrite line part g whole) := by
  have hbump : ∀ v : State, Aside v (v.bumpVer line part) := fun v => by
    unfold bumpVer
    split
    · exact .edit rfl
    · exact .edit rfl
  have hdata := (s.aside_setHomeData line g).trans (hbump _)
  have hends : ∀ v, Aside s v → Aside s (v.notify line) := fun v hv => hv.trans (v.aside_notify line)
  exact hends _ (.ite (hdata.trans (.edit rfl)) hdata)

theorem aside_mergeCarry (line part : Nat) (op : CarryOp) (d : List Byte) : Aside s (s.mergeCarry line part op d) := by
  have hends : ∀ v, Aside s v → Aside s (v.homeWrite line part (op.mergeLine · d) false) :=
    fun v hv => hv.trans (v.aside_homeWrite line part _ false)
  have hcount : Aside s (s.count line false) := .edit rfl
  exact hends _ (.ite (.refl s) hcount)

theorem aside_mergeResv (line part : Nat) : Aside s (s.mergeResv line part) :=
  (Aside.foldl (fun v (r : Resv) => v.aside_mergeCarry line part r.op r.data) _ s).trans (.edit rfl)

theorem aside_takeBack (line part : Nat) (op : Option CarryOp) (d : List Byte) (ns : Bool) (tag : Tag) (stream : Bool) :
    Aside s (s.takeBack line part op d ns tag stream) := by
  have htag : ∀ (v : State) (x : Tag), Aside v (v.setHomeTag line part x) := fun v x => by
    unfold setHomeTag
    split
    · exact .edit rfl
    · exact .edit rfl
  unfold takeBack
  refine (s.aside_fillSlice line part ns stream).trans ?_
  cases op with
  | some op => exact (aside_mergeResv _ line part).trans (aside_mergeCarry _ line part op d)
  | none => exact ((aside_setHomeData _ line _).trans (htag _ _)).trans (aside_notify _ line)

/-! Copies that leave (R80, R81, R95, R99). -/

theorem aside_coreForgets (core line : Nat) : Aside s (s.coreForgets core line) := by
  obtain ⟨d, hd⟩ := s.coreForgets_eq core line
  rw [hd]
  exact .edit rfl

theorem aside_dieForgets (die line : Nat) : Aside s (s.dieForgets die line) := by
  obtain ⟨d, hd⟩ := s.dieForgets_eq die line
  rw [hd]
  exact .edit rfl

theorem aside_arrive (w : Wb) : Aside s (s.arrive w) :=
  .ite (.edit rfl) ((s.aside_takeBack _ _ _ _ _ _ _).trans (.ite (aside_dieForgets _ _ _) (aside_coreForgets _ _ _)))

theorem aside_settle (p : Wb → Bool) : Aside s (s.settle p) :=
  Aside.trans (t := { s with wbs := s.wbs.filter fun w => !p w }) (.edit rfl) (.foldl (fun v w => v.aside_arrive w) _ _)

theorem aside_coreLeaves (core line : Nat) : Aside s (s.coreLeaves core line) := by
  unfold coreLeaves
  refine ((s.aside_settle _ : Aside s (s.settleFrom false core line)).trans ?_).trans (aside_coreForgets _ core line)
  split
  · refine Aside.trans (t := dropL1 _ core line) (.edit rfl) ?_
    split
    · exact aside_takeBack _ _ _ _ _ _ _ _
    · exact aside_takeBack _ _ _ _ _ _ _ _
    · exact aside_takeBack _ _ _ _ _ _ _ _
    · exact .refl _
  · exact .refl _

theorem aside_dieLeaves (die line : Nat) : Aside s (s.dieLeaves die line) := by
  unfold dieLeaves
  have hends : ∀ v, Aside s v → Aside s (v.dropDieL1 die line) := fun v hv => hv.trans (.edit rfl)
  refine hends _ ((s.aside_settle _ : Aside s (s.settleFrom true die line)).trans ?_)
  split
  · refine Aside.trans (t := dropRdc _ die line) (.edit rfl) ?_
    split
    · exact aside_takeBack _ _ _ _ _ _ _ _
    · exact .refl _
  · exact .refl _

theorem aside_collect (line part : Nat) : Aside s (s.collect line part) := by
  have hkept : Aside s ((s.settleLine line).keepOld line) := (s.aside_settle _).trans (.edit rfl)
  have hends : ∀ v, Aside s v → Aside s ((v.mergeResv line part).dropOld line) := fun v hv =>
    (hv.trans (v.aside_mergeResv line part)).trans (.edit rfl)
  unfold collect
  refine hends _ (hkept.trans ?_)
  split
  · exact aside_coreLeaves _ _ _
  · exact aside_coreLeaves _ _ _
  next cs ds _ =>
    exact (Aside.foldl (fun v c => v.aside_coreLeaves c line) cs _).trans
      (.foldl (fun v d => (v.aside_dieLeaves d line).trans (aside_dieForgets _ d line)) ds _)
  · exact .refl _

theorem aside_collectForWrite (line part : Nat) : Aside s (s.collectForWrite line part) := by
  have hkept : Aside s ((s.collect line part).keepOld line) := (s.aside_collect line part).trans (.edit rfl)
  have hends : ∀ v, Aside s v → Aside s (v.dropOld line) := fun v hv => hv.trans (.edit rfl)
  unfold collectForWrite
  refine hends _ (hkept.trans ?_)
  split
  next cs _ => exact .foldl (fun v c => v.aside_coreLeaves c line) cs _
  · exact .refl _

theorem aside_revokeAll (line part : Nat) : Aside s (s.revokeAll line part) := by
  have hkept : Aside s ((s.collectForWrite line part).keepOld line) := (s.aside_collectForWrite line part).trans (.edit rfl)
  have hends : ∀ v, Aside s v → Aside s (v.dropOld line) := fun v hv => hv.trans (.edit rfl)
  unfold revokeAll
  exact hends _ ((hkept.trans (.foldl (fun v d => .ite (v.aside_dieLeaves d line) (.refl v)) allDies _)).trans
    (.foldl (fun v d => v.aside_dieForgets d line) _ _))

theorem aside_dirEvict (set : Nat × Nat × Nat) (line fuel : Nat) : Aside s (s.dirEvict set line fuel) := by
  have hevict : ∀ (v : State) (e : DirEnt), Aside v (v.evictDir e) := fun v e =>
    (Aside.foldl (fun w l => w.aside_revokeAll l e.part) _ v).trans (.edit rfl)
  induction fuel generalizing s with
  | zero => exact .refl s
  | succ fuel ih =>
    unfold dirEvict
    refine .ite (.refl s) ?_
    split
    next e _ => exact (hevict s e).trans (ih _)
    · exact .refl s

theorem aside_dirRoom (line : Nat) : Aside s (s.dirRoom line) := .ite (.refl s) (s.aside_dirEvict _ line _)

/-! Bytes written at their homes by physical address (R115). -/

theorem aside_homeEnter (line part : Nat) (ns shared : Bool) : Aside s (s.homeEnter line part ns shared) := by
  have hends : ∀ v, Aside s v → Aside s (if shared then v else { v with
      slices := v.slices.map fun (x : SliceLine) => if x.line = line then { x with part := part } else x
      dir := v.dir.map fun (x : DirEnt) => if x.covers line && x.idle then { x with part := part } else x }) :=
    fun v hv => hv.trans (.ite (.refl v) (.edit rfl))
  have hslices : ∀ (v : State) (l : List SliceLine), Aside s v → Aside s { v with slices := l } := fun v l hv => hv.trans (.edit rfl)
  unfold homeEnter
  refine hends _ ?_
  split
  · exact .ite (hslices _ _ ((s.aside_revokeAll line part).trans (aside_cleanSlice _ line))) (.refl s)
  · exact .refl s

theorem aside_writeLine (line part : Nat) (ns : Bool) (p : Policy) (off : Nat) (bs : List Byte) (cls key : Nat) :
    Aside s (s.writeLine line part ns p none off bs cls key).1 := by
  have hwrite : ∀ v, Aside s v → Aside s ((if p.allocates then v.fillSlice line part ns (p == .stream) else v).homeWrite line part
      (patch · off bs) (bs.length = 128)) :=
    fun v hv => hv.trans (Aside.trans (.ite (v.aside_fillSlice _ _ _ _) (.refl v)) (aside_homeWrite _ _ _ _ _))
  have hplace : Aside s (s.leaveLineq (0, key) line) := .edit rfl
  unfold writeLine
  split
  · exact .refl s
  split
  · exact .ite (.refl s) (.ite (.refl s) (.edit rfl))
  split
  · exact hplace
  · refine (hwrite _ ((hplace.trans (aside_homeEnter _ line part ns p.openTo)).trans ?_)).trans (aside_dirRoom _ line)
    exact .ite (aside_mergeResv _ line part) (aside_collectForWrite _ line part)

theorem aside_physWrite (pa : Nat) (bs : List Byte) : Aside s (s.physWrite pa bs) := by
  have hpieces : ∀ (l : List Nat) (e : State × Nat), Aside e.1 (l.foldl (fun (e : State × Nat) n =>
      ((e.1.writeLine ((pa + e.2) / 128) 0 false .sys none ((pa + e.2) % 128) ((bs.drop e.2).take n)).1, e.2 + n)) e).1 := by
    intro l
    induction l with
    | nil => exact fun e => .refl e.1
    | cons n l ih =>
      intro e
      rw [List.foldl_cons]
      refine Aside.trans ?_ (ih _)
      exact aside_writeLine e.1 _ 0 false .sys _ _ 1 0
  exact hpieces _ (s, 0)

theorem aside_writeRec (die idx : Nat) : Aside s (s.writeRec die idx) := by
  unfold writeRec
  split
  · exact .refl s
  · exact s.aside_physWrite _ _

variable {s} {die idx : Nat} {r : BRec}

/-! Records by their place (R120). -/

theorem Aside.brec_eq (h : Aside s t) (die idx : Nat) : t.brec die idx = s.brec die idx := by rw [brec, brec, h.brecs]

/-- A record that is edited stays in its place. -/
theorem brec_modBrec (h : s.brec die idx = some r) {g : BRec → BRec} (hdie : ∀ q, (g q).die = q.die) (hidx : ∀ q, (g q).idx = q.idx) :
    (s.modBrec die idx g).brec die idx = some (g r) := by
  have hp : ((fun q : BRec => q.die == die && q.idx == idx) ∘ fun q => if q.die = die && q.idx = idx then g q else q)
      = fun q => q.die == die && q.idx == idx := by
    funext q
    rw [Function.comp_apply, apply_ite BRec.die, apply_ite BRec.idx, hdie, hidx, ite_self, ite_self]
  have hplace : (decide (r.die = die) && decide (r.idx = idx)) = true := List.find?_some (p := fun q : BRec => q.die == die && q.idx == idx) h
  rw [brec, modBrec, List.find?_map, hp]
  exact (congrArg (Option.map _) h).trans (congrArg some (if_pos hplace))

/-- A record that is FREE is none. -/
theorem brec_freeRec (s : State) (die idx : Nat) : (s.freeRec die idx).brec die idx = none := by
  rw [freeRec, (aside_writeRec _ die idx).brec_eq]
  refine List.find?_eq_none.mpr fun q hq hplace => ?_
  have hkept := (List.mem_filter.mp hq).2
  rw [hplace] at hkept
  exact absurd hkept Bool.false_ne_true

/-- A record that becomes FREE withdraws no message. -/
theorem agenda_freeRec_subset (s : State) (die idx : Nat) : s.agenda ⊆ (s.freeRec die idx).agenda :=
  fun _ hi => (aside_writeRec { s with brecs := s.brecs.filter fun r => !(r.die == die && r.idx == idx) } die idx).agenda hi

@[simp] theorem beyond_writeRec (s : State) (die idx : Nat) : (s.writeRec die idx).beyond = s.beyond := (s.homeward_writeRec die idx).beyond
@[simp] theorem beyond_freeRec (s : State) (die idx : Nat) : (s.freeRec die idx).beyond = s.beyond := beyond_writeRec _ die idx

end State

end Sys2Proof.Machine
end

section
/-!
PROOFS. The bundle and view words as they issue (R114, R120, R123, R124, R126, R130, R131).
-/

namespace Sys2Proof.Machine

/-- The warp with a bundle it has just opened (R123). -/
def Warp.withBundle (w : Warp) (bid : DWord) (die idx : Nat) : Warp := { w with bid := bid, brecDie := die, brecIdx := idx, btab := [] }

/-- The warp with more lines in its bundle's table (R126). -/
def Warp.withLines (w : Warp) (lines : List Nat) : Warp := { w with btab := w.btab ++ lines }

/-- The warp that its bundle has left (R124). -/
def Warp.withoutBundle (w : Warp) : Warp := { w with bid := 0, btab := [] }

/-- The warp whose view has ended (R130). -/
def Warp.withoutView (w : Warp) : Warp := { w with vopen := false, seen := [] }

namespace State

variable {s t u : State} {d a x : Src} {w sc : BitVec 3} {o : BitVec 2} {n : Nat}

/-! The warp around a flight's entry. -/

theorem sameRegs_trans (h : s.sameRegs t) (g : t.sameRegs u) : s.sameRegs u := by
  obtain ⟨h₁, h₂, h₃, h₄⟩ := h
  obtain ⟨g₁, g₂, g₃, g₄⟩ := g
  exact ⟨g₁.trans h₁, g₂.trans h₂, g₃.trans h₃, g₄.trans h₄⟩

theorem me_of_beyond (h : t.beyond = s.beyond) : t.me = s.me := by
  rw [me, me, warp, warp, show t.warps = s.warps from congrArg Beyond.warps h, show t.cur = s.cur from congrArg Beyond.cur h]

/-- A flight's entry changes of its warp the counters, and what orders later accesses. -/
theorem me_enter (s : State) (f : Flight) :
    ∃ cG cS cW cV counted acq scs, (s.enter f).2.me
      = { s.me with cntG := cG, cntS := cS, cntW := cW, cntV := cV, counted := counted, acq := acq, scs := scs } :=
  ⟨_, _, _, _, _, _, _, Tab.get_put_same _ _ _ _⟩

/-- The same of a flight that sets out. -/
theorem me_launch {f : Flight} (hwin : ∀ k < f.reqs.length, (f.req k).win ≠ .pad) :
    ∃ cG cS cW cV counted acq scs, (s.launch f).me
      = { s.me with cntG := cG, cntS := cS, cntW := cW, cntV := cV, counted := counted, acq := acq, scs := scs } := by
  obtain ⟨is, hlaunch⟩ := launch_eq hwin
  rw [hlaunch]
  exact s.me_enter (s.released f)

/-- Requests for lines of global memory are none at a scratchpad. -/
theorem win_ne_pad {f : Flight} {lanes : List (Nat × Nat)} (h : f.reqs = lineReqs lanes) : ∀ k < f.reqs.length, (f.req k).win ≠ .pad := by
  intro k hk
  have hmem : f.req k ∈ lineReqs lanes := by
    rw [Flight.req, List.getElem?_eq_getElem hk, Option.getD_some, ← h]
    exact List.getElem_mem hk
  rw [win_of_mem_lineReqs hmem]
  exact Win.noConfusion

/-! BOPEN (R114, R123). -/

/-- The sequence number a core's next bundle takes: 36 bits, never 0 (R114). -/
def nextSeq (s : State) : Nat :=
  let n := ((s.die (dieOf s.myCore)).seqs.get (s.myCore % 32) 0 + 1) % 2 ^ 36
  if n = 0 then 1 else n

/-- The identifier of the bundle the warp would open (R114). -/
def nextBid (s : State) : Nat :=
  2 ^ 52 * (s.die (dieOf s.myCore)).devId + 2 ^ 47 * dieOf s.myCore + 2 ^ 42 * (s.myCore % 32) + 2 ^ 36 * (s.mySlot % 64) + s.nextSeq

/-- An identifier's low 36 bits are its sequence number, which is not 0. -/
theorem nextBid_ne_zero (s : State) : BitVec.ofNat 64 s.nextBid ≠ 0 := by
  have hseq : 0 < s.nextSeq ∧ s.nextSeq < 2 ^ 36 := by
    unfold nextSeq
    dsimp only
    split
    · decide
    next h => exact ⟨Nat.pos_of_ne_zero h, Nat.mod_lt _ (by decide)⟩
  intro h
  have hmod : s.nextBid % 2 ^ 64 = 0 := congrArg BitVec.toNat h
  unfold nextBid at hmod
  omega

/-- The OPEN record of the bundle the warp opens (R123). -/
def openRec (s : State) (idx : Nat) : BRec :=
  { die := dieOf s.myCore, idx := idx, bid := BitVec.ofNat 64 s.nextBid, st := 1, core := s.myCore, cls := s.ctxCls }

/-- The die's counter and its directory once the record stands there (R114, R123). -/
def withOpenRec (s : State) (idx : Nat) : State :=
  { s.modDie (dieOf s.myCore) fun x => { x with seqs := x.seqs.put (s.myCore % 32) s.nextSeq } with
    brecs := s.brecs ++ [s.openRec idx] }

/-- The state once the bundle is open in record `idx` (R123). -/
def openBundle (s : State) (idx : Nat) : State :=
  ((s.withOpenRec idx).writeRec (dieOf s.myCore) idx).modMe (·.withBundle (BitVec.ofNat 64 s.nextBid) (dieOf s.myCore) idx)

theorem me_openBundle (s : State) (idx : Nat) :
    (s.openBundle idx).me = s.me.withBundle (BitVec.ofNat 64 s.nextBid) (dieOf s.myCore) idx := by
  rw [openBundle, me_modMe, me_of_beyond (beyond_writeRec (s.withOpenRec idx) (dieOf s.myCore) idx)]
  rfl

theorem brecs_openBundle (s : State) (idx : Nat) : (s.openBundle idx).brecs = s.brecs ++ [s.openRec idx] := by
  rw [openBundle, modMe_brecs, (aside_writeRec _ _ _).brecs]
  rfl

/-- The flight of a BOPEN that returns `val`. -/
def bopenFlight (s : State) (d : Src) (val : Nat) : Flight :=
  { s.mkFlight .bopen 1 with
    scalar := true, dst := Src.num d, ndst := 2, accs := [{ lane := 0, off := 0, size := 8, va := 0, val := val }]
    reqs := [{ win := .global, vline := 0, done := true }] }

theorem exec_bopen_opens (hgo : s.gate (.bopen d) = .go) (hroom : s.roomy) (hbid : s.me.bid = 0)
    (hbase : (s.die (dieOf s.myCore)).bbase.isSome = true) (hvbase : (s.die (dieOf s.myCore)).vbase.isSome = true)
    (hfree : ∃ i < 16384, s.brec (dieOf s.myCore) i = none) :
    ∃ idx < 16384, exec (.bopen d) s
      = .next (((s.openBundle idx).enter (s.bopenFlight d s.nextBid)).2.push [.loadDataReturn (s.openBundle idx).nextId]).done := by
  obtain ⟨i, hi, hnone⟩ := hfree
  have hwait : s.mustWait (s.bopenFlight d 0) = false := mustWait_of_roomy hroom rfl rfl (Nat.le_refl 1)
  cases hfind : (List.range 16384).find? fun i => (s.brec (dieOf s.myCore) i).isNone with
  | none =>
    have hsome := List.find?_eq_none.mp hfind i (List.mem_range.mpr hi)
    rw [hnone] at hsome
    exact absurd rfl hsome
  | some idx =>
    refine ⟨idx, List.mem_range.mp (List.mem_of_find?_eq_some hfind), ?_⟩
    change execBopen d s = _
    unfold execBopen
    rw [s.issue_go hgo]
    dsimp only
    rw [acqHolds_of_roomy hroom, if_neg Bool.false_ne_true, if_neg (not_not_intro hbid)]
    refine congrArg Host.Outcome.next ((if_neg (ne_true_of_eq_false hwait)).trans ?_)
    rw [hbase, hvbase, Bool.and_self, if_pos rfl, hfind]
    rfl

theorem bopen_opens (hgo : s.gate (.bopen d) = .go) (hroom : s.roomy) (hbid : s.me.bid = 0)
    (hbase : (s.die (dieOf s.myCore)).bbase.isSome = true) (hvbase : (s.die (dieOf s.myCore)).vbase.isSome = true)
    (hfree : ∃ i < 16384, s.brec (dieOf s.myCore) i = none) :
    ∃ t r id f, exec (.bopen d) s = .next t ∧ t.out = .done ∧ s.sameRegs t ∧ t.me.bid ≠ 0 ∧ t.me.btab = []
      ∧ t.brecs = s.brecs ++ [r] ∧ r.die = dieOf s.myCore ∧ r.idx < 16384 ∧ r.st = 1 ∧ r.bid = t.me.bid ∧ r.lines = []
      ∧ t.me.brecDie = r.die ∧ t.me.brecIdx = r.idx ∧ t.me.cntG = s.me.cntG ++ [(id, false)]
      ∧ t.flights.get? id = some f ∧ f.kind = .bopen ∧ f.dst = Src.num d ∧ f.ndst = 2 ∧ f.scalar = true := by
  obtain ⟨idx, hidx, hexec⟩ := exec_bopen_opens hgo hroom hbid hbase hvbase hfree
  obtain ⟨hregs, -, ⟨hcount, -⟩, order, tagged, hflight⟩ := (s.openBundle idx).enter_spec (s.bopenFlight d s.nextBid)
  obtain ⟨cG, cS, cW, cV, counted, acq, scs, hme⟩ := (s.openBundle idx).me_enter (s.bopenFlight d s.nextBid)
  have hopened : s.sameRegs (s.openBundle idx) := by
    rw [sameRegs, me_openBundle]
    exact ⟨rfl, rfl, rfl, rfl⟩
  rw [me_openBundle] at hme hcount
  have hbidAfter : ((s.openBundle idx).enter (s.bopenFlight d s.nextBid)).2.me.bid = BitVec.ofNat 64 s.nextBid := by rw [hme]; rfl
  have hbrecs : ((s.openBundle idx).enter (s.bopenFlight d s.nextBid)).2.brecs = s.brecs ++ [s.openRec idx] := s.brecs_openBundle idx
  generalize (s.openBundle idx).enter (s.bopenFlight d s.nextBid) = e at *
  refine ⟨_, s.openRec idx, _, _, hexec, rfl, sameRegs_trans hopened hregs, ?_, ?_, hbrecs, rfl, hidx, rfl, hbidAfter.symm, rfl, ?_, ?_,
    hcount.trans (if_pos (show Nat.testBit 1 0 = true by decide)), hflight, rfl, rfl, rfl, rfl⟩
  · exact fun h => s.nextBid_ne_zero (hbidAfter.symm.trans h)
  · exact (congrArg Warp.btab hme :)
  · exact (congrArg Warp.brecDie hme :)
  · exact (congrArg Warp.brecIdx hme :)

/-! VSTB (R126). -/

/-- The flight of a VSTB. -/
def vstbFlight (s : State) (w : BitVec 3) (d a : Src) : Flight :=
  let lay := s.layOut (wSize w.toNat) (s.storeValue d w.toNat) (fun _ => 0) ((s.lanesAt (s.readPair a)).map fun e => (e.1, .global e.2))
  { s.mkFlight .vstb 4 with
    width := wSize w.toNat, accs := lay.1, reqs := lay.2, x := s.me.brecDie, y := s.me.brecIdx, bid := s.me.bid }

theorem reqs_vstbFlight (s : State) (w : BitVec 3) (d a : Src) : (s.vstbFlight w d a).reqs = lineReqs (s.lanesAt (s.readPair a)) :=
  s.reqs_layOut _ _ _ _

/-- The lines of a VSTB that its bundle does not have yet (R126). -/
def newLines (s : State) (lines : List Nat) : List Nat := lines.filter fun l => !s.me.btab.contains l

theorem exec_vstb (hgo : s.gate (.vstb w d a) = .go) (hexec : s.execMask ≠ 0) (hroom : s.roomy) (hbid : s.me.bid ≠ 0)
    (hcheck : s.plainCheck true (wSize w.toNat) (s.lanesAt (s.readPair a)) = none)
    (hfits : s.me.btab.length + (s.newLines ((s.vstbFlight w d a).reqs.map (·.vline))).length ≤ 30) :
    exec (.vstb w d a) s = .next 
      ((s.modMe (·.withLines (s.newLines ((s.vstbFlight w d a).reqs.map (·.vline))))).launch (s.vstbFlight w d a)) := by
  have hwait : s.mustWait (s.vstbFlight w d a) = false := by
    refine mustWait_of_room hroom rfl ?_
    rw [reqs_vstbFlight]
    exact (length_lineReqs_le _).trans ((s.length_lanesAt_le _).trans (by decide))
  change execVstb w d a s = _
  unfold execVstb
  rw [s.issueVec_go hgo hexec]
  dsimp only
  rw [acqHolds_of_roomy hroom, if_neg Bool.false_ne_true, if_neg hbid, hcheck]
  exact congrArg Host.Outcome.next ((if_neg (Nat.not_lt.mpr hfits)).trans (if_neg (ne_true_of_eq_false hwait)))

/-- A bundle's table takes a line it does not have. -/
theorem append_newLines_singleton (s : State) (n : Nat) :
    s.me.btab ++ s.newLines [n] = if n ∈ s.me.btab then s.me.btab else s.me.btab ++ [n] := by
  rw [newLines, List.filter_singleton]
  by_cases h : n ∈ s.me.btab
  · rw [if_pos h, List.contains_iff_mem.mpr h]
    exact List.append_nil _
  · rw [if_neg h, Bool.eq_false_iff.mpr (mt List.contains_iff_mem.mp h)]
    rfl

theorem vstb_stages (hgo : s.gate (.vstb w d a) = .go) (hexec : s.execMask ≠ 0) (hroom : s.roomy) (hbid : s.me.bid ≠ 0)
    (hlen : s.me.btab.length < 30)
    (hlanes : ∀ l < 96, s.execMask.getLsbD l = true → s.readPair a l / 128 = n ∧ s.readPair a l % wSize w.toNat = 0 ∧ s.readPair a l < 2 ^ 56
      ∧ s.lockedVa (s.readPair a l) (wSize w.toNat) true = false) :
    ∃ t f, exec (.vstb w d a) s = .next t ∧ t.out = .done ∧ s.sameRegs t ∧ s.sameBytes t ∧ s.countedOn t 4
      ∧ t.me.btab = (if n ∈ s.me.btab then s.me.btab else s.me.btab ++ [n]) ∧ t.flights.get? s.nextId = some f ∧ f.kind = .vstb
      ∧ f.x = s.me.brecDie ∧ f.y = s.me.brecIdx ∧ f.reqs.map (·.vline) = [n] := by
  have hpass := plainCheck_passes (s := s) (write := true) (addr := s.readPair a) fun l hl hlane => (hlanes l hl hlane).2
  have hlines : (s.vstbFlight w d a).reqs.map (·.vline) = [n] := by
    rw [reqs_vstbFlight, lineReqs_of_one (s.lanesAt_ne_nil hexec _) fun e he => ?_]
    · rfl
    · obtain ⟨hl, hlane, ha⟩ := mem_lanesAt.mp he
      rw [ha]
      exact (hlanes e.1 hl hlane).1
  have hissue := exec_vstb hgo hexec hroom hbid hpass (by
    rw [hlines]
    have hone : (s.newLines [n]).length ≤ 1 := List.length_filter_le _ _
    omega)
  rw [hlines] at hissue
  have htable : (s.modMe (·.withLines (s.newLines [n]))).me = s.me.withLines (s.newLines [n]) := me_modMe _ _
  have hwin := win_ne_pad (s.reqs_vstbFlight w d a)
  obtain ⟨hout, hregs, hbytes, hcount, order, tagged, before, hflight⟩ := launch_spec (s.modMe (·.withLines (s.newLines [n]))) _ hwin
  obtain ⟨cG, cS, cW, cV, counted, acq, scs, hme⟩ := me_launch (s := s.modMe (·.withLines (s.newLines [n]))) hwin
  rw [htable] at hme
  have htableRegs : s.sameRegs (s.modMe (·.withLines (s.newLines [n]))) := by
    rw [sameRegs, htable]
    exact ⟨rfl, rfl, rfl, rfl⟩
  refine ⟨_, _, hissue, hout, sameRegs_trans htableRegs hregs, hbytes, ?_, ?_, hflight, rfl, rfl, rfl, hlines⟩
  · rw [countedOn, htable] at hcount
    exact hcount
  · exact (congrArg Warp.btab hme :).trans (s.append_newLines_singleton n)

/-! BCLOSE (R124). -/

/-- The flight of a BCLOSE, one that releases behind the warp's earlier accesses (R124). -/
def bcloseFlight (s : State) (o : BitVec 2) (sc : BitVec 3) (x : Src) : Flight :=
  { s.mkFlight .bclose 4 with
    ord := o.toNat, scp := sc.toNat, scalar := true, dst := Src.num x, ndst := 1
    accs := [{ lane := 0, off := 0, size := 4, va := 0 }], released := !(o == 2 && sc != 0)
    before := if o == 2 && sc != 0 then (s.myFlights.filter fun e => e.2.kind != .bopen).map (·.1) else [] }

/-- The warp's bundle gone from it, its record with who closes it (R124). -/
def closing (t : State) (w : Warp) (id : Nat) : State :=
  (t.modBrec w.brecDie w.brecIdx fun r => { r with closer := some id }).modMe (·.withoutBundle)

theorem exec_bclose (hgo : s.gate (.bclose o sc x) = .go) (hroom : s.roomy) (hbid : s.me.bid ≠ 0) :
    exec (.bclose o sc x) s = .next ((((s.enter (s.bcloseFlight o sc x)).2.closing s.me s.nextId).push
      ((if o == 2 && sc != 0 then [.releaseProceed s.nextId] else []) ++ [.commitRequest s.me.brecDie s.me.brecIdx])).done) := by
  have hwait : s.mustWait (s.bcloseFlight o sc x) = false := mustWait_of_room hroom rfl (Nat.zero_le _)
  change execBclose o sc x s = _
  unfold execBclose
  rw [s.issue_go hgo]
  dsimp only
  rw [acqHolds_of_roomy hroom, if_neg Bool.false_ne_true, if_neg hbid]
  exact congrArg Host.Outcome.next (if_neg (ne_true_of_eq_false hwait))

/-- What a releasing BCLOSE waits for: the warp's accesses in flight but BOPENs (R124, R165). -/
theorem mem_before_bcloseFlight {i : Nat} : i ∈ (s.bcloseFlight o sc x).before
    ↔ (o == 2 && sc != 0) = true ∧ ∃ e ∈ s.myFlights, e.1 = i ∧ e.2.kind ≠ .bopen := by
  rw [bcloseFlight]
  dsimp only
  split
  next hrel =>
    rw [List.mem_map]
    refine ⟨fun ⟨e, he, hi⟩ => ?_, fun ⟨_, e, he, hi, hkind⟩ => ⟨e, List.mem_filter.mpr ⟨he, bne_iff_ne.mpr hkind⟩, hi⟩⟩
    obtain ⟨hmine, hkind⟩ := List.mem_filter.mp he
    exact ⟨hrel, e, hmine, hi, bne_iff_ne.mp hkind⟩
  next hrel => exact ⟨fun h => absurd h List.not_mem_nil, fun h => absurd h.1 hrel⟩

/-- Every record at the bundle's place has who closes it. -/
theorem closer_of_mem_closing {w' : Warp} {id : Nat} {r : BRec} (h : r ∈ (t.closing w' id).brecs) (hdie : r.die = w'.brecDie)
    (hidx : r.idx = w'.brecIdx) : r.closer = some id := by
  obtain ⟨q, -, hq⟩ := List.mem_map.mp h
  split at hq
  next =>
    rw [← hq]
  next hother =>
    rw [← hq] at hdie hidx
    exact absurd (by rw [hdie, hidx, decide_eq_true rfl, decide_eq_true rfl]; rfl) hother

theorem bclose_closes (hgo : s.gate (.bclose o sc x) = .go) (hroom : s.roomy) (hbid : s.me.bid ≠ 0) :
    let rel : Bool := o == 2 && sc != 0
    ∃ t f, exec (.bclose o sc x) s = .next t ∧ t.out = .done ∧ s.sameRegs t ∧ s.sameBytes t ∧ s.countedOn t 4 ∧ t.me.bid = 0
      ∧ t.me.btab = [] ∧ t.agenda = s.agenda ++ (if rel then [.releaseProceed s.nextId] else []) ++ [.commitRequest s.me.brecDie s.me.brecIdx]
      ∧ f.released = !rel ∧ (∀ i, i ∈ f.before ↔ rel = true ∧ ∃ e ∈ s.myFlights, e.1 = i ∧ e.2.kind ≠ .bopen) ∧ t.flights.get? s.nextId = some f
      ∧ f.kind = .bclose ∧ f.dst = Src.num x ∧ ∀ r ∈ t.brecs, r.die = s.me.brecDie → r.idx = s.me.brecIdx → r.closer = some s.nextId := by
  intro rel
  obtain ⟨hregs, hbytes, hcount, order, tagged, hflight⟩ := s.enter_spec (s.bcloseFlight o sc x)
  have hme : ((s.enter (s.bcloseFlight o sc x)).2.closing s.me s.nextId).me = (s.enter (s.bcloseFlight o sc x)).2.me.withoutBundle :=
    me_modMe _ _
  have hclosed : (s.enter (s.bcloseFlight o sc x)).2.sameRegs ((s.enter (s.bcloseFlight o sc x)).2.closing s.me s.nextId) := by
    rw [sameRegs, hme]
    exact ⟨rfl, rfl, rfl, rfl⟩
  have hcounted : s.countedOn ((s.enter (s.bcloseFlight o sc x)).2.closing s.me s.nextId) 4 := by
    rw [countedOn, hme]
    exact hcount
  exact ⟨_, { s.bcloseFlight o sc x with order := order, tagged := tagged }, exec_bclose hgo hroom hbid, rfl, sameRegs_trans hregs hclosed,
    sameBytes_trans hbytes (sameBytes_of rfl rfl), hcounted, (congrArg Warp.bid hme :), (congrArg Warp.btab hme :), (List.append_assoc _ _ _).symm, rfl,
    fun i => mem_before_bcloseFlight (x := x), hflight, rfl, rfl,
    fun r hr => closer_of_mem_closing hr⟩

/-! VOPEN and VCLOSE (R130). -/

theorem exec_vopen (hgo : s.gate .vopen = .go) (hroom : s.roomy) :
    exec .vopen s = .next { s.modMe fun w =>
      { w with vopen := true, vstatus := 0, vt0 := s.nowCore s.myCore, seen := [] } with out := .done } := by
  change execVopen s = _
  rw [execVopen, s.issue_go hgo, acqHolds_of_roomy hroom, if_neg Bool.false_ne_true]
  rfl

theorem exec_vclose (hgo : s.gate (.vclose x) = .go) (hroom : s.roomy) (hopen : s.me.vopen = true) (hnone : s.myFlights = []) :
    exec (.vclose x) s = .next ((s.setS (Src.num x) (BitVec.ofNat 32 s.me.vstatus)).modMe (·.withoutView)).done := by
  change execVclose x s = _
  rw [execVclose, s.issue_go hgo, acqHolds_of_roomy hroom, if_neg Bool.false_ne_true, hopen, hnone]
  rfl

theorem vclose_closes (hgo : s.gate (.vclose x) = .go) (hroom : s.roomy) (hopen : s.me.vopen = true) (hnone : s.myFlights = []) :
    ∃ t, exec (.vclose x) s = .next t ∧ t.out = .done ∧ s.onlyMe t
      ∧ t.me = { s.me with s := t.me.s, bad := t.me.bad, vopen := false, seen := [] }
      ∧ (Src.num x < 64 → t.me.sreg (Src.num x) = Warp.slsAnd s.before.sls (Src.num x) (BitVec.ofNat 32 s.me.vstatus)) := by
  have hme : ((s.setS (Src.num x) (BitVec.ofNat 32 s.me.vstatus)).modMe (·.withoutView)).done.me
      = (s.me.setSAt s.before.sls (Src.num x) (BitVec.ofNat 32 s.me.vstatus)).withoutView := by
    rw [me_done, me_modMe, setS, me_modMe]
  refine ⟨_, exec_vclose hgo hroom hopen hnone, rfl, s.onlyMe_modMe_modMe _ _, ?_, fun hx => ?_⟩
  · rw [hme]
    rfl
  · rw [hme]
    exact Warp.sreg_setSAt_same _ _ hx _

/-! VLDV (R131). -/

/-- The flight of a VLDV. -/
def vldvFlight (s : State) (o : BitVec 2) (sc w : BitVec 3) (d a : Src) : Flight :=
  let lay := s.layOut (wSize w.toNat) (fun _ => 0) (fun _ => 0) ((s.lanesAt (s.readPair a)).map fun e => (e.1, .global e.2))
  { s.mkFlight .vldv 8 with
    ord := o.toNat, scp := sc.toNat, width := wSize w.toNat, signed := wSigned w.toNat
    dst := Src.num d, ndst := wRegs w.toNat, accs := lay.1, reqs := lay.2, x := s.me.vt0 }

theorem reqs_vldvFlight (s : State) (o : BitVec 2) (sc w : BitVec 3) (d a : Src) :
    (s.vldvFlight o sc w d a).reqs = lineReqs (s.lanesAt (s.readPair a)) :=
  s.reqs_layOut _ _ _ _

theorem exec_vldv (hgo : s.gate (.vldv o sc w d a) = .go) (hexec : s.execMask ≠ 0) (hroom : s.roomy) (hopen : s.me.vopen = true)
    (hcheck : s.plainCheck false (wSize w.toNat) (s.lanesAt (s.readPair a)) = none) :
    exec (.vldv o sc w d a) s = .next (s.launch (s.vldvFlight o sc w d a)) := by
  have hwait : s.mustWait (s.vldvFlight o sc w d a) = false := by
    refine mustWait_of_room hroom rfl ?_
    rw [reqs_vldvFlight]
    exact (length_lineReqs_le _).trans ((s.length_lanesAt_le _).trans (by decide))
  change execVldv o sc w d a s = _
  unfold execVldv
  rw [s.issueVec_go hgo hexec]
  dsimp only
  rw [acqHolds_of_roomy hroom, if_neg Bool.false_ne_true, hopen, hcheck]
  exact congrArg Host.Outcome.next (if_neg (ne_true_of_eq_false hwait))

theorem vldv_loads (hgo : s.gate (.vldv o sc w d a) = .go) (hexec : s.execMask ≠ 0) (hroom : s.roomy) (hopen : s.me.vopen = true)
    (hlanes : ∀ l < 96, s.execMask.getLsbD l = true → s.readPair a l % wSize w.toNat = 0 ∧ s.readPair a l < 2 ^ 56
      ∧ s.lockedVa (s.readPair a l) (wSize w.toNat) false = false) :
    ∃ t f, exec (.vldv o sc w d a) s = .next t ∧ t.out = .done ∧ s.sameRegs t ∧ s.sameBytes t ∧ s.countedOn t 8
      ∧ t.flights.get? s.nextId = some f ∧ f.kind = .vldv ∧ f.x = s.me.vt0 ∧ f.dst = Src.num d ∧ f.ndst = wRegs w.toNat := by
  obtain ⟨hout, hregs, hbytes, hcount, order, tagged, before, hflight⟩ := s.launch_spec _ (win_ne_pad (s.reqs_vldvFlight o sc w d a))
  exact ⟨_, _, exec_vldv hgo hexec hroom hopen (plainCheck_passes hlanes), hout, hregs, hbytes, hcount, hflight, rfl, rfl, rfl, rfl⟩

/-! Without a bundle, or without a view (R124, R126, R130, R131). -/

theorem exec_no_bundle (hexec : s.execMask ≠ 0) (hroom : s.roomy) (hbid : s.me.bid = 0) :
    ∀ i ∈ ([.vstb w d a, .bclose o sc x] : List Instr), s.gate i = .go → exec i s = .next (s.raise { cause := .bundle }) := by
  refine List.forall_mem_cons.mpr ⟨fun hgo => ?_, List.forall_mem_singleton.mpr fun hgo => ?_⟩
  · change execVstb w d a s = _
    rw [execVstb, s.issueVec_go hgo hexec, acqHolds_of_roomy hroom, hbid]
    rfl
  · change execBclose o sc x s = _
    rw [execBclose, s.issue_go hgo, acqHolds_of_roomy hroom, if_neg Bool.false_ne_true]
    exact congrArg Host.Outcome.next (if_pos hbid)

theorem exec_no_view (hexec : s.execMask ≠ 0) (hroom : s.roomy) (hclosed : s.me.vopen = false) :
    ∀ i ∈ ([.vclose x, .vldv o sc w d a] : List Instr), s.gate i = .go → exec i s = .next (s.raise { cause := .bundle }) := by
  refine List.forall_mem_cons.mpr ⟨fun hgo => ?_, List.forall_mem_singleton.mpr fun hgo => ?_⟩
  · change execVclose x s = _
    rw [execVclose, s.issue_go hgo, acqHolds_of_roomy hroom, hclosed]
    rfl
  · change execVldv o sc w d a s = _
    rw [execVldv, s.issueVec_go hgo hexec, acqHolds_of_roomy hroom, hclosed]
    rfl

end State

end Sys2Proof.Machine
end

section
/-!
PROOFS. A staging at its line's home and its answer (R118, R119, R126).
-/

namespace Sys2Proof.Machine

/-- A record once a line of its bundle has been answered: the first failure, the line, the largest stamp (R126). -/
def BRec.answered (b : BRec) (bid : DWord) (r : Req) : BRec :=
  if b.bid ≠ bid then b else { b with
    fail := if b.fail = 0 then r.answer else b.fail
    got := if b.got.contains (r.pa / 128) then b.got else b.got ++ [r.pa / 128]
    gotStamp := max b.gotStamp r.bst }

theorem BRec.die_answered (b : BRec) (bid : DWord) (r : Req) : (b.answered bid r).die = b.die := by unfold answered; split <;> rfl
theorem BRec.idx_answered (b : BRec) (bid : DWord) (r : Req) : (b.answered bid r).idx = b.idx := by unfold answered; split <;> rfl

theorem BRec.answered_spec {b : BRec} {bid : DWord} (h : b.bid = bid) (r : Req) :
    (b.answered bid r).fail = (if b.fail = 0 then r.answer else b.fail) ∧ (b.answered bid r).gotStamp = max b.gotStamp r.bst
      ∧ r.pa / 128 ∈ (b.answered bid r).got := by
  rw [answered, if_neg (not_not_intro h)]
  refine ⟨rfl, rfl, ?_⟩
  dsimp only
  split
  next hgot => exact List.contains_iff_mem.mp hgot
  next => exact List.mem_append_right _ (List.mem_singleton_self _)

/-- The bytes of a bundle under their mask, over those of a line (R119). -/
def laidOver (mask : Nat) (bs old : List Byte) : List Byte :=
  (List.range 128).map fun i => if mask.testBit i then bs[i]?.getD 0 else old[i]?.getD 0

theorem getElem?_laidOver (mask : Nat) (bs old : List Byte) {i : Nat} (hi : i < 128) :
    (laidOver mask bs old)[i]? = some (if mask.testBit i then bs[i]?.getD 0 else old[i]?.getD 0) := by
  rw [laidOver, List.getElem?_map, List.getElem?_range hi]
  rfl

namespace State
variable {s u : State} {line id k mask : Nat} {x : SliceLine} {f : Flight} {l : Leaf} {v : VerEnt} {b : Word} {bid : DWord} {bs : List Byte}

/-! A request that is let in (R84, R85): what it cannot reach. -/

theorem homeEnter_eq (hx : s.sliceLine line = some x) {ns : Bool} (hns : x.ns = ns) (part : Nat) (shared : Bool) :
    ∃ sl d, s.homeEnter line part ns shared = { s with slices := sl, dir := d } := by
  have hworld : ¬ (x.ns && !ns) = true := by rw [hns, Bool.and_not_self]; exact Bool.false_ne_true
  rw [homeEnter, hx]
  dsimp only
  rw [if_neg hworld]
  split
  · exact ⟨s.slices, s.dir, rfl⟩
  · exact ⟨_, _, rfl⟩

/-- The home's slices, entries and transactions change, and nothing else does. -/
theorem letIn_eq (h : s.atDoor id k f l line) : ∃ sl d tx, s.letIn k f l line = { s with slices := sl, dir := d, txns := tx } := by
  obtain ⟨x, hserves, hns⟩ := atDoor.serves h
  obtain ⟨sl, d, henter⟩ := homeEnter_eq hserves.slice hns f.part l.shared
  rw [letIn, henter, closeTxn]
  split
  · exact ⟨_, _, _, rfl⟩
  · exact ⟨sl, d, s.txns, rfl⟩

/-! The version a staging finds (R119). -/

/-- The version that a bundle stages on a line that has none staged. -/
def newVer (s : State) (line : Nat) (b : Word) (bid : DWord) (mask : Nat) (bs : List Byte) : VerEnt :=
  { line := line, staged := true, data := laidOver mask bs (s.homeData line), mask := mask, side := b, bid := bid }

/-- A version store that is not full has room (R118). -/
theorem versionRoom_eq (h : s.vers.length < 262144) (die : Nat) : s.versionRoom die = some s :=
  if_pos ((List.length_filter_le _ _).trans_lt h)

theorem stageAt_forms (hnone : s.staged line = none) (hx : s.sliceLine line = some x) (hsound : s.isPoisoned line = false)
    (hroom : s.vers.length < 262144) :
    s.stageAt line b bid mask bs = ({ s with vers := s.vers ++ [s.newVer line b bid mask bs] }, 0, s.stampOf (s.side' line)) := by
  rw [stageAt, hnone]
  dsimp only
  rw [hsound, versionRoom_eq hroom]
  dsimp only
  rw [hx]
  rfl

/-- Another bundle's version, or one that a dead bundle left, is not B's own (R119, R133). -/
theorem not_own (h : v.side ≠ b ∨ v.bid ≠ bid) : ¬ (decide (v.side = b) && decide (v.bid = bid)) = true := by
  rw [Bool.and_eq_true, decide_eq_true_iff, decide_eq_true_iff, not_and_or]
  exact h

theorem stageAt_conflicts (hv : s.staged line = some v) (hother : v.side ≠ b ∨ v.bid ≠ bid) :
    s.stageAt line b bid mask bs = (s, 1, 0) := by
  rw [stageAt, hv]
  exact if_neg (not_own hother)

theorem stageRefused_of_other (hv : s.staged line = some v) (hother : v.side ≠ b ∨ v.bid ≠ bid) :
    s.stageRefused line b bid mask = true := by
  rw [stageRefused, hv]
  exact Bool.not_eq_true' _ ▸ Bool.eq_false_iff.mpr (not_own hother)

theorem stageRefused_of_none (hnone : s.staged line = none) (hsound : s.isPoisoned line = false) (hroom : s.vers.length < 262144) :
    s.stageRefused line b bid mask = false := by
  rw [stageRefused, hnone]
  dsimp only
  rw [hsound, versionRoom_eq hroom]
  rfl

/-! BUNDLE_STAGING (R119). -/

/-- What a staging comes to at its home: the request is told of the answer, and the answer sets out. -/
def stagingTold (id k : Nat) (r : State × Nat × Nat) : State :=
  (r.1.modReq id k ({ · with answer := r.2.1, bst := r.2.2 })).push [.stagingAnswer id k]

/-- A staging performed at its home (R119). -/
def performStaging (s : State) (id k : Nat) (f : Flight) (b : Word) (line : Nat) : State :=
  stagingTold id k ((if s.stageRefused line b f.bid (stageBytes f k).1 then s else s.mergeResv line f.part).stageAt line b f.bid
    (stageBytes f k).1 (stageBytes f k).2)

theorem exec_bundleStaging (h : s.atDoor id k f l line) (hfree : s.stageHeld line (s.sideOf f.x f.y) f.bid = false)
    (hmsgs : s.stageRefused line (s.sideOf f.x f.y) f.bid (stageBytes f k).1 = true ∨ s.dirState line = .u) :
    exec (.bundleStaging id k) s
      = .next (((s.letIn k f l line).performStaging id k f (s.sideOf f.x f.y) line).dirRoom line).done := by
  obtain ⟨-, henter, -⟩ := letIn_spec h
  have hnone : l.shared = false → (if s.stageRefused line (s.sideOf f.x f.y) f.bid (stageBytes f k).1 then fun _ _ _ _ => []
      else writeMsgs) (s.homeEnter line f.part l.ns l.shared) f l line = [] := by
    intro _
    split
    · rfl
    next hrefused =>
      rw [writeMsgs, invalidateMsgs, henter.state, hmsgs.resolve_left hrefused]
  have hin := atHome_letIn h (.bundleStaging id k) (perform := fun u _ _ line => u.performStaging id k f (s.sideOf f.x f.y) line) hnone
  obtain ⟨hflight, -, -, hline, -, -, hmem, -⟩ := h
  subst hline
  obtain ⟨d, hplace⟩ := placeOf_of_isMemory hmem
  change execBundleStaging id k s = _
  rw [execBundleStaging, hflight]
  dsimp only
  rw [hplace]
  dsimp only
  rw [hfree, Bool.and_false, if_neg Bool.false_ne_true]
  exact congrArg (fun t : State => Host.Outcome.next t.done) hin

/-- A flight whose staging of its line has come to an answer and a stamp. -/
def stagedReq (f : Flight) (k answer bst : Nat) : Flight := f.withReq k { f.req k with answer := answer, bst := bst }

theorem stagingTold_eq (h : u.flights.get? id = some f) (k a st : Nat) :
    stagingTold id k (u, a, st)
      = { u with flights := u.flights.put id (stagedReq f k a st), agenda := u.agenda ++ [.stagingAnswer id k] } := by
  rw [stagingTold, modReq_of_get? h]
  rfl

/-- A staging on a line without one forms a version of the bundle's (R118, R119). -/
theorem bundleStaging_forms (h : s.atDoor id k f l line) (hst : s.dirState line = .u) (hnone : s.staged line = none)
    (hroom : s.vers.length < 262144) :
    ∃ t g v, exec (.bundleStaging id k) s = .next t ∧ t.out = .done ∧ t.warps = s.warps ∧ s.sameBytes t
      ∧ t.vers = s.vers ++ [v] ∧ v.line = line ∧ v.staged = true ∧ v.side = s.sideOf f.x f.y ∧ v.bid = f.bid ∧ v.mask = (stageBytes f k).1
      ∧ (∀ i < 128, v.data[i]? = some (if v.mask.testBit i then (stageBytes f k).2[i]?.getD 0 else (s.homeData line)[i]?.getD 0))
      ∧ t.agenda = s.agenda ++ [.stagingAnswer id k] ∧ t.flights.get? id = some g ∧ (g.req k).answer = 0
      ∧ (g.req k).bst = s.stampOf (s.side' line) ∧ t.homeData line = s.homeData line := by
  have hexec := exec_bundleStaging h (by rw [stageHeld, hnone]) (.inr hst)
  obtain ⟨hin, -, -, x, y, hserves, hu, -⟩ := letIn_spec h
  obtain ⟨sl, d, tx, heq⟩ := letIn_eq h
  have hdata := hin.homeData_eq hserves.slice
  have hvers : (s.letIn k f l line).vers = s.vers := by rw [heq]
  have hagenda : (s.letIn k f l line).agenda = s.agenda := by rw [heq]
  have hstamp : (s.letIn k f l line).stampOf ((s.letIn k f l line).side' line) = s.stampOf (s.side' line) := by rw [heq]; rfl
  have hnone' : (s.letIn k f l line).staged line = none := by rw [heq]; exact hnone
  generalize s.letIn k f l line = u at *
  rw [performStaging, stageRefused_of_none hnone' hu.sound (hvers ▸ hroom), if_neg Bool.false_ne_true, mergeResv_of_none hu.resv,
    stageAt_forms hnone' hu.slice hu.sound (hvers ▸ hroom), hstamp, stagingTold_eq (id := id) (f := f) (by exact hu.flight)] at hexec
  obtain ⟨hdirRoom, hout, hwarps, hbytes⟩ := ((hin.homeStep.trans (u := { u with
    vers := u.vers ++ [u.newVer line (s.sideOf f.x f.y) f.bid (stageBytes f k).1 (stageBytes f k).2]
    flights := u.flights.put id (stagedReq f k 0 (s.stampOf (s.side' line)))
    agenda := u.agenda ++ [.stagingAnswer id k] }) ⟨rfl, rfl, rfl, .refl _⟩).mono (n := 1) (by omega)).ends (atDoor.spare h)
  refine ⟨_, _, _, hexec.trans (by rw [hdirRoom]), hout, hwarps, hbytes, congrArg (· ++ _) hvers, rfl, rfl, rfl, rfl, rfl, fun i hi => ?_,
    congrArg (· ++ _) hagenda, Tab.get?_put_same _ _ _, ?_, ?_, hdata⟩
  · rw [← hdata]
    exact getElem?_laidOver _ _ _ hi
  · rw [stagedReq, Flight.req_withReq (atDoor.inRange h)]
  · rw [stagedReq, Flight.req_withReq (atDoor.inRange h)]

/-- A staging on a line that another bundle has staged is refused (R119). -/
theorem bundleStaging_conflicts (h : s.atDoor id k f l line) (hv : s.staged line = some v)
    (hother : v.side ≠ s.sideOf f.x f.y ∨ v.bid ≠ f.bid) (hnotice : v.notice = none) :
    ∃ t g, exec (.bundleStaging id k) s = .next t ∧ t.out = .done ∧ t.warps = s.warps ∧ s.sameBytes t ∧ t.vers = s.vers
      ∧ t.agenda = s.agenda ++ [.stagingAnswer id k] ∧ t.flights.get? id = some g ∧ (g.req k).answer = 1 := by
  have hheld : s.stageHeld line (s.sideOf f.x f.y) f.bid = false := by
    rw [stageHeld, hv]
    dsimp only
    rw [hnotice, Option.isSome_none, Bool.and_false]
  have hexec := exec_bundleStaging h hheld (.inl (stageRefused_of_other hv hother))
  obtain ⟨hin, -, -, x, y, hserves, hu, -⟩ := letIn_spec h
  obtain ⟨sl, d, tx, heq⟩ := letIn_eq h
  have hvers : (s.letIn k f l line).vers = s.vers := by rw [heq]
  have hagenda : (s.letIn k f l line).agenda = s.agenda := by rw [heq]
  have hv' : (s.letIn k f l line).staged line = some v := by rw [heq]; exact hv
  generalize s.letIn k f l line = u at *
  rw [performStaging, stageRefused_of_other hv' hother, if_pos rfl, stageAt_conflicts hv' hother, stagingTold_eq hu.flight] at hexec
  obtain ⟨hdirRoom, hout, hwarps, hbytes⟩ := ((hin.homeStep.trans (u := { u with
    flights := u.flights.put id (stagedReq f k 1 0), agenda := u.agenda ++ [.stagingAnswer id k] })
    ⟨rfl, rfl, rfl, .refl _⟩).mono (n := 1) (by omega)).ends (atDoor.spare h)
  refine ⟨_, _, hexec.trans (by rw [hdirRoom]), hout, hwarps, hbytes, hvers, congrArg (· ++ _) hagenda, Tab.get?_put_same _ _ _, ?_⟩
  rw [stagedReq, Flight.req_withReq (atDoor.inRange h)]

/-! STAGING_ANSWER (R126). -/

theorem stagingAnswer_spec {r : BRec} (h : s.flights.get? id = some f) (hk : k < f.reqs.length) (hopen : (f.req k).done = false)
    (hslot : f.landing = false) (hrec : s.brec f.x f.y = some r) (hbid : r.bid = f.bid) :
    ∃ t g q, exec (.stagingAnswer id k) s = .next t ∧ t.out = .done ∧ t.warps = s.warps ∧ s.sameBytes t
      ∧ t.flights.get? id = some g ∧ (g.req k).done = true ∧ t.brec f.x f.y = some q
      ∧ q.fail = (if r.fail = 0 then (f.req k).answer else r.fail) ∧ q.gotStamp = max r.gotStamp (f.req k).bst
      ∧ (f.req k).pa / 128 ∈ q.got := by
  obtain ⟨fl, ag, hfinish, hget⟩ := finishReq_eq (s := s.modBrec f.x f.y fun b => b.answered f.bid (f.req k)) h k fun r => r
  have hanswered := brec_modBrec (g := fun b => b.answered f.bid (f.req k)) hrec (fun q => q.die_answered _ _) fun q => q.idx_answered _ _
  refine ⟨({ s.modBrec f.x f.y fun b => b.answered f.bid (f.req k) with flights := fl, agenda := ag } : State).done, _, _, ?_, rfl, rfl,
    sameBytes_of rfl rfl, hget, ?_, hanswered, BRec.answered_spec hbid _⟩
  · change execStagingAnswer id k s = _
    rw [execStagingAnswer, h]
    dsimp only
    rw [hopen, if_neg Bool.false_ne_true, savedFor, hslot, if_neg Bool.false_ne_true]
    exact congrArg (fun t : State => Host.Outcome.next t.done) hfinish
  · rw [Flight.req_withReq hk]

end State

/-- Settles O31: at issue by one lemma for each word, at the home by what a staging comes to once it is let in. -/
theorem bundleWordsAndStaging : Obligations.BundleWordsAndStaging := by
  refine ⟨fun s d a x w sc o hroom => ⟨?_, ?_, ?_, ?_, ?_, ?_, ?_, ?_⟩, fun s id k f l line => ⟨?_, ?_, ?_⟩⟩
  · exact fun hgo => State.bopen_opens hgo hroom
  · exact fun hgo hexec hbid hlen n => State.vstb_stages hgo hexec hroom hbid hlen
  · exact fun hgo => State.bclose_closes hgo hroom
  · exact fun hgo => State.exec_vopen hgo hroom
  · exact fun hgo => State.vclose_closes hgo hroom
  · exact fun hgo hexec hopen _ => State.vldv_loads hgo hexec hroom hopen
  · exact fun i hi hgo hexec hbid => State.exec_no_bundle hexec hroom hbid i hi hgo
  · exact fun i hi hgo hexec hclosed => State.exec_no_view hexec hroom hclosed i hi hgo
  · exact fun h _ => State.bundleStaging_forms h
  · exact fun v h _ => State.bundleStaging_conflicts h
  · exact fun r => State.stagingAnswer_spec

end Sys2Proof.Machine
end

section
/-!
PROOFS. A view load at its line's home (R127, R128, R131).
-/

namespace Sys2Proof.Machine

/-- The warp's view once a load has been consumed (R128). -/
def Warp.withView (w : Warp) (c : List Byte × Nat × List Seen) : Warp := { w with vstatus := c.2.1, seen := c.2.2 }

namespace State
variable {s u : State} {line id k : Nat} {x : SliceLine} {f : Flight} {l : Leaf}

/-- A line that is in its slice is used there, and that is all. -/
theorem atSlice_eq (h : s.sliceLine line = some x) (f : Flight) (l : Leaf) : ∃ sl, s.atSlice f l line = { s with slices := sl } := by
  rw [atSlice]
  split
  · rw [h]
    exact ⟨s.slices, rfl⟩
  · rw [fillSlice_of_sliceLine h, touchSlice, h]
    exact ⟨_, rfl⟩

/-- What a line's home reads of it is all that consume depends on in the slices and the directory. -/
theorem consume_congr {sl : List SliceLine} {d : List DirEnt} {tx : List Nat}
    (h : ({ s with slices := sl, dir := d, txns := tx } : State).lineNow line = s.lineNow line) (seen : List Seen) (status t0 : Nat) :
    ({ s with slices := sl, dir := d, txns := tx } : State).consume seen status t0 line = s.consume seen status t0 line := by
  rw [consume, h]
  rfl

/-- A line seen before is read from the seen table (R128). -/
theorem consume_of_seen {seen : List Seen} {e : Seen} (h : seen.find? (fun x => x.line == line) = some e) (status t0 : Nat) :
    s.consume seen status t0 line = (e.data, status, seen) := by
  rw [consume, consumeEarly, h]

/-! VIEW_CONSUME (R128). -/

/-- A consumed line for a view load: the view of the warp of `v` is kept, and the request is done with the bytes. -/
def consumed (s : State) (v : Flight) (id k : Nat) (f : Flight) (line : Nat) (c : List Byte × Nat × List Seen) : State :=
  (({ s with drawn := s.drawn + 1 } : State).writeBack v (·.withView c)).finishRead id k f c.1 (s.homeTag line f.part) fun r => r

/-- A view load performed at its home, for the view `w` of the warp of `v`, still the one it was issued under. -/
def consumeAtHome (w : Warp) (v : Flight) (s : State) (id k : Nat) (f : Flight) (l : Leaf) (line : Nat) : State :=
  let s := s.mergeResv line f.part
  if s.isPoisoned line && !(w.seen.any fun e => e.line == line) then s.failReq id k .poison 0
  else (s.atSlice f l line).consumed v id k f line ((s.atSlice f l line).consume w.seen w.vstatus f.x line)

theorem exec_viewConsume (h : s.atDoor id k f l line) (hslot : f.landing = false) (hopen : (s.warp f.key).vopen = true)
    (hview : (s.warp f.key).vt0 = f.x) (hst : s.dirState line = .u) :
    exec (.viewConsume id k) s = .next (((s.letIn k f l line).consumeAtHome (s.warp f.key) f id k f l line).dirRoom line).done := by
  obtain ⟨-, henter, -⟩ := letIn_spec h
  have hmsgs : l.shared = false → (s.homeEnter line f.part l.ns l.shared).loadRemoteMsgs f l line = [] := by
    intro _
    rw [loadRemoteMsgs, recallMsgs, henter.state, hst]
    split <;> rfl
  have hin := atHome_letIn h (.viewConsume id k) (perform := fun u f' l line => u.consumeAtHome (s.warp f.key) f id k f' l line) hmsgs
  obtain ⟨hflight, -, -, hline, -, -, hmem, -⟩ := h
  subst hline
  obtain ⟨d, hplace⟩ := placeOf_of_isMemory hmem
  have hmine : ((s.warp f.key).vopen && (s.warp f.key).vt0 == f.x) = true := by rw [hopen, hview, beq_self_eq_true]; rfl
  change execViewConsume id k s = _
  rw [execViewConsume, hflight]
  dsimp only
  rw [hplace, viewOf, hslot]
  simp only [Bool.false_eq_true, if_false, hmine, if_true]
  exact congrArg (fun t : State => Host.Outcome.next t.done) hin

/-- What a view load does once it is let in. -/
theorem consumeAtHome_eq (h : u.Serves id f line x) (hslot : f.landing = false) (w : Warp) (l : Leaf) (k : Nat) :
    ∃ sl fl ag, u.consumeAtHome w f id k f l line
      = { u.modWarp f.key (·.withView (u.consume w.seen w.vstatus f.x line)) with
          slices := sl, drawn := u.drawn + 1, flights := fl, agenda := ag }
      ∧ fl.get? id = some ((f.apply k (u.consume w.seen w.vstatus f.x line).1).2.withReq k { f.req k with
          tag := (u.atSlice f l line).homeTag line f.part, data := (u.consume w.seen w.vstatus f.x line).1, done := true, sent := false }) := by
  obtain ⟨hstep, -⟩ := atSlice_spec h.slice f l
  obtain ⟨sl, heq⟩ := atSlice_eq h.slice f l
  have hconsume : (u.atSlice f l line).consume w.seen w.vstatus f.x line = u.consume w.seen w.vstatus f.x line := by
    have hline := hstep.lineNow_eq rfl
    rw [heq] at hline ⊢
    exact consume_congr hline _ _ _
  rw [consumeAtHome, mergeResv_of_none h.resv, h.sound, Bool.false_and, if_neg Bool.false_ne_true, hconsume, consumed, writeBack,
    hslot, if_neg Bool.false_ne_true]
  obtain ⟨fl, ag, hread, hget⟩ := finishRead_eq
    (({ u.atSlice f l line with drawn := (u.atSlice f l line).drawn + 1 } : State).modWarp f.key
      (·.withView (u.consume w.seen w.vstatus f.x line))) id k f (u.consume w.seen w.vstatus f.x line).1
    ((u.atSlice f l line).homeTag line f.part)
  refine ⟨sl, fl, ag, hread.trans ?_, hget⟩
  rw [heq]
  rfl

/-- A view load of a line that no one has. -/
theorem viewConsume_spec (h : s.atDoor id k f l line) (hkind : f.kind = .vldv) (hslot : f.landing = false)
    (hopen : (s.warp f.key).vopen = true) (hview : (s.warp f.key).vt0 = f.x) (hst : s.dirState line = .u) :
    ∃ t g, exec (.viewConsume id k) s = .next t ∧ t.out = .done ∧ s.sameBytes t ∧ t.flights.get? id = some g ∧ (g.req k).done = true
      ∧ g.accs = loaded f k (s.consume (s.warp f.key).seen (s.warp f.key).vstatus f.x line).1
      ∧ t.warp f.key = (s.warp f.key).withView (s.consume (s.warp f.key).seen (s.warp f.key).vstatus f.x line) := by
  have hexec := exec_viewConsume h hslot hopen hview hst
  obtain ⟨hin, -, -, x, y, hserves, hu, -⟩ := letIn_spec h
  obtain ⟨sl, d, tx, heq⟩ := letIn_eq h
  have hconsume : (s.letIn k f l line).consume (s.warp f.key).seen (s.warp f.key).vstatus f.x line
      = s.consume (s.warp f.key).seen (s.warp f.key).vstatus f.x line := by
    have hline := hin.lineNow_eq hserves.slice
    rw [heq] at hline ⊢
    exact consume_congr hline _ _ _
  have hwarps : (s.letIn k f l line).warps = s.warps := by rw [heq]
  obtain ⟨sl', fl, ag, hread, hget⟩ := consumeAtHome_eq hu hslot (s.warp f.key) l k
  rw [hconsume] at hread hget
  have hroom : ((s.letIn k f l line).consumeAtHome (s.warp f.key) f id k f l line).dirRoom line
      = (s.letIn k f l line).consumeAtHome (s.warp f.key) f id k f l line := by
    refine dirRoom_eq (atDoor.spare h) ?_ ?_
    · rw [hread]
      exact hin.homeStep.regs
    · rw [hread]
      exact hin.dir.mono (Nat.zero_le 1)
  rw [hroom, hread] at hexec
  refine ⟨_, _, hexec, rfl, sameBytes_of ?_ ?_, hget, ?_, Flight.accs_apply_of_reads (fun e a => by rw [Flight.applyAcc, hkind]) _ _, ?_⟩
  · exact hin.mem
  · exact congrArg Beyond.cores hin.beyond
  · rw [Flight.req_withReq (f := (f.apply k _).2) (atDoor.inRange h :)]
  · have hkept := (s.letIn k f l line).warp_modWarp f.key
      (·.withView (s.consume (s.warp f.key).seen (s.warp f.key).vstatus f.x line))
    rw [show (s.letIn k f l line).warp f.key = s.warp f.key from congrArg (·.get f.key {}) hwarps] at hkept
    exact hkept

end State

/-- Settles O33: the home as it lets the load in is the home as consume found it. -/
theorem viewLoads : Obligations.ViewLoads := by
  intro s id k f l line h hkind hslot w hopen hview hst
  obtain ⟨t, g, hexec, hout, hbytes, hget, hdone, haccs, hwarp⟩ := State.viewConsume_spec h hkind hslot hopen hview hst
  rw [← hview] at haccs hwarp
  refine ⟨t, g, hexec, hout, hbytes, hget, hdone, ⟨haccs, ?_, ?_⟩, fun e he => ?_⟩
  · rw [hwarp]; rfl
  · rw [hwarp]; rfl
  · rw [State.consume_of_seen he] at haccs hwarp
    refine ⟨haccs, ?_⟩
    rw [hwarp]; rfl

end Sys2Proof.Machine
end

section
/-!
PROOFS. The commit of a bundle, and the status its closer takes (R116, R120, R124).
-/

namespace Sys2Proof.Machine

/-- A record whose list is written (R120). -/
def BRec.listed (r : BRec) : BRec := { r with st := 2, lines := r.got }
/-- A record that has committed with a stamp and a tag. -/
def BRec.committed (stamp : Nat) (tag : Nat × Nat) (r : BRec) : BRec :=
  { r with st := 3, stamp := stamp, outstanding := r.lines.length, tag := tag }
/-- A record that has aborted. -/
def BRec.aborted (r : BRec) : BRec := { r with st := 4, lines := r.got, outstanding := r.got.length }

namespace State
variable {s t : State} {die idx id : Nat} {r : BRec} {f : Flight} {g : BRec → BRec}

/-! A record that is edited and written back (R115, R116). -/

/-- A record of the bundle directory is edited, and its bytes follow. -/
def editRec (s : State) (die idx : Nat) (g : BRec → BRec) : State := (s.modBrec die idx g).writeRec die idx

theorem brec_editRec (h : s.brec die idx = some r) (hdie : ∀ q, (g q).die = q.die) (hidx : ∀ q, (g q).idx = q.idx) :
    (s.editRec die idx g).brec die idx = some (g r) := by
  rw [editRec, (aside_writeRec _ die idx).brec_eq]
  exact brec_modBrec h hdie hidx

@[simp] theorem flights_editRec (s : State) (die idx : Nat) (g : BRec → BRec) : (s.editRec die idx g).flights = s.flights :=
  (aside_writeRec (s.modBrec die idx g) die idx).flights
@[simp] theorem warps_editRec (s : State) (die idx : Nat) (g : BRec → BRec) : (s.editRec die idx g).warps = s.warps :=
  congrArg Beyond.warps (beyond_writeRec (s.modBrec die idx g) die idx)

/-! The closer is told (R124). -/

/-- The BCLOSE of a bundle takes its outcome and answers. -/
def tellCloser (s : State) (id code : Nat) : State := (s.modFlight id ({ · with result := code })).push [.commitAnswer id]

theorem tellCloser_eq (h : s.flights.get? id = some f) (code : Nat) :
    s.tellCloser id code = { s with flights := s.flights.put id { f with result := code }, agenda := s.agenda ++ [.commitAnswer id] } := by
  rw [tellCloser, modFlight_of_get? h]
  rfl

/-- An outcome reaches the record, its closer and the homes of its lines. -/
def resolve (s : State) (die idx id code : Nat) (g : BRec → BRec) (notices : List Instr) : State :=
  ((s.editRec die idx g).tellCloser id code).push notices

theorem resolve_spec (hrec : s.brec die idx = some r) (h : s.flights.get? id = some f) (hdie : ∀ q, (g q).die = q.die)
    (hidx : ∀ q, (g q).idx = q.idx) (code : Nat) (notices : List Instr) :
    (s.resolve die idx id code g notices).warps = s.warps
      ∧ (s.resolve die idx id code g notices).brec die idx = some (g r)
      ∧ (∀ i ∈ notices, i ∈ (s.resolve die idx id code g notices).agenda)
      ∧ .commitAnswer id ∈ (s.resolve die idx id code g notices).agenda
      ∧ (s.resolve die idx id code g notices).flights.get? id = some { f with result := code } := by
  rw [resolve, tellCloser_eq (f := f) (by rw [flights_editRec]; exact h)]
  exact ⟨s.warps_editRec die idx g, brec_editRec hrec hdie hidx, fun i hi => List.mem_append_right _ hi,
    List.mem_append_left _ (List.mem_append_right _ (List.mem_singleton_self _)), Tab.get?_put_same _ _ _⟩

/-! COMMIT_REQUEST (R120). -/

section
variable (hrec : s.brec die idx = some r) (hleft : s.stagingLeft die idx = false) (hcloser : r.closer = some id)
  (h : s.flights.get? id = some f) (hreleased : f.released = true)
include hrec hleft hcloser h hreleased

/-- A bundle that is still to be resolved is aborted, listed or committed. -/
theorem exec_commitRequest (hst : r.st < 3) : exec (.commitRequest die idx) s = .next (
    if r.fail != 0 then
      if r.got = [] then ((((s.editRec die idx BRec.aborted).tellCloser id r.fail).freeRec die idx).push [.bcloseComplete id]).done
      else (s.resolve die idx id r.fail BRec.aborted (r.got.map (.discardNotice die idx ·))).done
    else if r.st = 1 then ((s.editRec die idx BRec.listed).push [.commitRequest die idx]).done
    else if r.got = [] then (((s.freeRec die idx).tellCloser id 0).push [.bcloseComplete id]).done
    else (s.resolve die idx id 0
      (BRec.committed (max (s.now die) (r.gotStamp + 1)) (if f.ord = 2 then ((s.core f.core).lclk, (s.core f.core).leasemax) else (0, 0)))
      (r.got.map (.promotionNotice die idx ·))).done) := by
  have hbind : r.closer.bind s.flights.get? = some f := by rw [hcloser]; exact h
  change execCommitRequest die idx s = _
  rw [execCommitRequest, hrec]
  dsimp only
  rw [hbind, if_neg (by omega), hleft, Option.any_some, hreleased, hcloser]
  rfl

/-- An OPEN bundle without a failure lists its lines. -/
theorem commitRequest_lists (hst : r.st = 1) (hok : r.fail = 0) :
    ∃ t, exec (.commitRequest die idx) s = .next t ∧ t.out = .done ∧ t.warps = s.warps
      ∧ t.brec die idx = some { r with st := 2, lines := r.got } ∧ .commitRequest die idx ∈ t.agenda := by
  have hexec := exec_commitRequest hrec hleft hcloser h hreleased (by omega)
  rw [if_neg (by rw [hok]; exact Bool.false_ne_true), if_pos hst] at hexec
  exact ⟨_, hexec, rfl, s.warps_editRec die idx _, brec_editRec (g := BRec.listed) hrec (fun _ => rfl) fun _ => rfl,
    List.mem_append_right _ (List.mem_singleton_self _)⟩

/-- A COMMITTING bundle commits. -/
theorem commitRequest_commits (hst : r.st = 2) (hok : r.fail = 0) (hgot : r.got ≠ []) :
    ∃ t g q, exec (.commitRequest die idx) s = .next t ∧ t.out = .done ∧ t.warps = s.warps
      ∧ t.brec die idx = some q ∧ q.st = 3 ∧ q.stamp = max (s.now die) (r.gotStamp + 1) ∧ q.outstanding = r.lines.length
      ∧ (∀ l ∈ r.got, .promotionNotice die idx l ∈ t.agenda) ∧ .commitAnswer id ∈ t.agenda
      ∧ t.flights.get? id = some g ∧ g.result = 0 := by
  have hexec := exec_commitRequest hrec hleft hcloser h hreleased (by omega)
  rw [if_neg (by rw [hok]; exact Bool.false_ne_true), if_neg (by omega), if_neg hgot] at hexec
  obtain ⟨hwarps, hresolved, hnotices, hanswer, hflight⟩ := resolve_spec hrec h
    (g := BRec.committed (max (s.now die) (r.gotStamp + 1)) (if f.ord = 2 then ((s.core f.core).lclk, (s.core f.core).leasemax) else (0, 0)))
    (fun _ => rfl) (fun _ => rfl) 0 (r.got.map (.promotionNotice die idx ·))
  exact ⟨_, _, _, hexec, rfl, hwarps, hresolved, rfl, rfl, rfl, fun l hl => hnotices _ (List.mem_map_of_mem hl), hanswer, hflight, rfl⟩

/-- A bundle of which a line failed aborts. -/
theorem commitRequest_aborts (hst : r.st < 3) (hfail : r.fail ≠ 0) (hgot : r.got ≠ []) :
    ∃ t g q, exec (.commitRequest die idx) s = .next t ∧ t.out = .done ∧ t.warps = s.warps
      ∧ t.brec die idx = some q ∧ q.st = 4 ∧ q.lines = r.got ∧ q.outstanding = r.got.length
      ∧ (∀ l ∈ r.got, .discardNotice die idx l ∈ t.agenda) ∧ .commitAnswer id ∈ t.agenda
      ∧ t.flights.get? id = some g ∧ g.result = r.fail := by
  have hexec := exec_commitRequest hrec hleft hcloser h hreleased hst
  rw [if_pos (bne_iff_ne.mpr hfail), if_neg hgot] at hexec
  obtain ⟨hwarps, hresolved, hnotices, hanswer, hflight⟩ := resolve_spec hrec h (g := BRec.aborted)
    (fun _ => rfl) (fun _ => rfl) r.fail (r.got.map (.discardNotice die idx ·))
  exact ⟨_, _, _, hexec, rfl, hwarps, hresolved, rfl, rfl, rfl, fun l hl => hnotices _ (List.mem_map_of_mem hl), hanswer, hflight, rfl⟩

end

end State

/-! COMMIT_ANSWER (R124). -/

namespace Flight
variable {f : Flight}

/-- A BCLOSE whose one piece has the outcome of its bundle. -/
def withOutcome (f : Flight) : Flight := { f with accs := f.accs.map fun a => { a with val := f.result } }

section
variable (hreqs : f.reqs = []) (haccs : f.accs = [{ lane := 0, off := 0, size := 4, va := 0 }])
include hreqs haccs

/-- The piece of a BCLOSE never fails, since it has no request. -/
theorem goodLanes_withOutcome : f.withOutcome.goodLanes.getLsbD 0 = true := by
  have hreq : f.withOutcome.req 0 = { win := .global, vline := 0 } := by rw [req, withOutcome, hreqs]; rfl
  have hpiece : f.withOutcome.accs = [{ lane := 0, off := 0, size := 4, va := 0, val := f.result }] := by rw [withOutcome, haccs]; rfl
  have hfailed : f.withOutcome.failedLanes.getLsbD 0 = false := by
    rw [failedLanes, getLsbD_maskIf, hpiece, List.any_cons, failed, hreq]
    rfl
  rw [goodLanes, getLsbD_maskIf, hfailed, hpiece]
  rfl

/-- A BCLOSE writes its outcome in its register. -/
theorem writeDst_withOutcome (hscalar : f.scalar = true) (hwidth : f.width = 4) (w : Warp) :
    f.withOutcome.writeDst w 0 = w.setSAt f.sls f.dst (BitVec.ofNat 32 f.result) := by
  have hpiece : f.withOutcome.accs = [{ lane := 0, off := 0, size := 4, va := 0, val := f.result }] := by rw [withOutcome, haccs]; rfl
  have hvalue : f.withOutcome.laneValue 0 = f.result := by
    rw [laneValue, hpiece, show f.withOutcome.width = 4 from hwidth]
    exact (Nat.zero_add _).trans (Nat.mul_one _)
  rw [writeDst, if_pos (show f.withOutcome.scalar = true from hscalar), if_pos (goodLanes_withOutcome hreqs haccs), hvalue, Nat.mul_zero,
    Nat.pow_zero, Nat.div_one]
  rfl

end

end Flight

namespace State
variable {s : State} {id : Nat} {f : Flight}

theorem exec_commitAnswer (h : s.flights.get? id = some f) (hslot : f.landing = false) :
    exec (.commitAnswer id) s = .next ((s.modWarp f.key (f.withOutcome.writeDst · 0)).putFlight id { f with returned := true }).done := by
  change execCommitAnswer id s = _
  have hnot : ¬ f.landing = true := by rw [hslot]; exact Bool.false_ne_true
  rw [execCommitAnswer, h]
  dsimp only
  rw [writeBack]
  dsimp only
  rw [if_neg hnot, if_neg hnot, modFlight_of_get? (f := f) (by exact h)]
  rfl

theorem commitAnswer_spec (h : s.flights.get? id = some f) (hslot : f.landing = false) (hscalar : f.scalar = true) (hdst : f.dst < 64)
    (hwidth : f.width = 4) (hreqs : f.reqs = []) (haccs : f.accs = [{ lane := 0, off := 0, size := 4, va := 0 }]) :
    ∃ t g, exec (.commitAnswer id) s = .next t ∧ t.out = .done ∧ s.sameBytes t ∧ t.flights.get? id = some g ∧ g.returned = true
      ∧ (∀ key, key ≠ f.key → t.warps.get? key = s.warps.get? key)
      ∧ (t.warp f.key).sreg f.dst = Warp.slsAnd f.sls f.dst (BitVec.ofNat 32 f.result)
      ∧ ∀ n, n ≠ f.dst → (t.warp f.key).sreg n = (s.warp f.key).sreg n := by
  have hwarp : (s.modWarp f.key (f.withOutcome.writeDst · 0)).warp f.key
      = (s.warp f.key).setSAt f.sls f.dst (BitVec.ofNat 32 f.result) :=
    (s.warp_modWarp f.key _).trans (Flight.writeDst_withOutcome hreqs haccs hscalar hwidth _)
  refine ⟨_, _, exec_commitAnswer h hslot, rfl, sameBytes_of rfl rfl, get?_putFlight _ id _, rfl,
    fun key hkey => s.warps_modWarp_other hkey (f.withOutcome.writeDst · 0), ?_, fun n hn => ?_⟩
  · exact (congrArg (·.sreg f.dst) hwarp).trans (Warp.sreg_setSAt_same _ _ hdst _)
  · exact (congrArg (·.sreg n) hwarp).trans (Warp.sreg_setSAt_other _ _ hn _)

end State
end Sys2Proof.Machine
end

section
/-!
PROOFS. A promotion at a line's home (R119, R121).
-/

namespace Sys2Proof.Machine

namespace State
variable {s u : State} {die idx line : Nat} {x : SliceLine} {v w : VerEnt} {r : BRec}

/-! A write performed in the slice of a line without a staged version. -/

/-- A watching queue engine is told by a message (R316). -/
theorem notify_eq (s : State) (line : Nat) : ∃ ag, s.notify line = { s with agenda := ag } := by
  have hfold : ∀ {α : Type} {g : State → α → State}, (∀ u a, ∃ ag, g u a = { u with agenda := ag }) → ∀ (l : List α) (u : State),
      ∃ ag, l.foldl g u = { u with agenda := ag } := by
    intro α g hg l
    induction l with
    | nil => exact fun u => ⟨u.agenda, rfl⟩
    | cons a l ih =>
      intro u
      obtain ⟨ag, hag⟩ := hg u a
      obtain ⟨ag', hag'⟩ := ih (g u a)
      exact ⟨ag', by rw [List.foldl_cons, hag', hag]⟩
  refine hfold (fun u r => hfold (fun u e => ?_) _ u) _ s
  split
  · obtain ⟨is, hpush, -⟩ := pushNew_spec u (.pidxNotice r.die r.id e.1)
    exact ⟨_, hpush⟩
  · exact ⟨u.agenda, rfl⟩

theorem any_staged_of_none (h : s.staged line = none) : (s.vers.any fun v => v.line == line && v.staged) = false :=
  List.any_eq_false.mpr fun v hv => List.find?_eq_none.mp h v hv

theorem setHomeData_of_slice (hnone : s.staged line = none) (hx : s.sliceLine line = some x) (g : List Byte → List Byte) :
    s.setHomeData line g
      = { s with slices := s.slices.map fun y => if y.line = line then { y with data := g x.data, dirty := true } else y } := by
  have hstay : s.restage line g = s := by rw [restage, any_staged_of_none hnone]; rfl
  rw [setHomeData, hstay, hx, homeData_of_sliceLine hx]

theorem bumpVer_of_slice (hx : s.sliceLine line = some x) (part : Nat) :
    ∃ sl dies y, s.bumpVer line part = { s with slices := sl, dies := dies } ∧ sl.find? (fun z => z.line == line) = some y ∧ y.data = x.data := by
  rw [bumpVer, hx]
  exact ⟨_, _, _, rfl, sliceLine_map (s := s) (g := fun z => { z with ver := ((s.slc x.die x.slice).mclk + 1) % 2 ^ 32 }) (fun _ => rfl) hx, rfl⟩

theorem homeWrite_of_slice (hnone : s.staged line = none) (hx : s.sliceLine line = some x) (part : Nat) (g : List Byte → List Byte) (whole : Bool) :
    ∃ sl dies po ag y, s.homeWrite line part g whole = { s with slices := sl, dies := dies, poison := po, agenda := ag }
      ∧ sl.find? (fun z => z.line == line) = some y ∧ y.data = g x.data := by
  have hset : (s.setHomeData line g).sliceLine line = some { x with data := g x.data, dirty := true } := by
    rw [setHomeData_of_slice hnone hx]
    exact sliceLine_map (g := fun y => { y with data := g x.data, dirty := true }) (fun _ => rfl) hx
  obtain ⟨sl, dies, y, hbump, hy, hdata⟩ := bumpVer_of_slice hset part
  rw [setHomeData_of_slice hnone hx] at hbump
  rw [homeWrite, setHomeData_of_slice hnone hx, hbump]
  dsimp only
  split
  · obtain ⟨ag, hag⟩ := notify_eq _ line
    rw [hag]
    exact ⟨sl, dies, _, ag, y, rfl, hy, hdata⟩
  · obtain ⟨ag, hag⟩ := notify_eq _ line
    rw [hag]
    exact ⟨sl, dies, s.poison, ag, y, rfl, hy, hdata⟩

/-! A staged version becomes the line (R119). -/

/-- The version that was the line until now. -/
def lastVer (s : State) (line : Nat) : VerEnt :=
  { line := line, staged := false, data := s.homeData line, side := s.side' line, stamp := s.stampOf (s.side' line) }

/-- The versions after a promotion: of the line, only the one that was the line before. -/
def promoted (s : State) (line : Nat) : List VerEnt := (s.vers.filter fun x => x.line != line) ++ [s.lastVer line]

theorem find?_filter_line_ne {p : VerEnt → Bool} :
    (s.vers.filter fun x => x.line != line).find? (fun x => x.line == line && p x) = none := by
  refine List.find?_eq_none.mpr fun x hx => ?_
  rw [Bool.and_eq_true, beq_iff_eq]
  exact fun h => bne_iff_ne.mp (List.mem_filter.mp hx).2 h.1

theorem staged_promoted : (s.promoted line).find? (fun x => x.line == line && x.staged) = none := by
  rw [promoted, List.find?_append, find?_filter_line_ne]
  exact List.find?_cons_of_neg (a := s.lastVer line) (p := fun x => x.line == line && x.staged)
    fun h => Bool.false_ne_true ((Bool.and_eq_true _ _).mp h).2

theorem previous_promoted : (s.promoted line).find? (fun x => x.line == line && !x.staged) = some (s.lastVer line) := by
  rw [promoted, List.find?_append, find?_filter_line_ne]
  exact List.find?_cons_of_pos (a := s.lastVer line) (p := fun x => x.line == line && !x.staged)
    ((Bool.and_eq_true _ _).mpr ⟨beq_self_eq_true line, rfl⟩)

/-- The state as a promotion replaces the versions and the metadata of a line. -/
def replaced (s : State) (line : Nat) (v : VerEnt) : State := { s with vers := s.promoted line, side := s.side.put line v.side }

theorem setHomeTag_of_slice (hx : s.sliceLine line = some x) (part : Nat) (tag : Tag) :
    ∃ sl y, s.setHomeTag line part tag = { s with slices := sl } ∧ sl.find? (fun z => z.line == line) = some y ∧ y.data = x.data := by
  rw [setHomeTag, hx]
  exact ⟨_, _, rfl, sliceLine_map (s := s) (g := fun x => { x with tag := tag }) (fun _ => rfl) hx, rfl⟩

theorem promote_of_slice (hresv : ∀ x ∈ s.resv, x.line ≠ line) (hx : s.sliceLine line = some x) (hv : s.staged line = some v) (tag : Tag) :
    ∃ t, s.promote line v tag = ((s.replaced line v).homeWrite line (s.partOf line) (fun _ => v.data) true).setHomeTag line (s.partOf line) t := by
  refine ⟨(((s.replaced line v).homeWrite line (s.partOf line) (fun _ => v.data) true).homeTag line (s.partOf line)).max tag, ?_⟩
  rw [promote, mergeResv_of_none hresv, hx, Option.isSome_some, if_pos rfl, hv, Option.getD_some]
  rfl

theorem promote_eq (hresv : ∀ x ∈ s.resv, x.line ≠ line) (hx : s.sliceLine line = some x) (hv : s.staged line = some v) (tag : Tag) :
    ∃ sl dies po ag y, s.promote line v tag = { s.replaced line v with slices := sl, dies := dies, poison := po, agenda := ag }
      ∧ sl.find? (fun z => z.line == line) = some y ∧ y.data = v.data := by
  obtain ⟨t, ht⟩ := promote_of_slice hresv hx hv tag
  obtain ⟨sl, dies, po, ag, y, hwrite, hy, hdata⟩ := homeWrite_of_slice (s := s.replaced line v) staged_promoted hx (s.partOf line)
    (fun _ => v.data) true
  rw [hwrite] at ht
  obtain ⟨sl', y', htagged, hy', hdata'⟩ := setHomeTag_of_slice (s := { s.replaced line v with slices := sl, dies := dies, poison := po, agenda := ag })
    hy (s.partOf line) t
  exact ⟨sl', dies, po, ag, y', ht.trans htagged, hy', hdata'.trans hdata⟩

/-! A promotion whose notice has arrived (R121). -/

/-- A staged version that is edited stays in its place. -/
theorem staged_map {g : VerEnt → VerEnt} (hv : s.staged line = some v) (hline : ∀ x, (g x).line = x.line) (hstaged : ∀ x, (g x).staged = x.staged) :
    (s.vers.map fun x => if x = v then g x else x).find? (fun x => x.line == line && x.staged) = some (g v) := by
  have hp : ((fun x : VerEnt => x.line == line && x.staged) ∘ fun x => if x = v then g x else x) = fun x => x.line == line && x.staged := by
    funext x
    rw [Function.comp_apply, apply_ite VerEnt.line, apply_ite VerEnt.staged, hline, hstaged, ite_self, ite_self]
  rw [List.find?_map, hp]
  exact (congrArg (Option.map _) hv).trans (congrArg some (if_pos rfl))

theorem noticed_eq (hv : s.staged line = some v) : ∃ (u : State) (w : VerEnt), (if v.notice.isSome then s else s.setNotice v none) = u
    ∧ u = { s with vers := u.vers }
    ∧ u.staged line = some w ∧ w.data = v.data ∧ w.side = v.side := by
  split
  · exact ⟨s, v, rfl, rfl, hv, rfl, rfl⟩
  · exact ⟨_, { v with notice := some (s.now (homeDie v.line)), sender := none }, rfl, rfl, staged_map
      (g := fun x => { x with notice := some (s.now (homeDie v.line)), sender := none }) hv (fun _ => rfl) (fun _ => rfl), rfl, rfl⟩

theorem line_of_staged (h : s.staged line = some v) : v.line = line :=
  beq_iff_eq.mp ((Bool.and_eq_true _ _).mp (List.find?_some (p := fun v : VerEnt => v.line == line && v.staged) h)).1

theorem delayed_of_off (h : (s.die (homeDie w.line)).bdiagEn = false) : s.delayed w = false := by
  rw [delayed]
  split
  · rw [h, Bool.false_and]
  · rfl

/-- A transaction that a promotion has under way is over (R81). -/
def closePromotion (s : State) (line : Nat) (v : VerEnt) : State :=
  if v.opened then { s.dropOld line with txns := s.txns.filter (· != line) } else s

theorem closePromotion_eq (s : State) (line : Nat) (v : VerEnt) :
    s.closePromotion line v = { s with dir := (s.closePromotion line v).dir, txns := (s.closePromotion line v).txns } := by
  rw [closePromotion]
  split <;> rfl

theorem silent_of_u (h : s.dirState line = .u) : s.silent line = false := by rw [silent, h]
theorem invalidateMsgs_of_u (h : s.dirState line = .u) (except : Option Nat) : s.invalidateMsgs line except = [] := by rw [invalidateMsgs, h]

/-- A promotion is performed, and acknowledged with the line's lease end (R119). -/
def performPromotion (s : State) (die idx line : Nat) (r : BRec) (v : VerEnt) : State :=
  let s := (s.promote line v ⟨r.tag.1, r.tag.2⟩).setWriter line r.core
  s.push [.noticeAck die idx (s.ackLend line)]

theorem tryPromote_eq (hrec : s.brec die idx = some r) (hv : s.staged line = some v) (hside : v.side = s.sideOf die idx) (hbid : v.bid = r.bid)
    (hdiag : (s.die (homeDie line)).bdiagEn = false) (hfree : s.lineBusy line (s.partOf line) = false) (hst : s.dirState line = .u) :
    ∃ (u : State) (w : VerEnt), s.tryPromote die idx line = u.performPromotion die idx line r w
      ∧ u = { s with vers := u.vers, dir := u.dir, txns := u.txns } ∧ u.staged line = some w ∧ w.data = v.data ∧ w.side = v.side := by
  obtain ⟨u, w, hnoticed, hu, hw, hdata, hwside⟩ := noticed_eq hv
  have hown : ¬ (decide (v.side ≠ s.sideOf die idx) || decide (v.bid ≠ r.bid)) = true := by simp [hside, hbid]
  have hdelayed : u.delayed w = false := delayed_of_off (by rw [line_of_staged hw, hu]; exact hdiag)
  have hust : u.dirState line = .u := by rw [hu]; exact hst
  have hubusy : u.lineBusy line (u.partOf line) = false := by rw [hu]; exact hfree
  refine ⟨u.closePromotion line w, w, ?_, ?_, ?_, hdata, hwside⟩
  · rw [tryPromote, hrec, hv]
    dsimp only
    rw [if_neg hown, hnoticed, hw]
    dsimp only
    rw [hdelayed, if_neg Bool.false_ne_true, hubusy, silent_of_u hust, Bool.and_false, Bool.or_false, if_neg Bool.false_ne_true,
      invalidateMsgs_of_u hust, if_neg (not_not_intro rfl)]
    rfl
  · rw [closePromotion_eq, hu]
  · rw [closePromotion_eq]
    exact hw

/-- What a promotion does once the copies of its line are home (R119). -/
theorem tryPromote_spec (hrec : s.brec die idx = some r) (hv : s.staged line = some v) (hside : v.side = s.sideOf die idx) (hbid : v.bid = r.bid)
    (hdiag : (s.die (homeDie line)).bdiagEn = false) (hfree : s.lineBusy line (s.partOf line) = false) (hst : s.dirState line = .u)
    (hresv : ∀ x ∈ s.resv, x.line ≠ line) (hslice : (s.sliceLine line).isSome = true) :
    ∃ t p, (s.tryPromote die idx line).done = t ∧ t.out = .done ∧ t.warps = s.warps ∧ s.sameBytes t ∧ t.homeData line = v.data
      ∧ t.side' line = v.side ∧ t.staged line = none ∧ t.previous line = some p ∧ p.data = s.homeData line ∧ p.side = s.side' line
      ∧ ∃ n, .noticeAck die idx n ∈ t.agenda := by
  obtain ⟨x, hx⟩ := Option.isSome_iff_exists.mp hslice
  obtain ⟨u, w, htry, hu, hw, hdata, hwside⟩ := tryPromote_eq hrec hv hside hbid hdiag hfree hst
  obtain ⟨sl, dies, po, ag, y, hpromote, hy, hydata⟩ := promote_eq (s := u) (by rw [hu]; exact hresv) (by rw [hu]; exact hx) hw ⟨r.tag.1, r.tag.2⟩
  rw [performPromotion, hpromote] at htry
  refine ⟨_, u.lastVer line, congrArg done htry, rfl, ?_, sameBytes_of ?_ ?_, ?_, ?_,
    staged_promoted, previous_promoted, ?_, ?_, _, List.mem_append_right _ (List.mem_singleton_self _)⟩
  · rw [hu]; rfl
  · rw [hu]; rfl
  · rw [hu]; rfl
  · exact (homeData_of_sliceLine (by exact hy)).trans (hydata.trans hdata)
  · exact (Tab.get_put_same u.side line w.side 0).trans hwside
  · rw [hu]; rfl
  · rw [hu]; rfl

/-- The notice of a promotion, or the end of its delay, at the line's home (R119, R121). -/
theorem promotion_spec (hrec : s.brec die idx = some r) (hv : s.staged line = some v) (hside : v.side = s.sideOf die idx) (hbid : v.bid = r.bid)
    (hmem : isMemory line = true) (hlive : (s.die (homeDie line)).dead = false)
    (hdiag : (s.die (homeDie line)).bdiagEn = false) (hfree : s.lineBusy line (s.partOf line) = false) (hst : s.dirState line = .u)
    (hresv : ∀ x ∈ s.resv, x.line ≠ line) (hslice : (s.sliceLine line).isSome = true) :
    ∀ ev ∈ ([.promotionNotice die idx line, .promotionDelayExpiry die idx line] : List Instr),
      ∃ t p, exec ev s = .next t ∧ t.out = .done ∧ t.warps = s.warps ∧ s.sameBytes t ∧ t.homeData line = v.data
      ∧ t.side' line = v.side ∧ t.staged line = none ∧ t.previous line = some p ∧ p.data = s.homeData line ∧ p.side = s.side' line
      ∧ ∃ n, .noticeAck die idx n ∈ t.agenda := by
  obtain ⟨t, p, htry, hspec⟩ := tryPromote_spec hrec hv hside hbid hdiag hfree hst hresv hslice
  refine List.forall_mem_cons.mpr ⟨⟨t, p, ?_, hspec⟩, List.forall_mem_singleton.mpr ⟨t, p, congrArg Host.Outcome.next htry, hspec⟩⟩
  change execPromotionNotice die idx line s = _
  rw [execPromotionNotice, hmem, Bool.not_true, if_neg Bool.false_ne_true, hlive, if_neg Bool.false_ne_true, htry]

end State
end Sys2Proof.Machine
end

section
/-!
PROOFS. Notices of a bundle and their acknowledgments (R119, R120, R124).
-/

namespace Sys2Proof.Machine

/-- Metadata that names no bundle any more if it named `b` (R119). -/
def forgotten (b w : Word) : Word := if w = b then w &&& ~~~1 else w

/-- A core that has met a lease end (R124). -/
def Core.met (lend : Nat) (c : Core) : Core := { c with leasemax := max c.leasemax lend }

namespace State
variable {s t u : State} {die idx line id lend : Nat} {v : VerEnt} {r : BRec} {f : Flight}

/-! Notices for a line of a peer (R351, R356). -/

/-- What leaves for the home of a line of a peer. -/
def bnotes (s : State) (die idx kind line : Nat) : List OutMsg :=
  (s.fabricAt die (128 * line)).toList.map fun a => s.fabricFrame die (warpKey (((s.brec die idx).map (·.core)).getD 0) 64) .bnote a.1 a.2
    (leBytes 1 kind ++ leBytes 4 (s.sideOf die idx).toNat)

theorem peerNotice_eq (s : State) (die idx kind line : Nat) : (s.peerNotice die idx kind line).done
    = { s with outbox := s.outbox ++ s.bnotes die idx kind line, agenda := s.agenda ++ [.noticeAck die idx 0], out := .done } := by
  rw [peerNotice, bnotes]
  cases s.fabricAt die (128 * line) with
  | some a => rfl
  | none =>
    rw [Option.toList_none, List.map_nil, List.append_nil]
    rfl

/-- The events that give a line's home a notice, with the kind a peer is told. -/
theorem exec_notice_of_peer (hpeer : isMemory line = false) :
    ∀ e ∈ ([(.promotionNotice die idx line, 0), (.discardNotice die idx line, 1), (.forgetNotice die idx line, 2)] : List (Instr × Nat)),
      exec e.1 s = .next (s.peerNotice die idx e.2 line).done := by
  have hnot : (!isMemory line) = true := by rw [hpeer]; rfl
  refine List.forall_mem_cons.mpr ⟨?_, List.forall_mem_cons.mpr ⟨?_, List.forall_mem_singleton.mpr ?_⟩⟩
  · exact congrArg Host.Outcome.next (if_pos hnot)
  · exact congrArg Host.Outcome.next (if_pos hnot)
  · exact congrArg Host.Outcome.next (if_pos hnot)

/-! Notices at a home of the module (R119). -/

theorem discardNotice_spec (hmem : isMemory line = true) : ∃ t, exec (.discardNotice die idx line) s = .next t
    ∧ t = { s with vers := t.vers, agenda := s.agenda ++ [.noticeAck die idx 0], out := .done }
    ∧ ∀ x, x ∈ t.vers ↔ x ∈ s.vers ∧ ¬ (x.line = line ∧ x.staged = true ∧ x.side = s.sideOf die idx
      ∧ ∃ q ∈ (s.brec die idx).toList, q.bid = x.bid) := by
  have hnot : ¬ (!isMemory line) = true := by rw [hmem]; exact Bool.false_ne_true
  refine ⟨_, congrArg Host.Outcome.next (if_neg hnot), rfl, fun x => ?_⟩
  refine List.mem_filter.trans (and_congr_right fun _ => ?_)
  cases s.brec die idx with
  | none => simp
  | some r =>
    rw [Bool.not_eq_true', Bool.eq_false_iff, ne_eq, Bool.and_eq_true, Bool.and_eq_true, Bool.and_eq_true, beq_iff_eq, beq_iff_eq, and_assoc,
      and_assoc, Option.any_some, beq_iff_eq, Option.toList_some]
    simp only [List.mem_singleton, exists_eq_left]

theorem forgetNotice_spec (hmem : isMemory line = true) : ∃ t, exec (.forgetNotice die idx line) s = .next t
    ∧ t = { s with vers := t.vers, side := t.side, agenda := s.agenda ++ [.noticeAck die idx 0], out := .done }
    ∧ t.side' line = (if s.side' line = s.sideOf die idx then s.side' line &&& ~~~1 else s.side' line)
    ∧ ∀ n, n ≠ line → t.side' n = s.side' n := by
  have hnot : ¬ (!isMemory line) = true := by rw [hmem]; exact Bool.false_ne_true
  have hside : ∀ n, ((s.forget line (s.sideOf die idx)).push [.noticeAck die idx 0]).done.side' n
      = (if s.side' line = s.sideOf die idx then s.side.put line (forgotten (s.sideOf die idx) (s.sideOf die idx)) else s.side).get n 0 := fun n => rfl
  refine ⟨_, congrArg Host.Outcome.next (if_neg hnot), rfl, ?_, fun n hn => ?_⟩
  · rw [hside]
    split
    next hnamed => rw [Tab.get_put_same, forgotten, if_pos rfl, hnamed]
    next => rfl
  · rw [hside]
    split
    · exact Tab.get_put_other _ hn _ _
    · rfl

/-! NOTICE_ACK (R120). -/

/-- A record once a notice has been acknowledged, `n` still to come. -/
def ackedRec (now lend n : Nat) (r : BRec) : BRec := { r with outstanding := n, ackt := now, lend := max r.lend lend }

/-- The BCLOSE of a bundle all of whose homes have answered goes on. -/
def completeCloser (s : State) (r : BRec) (lend : Nat) : State :=
  match r.closer with
  | some id => (s.modFlight id fun f => { f with lines := r.lines, y := max r.lend lend }).push [.bcloseComplete id]
  | none => s

theorem completeCloser_eq (s : State) (r : BRec) (lend : Nat) :
    ∃ fl ag, s.completeCloser r lend = { s with flights := fl, agenda := ag } ∧ ∀ n, r.closer = some n → .bcloseComplete n ∈ ag := by
  rw [completeCloser]
  split
  next id hcloser =>
    have hlast : ∀ n, r.closer = some n → .bcloseComplete n ∈ s.agenda ++ [.bcloseComplete id] := fun n hn => by
      rw [Option.some.inj (hcloser.symm.trans hn)]
      exact List.mem_append_right _ (List.mem_singleton_self _)
    rw [modFlight]
    split
    · exact ⟨_, _, rfl, hlast⟩
    · exact ⟨s.flights, _, rfl, hlast⟩
  next hcloser => exact ⟨s.flights, s.agenda, rfl, fun n hn => absurd (hcloser.symm.trans hn) (by simp)⟩

/-- A record whose notices are all acknowledged: it is let go of by its closer, and FREE if it has aborted or been forgotten. -/
def settleRec (s : State) (die idx : Nat) (r : BRec) (lend : Nat) : State :=
  let s := (s.completeCloser r lend).modBrec die idx fun r => { r with closer := none }
  if r.st = 4 || r.forgetting then s.freeRec die idx else s

theorem exec_noticeAck (hrec : s.brec die idx = some r) : exec (.noticeAck die idx lend) s = .next
    (if r.outstanding - 1 ≠ 0 then (s.modBrec die idx (ackedRec (s.now die) lend (r.outstanding - 1))).done
      else ((s.modBrec die idx (ackedRec (s.now die) lend (r.outstanding - 1))).settleRec die idx r lend).done) := by
  change execNoticeAck die idx lend s = _
  rw [execNoticeAck, hrec]
  dsimp only
  refine congrArg Host.Outcome.next (ite_congr rfl (fun _ => rfl) fun _ => ?_)
  rw [settleRec, completeCloser]
  split <;> rfl

theorem settleRec_spec (hrec : s.brec die idx = some r) (r₀ : BRec) (lend : Nat) :
    (s.settleRec die idx r₀ lend).warps = s.warps ∧ (∀ n, r₀.closer = some n → .bcloseComplete n ∈ (s.settleRec die idx r₀ lend).agenda)
      ∧ (r₀.st = 4 ∨ r₀.forgetting = true → (s.settleRec die idx r₀ lend).brec die idx = none)
      ∧ (r₀.st = 3 → r₀.forgetting = false → (s.settleRec die idx r₀ lend).brec die idx = some { r with closer := none }) := by
  obtain ⟨fl, ag, hclosed, hcloser⟩ := s.completeCloser_eq r₀ lend
  have hkept : (({ s with flights := fl, agenda := ag } : State).modBrec die idx fun r => { r with closer := none }).brec die idx
      = some { r with closer := none } := brec_modBrec (by exact hrec) (fun _ => rfl) fun _ => rfl
  rw [settleRec, hclosed]
  split
  next hover =>
    refine ⟨congrArg Beyond.warps (beyond_freeRec _ die idx), fun n hn => agenda_freeRec_subset _ die idx (hcloser n hn),
      fun _ => brec_freeRec _ die idx, fun hst hforget => ?_⟩
    rw [hst, hforget] at hover
    exact absurd hover (by decide)
  next hstays =>
    rw [Bool.or_eq_true, decide_eq_true_iff] at hstays
    exact ⟨rfl, hcloser, fun hover => absurd hover hstays, fun _ _ => hkept⟩

theorem noticeAck_spec (hrec : s.brec die idx = some r) : ∃ t, exec (.noticeAck die idx lend) s = .next t ∧ t.out = .done ∧ t.warps = s.warps
    ∧ (r.outstanding - 1 ≠ 0 → t.agenda = s.agenda
      ∧ t.brec die idx = some { r with outstanding := r.outstanding - 1, ackt := s.now die, lend := max r.lend lend })
    ∧ (r.outstanding - 1 = 0 → (∀ n, r.closer = some n → .bcloseComplete n ∈ t.agenda)
      ∧ (r.st = 4 ∨ r.forgetting = true → t.brec die idx = none)
      ∧ (r.st = 3 → r.forgetting = false → ∃ q, t.brec die idx = some q ∧ q.outstanding = 0 ∧ q.st = 3)) := by
  have hacked : (s.modBrec die idx (ackedRec (s.now die) lend (r.outstanding - 1))).brec die idx
      = some (ackedRec (s.now die) lend (r.outstanding - 1) r) := brec_modBrec hrec (fun _ => rfl) fun _ => rfl
  have hexec := exec_noticeAck (lend := lend) hrec
  by_cases hlast : r.outstanding - 1 = 0
  · obtain ⟨hwarps, hcloser, hover, hkept⟩ := settleRec_spec hacked r lend
    rw [if_neg (not_not_intro hlast)] at hexec
    exact ⟨_, hexec, rfl, hwarps, fun hmore => absurd hlast hmore, fun _ => ⟨hcloser, hover, fun hst hforget =>
      ⟨_, hkept hst hforget, hlast, hst⟩⟩⟩
  · rw [if_pos hlast] at hexec
    exact ⟨_, hexec, rfl, rfl, fun _ => ⟨rfl, hacked⟩, fun hzero => absurd hzero hlast⟩

/-! FORGET_HORIZON_EXPIRY (R120). -/

theorem forgetHorizonExpiry_spec (hrec : s.brec die idx = some r) (hst : r.st = 3) (hout : r.outstanding = 0) (hforget : r.forgetting = false)
    (hpast : r.ackt + 1000 * (s.die die).hor < s.now die) : ∃ t, exec (.forgetHorizonExpiry die idx) s = .next t
      ∧ t = { s with brecs := t.brecs, agenda := s.agenda ++ r.lines.map (.forgetNotice die idx ·), out := .done }
      ∧ t.brec die idx = some { r with forgetting := true, outstanding := r.lines.length } := by
  have hdue : (decide (r.st = 3) && decide (r.outstanding = 0) && !r.forgetting && decide (r.ackt + 1000 * (s.die die).hor < s.now die)) = true := by
    rw [hst, hout, hforget, decide_eq_true hpast]
    rfl
  refine ⟨((s.modBrec die idx fun r => { r with forgetting := true, outstanding := r.lines.length }).push
    (r.lines.map (.forgetNotice die idx ·))).done, ?_, rfl, brec_modBrec hrec (fun _ => rfl) fun _ => rfl⟩
  change execForgetHorizonExpiry die idx s = _
  rw [execForgetHorizonExpiry, hrec]
  exact congrArg Host.Outcome.next (if_pos hdue)

/-! BCLOSE_COMPLETE (R124). -/

/-- A die's copies of a line go where the line is of another die's homes, and only copies go. -/
theorem ackClears_l1 (s : State) (die line : Nat) : ∃ l1 rdc, s.ackClears die line = { s with l1 := l1, rdc := rdc }
    ∧ ∀ x ∈ l1, x ∈ s.l1 ∧ (x.line = line → homeDie line ≠ die → dieOf x.core ≠ die) := by
  have hdrop : ∀ x ∈ s.l1.filter (fun x => !(x.line == line && dieOf x.core == die)),
      x ∈ s.l1 ∧ (x.line = line → homeDie line ≠ die → dieOf x.core ≠ die) := fun x hx => by
    obtain ⟨hmem, hkept⟩ := List.mem_filter.mp hx
    refine ⟨hmem, fun hline _ hdie => ?_⟩
    rw [hline, hdie, beq_self_eq_true, beq_self_eq_true] at hkept
    exact Bool.false_ne_true hkept
  rw [ackClears]
  split
  next hhome => exact ⟨s.l1, s.rdc, rfl, fun x hx => ⟨hx, fun _ hother => absurd hhome.symm hother⟩⟩
  next =>
    cases hrdc : s.rdcLine die line with
    | none => exact ⟨_, s.rdc, rfl, hdrop⟩
    | some y =>
      dsimp only
      split
      · exact ⟨_, _, rfl, hdrop⟩
      · exact ⟨_, s.rdc, rfl, hdrop⟩

/-- The copies a die has of the lines of a bundle go as its BCLOSE completes (R124). -/
def clearLines (s : State) (die : Nat) (lines : List Nat) : State :=
  lines.foldl (fun (s : State) l => if isMemory l then s.ackClears die l else s) s

theorem clearLines_eq (die : Nat) (lines : List Nat) (s : State) : ∃ l1 rdc, s.clearLines die lines = { s with l1 := l1, rdc := rdc }
    ∧ ∀ x ∈ l1, x ∈ s.l1 ∧ (x.line ∈ lines → isMemory x.line = true → homeDie x.line ≠ die → dieOf x.core ≠ die) := by
  induction lines generalizing s with
  | nil => exact ⟨s.l1, s.rdc, rfl, fun x hx => ⟨hx, fun h => absurd h List.not_mem_nil⟩⟩
  | cons l lines ih =>
    have hone : ∃ l1 rdc, (if isMemory l then s.ackClears die l else s) = { s with l1 := l1, rdc := rdc }
        ∧ ∀ x ∈ l1, x ∈ s.l1 ∧ (x.line = l → isMemory l = true → homeDie l ≠ die → dieOf x.core ≠ die) := by
      split
      · obtain ⟨l1, rdc, hclear, hl1⟩ := s.ackClears_l1 die l
        exact ⟨l1, rdc, hclear, fun x hx => ⟨(hl1 x hx).1, fun hline _ => (hl1 x hx).2 hline⟩⟩
      next hpeer => exact ⟨s.l1, s.rdc, rfl, fun x hx => ⟨hx, fun _ hmem => absurd hmem hpeer⟩⟩
    obtain ⟨l1, rdc, hfirst, hl1⟩ := hone
    obtain ⟨l1', rdc', hrest, hl1'⟩ := ih { s with l1 := l1, rdc := rdc }
    refine ⟨l1', rdc', ?_, fun x hx => ?_⟩
    · rw [clearLines, List.foldl_cons, hfirst]
      exact hrest
    · obtain ⟨hkept, hothers⟩ := hl1' x hx
      obtain ⟨hbefore, hthis⟩ := hl1 x hkept
      refine ⟨hbefore, fun hline => ?_⟩
      rcases List.mem_cons.mp hline with heq | hlater
      · rw [heq]
        exact hthis heq
      · exact hothers hlater

/-- A core meets the lease end of a flight, and so does the block of the flight if it is out (R174). -/
def meetLease (s : State) (f : Flight) : State :=
  let s := s.modCore f.core (Core.met f.y)
  if f.landing then s.modBlock f.blk fun b => { b with leasemax := max b.leasemax f.y } else s

theorem meetLease_eq (s : State) (f : Flight) :
    ∃ bs, s.meetLease f = { s.modCore f.core (Core.met f.y) with blocks := bs } := by
  rw [meetLease]
  split
  · exact ⟨_, rfl⟩
  · exact ⟨s.blocks, rfl⟩

theorem exec_bcloseComplete (h : s.flights.get? id = some f) :
    exec (.bcloseComplete id) s = .next (((s.clearLines f.die f.lines).meetLease f).push [.storeAck id]).done := by
  change execBcloseComplete id s = _
  rw [execBcloseComplete, h]
  rfl

theorem bcloseComplete_spec (h : s.flights.get? id = some f) : ∃ t, exec (.bcloseComplete id) s = .next t ∧ t.out = .done ∧ t.warps = s.warps
    ∧ s.sameBytes t ∧ t.agenda = s.agenda ++ [.storeAck id] ∧ (t.core f.core).leasemax = max (s.core f.core).leasemax f.y
    ∧ ∀ x ∈ t.l1, x.line ∈ f.lines → isMemory x.line = true → homeDie x.line ≠ f.die → dieOf x.core ≠ f.die := by
  have hexec := exec_bcloseComplete h
  obtain ⟨l1, rdc, hclear, hl1⟩ := clearLines_eq f.die f.lines s
  obtain ⟨bs, hmet⟩ := ({ s with l1 := l1, rdc := rdc } : State).meetLease_eq f
  rw [hclear, hmet] at hexec
  exact ⟨_, hexec, rfl, rfl, sameBytes_modCore (s := { s with l1 := l1, rdc := rdc }) f.core (Core.met f.y) fun _ => rfl,
    rfl, congrArg Core.leasemax (core_modCore (s := { s with l1 := l1, rdc := rdc }) f.core (Core.met f.y)), fun x hx => (hl1 x hx).2⟩

end State

/-- Settles O32: the commit by its three outcomes, then each notice and acknowledgment by what it does at its home. -/
theorem bundleCommit : Obligations.BundleCommit := by
  refine ⟨fun s die idx id r f => ⟨fun hrec hleft hcloser h hreleased => ⟨?_, ?_, ?_⟩, ?_⟩,
    fun s die idx line id lend v r f => ⟨?_, ?_, ?_, ?_, ?_, ?_, ?_⟩⟩
  · exact State.commitRequest_lists hrec hleft hcloser h hreleased
  · exact State.commitRequest_commits hrec hleft hcloser h hreleased
  · exact State.commitRequest_aborts hrec hleft hcloser h hreleased
  · exact fun h hslot hscalar hdst hwidth hreqs haccs _ => State.commitAnswer_spec h hslot hscalar hdst hwidth hreqs haccs
  · exact fun ev hev hrec hv hside hbid hmem hlive hdiag hfree hst hresv hslice =>
      State.promotion_spec hrec hv hside hbid hmem hlive hdiag hfree hst hresv hslice ev hev
  · intro e he hpeer
    refine ⟨s.bnotes die idx e.2 line, (State.exec_notice_of_peer hpeer e he).trans (congrArg Host.Outcome.next (s.peerNotice_eq die idx e.2 line)), ?_⟩
    rw [State.bnotes]
    split
    next ctl a hwindow => exact ⟨_, by rw [hwindow]; rfl, rfl, rfl, rfl, rfl, rfl, rfl⟩
    next hclosed => rw [hclosed]; rfl
  · exact State.discardNotice_spec
  · exact State.forgetNotice_spec
  · exact State.noticeAck_spec
  · exact State.bcloseComplete_spec
  · exact State.forgetHorizonExpiry_spec

end Sys2Proof.Machine
end
